-- ==== Sys2Proof/Word.lean ====
section
/-! DEFINITION. The word types of the GH960's registers and memories, and little-endian byte order (00 R4). -/

namespace Sys2Proof

/-- One byte of memory. -/
abbrev Byte := BitVec 8
/-- A 16-bit field. -/
abbrev Half := BitVec 16
/-- A 32-bit lane or register. -/
abbrev Word := BitVec 32
/-- A 64-bit scalar or record word. -/
abbrev DWord := BitVec 64

end Sys2Proof
end

