-- ==== Sys2Proof/Syntax.lean ====
section
/-! DEFINITION. The commands the block takes, one constructor for each row of spec/opcode_table.json, and the operand fields of
the bundle slots (04). -/

namespace Sys2Proof

/-- A logical core number (01 R16). -/
abbrev CoreId := BitVec 9
/-- A queue of a core (05 R101). -/
abbrev QueueId := BitVec 2

/-- The fields of STEP and STEPZ (04 Table BDL-4). -/
structure StepF where
  pred : BitVec 3
  pneg : Bool
  acc : BitVec 4
  fmta : BitVec 4
  fmtb : BitVec 4
  areg : BitVec 4
  aoff : BitVec 19
  ainc : Bool
  awin : Bool
  bsrc : BitVec 2
  breg : BitVec 4
  boff : BitVec 19
  binc : Bool
  toffa : BitVec 8
  toffb : BitVec 8
  deriving DecidableEq, Repr

/-- The fields of DRAIN and DRAINZ (04 R83). -/
structure DrainF where
  pred : BitVec 3
  pneg : Bool
  acc : BitVec 4
  vd : BitVec 6
  deriving DecidableEq, Repr

/-- The fields of SOPEN (04 Table BDL-6). -/
structure SopenF where
  pred : BitVec 3
  pneg : Bool
  ctx : Bool
  lw : Bool
  fmtb : BitVec 4
  sbase : BitVec 5
  splane : BitVec 5
  j : BitVec 20
  deriving DecidableEq, Repr

/-- The fields of a VEC0 or VEC1 operation (04 Table BDL-7); `vec1` names the unit. -/
structure VecF where
  vec1 : Bool
  pred : BitVec 3
  pneg : Bool
  vd : BitVec 6
  va : BitVec 6
  vb : BitVec 6
  vc : BitVec 6
  fmt : BitVec 4
  fmt2 : BitVec 4
  rnd : BitVec 2
  sat : Bool
  bmem : Bool
  imm : BitVec 16
  deriving DecidableEq, Repr

/-- The fields of an SFU operation (04 Table BDL-9). -/
structure SfuF where
  pred : BitVec 3
  pneg : Bool
  vd : BitVec 6
  va : BitVec 6
  vb : BitVec 6
  qtr : BitVec 2
  deriving DecidableEq, Repr

/-- The fields of an SCA0 or SCA1 operation (04 Table BDL-11); RB of the R form is bits [11:7] of `imm`. -/
structure ScaF where
  sca1 : Bool
  pred : BitVec 3
  pneg : Bool
  rd : BitVec 5
  ra : BitVec 5
  imm : BitVec 12
  deriving DecidableEq, Repr

/-- The fields of a MEM operation (04 Table BDL-13). -/
structure MemF where
  pred : BitVec 3
  pneg : Bool
  reg : BitVec 6
  areg : BitVec 4
  addr : BitVec 23
  size : BitVec 6
  stride : BitVec 12
  deriving DecidableEq, Repr

/-- The fields of a CTL operation (04 R94): bits [21:0] as Table BDL-15 gives them. -/
structure CtlF where
  pred : BitVec 3
  pneg : Bool
  bits : BitVec 22
  deriving DecidableEq, Repr

/-- A calibration window (11 Table CLP-2): of a sub-channel, of a reservoir channel, of a bridge direction. -/
inductive WinId where
  | cist (core : BitVec 9) (layer : BitVec 2)
  | rsv (k : BitVec 3) (ch : BitVec 5)
  | bridge (d : BitVec 1)
  deriving DecidableEq, Repr

/-- A control message of a frame header (12 Table LNK-2). The contexts are those of the end named there; a CANCEL before any cell
was sent names no last SEQ; `tx` of a lane plan says that it is for the direction its receiver transmits. -/
inductive LinkMsg where
  | admitReq (sctx rctx : BitVec 15) (tag : BitVec 32) (bytes : Nat) (rate : BitVec 10) (start : BitVec 58)
  | admitGrant (sctx : BitVec 15) (epoch : BitVec 8)
  | admitRefuse (sctx : BitVec 15) (reason : Nat)
  | cancel (rctx : BitVec 15) (epoch : BitVec 8) (last : Option (BitVec 32))
  | streamReset (ctx : BitVec 15) (epoch : BitVec 8) (cause : Nat)
  | close (sctx : BitVec 15) (epoch : BitVec 8) (bytes : Nat)
  | peerReset (warm : Bool)
  | lanePlan (tx : Bool) (map : List Nat) (width : Nat) (turn : BitVec 32)
  deriving DecidableEq, Repr

/-- A cell (12 R259). -/
structure Cell where
  ctx : BitVec 15
  epoch : BitVec 8
  bytes : BitVec 10
  last : Bool
  seq : BitVec 32
  data : List (BitVec 8)
  deriving DecidableEq, Repr

/-- A frame header (12 R259) with its messages by number (R261). -/
structure FrameHdr where
  turn : BitVec 32
  tickLo : BitVec 16
  fidx : BitVec 5
  width : BitVec 5
  node : BitVec 6
  link : BitVec 5
  locked : Bool
  laneFail : BitVec 22
  msgs : List (BitVec 16 × LinkMsg)
  deriving DecidableEq, Repr

/-- What the thermal and power controller measures at a sample (16 R351, R352, R362): the two diodes of each twin site (the spare
counts as the diode whose place it took), the core diodes, the power of each cluster and of each reservoir base die in W, the mean
input power in W and the input voltage in 1/256 V. Temperatures are in 0.125 °C. -/
structure SampleIn where
  sites : List (Int × Int)
  cores : List Int
  clusterW : List Nat
  rsvW : List Nat
  inputW : Nat
  vin : Nat
  deriving DecidableEq, Repr

/-- Board configuration (15 Table BUP-3, S1): what it supplies to registers, the node number and the tray targets (11 R251;
12 R280; 16 R360, R373; 17 R389). -/
structure Board where
  cadDelay : BitVec 10
  turnEvt : Bool
  uncertThresh : BitVec 20
  peerResetEn : Bool
  node : Option (BitVec 6)
  injectEn : Bool
  fillEn : Bool
  idleSlots : BitVec 16
  tray : List Nat
  deriving DecidableEq, Repr

/-- What a stage finds (15 R331 to R340): its duration, whether flash reads without an uncorrectable error (S0), the board
configuration if it answers within its time (S1), the dies whose clocks work and whether pulses arrive within 1 ms (S2), whether a
write of the record reads back (S6), and the elements its tests find failing, by class and element (Table BUP-7). -/
structure StageIn where
  durationMs : Nat
  flashOk : Bool
  board : Option Board
  dies : BitVec 2
  pulses : Bool
  readback : Bool
  found : List (BitVec 8 × BitVec 32)
  deriving DecidableEq, Repr

/-- A PCI Express configuration write (13 R282). -/
inductive CfgWrite where
  | bar2Size (log2 : BitVec 6)
  | bar0 (addr : BitVec 64)
  | bar2 (addr : BitVec 64)
  | deviceControl (relaxed : Bool) (maxPayload maxRead : BitVec 3)
  | msixControl (enable mask : Bool)
  deriving DecidableEq, Repr

/-- Who makes a register access (01 R21; 14 R322). -/
inductive Origin where
  | host
  | sbm (addr : BitVec 7)
  | jtag
  deriving DecidableEq, Repr

/-- The outcome of a host's read of host memory as the hub sees it (13 R292, R303): the data, an unsuccessful or poisoned
completion. -/
inductive HostData where
  | ok (bs : List (BitVec 8))
  | failed
  deriving DecidableEq, Repr

/-- A tray reading (16 R360, R361): a sensor that does not answer gives none. Temperatures in 0.125 °C, flow in 1/256 L/min. -/
structure TrayIn where
  inlet : Option Int
  outlet : Option Int
  flow : Option Nat
  deriving DecidableEq, Repr

/-- What a reset contact does (15 R327, R328): it goes low and stays low, it is released, or it is low for so many nanoseconds. -/
inductive PinEvt where
  | low
  | high
  | pulse (ns : Nat)
  deriving DecidableEq, Repr

/-- The commands of the GH960 model: one constructor for each row of the table of operations and events, each taking the row's
operands. The rule named is the row's own. -/
inductive Instr where
  /-- R73: The core fetches and issues one bundle in an executed cycle, starts its present slot operations, and then waits out
  the header's IDLE cycles. -/
  | bundleIssue (core : CoreId)
  /-- R76: The result of an operation becomes visible at issue plus its latency, and the sticky flags it raised are set. -/
  | resultVisible (core : CoreId)
  /-- R49: A cube step's products are added into each accumulator element at t + U + r + n + k, with the element's flags set as
  it lands. -/
  | stepLand (core : CoreId)
  /-- R84: The CUBE slot issues a skewed step that adds A times B into an accumulator, with optional post-increments. -/
  | step (core : CoreId) (f : StepF)
  /-- R84: The CUBE slot issues a step that overwrites the accumulator with the step's sum. -/
  | stepz (core : CoreId) (f : StepF)
  /-- R86: The CUBE slot reads an accumulator of all eight cubes into two v registers. -/
  | drain (core : CoreId) (f : DrainF)
  /-- R86: DRAINZ drains an accumulator into two v registers and zeroes each element as it reads it. -/
  | drainz (core : CoreId) (f : DrainF)
  /-- R87: SOPEN opens a cistern stream context with its base, plane, line size and step count. -/
  | sopen (core : CoreId) (f : SopenF)
  /-- R55: A stream line fetched from the cistern arrives in the feeder buffer, which ends any hold waiting for it. -/
  | streamLineFill (core : CoreId) (ctx : Bool) (line : BitVec 21)
  /-- R56: A feeder hold that outlasts LIMIT_TICKS ends; the missing units are delivered as zero and the queue halts. -/
  | coreFeedTimeout (core : CoreId)
  /-- R88: Performs an FP32 add in each lane. -/
  | vadd (core : CoreId) (f : VecF)
  /-- R88: Performs an FP32 subtract in each lane. -/
  | vsub (core : CoreId) (f : VecF)
  /-- R88: Performs an FP32 multiply in each lane. -/
  | vmul (core : CoreId) (f : VecF)
  /-- R88: Performs an FP32 fused multiply-add with one rounding in each lane. -/
  | vfma (core : CoreId) (f : VecF)
  /-- R88: Takes the FP32 maximum in each lane. -/
  | vmax (core : CoreId) (f : VecF)
  /-- R88: Takes the FP32 minimum in each lane. -/
  | vmin (core : CoreId) (f : VecF)
  /-- R88: Takes the FP32 absolute value in each lane. -/
  | vabs (core : CoreId) (f : VecF)
  /-- R88: Negates the FP32 value in each lane. -/
  | vneg (core : CoreId) (f : VecF)
  /-- R88: Performs a packed 16-bit add. -/
  | vhadd (core : CoreId) (f : VecF)
  /-- R88: Performs a packed 16-bit multiply. -/
  | vhmul (core : CoreId) (f : VecF)
  /-- R88: Performs a packed 16-bit fused multiply-add. -/
  | vhfma (core : CoreId) (f : VecF)
  /-- R88: Performs a wrapping 32-bit integer add. -/
  | viadd (core : CoreId) (f : VecF)
  /-- R88: Performs a wrapping 32-bit integer subtract. -/
  | visub (core : CoreId) (f : VecF)
  /-- R88: Performs a saturating signed 32-bit add. -/
  | viadds (core : CoreId) (f : VecF)
  /-- R88: Takes the low 32 bits of an integer multiply. -/
  | vimul (core : CoreId) (f : VecF)
  /-- R88: Performs a bitwise AND in each lane. -/
  | vand (core : CoreId) (f : VecF)
  /-- R88: Performs a bitwise OR in each lane. -/
  | vor (core : CoreId) (f : VecF)
  /-- R88: Performs a bitwise XOR in each lane. -/
  | vxor (core : CoreId) (f : VecF)
  /-- R88: Shifts each lane left. -/
  | vshl (core : CoreId) (f : VecF)
  /-- R88: Shifts each lane right logically. -/
  | vshr (core : CoreId) (f : VecF)
  /-- R88: Shifts each lane right arithmetically. -/
  | vsra (core : CoreId) (f : VecF)
  /-- R88: Compares for equality into a predicate register. -/
  | vcmpeq (core : CoreId) (f : VecF)
  /-- R88: Compares for less-than into a predicate register. -/
  | vcmplt (core : CoreId) (f : VecF)
  /-- R88: Compares for less-or-equal into a predicate register. -/
  | vcmple (core : CoreId) (f : VecF)
  /-- R88: Selects per lane between two sources by a predicate. -/
  | vsel (core : CoreId) (f : VecF)
  /-- R88: Copies a v register. -/
  | vmov (core : CoreId) (f : VecF)
  /-- R88: Broadcasts the low 32 bits of an s register to every lane. -/
  | vbcast (core : CoreId) (f : VecF)
  /-- R88: Permutes lanes by an index vector. -/
  | vperm (core : CoreId) (f : VecF)
  /-- R88: Writes the FP32 sum of each lane group to every lane of the group. -/
  | vrsum (core : CoreId) (f : VecF)
  /-- R88: Writes the FP32 maximum of each lane group to every lane of the group. -/
  | vrmax (core : CoreId) (f : VecF)
  /-- R88: Computes an FP32 inclusive prefix sum within each lane group. -/
  | vscan (core : CoreId) (f : VecF)
  /-- R90: Converts one part of 256 elements between formats by the selected rounding mode. -/
  | vcvt (core : CoreId) (f : VecF)
  /-- R91: The SFU computes reciprocals for one quarter of the lanes. -/
  | rcp (core : CoreId) (f : SfuF)
  /-- R91: The SFU computes reciprocal square roots. -/
  | rsqrt (core : CoreId) (f : SfuF)
  /-- R91: The SFU computes exp. -/
  | expOp (core : CoreId) (f : SfuF)
  /-- R91: The SFU computes exp2. -/
  | exp2 (core : CoreId) (f : SfuF)
  /-- R91: The SFU computes log. -/
  | logOp (core : CoreId) (f : SfuF)
  /-- R91: The SFU computes log2. -/
  | log2 (core : CoreId) (f : SfuF)
  /-- R91: The SFU computes tanh. -/
  | tanh (core : CoreId) (f : SfuF)
  /-- R91: The SFU computes the sigmoid. -/
  | sigm (core : CoreId) (f : SfuF)
  /-- R91: The SFU computes sin. -/
  | sin (core : CoreId) (f : SfuF)
  /-- R91: The SFU computes cos. -/
  | cos (core : CoreId) (f : SfuF)
  /-- R91: The SFU computes exp(a - b). -/
  | expd (core : CoreId) (f : SfuF)
  /-- R92: Adds two 64-bit scalars. -/
  | add (core : CoreId) (f : ScaF)
  /-- R92: Subtracts two 64-bit scalars. -/
  | sub (core : CoreId) (f : ScaF)
  /-- R92: Adds a sign-extended immediate to a scalar. -/
  | addi (core : CoreId) (f : ScaF)
  /-- R92: Shifts a scalar left by 12 and ORs in an immediate. -/
  | shin (core : CoreId) (f : ScaF)
  /-- R92: Performs a bitwise AND of two scalars. -/
  | andOp (core : CoreId) (f : ScaF)
  /-- R92: Performs a bitwise OR of two scalars. -/
  | orOp (core : CoreId) (f : ScaF)
  /-- R92: Performs a bitwise XOR of two scalars. -/
  | xorOp (core : CoreId) (f : ScaF)
  /-- R92: Shifts a scalar left by a register amount. -/
  | shl (core : CoreId) (f : ScaF)
  /-- R92: Shifts a scalar right logically by a register amount. -/
  | shr (core : CoreId) (f : ScaF)
  /-- R92: Shifts a scalar right arithmetically by a register amount. -/
  | sra (core : CoreId) (f : ScaF)
  /-- R92: Shifts a scalar left by an immediate amount. -/
  | shli (core : CoreId) (f : ScaF)
  /-- R92: Shifts a scalar right by an immediate amount. -/
  | shri (core : CoreId) (f : ScaF)
  /-- R92: Takes the low 64 bits of a scalar product. -/
  | mul (core : CoreId) (f : ScaF)
  /-- R92: Compares scalars for equality into a predicate register. -/
  | cmpeq (core : CoreId) (f : ScaF)
  /-- R92: Compares scalars, signed less-than, into a predicate register. -/
  | cmplt (core : CoreId) (f : ScaF)
  /-- R92: Compares scalars, unsigned less-than, into a predicate register. -/
  | cmpltu (core : CoreId) (f : ScaF)
  /-- R92: Adds a scaled immediate to an address register. -/
  | aaddi (core : CoreId) (f : ScaF)
  /-- R92: Moves a scalar into an address register. -/
  | amov (core : CoreId) (f : ScaF)
  /-- R92: Moves an address register into a scalar. -/
  | smova (core : CoreId) (f : ScaF)
  /-- R92: Reads one lane of a v register into a scalar. -/
  | getv (core : CoreId) (f : ScaF)
  /-- R92: Reads the sticky flags into a scalar. -/
  | getf (core : CoreId) (f : ScaF)
  /-- R92: Reads a loop counter into a scalar. -/
  | getlc (core : CoreId) (f : ScaF)
  /-- R92: Reads the clepsydra tick counter into a scalar. -/
  | gett (core : CoreId) (f : ScaF)
  /-- R93: Loads strided 16-byte words from the scratchpad into a v register. -/
  | vld (core : CoreId) (f : MemF)
  /-- R93: Stores a v register to strided 16-byte words of the scratchpad. -/
  | vst (core : CoreId) (f : MemF)
  /-- R93: Loads a scalar from the scratchpad. -/
  | sld (core : CoreId) (f : MemF)
  /-- R93: Stores a scalar to the scratchpad. -/
  | sst (core : CoreId) (f : MemF)
  /-- R93: Loads an address register from the scratchpad. -/
  | ald (core : CoreId) (f : MemF)
  /-- R93: Stores an address register to the scratchpad. -/
  | ast (core : CoreId) (f : MemF)
  /-- R93: Loads a predicate register from the scratchpad. -/
  | pld (core : CoreId) (f : MemF)
  /-- R93: Stores a predicate register to the scratchpad. -/
  | pst (core : CoreId) (f : MemF)
  /-- R95: Branches to a relative target, with fetch redirected at t + 3. -/
  | br (core : CoreId) (f : CtlF)
  /-- R95: Branches to a relative target and writes the link address. -/
  | brl (core : CoreId) (f : CtlF)
  /-- R95: Branches to the address held in a scalar register. -/
  | bri (core : CoreId) (f : CtlF)
  /-- R96: Opens a hardware loop, or skips its body when the count is 0. -/
  | loop (core : CoreId) (f : CtlF)
  /-- R96: Pops the innermost open loop. -/
  | loopx (core : CoreId) (f : CtlF)
  /-- R97: Makes its bundle the RUN's last bundle. -/
  | endRun (core : CoreId) (f : CtlF)
  /-- R99: Clears the masked sticky flags in the next cycle. -/
  | clrf (core : CoreId) (f : CtlF)
  /-- R94: Raises CORE_SW_TRAP and records the trap code. -/
  | trap (core : CoreId) (f : CtlF)
  /-- R97: The RUN completes after its last result lands; loops and stream contexts close, and the next ready RUN may start. -/
  | runComplete (core : CoreId)
  /-- R61: An asynchronous port (DMA, network ingress or host BAR2) reads or writes a scratchpad bank word in a cycle left free
  by the cycle-counted ports. -/
  | asyncScratchpadAccess (core : CoreId) (wr : Bool) (off : BitVec 23) (data : BitVec 128)
  /-- R61: After a bank has refused asynchronous ports for 64 consecutive cycles, the oldest waiting asynchronous access takes
  the bank and holds the core. -/
  | asyncBankForce (core : CoreId) (bank : BitVec 7)
  /-- R109: The RUN queue command loads its arguments and window configuration and starts bundle execution at START_PC. -/
  | runCmd (core : CoreId) (q : QueueId)
  /-- R109: A RUN not complete when the tick counter reaches its issue tick plus LIMIT stops with QUE_RUN_TIMEOUT. -/
  | queRunTimeout (core : CoreId)
  /-- R114: A DMA command in COPY mode moves a tensor slice between plain or paged descriptors, converting formats if they
  differ. -/
  | copy (core : CoreId) (q : QueueId)
  /-- R115: A DMA command in CASCADE mode writes a plain tensor into a cascade A or B region, together with its plane bytes. -/
  | cascade (core : CoreId) (q : QueueId)
  /-- R116: A DMA command in GATHER mode expands a window input into a plain tensor. -/
  | gather (core : CoreId) (q : QueueId)
  /-- R114: A DMA command in FILL mode fills a plain destination with a converted FP32 value. -/
  | fill (core : CoreId) (q : QueueId)
  /-- R102: A DMA command completes once every destination write is visible, and it signals its flag if SIG is set. -/
  | dmaComplete (core : CoreId) (ch : BitVec 4)
  /-- R105: A queue fetches up to 8 commands ahead of issue, halting on an unmapped or uncorrectable fetch. -/
  | commandFetch (core : CoreId) (q : QueueId)
  /-- R120: FLAG_SET with FOP 0 sets a flag to VALUE at its home. -/
  | flagSet (core : CoreId) (q : QueueId)
  /-- R120: FLAG_SET with FOP 1 adds VALUE to a flag at its home, with wrap-around. -/
  | flagAdd (core : CoreId) (q : QueueId)
  /-- R121: Registers a wait at the flag's home and holds the queue until the wrapping or equality condition holds. -/
  | flagWait (core : CoreId) (q : QueueId)
  /-- R102: Holds the queue until every earlier command completes, and optionally invalidates the descriptor cache. -/
  | fence (core : CoreId) (q : QueueId)
  /-- R120: An update to a flag arrives at its home and is applied atomically; waits that now hold are completed. -/
  | flagUpdate (part : BitVec 5) (flag : BitVec 12) (nth : BitVec 8)
  /-- R122: At the expiry boundary of a FLAG_WAIT, a final evaluation either completes the wait or halts the queue with a
  record that names the peer. -/
  | queWaitTimeout (core : CoreId) (q : QueueId)
  /-- R129: Writing START to CORE_QCTL discards any suspended RUN, resets PTR, and starts an IDLE or HALTED queue. -/
  | startQueue (core : CoreId) (q : QueueId)
  /-- R106: Writing HALT to CORE_QCTL halts the queue, draining its issued asynchronous commands. -/
  | haltQueue (core : CoreId) (q : QueueId)
  /-- R130: Writing RESUME to CORE_QCTL continues a RUN suspended at a breakpoint. -/
  | resumeRun (core : CoreId) (q : QueueId)
  /-- R130: Writing RESUME with STEP issues exactly one bundle of the suspended RUN and then suspends it again. -/
  | resumeStep (core : CoreId) (q : QueueId)
  /-- R191: A BANK command is checked, accepted into staging, and has its image and vector fetched. -/
  | bank (core : CoreId) (q : QueueId)
  /-- R192: When staging ends, the launch engine orders the launch at each named channel's arbiter. -/
  | bankLaunchOrder (rsv : BitVec 3) (n : Nat)
  /-- R162: Once every request ordered before a launch has been performed, the channel enters processor mode and the bank units
  start. -/
  | channelSwitch (rsv : BitVec 3) (ch : BitVec 5)
  /-- R181: The bank unit loads an immediate into a g register. -/
  | bnkMovi (rsv : BitVec 3) (ch : BitVec 5) (bg : BitVec 3)
  /-- R181: The bank unit adds an immediate to a g register. -/
  | bnkAddi (rsv : BitVec 3) (ch : BitVec 5) (bg : BitVec 3)
  /-- R181: The bank unit adds two g registers. -/
  | bnkAdd (rsv : BitVec 3) (ch : BitVec 5) (bg : BitVec 3)
  /-- R181: The bank unit subtracts two g registers. -/
  | bnkSub (rsv : BitVec 3) (ch : BitVec 5) (bg : BitVec 3)
  /-- R181: The bank unit opens a loop. -/
  | bnkLoop (rsv : BitVec 3) (ch : BitVec 5) (bg : BitVec 3)
  /-- R187: Ends the unit's program. -/
  | bnkEnd (rsv : BitVec 3) (ch : BitVec 5) (bg : BitVec 3)
  /-- R181: Zeroes and untaints a range of accumulators. -/
  | bnkClr (rsv : BitVec 3) (ch : BitVec 5) (bg : BitVec 3)
  /-- R182: Accumulates row dot products of bank lines against the vector buffer. -/
  | bnkMac (rsv : BitVec 3) (ch : BitVec 5) (bg : BitVec 3)
  /-- R182: Performs transposed accumulation of bank rows weighted by vector-buffer codes. -/
  | bnkMact (rsv : BitVec 3) (ch : BitVec 5) (bg : BitVec 3)
  /-- R183: Forms the maximum of FP16 values read from the banks. -/
  | bnkSmax (rsv : BitVec 3) (ch : BitVec 5) (bg : BitVec 3)
  /-- R183: Writes L8 exponential weights to the vector buffer and sums them into an accumulator. -/
  | bnkExpl (rsv : BitVec 3) (ch : BitVec 5) (bg : BitVec 3)
  /-- R184: Writes accumulators to granules, as poison where they are tainted. -/
  | bnkSt (rsv : BitVec 3) (ch : BitVec 5) (bg : BitVec 3)
  /-- R184: Copies granules into the vector buffer and sets or clears segment taint. -/
  | bnkLvb (rsv : BitVec 3) (ch : BitVec 5) (bg : BitVec 3)
  /-- R195: A program still running when P reaches BUDGET_US is stopped on every channel, and the command faults. -/
  | rsvBankBudget (rsv : BitVec 3) (ch : BitVec 5)
  /-- R164: When all units of a channel have ended, the channel returns to memory mode and performs its held requests in order.
  -/
  | channelProgramEnd (rsv : BitVec 3) (ch : BitVec 5)
  /-- R193: The BANK command completes once every channel is back in memory mode and the writes and status record are visible.
  -/
  | bankComplete (n : Nat)
  /-- R201: Adds frames of a reservoir to the partition's attention pool. -/
  | poolAdd (core : CoreId) (q : QueueId) (accept : Bool)
  /-- R202: Opens a sequence context with LEN 0 and an invalid table. -/
  | seqOpen (core : CoreId) (q : QueueId) (accept : Bool)
  /-- R209: Drops every valid entry of a sequence and frees its context. -/
  | seqClose (core : CoreId) (q : QueueId) (accept : Bool)
  /-- R209: Allocates pages, or copies shared ones on write, for new tokens, then raises LEN. -/
  | append (core : CoreId) (q : QueueId) (accept : Bool)
  /-- R209: Points a destination sequence's blocks at a source sequence's pages and raises their reference counts. -/
  | share (core : CoreId) (q : QueueId) (accept : Bool)
  /-- R209: Drops the entries of blocks beyond a new LEN. -/
  | truncate (core : CoreId) (q : QueueId) (accept : Bool)
  /-- R212: Opens a pass, pins its pages, and runs the score read that writes stripe summaries. -/
  | score (core : CoreId) (q : QueueId) (accept : Bool)
  /-- R214: Runs the second read with the normalisation pairs, writes the stripe partials, and closes the pass. -/
  | apply (core : CoreId) (q : QueueId) (accept : Bool)
  /-- R217: Closes a pass and releases its pins. -/
  | abortPass (core : CoreId) (q : QueueId) (accept : Bool)
  /-- R216: When a pass read's launches end in a stripe, the stripe walker combines the unit results and writes the stripe
  outputs. -/
  | passReadEnd (part : BitVec 5) (slot : BitVec 6) (stripe : BitVec 3)
  /-- R217: A pass still open at its opening tick plus LIMIT_TICKS expires; its read stops and its pins are released. -/
  | attPassExpired (part : BitVec 5) (slot : BitVec 6)
  /-- R211: A paged-DMA translation at the home arbiter returns the frame of one block, or faults. -/
  | pagedTranslation (core : CoreId) (ch : BitVec 4)
  /-- R267: Checks a SEND, reserves its rate, and sends ADMIT_REQ. -/
  | send (core : CoreId) (q : QueueId)
  /-- R267: Checks a RECV, arms its context with a new EPOCH, and reserves its spillway. -/
  | recv (core : CoreId) (q : QueueId)
  /-- R269: In each tick the sender serves its streams in START order, sending up to RATE ready cells each. -/
  | sendTick (port : BitVec 5)
  /-- R260: A received frame header whose FCRC passes is acted on: peer state, lane reports and control messages. -/
  | frameHeader (p : BitVec 5) (ok : Bool) (h : FrameHdr)
  /-- R270: A received cell is checked and placed in its stream's spillway, and every burst it completes is committed. -/
  | cellReceive (port : BitVec 5) (corr : List (Nat × Nat)) (bad : Option Nat) (hcrc : Bool) (cell : Option Cell)
  /-- R267: The receiver grants or refuses an admission request, or waits for the context to be armed. -/
  | admitReq (p : BitVec 5) (no : BitVec 16) (sctx : BitVec 15) (rctx : BitVec 15) (tag : BitVec 32) (bytes : Nat) (rate : BitVec 10) (start : BitVec 58)
  /-- R267: The sender's stream is admitted and takes the receiver's EPOCH. -/
  | admitGrant (p : BitVec 5) (no : BitVec 16) (sctx : BitVec 15) (epoch : BitVec 8)
  /-- R267: The SEND faults with LNK_ADMIT_REFUSED and the refusal reason. -/
  | admitRefuse (p : BitVec 5) (no : BitVec 16) (sctx : BitVec 15) (reason : Nat)
  /-- R275: The receiver drains cells up to the last SEQ sent, then ends the stream. -/
  | cancel (p : BitVec 5) (no : BitVec 16) (rctx : BitVec 15) (epoch : BitVec 8) (last : Option (BitVec 32))
  /-- R274: The end that receives it stops the stream at once and faults its command with LNK_STREAM_RESET. -/
  | streamReset (p : BitVec 5) (no : BitVec 16) (ctx : BitVec 15) (epoch : BitVec 8) (cause : Nat)
  /-- R271: The SEND completes when the receiver's CLOSE arrives. -/
  | close (p : BitVec 5) (no : BitVec 16) (sctx : BitVec 15) (epoch : BitVec 8) (bytes : Nat)
  /-- R278: A received peer-reset request is performed as a module reset, or refused and counted. -/
  | peerResetMsg (p : BitVec 5) (no : BitVec 16) (warm : Bool)
  /-- R257: A received lane plan announces a lane change for a later turn boundary. -/
  | lanePlan (p : BitVec 5) (no : BitVec 16) (tx : Bool) (map : List Nat) (width : Nat) (turn : BitVec 32)
  /-- R272: When the gap clock reaches GAP with no new cell, the receiver closes the stream and sends STREAM_RESET. -/
  | lnkStreamBroken (ctx : BitVec 15)
  /-- R271: A SEND without CLOSE GAP ticks after its last cell faults. -/
  | lnkNoClose (ctx : BitVec 15)
  /-- R267: An armed context not admitted by its ARM_LIMIT is disarmed, and its RECV faults. -/
  | lnkArmTimeout (ctx : BitVec 15)
  /-- R267: An ADMIT_REQ for an unarmed context is refused when ADMIT_WAIT passes. -/
  | admitWaitExpiry (port : BitVec 5)
  /-- R277: A port goes DOWN on lane loss, 16 ticks without a good header, a peer change or a fence; its streams fault and it
  retrains. -/
  | lnkPortDown (port : BitVec 5)
  /-- R262: Training completes and the port becomes UP, recording its peer. -/
  | portUp (port : BitVec 5) (txGood : BitVec 22) (rxGood : BitVec 22) (peerPort : BitVec 5)
  /-- R242: At a turn boundary, a pending turn-number change is applied, lane changes take effect, training attempts start, and
  a turn event is posted. -/
  | turnBoundary
  /-- R225: A bridge endpoint checks a received flit's CRC, asks for replays, and restores the order. -/
  | flitReceive (d : BitVec 1) (bundle : BitVec 6) (n : Nat) (crcOk : Bool) (flit : BitVec 512) (errs : List Nat)
  /-- R227: In a bridge direction's window, deskew, spare switching, narrowing and disabling take effect. -/
  | bridgeCalWindow (d : BitVec 1) (fails : List (Nat × Nat))
  /-- R236: On a clock loss, an absent idle pattern, a lost row or a reset, the hub fences a die or reservoir. -/
  | dieFence (rsv : Bool) (obj : BitVec 3) (cause : BitVec 3)
  /-- R229: At each epoch a target computes allowances, and the sluices issue the held requests that now fit. -/
  | sluiceEpoch (target : BitVec 6)
  /-- R230: A request held through 1,024 epochs with zero allowance completes with NET_SLUICE_BARRED. -/
  | sluiceStarved (master : BitVec 6) (target : BitVec 6)
  /-- R134: A cistern read of whole bursts is decoded, corrected or faulted. -/
  | cstRead (port : BitVec 6) (part : BitVec 5) (own : Bool) (core : CoreId) (off : Nat) (len : Nat)
  /-- R134: A cistern write of whole or partial codewords is performed, read-modify-written, held or faulted. -/
  | cstWrite (port : BitVec 6) (part : BitVec 5) (own : Bool) (core : CoreId) (off : Nat) (data : List (BitVec 8))
  /-- R140: A cistern sub-channel retrains in its 2-tick window, and dead pins are confirmed, spared or cleared. -/
  | cstCalWindow (core : CoreId) (layer : BitVec 2) (fails : List Nat)
  /-- R146: The standpipe evacuation ends; the sub-channel becomes RETIRED and a profile-change event is posted. -/
  | cstEvacuationDone (core : CoreId) (layer : BitVec 2)
  /-- R146: With no valid target within 1 s, the element retires without evacuation. -/
  | evacTargetTimeout (cist : Bool) (owner : CoreId) (ch : BitVec 5)
  /-- R148: A cistern bank is refreshed at the interval its layer temperature sets. -/
  | cstRefresh (core : CoreId) (layer : BitVec 2)
  /-- R149: A write held under a write hold past LIMIT_TICKS completes with MEM_CST_WRITE_HOT. -/
  | memCstWriteHot (core : CoreId) (layer : BitVec 2)
  /-- R162: An external request reaches a reservoir channel's arbiter, and is performed or placed in the hold queue. -/
  | rsvRequest (port : BitVec 6) (part : BitVec 5) (rsv : BitVec 3) (wr : Bool) (off : Nat) (len : Nat) (data : List (BitVec 8))
  /-- R163: A held request whose wait reaches 100 µs is removed and completes with RSV_CHANNEL_BUSY. -/
  | holdTimeout (rsv : BitVec 3) (ch : BitVec 5)
  /-- R168: A reservoir channel retrains in its window; spares, erasures, the spare path and retirement are applied. -/
  | rsvCalWindow (rsv : BitVec 3) (ch : BitVec 5) (fails : List Nat)
  /-- R171: The channel copy ends; the channel becomes RETIRED and a profile-change event is posted. -/
  | rsvEvacuationDone (rsv : BitVec 3) (ch : BitVec 5)
  /-- R173: A reservoir bank or bank group is refreshed, pausing its unit in processor mode. -/
  | rsvRefresh (rsv : BitVec 3) (ch : BitVec 5) (bg : BitVec 3)
  /-- R174: The skimmer reads a granule, writing back corrections or poison. -/
  | skimRead (rsv : BitVec 3) (ch : BitVec 5) (extra : Bool)
  /-- R244: A cadence pulse is received; it counts toward acquisition and is checked for misalignment. -/
  | cadencePulse
  /-- R244: An expected pulse is absent; a second consecutive absence enters HOLDOVER. -/
  | cadenceMissing
  /-- R245: At a turn marker, the phase error is measured or a pending resync step is applied. -/
  | turnMarker
  /-- R245: The slew reaches zero error and the clepsydra becomes LOCKED. -/
  | slewComplete
  /-- R247: The growing uncertainty passes UNCERT_THRESH and an event is posted. -/
  | clpUncertHigh
  /-- R249: A block performs an action when its counter copy reaches the action's position. -/
  | scheduledAction (port : Option (BitVec 5))
  /-- R292: A write of an SQ tail passes entries to the wellhead, or halts a bad ring. -/
  | sqDoorbell (ring : BitVec 4) (tail : BitVec 16)
  /-- R292: A write of a CQ head returns consumed entries. -/
  | cqDoorbell (ring : BitVec 4) (head : BitVec 16)
  /-- R292: A write of the EQ head returns consumed event entries. -/
  | eqDoorbell (head : BitVec 16)
  /-- R291: Setting ENABLE resets the head, tail and phase of a ring and clears HALTED. -/
  | ringEnable (ring : BitVec 6) (cfg : BitVec 32)
  /-- R293: The wellhead reads an SQ entry in rotation and starts its command. -/
  | sqEntryTake (ring : BitVec 4) (entry : HostData)
  /-- R294: A waiting completion is written to its CQ once an entry is free. -/
  | cqEntryWrite (ring : BitVec 4)
  /-- R296: A ring signals its vector when the count or coalescing time is reached. -/
  | msixInterrupt (ring : BitVec 6)
  /-- R287: A host read through BAR2 reaches module memory and is answered by outcome row. -/
  | hostBar2Read (tag : BitVec 10) (off : BitVec 40) (len : BitVec 13)
  /-- R287: A host write through BAR2 is performed or discarded. -/
  | hostBar2Write (off : BitVec 40) (data : List (BitVec 8))
  /-- R285: A BAR0 aperture access reaches register space at HST_REG_WIN plus its offset. -/
  | regApertureAccess (tag : BitVec 10) (off : BitVec 26) (len : BitVec 4) (data : Option (BitVec 64))
  /-- R289: A host read incomplete after 500 µs is answered with Completer Abort. -/
  | hstReadExpired (tag : BitVec 10)
  /-- R5: A write to a register without a row of its own acts by the access codes of its fields. -/
  | registerWrite (origin : Origin) (bar0 : Bool) (off : BitVec 36) (len : BitVec 4) (data : BitVec 64)
  /-- R237: Writing CLR_MAX zeroes MAX_NS of a sluice latency register. -/
  | clrMax (master : BitVec 6) (cls : BitVec 3)
  /-- R297: Writes the device profile to host memory. -/
  | getProfile (sq : BitVec 4) (cid : BitVec 16)
  /-- R318: Returns the value of a parameter key. -/
  | getParam (sq : BitVec 4) (cid : BitVec 16)
  /-- R318: Sets a parameter key, persisting it if it is persistent. -/
  | setParam (sq : BitVec 4) (cid : BitVec 16)
  /-- R232: Creates a partition with its clusters, contexts, channel sets and descriptor table. -/
  | partCreate (sq : BitVec 4) (cid : BitVec 16)
  /-- R297: Clears a partition as a partition reset does and frees its clusters. -/
  | partDestroy (sq : BitVec 4) (cid : BitVec 16)
  /-- R229: Sets a master's guarantee and weight at a target from the next epoch. -/
  | setShares (sq : BitVec 4) (cid : BitVec 16)
  /-- R111: Writes descriptors from host memory and invalidates every cache of the partition. -/
  | descWrite (sq : BitVec 4) (cid : BitVec 16) (data : HostData)
  /-- R297: Returns up to eight flag values. -/
  | flagRead (sq : BitVec 4) (cid : BitVec 16)
  /-- R297: Sets or adds to a flag at its home as a host write. -/
  | flagWrite (sq : BitVec 4) (cid : BitVec 16)
  /-- R300: Checks a program image's stamp and placement, writes its sections, and returns a handle. -/
  | load (sq : BitVec 4) (cid : BitVec 16) (data : HostData)
  /-- R297: Frees a program handle. -/
  | unload (sq : BitVec 4) (cid : BitVec 16)
  /-- R301: Loads and starts the queues of a start list as one job. -/
  | jobStart (sq : BitVec 4) (cid : BitVec 16) (data : HostData)
  /-- R301: The tick counter reaches the job's start tick plus its limit. -/
  | jobTimeout (sq : BitVec 4) (cid : BitVec 16)
  /-- R302: Sequences an abort against a job, deciding the outcome by ESN order. -/
  | jobAbort (sq : BitVec 4) (cid : BitVec 16)
  /-- R297: Writes a queue fault record to host memory. -/
  | faultRead (sq : BitVec 4) (cid : BitVec 16)
  /-- R303: Moves data between host and module memory through the hub in committed bursts. -/
  | hostDma (sq : BitVec 4) (cid : BitVec 16)
  /-- R303: A completion carrying host data for a transfer arrives, restarting the gap clock and committing full bursts. -/
  | hostDmaData (sq : BitVec 4) (cid : BitVec 16) (off : Nat) (data : HostData)
  /-- R303: A host-to-module transfer with no data for GAP_US µs ends with DMA_BROKEN. -/
  | hstDmaBroken (sq : BitVec 4) (cid : BitVec 16)
  /-- R382: Starts a scrub pass over a cistern, scratchpad, bundle-store or reservoir range. -/
  | scrub (sq : BitVec 4) (cid : BitVec 16)
  /-- R151: The scrub pass ends and returns its summary. -/
  | scrubComplete (sq : BitVec 4) (cid : BitVec 16)
  /-- R275: Cancels a stream through WCS. -/
  | streamCancel (sq : BitVec 4) (cid : BitVec 16)
  /-- R326: A WCS RESET with scope 0 performs a module-cold reset. -/
  | resetModuleCold (sq : BitVec 4) (cid : BitVec 16)
  /-- R326: A WCS RESET with scope 1 performs a module-warm reset. -/
  | resetModuleWarm (sq : BitVec 4) (cid : BitVec 16)
  /-- R345: A WCS RESET with scope 2 fences, resets and starts the rejoin of a compute die. -/
  | resetDie (sq : BitVec 4) (cid : BitVec 16)
  /-- R346: A WCS RESET with scope 3 fences, resets and starts the rejoin of a reservoir. -/
  | resetReservoir (sq : BitVec 4) (cid : BitVec 16)
  /-- R347: A WCS RESET with scope 4 resets every core and all state of a partition. -/
  | resetPartition (sq : BitVec 4) (cid : BitVec 16)
  /-- R347: A WCS RESET with scope 5 resets one logical core. -/
  | resetCore (sq : BitVec 4) (cid : BitVec 16)
  /-- R345: A reset die completes training and test, configuration is restored, the fence is lifted, and the RESET completes.
  -/
  | dieRejoin (d : BitVec 1) (ok : Bool) (found : List (BitVec 8 × BitVec 32))
  /-- R346: A reset reservoir completes retraining and test, its settings are restored, and the fence is lifted. -/
  | reservoirRejoin (k : BitVec 3) (ok : Bool) (found : List (BitVec 8 × BitVec 32))
  /-- R242: Schedules a new turn number for the next turn boundary. -/
  | timebaseSetTurn (sq : BitVec 4) (cid : BitVec 16)
  /-- R248: Schedules a resync step for the next turn marker. -/
  | timebaseResync (sq : BitVec 4) (cid : BitVec 16)
  /-- R278: Sends a PEER_RESET message on a port twice. -/
  | peerReset (sq : BitVec 4) (cid : BitVec 16)
  /-- R297: Sets the wall-clock offset used in audit entries. -/
  | setWallclock (sq : BitVec 4) (cid : BitVec 16)
  /-- R316: Checks and stores a licence record, raising the feature's value in force. -/
  | licenceInstall (sq : BitVec 4) (cid : BitVec 16) (data : HostData)
  /-- R311: Checks a firmware image and writes it to flash, with a readback compare. -/
  | fwUpdate (sq : BitVec 4) (cid : BitVec 16) (data : HostData)
  /-- R323: Writes held audit entries in ESN order to host memory. -/
  | auditExport (sq : BitVec 4) (cid : BitVec 16)
  /-- R387: An injection that XORs a value into stored codeword symbols. -/
  | cwSymbols (sq : BitVec 4) (cid : BitVec 16)
  /-- R387: An injection that writes the poison codeword into a reservoir. -/
  | cwPoison (sq : BitVec 4) (cid : BitVec 16)
  /-- R387: An injection that flips stored bits of a scratchpad or bundle-store word. -/
  | sramBits (sq : BitVec 4) (cid : BitVec 16)
  /-- R387: An injection that makes a pin's symbol decode in error for N codewords. -/
  | pinErrors (sq : BitVec 4) (cid : BitVec 16)
  /-- R387: An injection that orders a hold putting a channel in processor mode for a time. -/
  | channelHold (sq : BitVec 4) (cid : BitVec 16)
  /-- R387: An injection that puts a cistern sub-channel under a write hold for a time. -/
  | writeHold (sq : BitVec 4) (cid : BitVec 16)
  /-- R387: An injection that makes a receiver discard the next valid cells. -/
  | cellDrop (sq : BitVec 4) (cid : BitVec 16)
  /-- R387: An injection that declares a receive lane failing. -/
  | laneFail (sq : BitVec 4) (cid : BitVec 16)
  /-- R387: An injection that makes transmitted headers and cells fail their CRCs for a time. -/
  | frameSilence (sq : BitVec 4) (cid : BitVec 16)
  /-- R387: An injection that makes the next bridge transmissions fail their CRC. -/
  | flitCrc (sq : BitVec 4) (cid : BitVec 16)
  /-- R387: An injection that adds an offset to a diode reading for a number of samples. -/
  | sensorOffset (sq : BitVec 4) (cid : BitVec 16)
  /-- R387: An injection that makes the clepsydra receiver ignore cadence pulses for a time. -/
  | cadenceMask (sq : BitVec 4) (cid : BitVec 16)
  /-- R386: A pending injection is applied at its position, its INJECT completes, and WHD_INJECTED is sequenced. -/
  | injectionApply
  /-- R388: An injection whose duration or count has run out stops taking effect. -/
  | injectionEnd (n : Nat)
  /-- R320: The event arbiter assigns the next ESN to the oldest waiting event and delivers it to its consumers. -/
  | eventSequence
  /-- R326: PWR_OK rises with 48 V present, starting the rails and a module-cold reset. -/
  | powerOn
  /-- R404: PWR_OK falls; the module enters reset and discharges every rail except the hub rails. -/
  | pwrOkFall (ns : Option Nat)
  /-- R328: A filtered low on MOD_RESET_N causes a module-cold reset, and may clear the trip latch. -/
  | modResetN (e : PinEvt) (cool : Bool)
  /-- R328: A filtered low on PERST_N causes a module-cold reset. -/
  | perstN (e : PinEvt)
  /-- R326: A PCI Express hot reset or Function Level Reset causes a module-warm reset and resets configuration space. -/
  | hotReset
  /-- R326: A board-management reset command causes a module reset of the scope it carries. -/
  | sbmReset (cold : Bool)
  /-- R313: The wellhead watchdog expires and causes a module-warm reset. -/
  | watchdogExpiry
  /-- R327: The last reset hold is released and stage S0, or a restarted S1, begins. -/
  | resetRelease
  /-- R331: A start stage finishes its work, files its report, and the next stage begins; S6 sets READY. -/
  | stageEnd (st : BitVec 3) (x : StageIn)
  /-- R335: A stage that runs beyond four times its duration fails the start. -/
  | stageTimeout (st : BitVec 3) (ms : Nat)
  /-- R344: The repair record is written to the unused half and read back, gathered after repairs or retried each minute. -/
  | recordWrite (readback : Bool)
  /-- R351: Every 100 ticks the controller samples the diodes, forms control values, and applies the cross-checks, weir,
  refresh rates and write holds. -/
  | sensorSample (x : SampleIn)
  /-- R355: A sensor group recalibrates in its window, and spare diodes replace ejected ones. -/
  | sensorRecalWindow (g : BitVec 4)
  /-- R357: Every 5 ms while a region is engaged, a rising excess lowers ESC_W. -/
  | thmWeirEscalated (j : BitVec 3)
  /-- R357: After 1 s without engagement, ESC_W rises by 200 W per second. -/
  | escWRecovery
  /-- R360: Every 2 ms the coolant inlet, outlet and flow are read, and the coolant state moves. -/
  | trayReading (x : TrayIn)
  /-- R362: Once per second the cap law sets LAW_W from the filtered thermal resistance. -/
  | capLaw
  /-- R364: At each step slot the ramp gate moves its target, swallow and open stages. -/
  | gateStepSlot
  /-- R369: An armed diode reaching 118 °C sets the trip latch, turns off the core rails, and asserts THERMTRIP_N. -/
  | thermalTrip (diodeSite : BitVec 9) (k : BitVec 1)
  /-- R371: Input outside 44–56 V for 1 ms posts an event and asserts ALERT_N. -/
  | thmInputRange (v : BitVec 16)
  /-- R371: Input below 40 V for 100 µs stops the converters and the module loses power. -/
  | inputUndervoltage
  /-- R371: The loss of an intermediate converter is handled, and the second loss limits ESC_W. -/
  | thmConverterLost (c : BitVec 4)
  /-- R141: A cistern, reservoir or bridge calibration window closes, and the requests or flits that waited are performed in
  arrival order. -/
  | calibrationWindowEnd (w : WinId)
  /-- R402: VIN48 first reaches 44 V and the hub rails come up with every signal contact pulled up, whatever PWR_OK is. -/
  | vin48Arrival
  /-- R370: The input voltage returns within 44–56 V, clearing INPUT_RANGE and releasing ALERT_N if no other cause holds. -/
  | inputRangeReturn (v : BitVec 16)
  /-- R312: Outside the hub temperature range, firmware retries blowing the revocation counter once a minute until it succeeds.
  -/
  | revocationCounterRetry
  /-- R330: A low level on TRST_N resets the test access port. -/
  | trstN
  /-- R282: A PCI Express configuration write, such as the Resizable BAR size, the BAR assignments or Device Control, takes
  effect. -/
  | configurationWrite (w : CfgWrite)
  /-- R296: Unmasking an MSI-X vector whose pending bit is set sends its message. -/
  | msixVectorUnmask (vector : BitVec 8)
  /-- R303: A module-side read of a module-to-host HOST_DMA returns its data or a fault, which either writes to host memory or
  ends the transfer with DMA_FAULT. -/
  | hostDmaReadReturn (sq : BitVec 4) (cid : BitVec 16)
  /-- R303: A hub read of host memory, for a transfer or an SQ entry, reaches the PCI Express completion timeout and ends its
  transfer or halts its SQ. -/
  | completionTimeout (sq : BitVec 4) (cid : Option (BitVec 16))
  /-- R256: A Moarex receive lane loses lock, and the receiver declares it failing. -/
  | laneLockLost (port : BitVec 5) (lane : BitVec 5)
  /-- R216: Once a stripe walker's pins and query or pair fetch are done, it orders the pass read's launch at each channel
  arbiter. -/
  | passLaunchOrder (part : BitVec 5) (slot : BitVec 6) (stripe : BitVec 3)
  deriving DecidableEq, Repr

end Sys2Proof
end

