-- ==== Sys2Proof/Machine/Codes.lean ====
section
/-! DEFINITION. The fault and event codes of Table ERR-1 (17 R375). -/

namespace Sys2Proof.Machine

/-- MEM_UNMAPPED. -/
def cMemUnmapped : Nat := 0x1001
/-- MEM_UNCORRECTABLE. -/
def cMemUncorrectable : Nat := 0x1002
/-- MEM_POISON. -/
def cMemPoison : Nat := 0x1003
/-- MEM_SUBCHANNEL_RETIRED. -/
def cMemSubchannelRetired : Nat := 0x1004
/-- MEM_CST_WRITE_HOT. -/
def cMemCstWriteHot : Nat := 0x1005
/-- CORE_ILLEGAL_BUNDLE. -/
def cCoreIllegalBundle : Nat := 0x2001
/-- CORE_SLOT_BUSY. -/
def cCoreSlotBusy : Nat := 0x2002
/-- CORE_STREAM_EXHAUSTED. -/
def cCoreStreamExhausted : Nat := 0x2003
/-- CORE_LOOP_OVERFLOW. -/
def cCoreLoopOverflow : Nat := 0x2004
/-- CORE_SW_TRAP. -/
def cCoreSwTrap : Nat := 0x2005
/-- CORE_BREAKPOINT. -/
def cCoreBreakpoint : Nat := 0x2006
/-- CORE_FEED_TIMEOUT. -/
def cCoreFeedTimeout : Nat := 0x2007
/-- CORE_FETCH_UNCORRECTABLE. -/
def cCoreFetchUncorrectable : Nat := 0x2008
/-- QUE_BAD_COMMAND. -/
def cQueBadCommand : Nat := 0x3001
/-- QUE_HANDLE_INVALID. -/
def cQueHandleInvalid : Nat := 0x3002
/-- QUE_DESC_FORMAT. -/
def cQueDescFormat : Nat := 0x3003
/-- QUE_DESC_SHAPE. -/
def cQueDescShape : Nat := 0x3004
/-- QUE_DESC_WINDOW. -/
def cQueDescWindow : Nat := 0x3005
/-- QUE_DESC_CASCADE. -/
def cQueDescCascade : Nat := 0x3006
/-- QUE_RUN_TIMEOUT. -/
def cQueRunTimeout : Nat := 0x3007
/-- QUE_WAIT_TIMEOUT. -/
def cQueWaitTimeout : Nat := 0x3008
/-- QUE_ENGINE_ABSENT. -/
def cQueEngineAbsent : Nat := 0x3009
/-- RSV_CHANNEL_BUSY. -/
def cRsvChannelBusy : Nat := 0x4001
/-- RSV_CHANNEL_RETIRED. -/
def cRsvChannelRetired : Nat := 0x4002
/-- RSV_CHANNEL_DENIED. -/
def cRsvChannelDenied : Nat := 0x4003
/-- RSV_BANK_ILLEGAL. -/
def cRsvBankIllegal : Nat := 0x4004
/-- RSV_BANK_RANGE. -/
def cRsvBankRange : Nat := 0x4005
/-- RSV_BANK_BUDGET. -/
def cRsvBankBudget : Nat := 0x4006
/-- ATT_TABLE_PROTECTED. -/
def cAttTableProtected : Nat := 0x5001
/-- ATT_SEQ_DENIED. -/
def cAttSeqDenied : Nat := 0x5002
/-- ATT_SEQ_STATE. -/
def cAttSeqState : Nat := 0x5003
/-- ATT_SEQ_FULL. -/
def cAttSeqFull : Nat := 0x5004
/-- ATT_POOL_EMPTY. -/
def cAttPoolEmpty : Nat := 0x5005
/-- ATT_POOL_DENIED. -/
def cAttPoolDenied : Nat := 0x5006
/-- ATT_REF_OVERFLOW. -/
def cAttRefOverflow : Nat := 0x5007
/-- ATT_AREA_FULL. -/
def cAttAreaFull : Nat := 0x5008
/-- ATT_PASS_BUSY. -/
def cAttPassBusy : Nat := 0x5009
/-- ATT_PASS_STATE. -/
def cAttPassState : Nat := 0x500A
/-- ATT_PASS_EXPIRED. -/
def cAttPassExpired : Nat := 0x500B
/-- ATT_PASS_TOO_LONG. -/
def cAttPassTooLong : Nat := 0x500C
/-- ATT_BEYOND_LEN. -/
def cAttBeyondLen : Nat := 0x500D
/-- ATT_PAGE_SHARED. -/
def cAttPageShared : Nat := 0x500E
/-- ATT_PAGE_POISONED. -/
def cAttPagePoisoned : Nat := 0x500F
/-- NET_REG_DENIED. -/
def cNetRegDenied : Nat := 0x6001
/-- NET_PART_DENIED. -/
def cNetPartDenied : Nat := 0x6002
/-- NET_TARGET_RESET. -/
def cNetTargetReset : Nat := 0x6003
/-- NET_SLUICE_BARRED. -/
def cNetSluiceBarred : Nat := 0x6004
/-- NET_LATENCY_HIGH. -/
def cNetLatencyHigh : Nat := 0x6005
/-- NET_DIE_FENCED. -/
def cNetDieFenced : Nat := 0x6006
/-- LNK_PORT_DOWN. -/
def cLnkPortDown : Nat := 0x7001
/-- LNK_NOT_SYNCED. -/
def cLnkNotSynced : Nat := 0x7002
/-- LNK_CTX_DENIED. -/
def cLnkCtxDenied : Nat := 0x7003
/-- LNK_CTX_BUSY. -/
def cLnkCtxBusy : Nat := 0x7004
/-- LNK_ADMIT_NO_RATE. -/
def cLnkAdmitNoRate : Nat := 0x7005
/-- LNK_ADMIT_REFUSED. -/
def cLnkAdmitRefused : Nat := 0x7006
/-- LNK_NO_CLOSE. -/
def cLnkNoClose : Nat := 0x7007
/-- LNK_STREAM_BROKEN. -/
def cLnkStreamBroken : Nat := 0x7008
/-- LNK_SPILL_OVERRUN. -/
def cLnkSpillOverrun : Nat := 0x7009
/-- LNK_STREAM_RESET. -/
def cLnkStreamReset : Nat := 0x700A
/-- LNK_STREAM_CANCELLED. -/
def cLnkStreamCancelled : Nat := 0x700B
/-- LNK_SCHED_EVICTED. -/
def cLnkSchedEvicted : Nat := 0x700C
/-- LNK_LANE_FAILING. -/
def cLnkLaneFailing : Nat := 0x700D
/-- LNK_PORT_NARROWED. -/
def cLnkPortNarrowed : Nat := 0x700E
/-- LNK_SYNC_CHANGED. -/
def cLnkSyncChanged : Nat := 0x700F
/-- LNK_PORT_UP. -/
def cLnkPortUp : Nat := 0x7010
/-- LNK_ARM_TIMEOUT. -/
def cLnkArmTimeout : Nat := 0x7011
/-- THM_SENSOR_SUSPECT. -/
def cThmSensorSuspect : Nat := 0x8001
/-- THM_SENSOR_EJECTED. -/
def cThmSensorEjected : Nat := 0x8002
/-- THM_TWIN_KEPT. -/
def cThmTwinKept : Nat := 0x8003
/-- THM_WEIR_ESCALATED. -/
def cThmWeirEscalated : Nat := 0x8004
/-- THM_CAP_CHANGED. -/
def cThmCapChanged : Nat := 0x8005
/-- THM_COOLANT_ALARM. -/
def cThmCoolantAlarm : Nat := 0x8006
/-- THM_COOLANT_EMERGENCY. -/
def cThmCoolantEmergency : Nat := 0x8007
/-- THM_COOLANT_HALT. -/
def cThmCoolantHalt : Nat := 0x8008
/-- THM_HALT_CLEARED. -/
def cThmHaltCleared : Nat := 0x8009
/-- THM_TRAY_LOST. -/
def cThmTrayLost : Nat := 0x800A
/-- THM_INPUT_RANGE. -/
def cThmInputRange : Nat := 0x800B
/-- THM_CONVERTER_LOST. -/
def cThmConverterLost : Nat := 0x800C
/-- THM_TRIP. -/
def cThmTrip : Nat := 0x800D
/-- THM_COOLANT_NORMAL. -/
def cThmCoolantNormal : Nat := 0x800E
/-- HST_WIN_READONLY. -/
def cHstWinReadonly : Nat := 0x9001
/-- HST_READ_EXPIRED. -/
def cHstReadExpired : Nat := 0x9002
/-- HST_BAR_FAULT. -/
def cHstBarFault : Nat := 0x9003
/-- HST_RING_BAD. -/
def cHstRingBad : Nat := 0x9004
/-- HST_RING_FETCH. -/
def cHstRingFetch : Nat := 0x9005
/-- HST_DMA_BROKEN. -/
def cHstDmaBroken : Nat := 0x9006
/-- WHD_BOOT_RECOVERY. -/
def cWhdBootRecovery : Nat := 0xA001
/-- WHD_LICENCE_INVALID. -/
def cWhdLicenceInvalid : Nat := 0xA002
/-- WHD_AUDIT_DROPPED. -/
def cWhdAuditDropped : Nat := 0xA003
/-- WHD_INJECTED. -/
def cWhdInjected : Nat := 0xA004
/-- BUP_STAGE_REPORT. -/
def cBupStageReport : Nat := 0xB001
/-- BUP_STAGE_FAILED. -/
def cBupStageFailed : Nat := 0xB002
/-- BUP_DEGRADED. -/
def cBupDegraded : Nat := 0xB003
/-- BUP_RECORD_INVALID. -/
def cBupRecordInvalid : Nat := 0xB004
/-- BUP_RECORD_FAIL. -/
def cBupRecordFail : Nat := 0xB005
/-- BUP_RECORD_FULL. -/
def cBupRecordFull : Nat := 0xB006
/-- BUP_REJOIN_FAILED. -/
def cBupRejoinFailed : Nat := 0xB007
/-- BUP_REPAIR. -/
def cBupRepair : Nat := 0xB008
/-- BUP_PROFILE_CHANGED. -/
def cBupProfileChanged : Nat := 0xB009
/-- BUP_RESET. -/
def cBupReset : Nat := 0xB00A
/-- BUP_REJOINED. -/
def cBupRejoined : Nat := 0xB00B
/-- CLP_CADENCE_LOST. -/
def cClpCadenceLost : Nat := 0xC001
/-- CLP_PHASE_ERROR. -/
def cClpPhaseError : Nat := 0xC002
/-- CLP_RELOCKED. -/
def cClpRelocked : Nat := 0xC003
/-- CLP_UNCERT_HIGH. -/
def cClpUncertHigh : Nat := 0xC004
/-- CLP_STEPPED. -/
def cClpStepped : Nat := 0xC005
/-- CLP_BEYOND_TURN. -/
def cClpBeyondTurn : Nat := 0xC006
/-- CLP_TURN. -/
def cClpTurn : Nat := 0xC007

end Sys2Proof.Machine
end

