-- ==== Sys2Proof/Machine/Map.lean ====
section
/-! DEFINITION. Sparse maps as plain data: a list of (key, value) pairs with strictly rising keys and no entry equal to what an
unlisted key reads as, so that equal maps are equal lists. -/

namespace Sys2Proof.Machine

/-- A sparse map from natural numbers, as plain data. -/
abbrev Map (α : Type) := List (Nat × α)

/-- What key `k` holds; an unlisted key holds `d`. -/
def Map.get {α : Type} (d : α) : Map α → Nat → α
  | [], _ => d
  | (j, v) :: m, k => if j = k then v else Map.get d m k

/-- The entries whose key satisfies `p` removed (set back to the default). -/
def Map.drop {α : Type} (p : Nat → Bool) : Map α → Map α
  | [] => []
  | (j, v) :: m => if p j then Map.drop p m else (j, v) :: Map.drop p m

/-- An entry put in key order, in place of the one its key has. -/
def Map.put {α : Type} : Map α → Nat → α → Map α
  | [], k, v => [(k, v)]
  | (j, w) :: m, k, v =>
    if j < k then (j, w) :: Map.put m k v
    else if j = k then (k, v) :: m
    else (k, v) :: (j, w) :: m

/-- Key `k` set to `v`: the entry is put in key order, or removed where `v` is the value an unlisted key reads as. -/
def Map.set {α : Type} [DecidableEq α] (d : α) (m : Map α) (k : Nat) (v : α) : Map α :=
  if v = d then Map.drop (fun j => j == k) m else Map.put m k v

/-- Every key of `l` above `k`, rising, and no value equal to `d`. -/
def Map.okFrom {α : Type} [DecidableEq α] (d : α) : Option Nat → Map α → Bool
  | _, [] => true
  | lo, (j, v) :: m => (match lo with | none => true | some k => decide (k < j)) && decide (v ≠ d) && Map.okFrom d (some j) m

/-- The canonical form. -/
def Map.wf {α : Type} [DecidableEq α] (d : α) (m : Map α) : Bool := Map.okFrom d none m

/-- Every listed value changed, the canonical form kept. -/
def Map.mapAll {α : Type} [DecidableEq α] (d : α) (f : α → α) (m : Map α) : Map α :=
  m.foldr (fun p acc => Map.set d acc p.1 (f p.2)) []

/-- The entries of a run of values at keys `k`, `k+1`, …. -/
def Map.run {α : Type} [DecidableEq α] (d : α) : Nat → List α → Map α
  | _, [] => []
  | k, v :: vs => if v = d then Map.run d (k + 1) vs else (k, v) :: Map.run d (k + 1) vs

/-- Entries with keys from `k` on put in before the first entry whose key is not below `k`. -/
def Map.splice {α : Type} (k : Nat) (es : Map α) : Map α → Map α
  | [] => es
  | (j, v) :: m => if j < k then (j, v) :: Map.splice k es m else es ++ (j, v) :: m

/-- Keys `k`, `k+1`, … set to the listed values. -/
def Map.setRange {α : Type} [DecidableEq α] (d : α) (m : Map α) (k : Nat) (vs : List α) : Map α :=
  Map.splice k (Map.run d k vs) (Map.drop (fun j => decide (k ≤ j) && decide (j < k + vs.length)) m)

/-- The `n` values from key `k` on. -/
def Map.getRange {α : Type} (d : α) (m : Map α) (k n : Nat) : List α :=
  let r := m.filter fun p => decide (k ≤ p.1) && decide (p.1 < k + n)
  (List.range n).map fun i => Map.get d r (k + i)

/-- The keys listed (holding something other than the default). -/
def Map.keys {α : Type} (m : Map α) : List Nat := List.map Prod.fst m

/-- The listed values, in key order. -/
def Map.vals {α : Type} (m : Map α) : List α := List.map Prod.snd m

end Sys2Proof.Machine
end

