-- ==== Sys2Proof/Config.lean ====
section
/-! DEFINITION. What the spec leaves open: free values and functions with no body. Nothing in Lean can evaluate them, so a
statement holds whatever they are. Each takes the model's draw number (State.free) and an index inside the draw. -/

namespace Sys2Proof.Config

/-- A free 32-bit value: an SFU result the spec does not state, a candidate result inside a published bound
(02 R41, R45; 04 R91). -/
opaque freeWord : Nat → Nat → BitVec 32

/-- A free integer: the part of a computation the spec bounds but does not fix (02 R38, R42). -/
opaque freeInt : Nat → Nat → Int

/-- A free choice between two outcomes the spec allows (03 R62; 06 R138; 15 R328). -/
opaque freeBit : Nat → Nat → Bool

/-- A free byte: the data of a miscorrected codeword or word (03 R62; 06 R138). -/
opaque freeByte : Nat → Nat → BitVec 8

/-- The 16 random bits of a stochastic rounding (02 R41): the generator (3 for each core), the conversions it has made since it was last
restarted from its fixed seed, and the element. -/
opaque stochBits : (generator : Nat) → (conversion : Nat) → (element : Nat) → Nat

/-- The DETAIL of QUE_ENGINE_ABSENT: it gives the engine number and the cause (05 R125), in a layout the spec does not state. -/
opaque engineDetail : (engine : Nat) → (byLicence : Bool) → BitVec 64

/-- Where the HST_ block lies in the hub's register region (01 Table ARC-6): no rule says. -/
opaque hstBase : Nat

/-- The device profile as bytes (13 R297): no rule lays it out. It is formed from what the rules say it records, as a list of numbers. -/
opaque profileBytes : (records : List Nat) → List (BitVec 8)

/-- The frame slots of a reservoir's walker area, the same in all eight (09 R204, R219): firmware sets them, to a number no rule gives. -/
opaque walkerSlots : Nat

/-- The wellhead address of its SRAM's first byte (14 R305, R308): no rule gives it. -/
opaque sramBase : Nat

/-- ML-DSA-87 verification of a signature over a digest under a public key (14 R308, R315): named, not given, by the spec. -/
opaque sigVerifies : (key : List (BitVec 8)) → (digest : BitVec 512) → (sig : List (BitVec 8)) → Bool

/-- By how many drops a die's copy of the tick counter is off the hub's: the copy, how often it has been loaded, the time (11 R240). -/
opaque copySkew : (copy : Nat) → (load : Nat) → (time : Nat) → Int

/-- Dexothra's PCI-SIG vendor ID (13 R282): no rule gives it. -/
opaque vendorId : BitVec 16

/-- Dexothra's manufacturer identity in IDCODE (18 R400): no rule gives it. -/
opaque manufacturer : BitVec 11

end Sys2Proof.Config
end

