-- ==== Sys2Proof/Machine/Flags.lean ====
section
/-! DEFINITION. The sticky flags of a core (04 R99) and of a bank unit (08 R198), and how two sets of raised flags combine. -/

namespace Sys2Proof.Machine

/-- The flags an operation raises: INV, OVF, SAT and FLUSH, in the positions of CORE_STICKY (04 R99). -/
structure Flags where
  inv : Bool := false
  ovf : Bool := false
  sat : Bool := false
  flush : Bool := false
  deriving DecidableEq, Repr

/-- No flag raised. -/
def Flags.none : Flags := {}
/-- The OR of two sets of flags (02 R28: each flag is set by the OR of every event). -/
def Flags.or (a b : Flags) : Flags :=
  { inv := a.inv || b.inv, ovf := a.ovf || b.ovf, sat := a.sat || b.sat, flush := a.flush || b.flush }
/-- INV alone. -/
def Flags.I : Flags := { inv := true }
/-- OVF alone. -/
def Flags.O : Flags := { ovf := true }
/-- SAT alone. -/
def Flags.S : Flags := { sat := true }
/-- The OR of a list of raised flags. -/
def Flags.all (l : List Flags) : Flags := l.foldl Flags.or Flags.none
/-- The flags in the bit positions of CORE_STICKY (04 R99). -/
def Flags.toNat (a : Flags) : Nat :=
  (if a.inv then 1 else 0) + (if a.ovf then 2 else 0) + (if a.sat then 4 else 0) + (if a.flush then 8 else 0)
/-- The flags named by a mask in the positions of CORE_STICKY are cleared (04 R99). -/
def Flags.clear (a : Flags) (mask : Nat) : Flags :=
  { inv := a.inv && !mask.testBit 0, ovf := a.ovf && !mask.testBit 1,
    sat := a.sat && !mask.testBit 2, flush := a.flush && !mask.testBit 3 }

end Sys2Proof.Machine
end

