-- ==== Sys2Proof/Machine/Float.lean ====
section
/-! DEFINITION. The number formats of 02: floating-point, integer and the log formats L8 and L4, as exact dyadic values or
octant counts; rounding, conversion (R41 to R43), block formats (R29 to R35), products and exact sums (R36 to R38, R408). -/

namespace Sys2Proof.Machine

/-- The rounding modes of Table FMT-6. -/
inductive Rnd where
  | rne | rtz | stoch
  deriving DecidableEq, Repr

/-- The ten formats of Table FMT-1. -/
inductive Fmt where
  | fp32 | bf16 | fp16 | e4m3 | e5m2 | fp4 | int8 | int4 | l8 | l4
  deriving DecidableEq, Repr

/-- The format a 4-bit code names; codes 0xA to 0xF are reserved (02 R24). -/
def Fmt.ofCode : Nat → Option Fmt
  | 0 => some .fp32 | 1 => some .bf16 | 2 => some .fp16 | 3 => some .e4m3 | 4 => some .e5m2
  | 5 => some .fp4 | 6 => some .int8 | 7 => some .int4 | 8 => some .l8 | 9 => some .l4
  | _ => none
/-- Element bits (Table FMT-1). -/
def Fmt.bits : Fmt → Nat
  | .fp32 => 32 | .bf16 | .fp16 => 16 | .e4m3 | .e5m2 | .int8 | .l8 => 8 | .fp4 | .int4 | .l4 => 4
/-- The formats stored as an element plane and a plane of one byte for each block of 32 (02 R30). -/
def Fmt.isBlock : Fmt → Bool
  | .fp4 | .l4 => true
  | _ => false
/-- A format Table FMT-8 counts as floating-point in its general rows (FP4 is not, 02 R44). -/
def Fmt.isFloat : Fmt → Bool
  | .fp32 | .bf16 | .fp16 | .e4m3 | .e5m2 => true
  | _ => false
/-- INT8 and INT4. -/
def Fmt.isInt : Fmt → Bool
  | .int8 | .int4 => true
  | _ => false

/-- The value of one stored element: NaN or an invalid code, an infinity, a dyadic (-1)^neg · m · 2^e, or a log value
(-1)^neg · 2^(o/8) of `o` octants (02 R33, R34). -/
inductive XV where
  | nan
  | inf (neg : Bool)
  | fin (neg : Bool) (m : Nat) (e : Int)
  | log (neg : Bool) (o : Int)
  deriving DecidableEq, Repr

/-- `m · 2^e` over `2^q`, rounded to an integer by the mode; `rnd` is the 16 random bits of STOCH (02 R41). -/
def roundQ (mode : Rnd) (rnd m : Nat) (e q : Int) : Nat :=
  if q ≤ e then m <<< (e - q).toNat
  else
    let k := (q - e).toNat
    match mode with
    | .rtz => m >>> k
    | .stoch => ((m <<< 16) + (rnd <<< k)) >>> (k + 16)
    | .rne =>
      let f := m >>> k
      let r := m - (f <<< k)
      let h := 1 <<< (k - 1)
      if h < r then f + 1 else if r < h then f else f + f % 2

/-- Exponent bits of a floating-point format (Table FMT-2). -/
def Fmt.eb : Fmt → Nat
  | .fp32 | .bf16 => 8 | .fp16 | .e5m2 => 5 | .e4m3 => 4 | _ => 2
/-- Mantissa bits of a floating-point format (Table FMT-2). -/
def Fmt.mb : Fmt → Nat
  | .fp32 => 23 | .bf16 => 7 | .fp16 => 10 | .e4m3 => 3 | .e5m2 => 2 | _ => 1
/-- Exponent bias (Table FMT-2). -/
def Fmt.bias : Fmt → Nat
  | .fp32 | .bf16 => 127 | .fp16 | .e5m2 => 15 | .e4m3 => 7 | _ => 1
/-- Formats with infinities (Table FMT-2). -/
def Fmt.hasInf : Fmt → Bool
  | .fp32 | .bf16 | .fp16 | .e5m2 => true
  | _ => false
/-- The code of the largest finite magnitude (Table FMT-2). -/
def Fmt.maxCode (f : Fmt) : Nat :=
  match f with
  | .e4m3 => 0x7E
  | .fp4 => 7
  | _ => ((2 ^ f.eb - 1) <<< f.mb) - 1
/-- The canonical NaN (Table FMT-2). -/
def Fmt.canonNaN (f : Fmt) : Nat :=
  match f with
  | .e4m3 => 0x7F
  | _ => ((2 ^ f.eb - 1) <<< f.mb) + (1 <<< (f.mb - 1))
/-- The code of positive infinity. -/
def Fmt.infCode (f : Fmt) : Nat := (2 ^ f.eb - 1) <<< f.mb
/-- The sign bit's weight. -/
def Fmt.signBit (f : Fmt) : Nat := 1 <<< (f.eb + f.mb)
/-- A magnitude code with a sign. -/
def Fmt.withSign (f : Fmt) (neg : Bool) (c : Nat) : Nat := if neg then f.signBit + c else c

/-- The value of a floating-point code (02 R26): sign, biased exponent, trailing mantissa. -/
def fpVal (f : Fmt) (c : Nat) : XV :=
  let neg := c.testBit (f.eb + f.mb)
  let e := (c >>> f.mb) % 2 ^ f.eb
  let m := c % 2 ^ f.mb
  if f.hasInf && e == 2 ^ f.eb - 1 then (if m = 0 then .inf neg else .nan)
  else if f = .e4m3 ∧ e = 15 ∧ m = 7 then .nan
  else if e = 0 then .fin neg m (1 - (f.bias : Int) - f.mb)
  else .fin neg (m + 2 ^ f.mb) ((e : Int) - f.bias - f.mb)

/-- The magnitude code of `m · 2^e` rounded to the format with no upper limit on the exponent: above `maxCode` the value is
beyond range (02 R43). Subnormal results come out as IEEE 754 requires (02 R27). -/
def fpCode (f : Fmt) (mode : Rnd) (rnd m : Nat) (e : Int) : Nat :=
  if m = 0 then 0
  else
    let q := max ((Nat.log2 m : Int) + e) (1 - (f.bias : Int)) - f.mb
    ((q + f.mb + f.bias - 1).toNat <<< f.mb) + roundQ mode rnd m e q

/-- 2^(f/8) as floor(2^(f/8) · 2^63): the fraction of a log value, ample for correct rounding. -/
def frac63 : Nat → Nat
  | 0 => 9223372036854775808 | 1 => 10058158527438640870 | 2 => 10968499650544839023 | 3 => 11961233684655323370
  | 4 => 13043817825332782212 | 5 => 14224384202002324189 | 6 => 15511800964685064948 | _ => 16915738899553466670

/-- 2^(f/8) correctly rounded to FP32, as an integer times 2^-23 (02 R36). -/
def frac23 : Nat → Nat
  | 0 => 8388608 | 1 => 9147842 | 2 => 9975792 | 3 => 10878679 | 4 => 11863283 | 5 => 12937002 | 6 => 14107901 | _ => 15384775

/-- A log value as a dyadic with a sticky last bit, for one correct rounding (02 R42). -/
def XV.unlog : XV → XV
  | .log neg o => if o % 8 = 0 then .fin neg 1 (o / 8) else .fin neg (2 * frac63 (o % 8).toNat + 1) (o / 8 - 64)
  | x => x

/-- The value an element code of a format stands for: `t` is the tensor offset of L8, `b` the block's scale or offset byte
(02 R26, R29, R32 to R34). -/
def elemVal (f : Fmt) (t : Int) (b : Nat) (c : Nat) : XV :=
  match f with
  | .int8 => if c < 128 then .fin false (c % 256) 0 else .fin true (256 - c % 256) 0
  | .int4 => if c % 16 < 8 then .fin false (c % 16) 0 else .fin true (16 - c % 16) 0
  | .l8 =>
    if c % 256 = 0 then .fin false 0 0 else if c % 256 = 0x80 then .nan
    else .log (c.testBit 7) ((c % 128 : Nat) - 64 + t)
  | .l4 =>
    if b = 255 then .nan else if c % 8 = 0 then .fin false 0 0
    else .log (c.testBit 3) ((b : Int) - 128 + 4 * (c % 8 : Nat))
  | .fp4 =>
    if b = 255 then .nan
    else match fpVal .fp4 c with
      | .fin neg m e => .fin neg m (e + b - 127)
      | x => x
  | f => fpVal f c

/-- Conversion to a floating-point format (02 R41, R43, Table FMT-7). A log source is rounded to nearest whatever the mode:
DEDUCED from R42 (the correctly rounded value) and Table FMT-9 (0.5 ulp). FP4 elements take the mode (R31, `toFp4`). -/
def toFp (f : Fmt) (mode : Rnd) (sat : Bool) (rnd : Nat) (x : XV) : Nat × Flags :=
  match x with
  | .nan => (f.canonNaN, .I)
  | .inf neg => if f.hasInf then (f.withSign neg f.infCode, .none) else (f.withSign neg f.maxCode, .S)
  | x =>
    let mode' := match x with | .log _ _ => Rnd.rne | _ => mode
    match x.unlog with
    | .fin neg m e =>
      let c := fpCode f mode' rnd m e
      if c ≤ f.maxCode then (f.withSign neg c, .none)
      else if f.hasInf && !sat then (f.withSign neg f.infCode, .O)
      else (f.withSign neg f.maxCode, .S)
    | _ => (f.canonNaN, .I)

/-- Conversion to INT8 or INT4 of `n` bits (02 R43, Table FMT-7): nearest end of range beyond it, 0 for NaN. -/
def toInt (n : Nat) (mode : Rnd) (rnd : Nat) (x : XV) : Nat × Flags :=
  let top := 2 ^ (n - 1)
  match x.unlog with
  | .nan => (0, .I)
  | .inf neg => (if neg then top else top - 1, .S)
  | .fin neg m e =>
    let k := roundQ mode rnd m e 0
    if neg then (if k ≤ top then ((2 * top - k) % (2 * top), .none) else (top, .S))
    else if k < top then (k, .none) else (top - 1, .S)
  | .log _ _ => (0, .none)

/-- Fraction bits of log2 of `y` (scaled so that 1 is 2^62, 1 ≤ y < 2), appended to `acc`, by repeated squaring. -/
def log2Bits : Nat → Nat → Nat → Nat
  | 0, _, acc => acc
  | k + 1, y, acc =>
    let z := (y * y) >>> 62
    if z < 2 ^ 63 then log2Bits k z (2 * acc) else log2Bits k (z >>> 1) (2 * acc + 1)

/-- 8 · log2 (m · 2^e) in units of 2^-40 octant, rounded down. -/
def octants40 (m : Nat) (e : Int) : Int :=
  let l := Nat.log2 m
  let y := if 62 ≤ l then m >>> (l - 62) else m <<< (62 - l)
  ((l : Int) + e) * 2 ^ 43 + (log2Bits 43 y 0 : Nat)

/-- The part of a log-domain computation the spec leaves open: within 2^-10 octant of the exact value (02 R42). A free integer
outside the bound is dropped. Units of 2^-40 octant. -/
def octDev (draw i : Nat) : Int :=
  let d := Config.freeInt draw i
  if -(2 ^ 30) ≤ d ∧ d ≤ 2 ^ 30 then d else 0

/-- The computed 8 · log2|x| of an element, exact for a log source, in units of 2^-40 octant. -/
def compOct (draw i : Nat) : XV → Int
  | .log _ o => o * 2 ^ 40
  | .fin _ m e => octants40 m e + octDev draw i
  | _ => 0

/-- Conversion to L8 with tensor offset `t` (02 R42, R43). -/
def toL8 (t : Int) (mode : Rnd) (rnd draw i : Nat) (x : XV) : Nat × Flags :=
  let go (neg : Bool) : Nat × Flags :=
    let y := compOct draw i x + (64 - t) * 2 ^ 40
    if y < 2 ^ 39 then (0, .none)
    else
      let n := roundQ mode rnd y.toNat 0 40
      if n = 0 then (0, .none)
      else if n < 128 then ((if neg then 128 else 0) + n, .none)
      else ((if neg then 128 else 0) + 127, .S)
  match x with
  | .nan => (0x80, .I)
  | .inf neg => ((if neg then 128 else 0) + 127, .S)
  | .fin neg m _ => if m = 0 then (0, .none) else go neg
  | .log neg _ => go neg

/-- Whether a value is zero. -/
def XV.isZero : XV → Bool
  | .fin _ m _ => m == 0
  | _ => false
/-- Whether a value is NaN or an invalid code. -/
def XV.isNaN : XV → Bool
  | .nan => true
  | _ => false
/-- Whether a value is an infinity. -/
def XV.isInf : XV → Bool
  | .inf _ => true
  | _ => false
/-- The sign of a value. -/
def XV.neg : XV → Bool
  | .nan => false
  | .inf n => n
  | .fin n _ _ => n
  | .log n _ => n
/-- floor(log2 |x|) of a finite non-zero value. -/
def XV.flog2 : XV → Int
  | .fin _ m e => (Nat.log2 m : Int) + e
  | .log _ o => o / 8
  | _ => 0

/-- An integer held to a range. -/
def clampInt (lo hi x : Int) : Int := if x < lo then lo else if hi < x then hi else x

/-- The scale byte of a block converted to FP4 (02 R31). -/
def fp4Scale (xs : List XV) : Nat :=
  if xs.any XV.isNaN then 255
  else if xs.any XV.isInf then 254
  else
    match (xs.filter (fun x => !x.isZero)).map XV.flog2 with
    | [] => 0
    | y :: ys => (clampInt 0 254 (ys.foldl max y - 2 + 127)).toNat

/-- The flags an element of a block with scale or offset 0xFF raises (02 R43): every conversion of a NaN sets INV, and every one of an
infinity to a format without one sets SAT. -/
def nanBlockFlags (x : XV) : Flags := if x.isNaN then .I else if x.isInf then .S else .none

/-- One element converted to FP4 at scale byte `s`, rounded by the selected mode (02 R31); in a NaN block the nibble is free. -/
def toFp4 (s : Nat) (mode : Rnd) (rnd draw i : Nat) (x : XV) : Nat × Flags :=
  if s = 255 then ((Config.freeByte draw i).toNat % 16, nanBlockFlags x)
  else
    match x with
    | .inf neg => (if neg then 15 else 7, .S)
    | .log neg o => toFp .fp4 mode true rnd (XV.log neg (o - 8 * ((s : Int) - 127))).unlog
    | .fin neg m e => toFp .fp4 mode true rnd (.fin neg m (e - s + 127))
    | .nan => (0, .I)

/-- The offset byte of a block converted to L4 (02 R35); `ys` pairs each element with its index. -/
def l4Offset (draw : Nat) (ys : List (Nat × XV)) : Nat :=
  if ys.any (fun p => p.2.isNaN) then 255
  else if ys.any (fun p => p.2.isInf) then 254
  else
    match ys.filter (fun p => !p.2.isZero) with
    | [] => 0
    | p :: ps =>
      let exact (x : XV) : Int := match x with | .log _ o => o * 2 ^ 40 | .fin _ m e => octants40 m e | _ => 0
      let big := ps.foldl (fun a b => if exact a.2 < exact b.2 then b else a) p
      let y := compOct draw big.1 big.2
      let mag := roundQ .rne 0 (y + 2 ^ 60).toNat 0 40
      (clampInt 0 254 ((mag : Int) - 2 ^ 20 - 28 + 128)).toNat

/-- One element converted to L4 at offset byte `b` (02 R35, R42); in an invalid block the nibble is free. -/
def toL4 (b : Nat) (mode : Rnd) (rnd draw i : Nat) (x : XV) : Nat × Flags :=
  let go (neg : Bool) : Nat × Flags :=
    let y := compOct draw i x + (128 - (b : Int)) * 2 ^ 40
    if y < 2 ^ 41 then (0, .none)
    else
      let h := roundQ mode rnd y.toNat 0 42
      let s := if neg then 8 else 0
      if h = 0 then (0, .none)
      else if h ≤ 7 then (s + h, .none)
      else (s + 7, if 15 * 2 ^ 41 < y then .S else .none)
  if b = 255 then ((Config.freeByte draw i).toNat % 16, nanBlockFlags x)
  else
    match x with
    | .inf neg => (if neg then 15 else 7, .S)
    | .nan => (0, .I)
    | .fin neg m _ => if m = 0 then (0, .none) else go neg
    | .log neg _ => go neg

/-- The 16 random bits of an element in a mode: `bits` is the generator's draw (02 R41). -/
def Rnd.bits (mode : Rnd) (bits : Nat → Nat) (i : Nat) : Nat := match mode with | .stoch => bits i % 65536 | _ => 0

/-- One element converted to a format without blocks. -/
def toPlain (f : Fmt) (t : Int) (mode : Rnd) (sat : Bool) (draw : Nat) (bits : Nat → Nat) (i : Nat) (x : XV) : Nat × Flags :=
  let rnd := mode.bits bits i
  match f with
  | .int8 => toInt 8 mode rnd x
  | .int4 => toInt 4 mode rnd x
  | .l8 => toL8 t mode rnd draw i x
  | f => toFp f mode sat rnd x

/-- Elements numbered from `i`. -/
def numbered {α : Type} : Nat → List α → List (Nat × α)
  | _, [] => []
  | i, x :: xs => (i, x) :: numbered (i + 1) xs

/-- Blocks of 32 converted one after the other; `fuel` is at least the number of blocks. -/
def convBlocks (f : Fmt) (mode : Rnd) (draw : Nat) (bits : Nat → Nat) : Nat → List (Nat × XV) → List Nat × List Nat × Flags
  | 0, _ => ([], [], .none)
  | fuel + 1, xs =>
    match xs with
    | [] => ([], [], .none)
    | _ =>
      let blk := xs.take 32
      let s := match f with | .fp4 => fp4Scale (blk.map Prod.snd) | _ => l4Offset draw blk
      let out := blk.map fun p =>
        match f with | .fp4 => toFp4 s mode (mode.bits bits p.1) draw p.1 p.2 | _ => toL4 s mode (mode.bits bits p.1) draw p.1 p.2
      let r := convBlocks f mode draw bits fuel (xs.drop 32)
      (out.map Prod.fst ++ r.1, s :: r.2.1, Flags.or (Flags.all (out.map Prod.snd)) r.2.2)

/-- A list of elements converted to a format: the element codes, the block bytes of a block format, and the flags raised
(02 R41 to R43). `draw` numbers the free values, `bits` are the generator's. -/
def convList (f : Fmt) (t : Int) (mode : Rnd) (sat : Bool) (draw : Nat) (bits : Nat → Nat) (xs : List XV) : List Nat × List Nat × Flags :=
  if f.isBlock then convBlocks f mode draw bits (xs.length / 32 + 1) (numbered 0 xs)
  else
    let out := (numbered 0 xs).map fun p => toPlain f t mode sat draw bits p.1 p.2
    (out.map Prod.fst, [], Flags.all (out.map Prod.snd))

/-- A signed dyadic sum. -/
structure Dy where
  m : Int
  e : Int
  deriving DecidableEq, Repr
/-- Exact addition of dyadics. -/
def Dy.add (a b : Dy) : Dy :=
  if a.m = 0 then b else if b.m = 0 then a
  else if a.e ≤ b.e then ⟨a.m + b.m * 2 ^ (b.e - a.e).toNat, a.e⟩
  else ⟨a.m * 2 ^ (a.e - b.e).toNat + b.m, b.e⟩
/-- A finite value as a dyadic. -/
def XV.dy (x : XV) : Dy :=
  match x.unlog with
  | .fin neg m e => ⟨if neg then -(m : Int) else m, e⟩
  | _ => ⟨0, 0⟩
/-- The exact sum of finite values. -/
def dySum (xs : List XV) : Dy := xs.foldl (fun a x => a.add x.dy) ⟨0, 0⟩

/-- The exact sum of values, and whether it is an invalid operation (02 R28). A zero sum is +0 unless every term is -0, as
IEEE 754 gives for rounding to nearest. -/
def xsum (xs : List XV) : XV × Bool :=
  if xs.any XV.isNaN then (.nan, true)
  else if xs.any (fun x => x.isInf && !x.neg) then
    (if xs.any (fun x => x.isInf && x.neg) then (.nan, true) else (.inf false, false))
  else if xs.any XV.isInf then (.inf true, false)
  else
    let d := dySum xs
    if d.m = 0 then (.fin (xs.all fun x => x.isZero && x.neg) 0 0, false)
    else (.fin (d.m < 0) d.m.natAbs d.e, false)

/-- The exact product of two values, and whether it is an invalid operation (02 R28, R36, R408). Two log codes multiply
through the FP32 fraction table; a zero code gives zero. The sign of a zero product is the XOR of the operands' signs for integers and
log codes too, which have no signed zero: PRESUMED (IEEE 754 for products; the spec is silent). -/
def xmul (a b : XV) : XV × Bool :=
  match a, b with
  | .nan, _ => (.nan, true)
  | _, .nan => (.nan, true)
  | .log na oa, .log nb ob =>
    let o := oa + ob
    (.fin (na != nb) (frac23 (o % 8).toNat) (o / 8 - 23), false)
  | .inf n, y => if y.isZero then (.nan, true) else (.inf (n != y.neg), false)
  | x, .inf n => if x.isZero then (.nan, true) else (.inf (n != x.neg), false)
  | x, y =>
    match x.unlog, y.unlog with
    | .fin nx mx ex, .fin ny my ey => (.fin (nx != ny) (mx * my) (ex + ey), false)
    | _, _ => (.nan, true)

/-- An exact value rounded to a format by one rounding to nearest, as the vector units do (02 R27, R28). -/
def fpRound (f : Fmt) (x : XV) (inv : Bool) : Nat × Flags :=
  let r := toFp f .rne false 0 x
  (r.1, { r.2 with inv := r.2.inv || inv })

/-- The cube accumulator's rounding (02 R27, R38): once to 24 significant bits with no lower limit on the exponent, then
below 2^-126 a signed zero and FLUSH. -/
def cubeRound (x : XV) (inv : Bool) : Nat × Flags :=
  match x with
  | .fin neg m e =>
    if m = 0 then (Fmt.withSign .fp32 neg 0, { inv := inv })
    else
      let q := (Nat.log2 m : Int) + e - 23
      let n := roundQ .rne 0 m e q
      if (Nat.log2 n : Int) + q < -126 then (Fmt.withSign .fp32 neg 0, { inv := inv, flush := true })
      else
        let r := toFp .fp32 .rne false 0 (.fin neg n q)
        (r.1, { r.2 with inv := inv })
  | x => fpRound .fp32 x inv

/-- FP32 a + b (04 Table BDL-8). -/
def fpAdd (f : Fmt) (a b : Nat) : Nat × Flags :=
  let r := xsum [fpVal f a, fpVal f b]
  fpRound f r.1 r.2
/-- a × b with one rounding. -/
def fpMul (f : Fmt) (a b : Nat) : Nat × Flags :=
  let r := xmul (fpVal f a) (fpVal f b)
  fpRound f r.1 r.2
/-- a × b + c with one rounding. -/
def fpFma (f : Fmt) (a b c : Nat) : Nat × Flags :=
  let p := xmul (fpVal f a) (fpVal f b)
  let r := xsum [p.1, fpVal f c]
  fpRound f r.1 (p.2 || r.2)
/-- The sign flipped; a NaN gives the canonical NaN (02 R28). -/
def fpNeg (f : Fmt) (a : Nat) : Nat :=
  if (fpVal f a).isNaN then f.canonNaN
  else if a.testBit (f.eb + f.mb) then a - f.signBit else a + f.signBit
/-- The sign cleared; a NaN gives the canonical NaN (02 R28). -/
def fpAbs (f : Fmt) (a : Nat) : Nat :=
  if (fpVal f a).isNaN then f.canonNaN else a % f.signBit
/-- The order key of a number that is not NaN: equal for both zeros. -/
def fpKey (f : Fmt) (a : Nat) : Int :=
  if a.testBit (f.eb + f.mb) then -((a % f.signBit : Nat) : Int) else (a : Int)
/-- Maximum (or minimum): a NaN operand gives the canonical NaN and INV; of two zeros of different sign `pick` chooses. -/
def fpMax (f : Fmt) (lo : Bool) (pick : Bool) (a b : Nat) : Nat × Flags :=
  if (fpVal f a).isNaN || (fpVal f b).isNaN then (f.canonNaN, .I)
  else
    let ka := fpKey f a
    let kb := fpKey f b
    if ka = kb then (if pick then a else b, .none)
    else if decide (ka < kb) != lo then (b, .none) else (a, .none)

end Sys2Proof.Machine
end

