-- ==== Sys2Proof/Machine/Sfu.lean ====
section
/-! DEFINITION. The functions of the special-function unit (04 R91): each result is a free FP32 value held to the bound of Table
FMT-9 (02 R45), the correctly rounded value standing in for a free value outside it. -/

namespace Sys2Proof.Machine

/-- The operations of Table BDL-10. -/
inductive SfuOp where
  | rcp | rsqrt | exp | exp2 | log | log2 | tanh | sigm | sin | cos | expd
  deriving DecidableEq, Repr

/-- The negative of a dyadic. -/
def Dy.neg (a : Dy) : Dy := ⟨-a.m, a.e⟩
/-- The magnitude of a dyadic. -/
def Dy.abs (a : Dy) : Dy := ⟨a.m.natAbs, a.e⟩
/-- Order of dyadics. -/
def Dy.le (a b : Dy) : Bool := decide ((a.add b.neg).m ≤ 0)
/-- A dyadic as an exact value. -/
def Dy.xv (a : Dy) : XV := .fin (a.m < 0) a.m.natAbs a.e

/-- Fraction bits of the working fixed point. -/
def sfuP : Nat := 160
/-- floor(ln 2 · 2^160). -/
def ln2P : Nat := 1013035739299659071135698605846798551586536899366
/-- floor(pi · 2^160). -/
def piP : Nat := 4591442807048218921384805199743311128454155024418

/-- Fraction bits of log2 of `y` at scale 2^160 by repeated squaring. -/
def logBitsP : Nat → Nat → Nat → Nat
  | 0, _, acc => acc
  | k + 1, y, acc =>
    let z := (y * y) >>> 160
    if z < 2 ^ 161 then logBitsP k z (2 * acc) else logBitsP k (z >>> 1) (2 * acc + 1)
/-- log2 (m · 2^e) at scale 2^128. -/
def log2P (m : Nat) (e : Int) : Int :=
  let l := Nat.log2 m
  let y := if 160 ≤ l then m >>> (l - 160) else m <<< (160 - l)
  ((l : Int) + e) * 2 ^ 128 + (logBitsP 128 y 0 : Nat)

/-- A Taylor sum: `t` is term `n`; each next term is `t · z / (n + 1)` at scale 2^160. -/
def taylorExp : Nat → Nat → Nat → Nat → Nat → Nat
  | 0, _, _, _, acc => acc
  | k + 1, n, z, t, acc => taylorExp k (n + 1) z (((t * z) >>> 160) / (n + 1)) (acc + t)
/-- 2^(x / 2^160). -/
def pow2P (x : Int) : Dy :=
  let k := x / 2 ^ 160
  let z := ((x % 2 ^ 160).toNat * ln2P) >>> 160
  ⟨(taylorExp 48 0 z (2 ^ 160) 0 : Nat), k - 160⟩
/-- A finite value at scale 2^160, toward zero. -/
def fixP (m : Nat) (e : Int) : Nat := if 0 ≤ e + 160 then m <<< (e + 160).toNat else m >>> (-(e + 160)).toNat
/-- exp of (-1)^neg · m · 2^e; beyond |x| = 512 only its side of the format's range matters. -/
def expP (neg : Bool) (m : Nat) (e : Int) : Dy :=
  if m ≠ 0 ∧ 9 ≤ (Nat.log2 m : Int) + e then (if neg then ⟨1, -700⟩ else ⟨1, 700⟩)
  else
    let x := ((fixP m e) <<< 160) / ln2P
    pow2P (if neg then -(x : Int) else x)
/-- exp2, in the same way. -/
def exp2P (neg : Bool) (m : Nat) (e : Int) : Dy :=
  if m ≠ 0 ∧ 9 ≤ (Nat.log2 m : Int) + e then (if neg then ⟨1, -700⟩ else ⟨1, 700⟩)
  else pow2P (if neg then -(fixP m e : Int) else fixP m e)
/-- Integer square root by Newton's iteration from above. -/
def isqrtFrom : Nat → Nat → Nat → Nat
  | 0, _, x => x
  | k + 1, n, x =>
    let y := (x + n / x) / 2
    if y < x then isqrtFrom k n y else x
/-- floor of the square root. -/
def isqrt (n : Nat) : Nat := if n = 0 then 0 else isqrtFrom 400 n (1 <<< (Nat.log2 n / 2 + 1))
/-- sin (or cos) Taylor terms with alternating signs at scale 2^160. -/
def taylorTrig : Nat → Nat → Int → Int → Int → Int
  | 0, _, _, _, acc => acc
  | k + 1, n, z2, t, acc =>
    taylorTrig k (n + 2) z2 (-((t * z2) / 2 ^ 160) / ((n + 1) * (n + 2))) (acc + t)
/-- The argument reduced to [-pi, pi) at scale 2^160. -/
def reducePi (neg : Bool) (m : Nat) (e : Int) : Int :=
  let x : Int := if neg then -(fixP m e : Int) else fixP m e
  (x + piP) % (2 * piP) - piP

/-- The exact value of a function at a finite argument, to far more than FP32 precision; none where the spec states no
result (1/0, a logarithm of a value not above 0, a sine beyond 2^15). -/
def sfuExact (op : SfuOp) (neg : Bool) (m : Nat) (e : Int) : Option Dy :=
  let one : Nat := 2 ^ 160
  match op with
  | .rcp => if m = 0 then none else
      let q : Int := ((1 <<< 200) / m : Nat)
      some ⟨if neg then -q else q, -200 - e⟩
  | .rsqrt => if m = 0 ∨ neg then none else
      let m' := if e % 2 = 0 then m else 2 * m
      let e' := if e % 2 = 0 then e else e - 1
      some ⟨(isqrt ((1 <<< 400) / m') : Nat), -200 - e' / 2⟩
  | .exp | .expd => some (expP neg m e)
  | .exp2 => some (exp2P neg m e)
  | .log => if m = 0 ∨ neg then none else some ⟨log2P m e * ln2P, -288⟩
  | .log2 => if m = 0 ∨ neg then none else some ⟨log2P m e, -128⟩
  | .tanh =>
      if m = 0 then some ⟨0, 0⟩
      else
        let mag : Dy :=
          if (Nat.log2 m : Int) + e < -20 then ⟨(m * (one - (fixP (m * m) (2 * e)) / 3) : Nat), e - 160⟩
          else
            let t := expP true m (e + 1)
            let u := fixP t.m.natAbs t.e
            ⟨(((one - u) <<< 160) / (one + u) : Nat), -160⟩
        some (if neg then mag.neg else mag)
  | .sigm =>
      let t := expP true m e
      let u := fixP t.m.natAbs t.e
      if neg then some ⟨(t.m.natAbs * ((one <<< 160) / (one + u)) : Nat), t.e - 160⟩
      else some ⟨((one <<< 160) / (one + u) : Nat), -160⟩
  | .sin =>
      if m ≠ 0 ∧ (15 < (Nat.log2 m : Int) + e ∨ ((Nat.log2 m : Int) + e = 15 ∧ m ≠ 1 <<< Nat.log2 m)) then none
      else
        let r := reducePi neg m e
        some ⟨taylorTrig 40 1 ((r * r) / 2 ^ 160) r 0, -160⟩
  | .cos =>
      if m ≠ 0 ∧ (15 < (Nat.log2 m : Int) + e ∨ ((Nat.log2 m : Int) + e = 15 ∧ m ≠ 1 <<< Nat.log2 m)) then none
      else
        let r := reducePi neg m e
        some ⟨taylorTrig 40 0 ((r * r) / 2 ^ 160) (2 ^ 160) 0, -160⟩

/-- The value an FP32 candidate counts as in a bound: an infinity counts as 2^128, the first value beyond range. -/
def candDy (c : Nat) : Dy :=
  match fpVal .fp32 c with
  | .fin neg m e => ⟨if neg then -(m : Int) else m, e⟩
  | .inf neg => ⟨if neg then -1 else 1, 128⟩
  | _ => ⟨0, 0⟩
/-- The spacing of FP32 at a code. -/
def ulpDy (c : Nat) : Dy :=
  let e := (c >>> 23) % 256
  ⟨1, (max (min e 254) 1 : Nat) - 150⟩
/-- `k` units in the last place. -/
def ulps (k : Nat) (c : Nat) : Dy := ⟨k, (ulpDy c).e⟩

/-- Whether candidate `c` lies within the bound Table FMT-9 gives for the operation, around the exact value `a`. -/
def sfuWithin (op : SfuOp) (a : Dy) (c : Nat) : Bool :=
  let d := ((candDy c).add a.neg).abs
  !(fpVal .fp32 c).isNaN &&
  match op with
  | .rcp => d.le (ulps 1 c)
  | .rsqrt | .exp | .exp2 | .expd => d.le (ulps 2 c)
  | .log | .log2 => d.le (ulps 2 c) || (!(Dy.le ⟨1, 0⟩ a.abs) && d.le ⟨1, -22⟩)
  | .tanh | .sigm => d.le (ulps 3 c)
  | .sin | .cos => d.le ⟨1, -21⟩

/-- A result the spec bounds: the free candidate where it lies within the bound, else the correctly rounded value. An
infinity from a finite operand sets OVF (02 R28). -/
def bounded (ok : Nat → Bool) (cand : Nat) (a : XV) : Nat × Flags :=
  if ok cand then (cand, { ovf := (fpVal .fp32 cand).isInf })
  else toFp .fp32 .rne false 0 a

/-- A result the spec does not state: a free value, NaN made canonical (02 R28), and free INV and OVF flags. -/
def freeResult (draw i : Nat) : Nat × Flags :=
  let c := (Config.freeWord draw i).toNat
  (if (fpVal .fp32 c).isNaN then Fmt.canonNaN .fp32 else c,
   { inv := Config.freeBit draw (2 * i), ovf := Config.freeBit draw (2 * i + 1) })

/-- One function of one FP32 operand (04 R91). -/
def sfuFn (op : SfuOp) (draw i a : Nat) : Nat × Flags :=
  match fpVal .fp32 a with
  | .nan => (Fmt.canonNaN .fp32, .I)
  | .fin neg m e =>
    match sfuExact op neg m e with
    | some x => bounded (sfuWithin op x) (Config.freeWord draw i).toNat x.xv
    | none => freeResult draw i
  | _ => freeResult draw i

/-- One lane of an SFU operation; EXPD is an FP32 subtraction and then exp (04 R91). -/
def sfuLane (op : SfuOp) (draw i a b : Nat) : Nat × Flags :=
  match op with
  | .expd =>
    let d := fpAdd .fp32 a (fpNeg .fp32 b)
    let r := sfuFn .expd draw i d.1
    (r.1, Flags.or d.2 r.2)
  | op => sfuFn op draw i a

/-- Latencies of Table BDL-10. -/
def SfuOp.latency : SfuOp → Nat
  | .rcp | .rsqrt => 6
  | .exp | .exp2 | .log | .log2 => 8
  | .expd => 9
  | .tanh | .sigm | .sin | .cos => 10

/-- The FP32 sum of a list of lanes, in any order (04 Table BDL-8, VRSUM and VSCAN): a free value within the bound of Table
FMT-9 for combining partial sums, else the exact sum rounded once. One lane alone is its own sum. -/
def laneSum (draw i : Nat) (xs : List Nat) : Nat × Flags :=
  let vs := xs.map (fpVal .fp32)
  let r := xsum vs
  match r.1 with
  | .fin _ _ _ =>
    if xs.length ≤ 1 then fpRound .fp32 r.1 r.2
    else
      let s := dySum (vs.map fun v => match v with | .fin _ m e => XV.fin false m e | v => v)
      let bound : Dy := ⟨s.m * (xs.length - 1 : Nat), s.e - 24⟩
      let a := r.1.dy
      bounded (fun c => !(fpVal .fp32 c).isNaN && (((candDy c).add a.neg).abs).le bound)
        (Config.freeWord draw i).toNat r.1
  | x => fpRound .fp32 x r.2

end Sys2Proof.Machine
end

