-- ==== Sys2Proof/Machine/State.lean ====
section
/-! DEFINITION. The state of the GH960 as plain data: every register, buffer, counter, mode and pin the spec names, the queue
of waiting commands, and the state right after reset. A `Map` field lists only the keys that differ from the default its
accessor names. -/

namespace Sys2Proof.Machine

/-- Why the machine stops. Every fault of the GH960 is architected state (17 R375): no command of the model raises this one,
so it is safe; it stands so that the type is not empty. -/
inductive Fault where
  /-- Raised by no command (safe). -/
  | unused
  deriving DecidableEq, Repr

/-- Why a command has no meaning. -/
inductive Refusal where
  /-- Raised by the dispatch for a command not modelled yet (safe). -/
  | notModelled (mnemonic : String)
  deriving DecidableEq, Repr

/-! ### Cores (03, 04) -/

/-- The VEC operations of Table BDL-8. -/
inductive VecOp where
  | vadd | vsub | vmul | vfma | vmax | vmin | vabs | vneg | vhadd | vhmul | vhfma | viadd | visub | viadds | vimul | vand
  | vor | vxor | vshl | vshr | vsra | vcmpeq | vcmplt | vcmple | vsel | vmov | vbcast | vperm | vrsum | vrmax | vscan | vcvt
  deriving DecidableEq, Repr

/-- One open loop level (04 R79, R96). -/
structure LoopLvl where
  start : Nat
  stop : Nat
  count : Word
  deriving DecidableEq, Repr

/-- Where a result goes when it becomes visible (04 R76, R77). Lane-wise results list the lanes they write. -/
inductive Dest where
  | none
  | v (reg : Nat) (lanes : List (Nat × Word))
  | s (reg : Nat) (x : DWord)
  | a (reg : Nat) (x : Word)
  | p (reg : Nat) (mask x : BitVec 256)
  deriving DecidableEq, Repr

/-- A result in flight: the cycle it becomes visible in, its slot, its issue order (04 R76, R77). -/
structure Result where
  due : Nat
  slot : Nat
  seq : Nat
  dest : Dest
  flags : Flags
  deriving DecidableEq, Repr

/-- What a scratchpad read of cycle t + 1 is for (04 R89, R93). -/
inductive LoadKind where
  | vld (reg : Nat) (mask : BitVec 256)
  | sld (reg : Nat)
  | ald (reg : Nat)
  | pld (reg : Nat)
  | vec (op : VecOp) (f : VecF) (mask : BitVec 256) (a c : List Word) (draw : Nat)
  deriving DecidableEq, Repr

/-- A scratchpad read waiting for its cycle; `offs` are byte offsets of what it reads, 16 bytes (or `width`) each. -/
structure Load where
  at_ : Nat
  due : Nat
  slot : Nat
  seq : Nat
  pc : Nat
  kind : LoadKind
  offs : List Nat
  width : Nat
  deriving DecidableEq, Repr

/-- A scratchpad write waiting for its cycle (04 R82, R93). -/
structure Store where
  at_ : Nat
  pc : Nat
  chunks : List (Nat × List Byte)
  deriving DecidableEq, Repr

/-- A stream context (03 R55, 04 R87). `gen` numbers the SOPEN that opened it. -/
structure StreamCtx where
  opened : Bool := false
  gen : Nat := 0
  base : Nat := 0
  plane : Nat := 0
  lw : Bool := false
  fmtb : Nat := 0
  total : Nat := 0
  consumed : Nat := 0
  deriving DecidableEq, Repr

/-- Where the B units of a step come from (03 R54, R55): scratchpad addresses, or step `j` of a stream, as its context stood. -/
inductive BSrc where
  | pad (units planes : List Nat)
  | stream (x : StreamCtx) (ctx : Bool) (j : Nat)
  deriving DecidableEq, Repr

/-- A cube step in flight (03 R49): its accumulator, formats, operand addresses, and the units read so far (key r for A row r,
8 + 8k + n for B column n of cube k; each unit's bytes as one little-endian number, and its plane byte). -/
structure CubeStep where
  t : Nat
  acc : Nat
  zero : Bool
  fa : Fmt
  fb : Fmt
  ta : Int
  tb : Int
  aFree : Bool
  draw : Nat
  pc : Nat
  aUnits : List (Option Nat)
  aPlanes : List Nat
  b : BSrc
  units : Map (Nat × Nat)
  deriving DecidableEq, Repr

/-- A drain in flight (04 R86): the elements read so far, by lane of the register pair. -/
structure Drain where
  t : Nat
  acc : Nat
  vd : Nat
  zero : Bool
  seq : Nat
  vals : List (Nat × Word)
  deriving DecidableEq, Repr

/-- A stream line in the feeder buffer (03 R55): its bytes, its plane line, and which 64-byte codewords could not be read
(03 R62, 06 R139). -/
structure FeedLine where
  gen : Nat
  line : Nat
  bytes : List Byte
  plane : List Byte
  bad : List Nat
  planeBad : Bool
  code : Nat
  ma : Nat
  deriving DecidableEq, Repr

/-- The window configuration of a RUN (03 R57). -/
structure Window where
  fmt : Nat
  kf : Nat
  twoD : Bool
  base : Nat
  chans : Nat
  inW : Nat
  inH : Nat
  pitchW : Int
  pitchH : Int
  kw : Nat
  kh : Nat
  sw : Nat
  sh : Nat
  dw : Nat
  dh : Nat
  pw : Nat
  ph : Nat
  outW : Nat
  deriving DecidableEq, Repr

/-- Why a RUN stops (04 R74, R75, R98): code, program counter, slot, detail. -/
structure StopInfo where
  code : Nat
  pc : Nat
  slot : Nat
  detail : Nat
  deriving DecidableEq, Repr

/-- A taken branch whose redirect is pending (04 R95): the cycle it acts from and its target. -/
structure Redirect where
  at_ : Nat
  target : Nat
  deriving DecidableEq, Repr

/-- The RUN in progress (05 R109; 04 R95 to R97). `left` holds the ticks left of LIMIT while suspended. -/
structure RunState where
  queue : Nat
  limit : Option Nat
  ticks : Nat
  left : Option Nat
  nextIssue : Nat
  redirect : Option Redirect
  ended : Bool
  suspended : Bool
  skipBkpt : Bool
  oneShot : Bool
  stop : Option StopInfo
  deriving DecidableEq, Repr

/-- A feeder hold in progress (03 R56): the time it began, and the tick and drop as a position its limit counts from (11 R245, R248). -/
structure Hold where
  time : Nat
  pos : Nat := 0
  deriving DecidableEq, Repr

/-- An asynchronous scratchpad access waiting for its bank (03 R61). -/
structure AsyncAcc where
  wr : Bool
  off : Nat
  data : BitVec 128
  deriving DecidableEq, Repr

/-- What waits for a scratchpad bank, or for a core whose clock is withheld (03 R61, R68): an access of an asynchronous port by itself, or
one bank word (`n` bytes at module address `ma`) of the request part of arrival number `seq`. -/
inductive AsyncItem where
  | port (a : AsyncAcc)
  | word (seq ma n : Nat)
  deriving DecidableEq, Repr

/-! ### Queues, descriptors and flags (05) -/

/-- The states of CORE_QSTAT (05 R129). -/
inductive QState where
  | idle | issuing | waitFlag | waitEngine | draining | halted
  deriving DecidableEq, Repr

/-- What a command that has issued and not completed is (05 R102): its list index, opcode and completion signal. -/
structure InCmd where
  idx : Nat
  op : Nat
  sig : Option (Nat × Word)
  deriving DecidableEq, Repr

/-- A registered FLAG_WAIT (05 R121, R122). -/
structure FWait where
  idx : Nat
  flag : Nat
  eq : Bool
  target : Word
  ticks : Nat
  expiry : Nat
  peer : Option (Nat × Nat)
  sig : Option (Nat × Word)
  /-- Updates of its port still on their way to its home before it (10 R223): it is registered once there are none. -/
  behind : Nat := 0
  deriving DecidableEq, Repr

/-- A FENCE in progress (05 R102, R107): the command's index, its completion signal, and DINV. -/
structure FenceSt where
  idx : Nat
  dinv : Bool
  sig : Option (Nat × Word)
  deriving DecidableEq, Repr

/-- A command fetched and not issued (05 R105): the 32 bytes. -/
abbrev Cmd := BitVec 256

/-- A queue (05 R101 to R130). `record` is the fault record of R126 as one number. -/
structure Queue where
  base : BitVec 48 := 0
  count : Word := 0
  ptr : Word := 0
  lastFault : Half := 0
  st : QState := .idle
  fetched : List Cmd := []
  inflight : List InCmd := []
  wait : Option FWait := none
  fence : Option FenceSt := none
  running : Option InCmd := none
  record : BitVec 512 := 0
  deriving DecidableEq, Repr

/-- A tensor descriptor as read (05 R112): its 128 bytes as one number. -/
abbrev Desc := BitVec 1024

/-- A DMA channel (05 R104, R118): the accepted command, its descriptors, and how far it has come. -/
structure DmaCh where
  queue : Nat
  idx : Nat
  cmd : Cmd
  src : Desc
  dst : Desc
  next : Nat
  stop : Nat
  stopped : Bool
  /-- The block of a paged side in progress: its (reservoir, frame) as source and as destination, and the index after its last token
  (09 R211). -/
  page : Option ((Nat × Nat) × (Nat × Nat) × Nat) := none
  deriving DecidableEq, Repr

/-- A core with its queues (03, 04, 05). -/
structure Core where
  v : Map Word := []
  s : Map DWord := []
  a : Map Word := []
  p : Map (BitVec 256) := []
  acc : Map Word := []
  loops : List LoopLvl := []
  pc : Nat := 0
  sticky : Flags := {}
  /-- Conversions made since the stochastic-rounding generators of VEC0, VEC1 and the DMA stage (0 to 2) were restarted (02 R41). -/
  rng : Map Nat := []
  clrfAt : Option (Nat × Nat) := none
  bkptEn : Bool := false
  wcoll : Bool := false
  wcollFile : BitVec 4 := 0
  wcollReg : BitVec 6 := 0
  wcollWin : BitVec 3 := 0
  wcollLose : BitVec 3 := 0
  markCount : Word := 0
  markPc : BitVec 19 := 0
  cycle : Nat := 0
  seq : Nat := 0
  /-- The last cycle in which a result became visible, a store was written or a step landed (04 R97). -/
  lastVis : Nat := 0
  busy : Map Nat := []
  results : List Result := []
  loads : List Load := []
  stores : List Store := []
  steps : List CubeStep := []
  drains : List Drain := []
  ctx0 : StreamCtx := {}
  ctx1 : StreamCtx := {}
  gens : Nat := 0
  lines : List FeedLine := []
  hold : Option Hold := none
  window : Option Window := none
  run : Option RunState := none
  lastRunQ : BitVec 2 := 3
  cycExec : DWord := 0
  cycSwallow : DWord := 0
  cycFeed : DWord := 0
  cycBank : DWord := 0
  clocks : Nat := 0
  /-- The time the core was last reset at (03 Table COR-7). -/
  clockFrom : Nat := 0
  feedLimit : Half := 0x0040
  refusals : Map Nat := []
  asyncWait : List AsyncItem := []
  /-- What the last asynchronous read delivered (03 R61), and whether the access met an uncorrectable word (03 R62). -/
  asyncData : BitVec 128 := 0
  asyncBad : Bool := false
  /-- Scratchpad and bundle-store words corrected (03 R62: corrected and counted). -/
  sramFixed : Nat := 0
  siteLogical : BitVec 9 := 0
  site : BitVec 10 := 0
  cubeLock : Bool := false
  cubeRepaired : Byte := 0
  eqMode : Bool := false
  rowMap : Map (BitVec 4) := []
  queues : Map Queue := []
  dma : Map (Option DmaCh) := []
  descs : List (Nat × Desc) := []
  deriving DecidableEq, Repr

/-- Who made the last update of a flag (05 R120). -/
inductive Updater where
  | never
  | host
  | queue (core q : Nat)
  deriving DecidableEq, Repr

/-- A flag (05 R119, R120). -/
structure Flag where
  value : Word := 0
  last : Updater := .never
  deriving DecidableEq, Repr

/-- An update on its way to a flag's home (05 R120). `done` names the FLAG_SET command it completes, and `wcs` the host
command, if any. -/
structure FlagUpd where
  part : Nat
  flag : Nat
  add : Bool
  value : Word
  by_ : Updater
  done : Option (Nat × Nat × Nat)
  wcs : Option (Nat × Nat)
  deriving DecidableEq, Repr

/-! ### Memory codewords, cisterns and reservoirs (03, 06, 07) -/

/-- What is wrong with a stored codeword (06 R138, 07 R167): poison, and symbol errors as XOR values by symbol 0 to 71. -/
structure CwErr where
  poison : Bool := false
  syms : Map Byte := []
  deriving DecidableEq, Repr

/-- Who issued a memory request and so takes its completion (17 Table ERR-3). -/
inductive Who where
  | port (p : Nat)
  | dma (core ch row : Nat)
  | hostRead (tag : Nat)
  | hostWrite
  | wellhead
  | scrub
  | hostDma (sq cid : Nat)
  | fetch (core queue : Nat)
  | desc (core ma : Nat)
  /-- A reservoir's launch engine: the image of the BANK command a queue stands at, the vector and the status record of launch `n`. -/
  | bankImage (core queue : Nat)
  | bankVec (k n : Nat)
  | bankStatus (n : Nat)
  /-- A walker: the operand and the outputs of a pass read on stripe `k`, the pages copied for an edit of a sequence. -/
  | pass (part slot k : Nat)
  | passOut (part slot k : Nat)
  | attCopy (seq : Nat)
  /-- A link engine's streams, by context. -/
  | linkTx (ctx : Nat)
  | linkRx (ctx : Nat)
  /-- What the wellhead writes for a command of the host. -/
  | wcs (sq cid : Nat)
  /-- The wellhead's evacuation of a sub-channel or a channel. -/
  | evac (cist : Bool) (owner ch : Nat)
  deriving DecidableEq, Repr

/-- A latency a sluice measures (10 R231): the master and target it is of, the time it runs from, and the responses it still waits for
(the first of a read, every one of a write). -/
structure LatRun where
  master : Nat
  target : Nat
  since : Nat
  left : Nat
  deriving DecidableEq, Repr

/-- A request under way, whole (10 R409): its parts still to be answered, what those answered delivered by address, and the fault it will
complete with (code, address, sub-detail). `acc` says that it is one of an access under way. -/
structure MemReq where
  id : Nat
  who : Who
  port : Nat
  wr : Bool
  ma : Nat
  len : Nat
  acc : Bool := false
  left : Nat := 0
  got : List (Nat × List Byte) := []
  fault : Option (Nat × Nat × Nat) := none
  lats : List LatRun := []
  deriving DecidableEq, Repr

/-- One part of a request (10 R409): its bytes in one channel, sub-channel or memory, as runs (address, length) within granules in
ascending order, and for a write their data. `port` is the originating port, `via` the port number it carries for arbitration (10 R224);
`near` are the accounts (master, target) it counts against at its own port, `far` at the bridge endpoint that forwards it (10 R228). -/
structure ReqPart where
  id : Nat
  who : Who
  port : Nat
  via : Nat
  part : Option Nat
  wr : Bool
  runs : List (Nat × Nat)
  data : List Byte := []
  near : List (Nat × Nat) := []
  far : List (Nat × Nat) := []
  /-- Tick, time and number of its arrival at the target, once it has arrived (06 R141, R149; 07 R163). -/
  arrived : Option (Nat × Nat × Nat) := none
  /-- The codewords a write stores as poison in place of data, by address (06 R146; 07 R167). -/
  poison : List Nat := []
  /-- Whether it entered a channel's hold queue (07 R163). -/
  inHold : Bool := false
  deriving DecidableEq, Repr

/-- The parts of a request that are held whole at a sluice, of its own port or (`there`) of the bridge endpoint (10 R230, R409), and the
epochs in a row in which a target granted its master nothing while it was held, by target. -/
structure HeldReq where
  id : Nat
  who : Who
  port : Nat
  part : Option Nat
  there : Bool
  parts : List ReqPart
  starved : Map Nat := []
  /-- Accounts it counts against beside those of its parts, with the flits at each (12 R269). -/
  extra : List ((Nat × Nat) × Nat) := []
  deriving DecidableEq, Repr

/-- What waits at a bridge endpoint for the end of its direction's calibration window (10 R227): a request on its way to the other die, or
the response of a part on its way back. -/
inductive BrItem where
  | go (h : HeldReq)
  | back (p : ReqPart) (code ma sub : Nat) (data : List Byte)
  deriving DecidableEq, Repr

/-- A part that has arrived at a core's scratchpad or bundle store (03 R61, R62, R68): the core, its arrival number, how many bank words are
still to be served, what those served read, and the lowest address found uncorrectable. -/
structure PadPart where
  core : Nat
  seq : Nat
  p : ReqPart
  todo : Nat
  got : List (Nat × List Byte) := []
  bad : Option Nat := none
  deriving DecidableEq, Repr

/-- A request of an access under way: its number, the bytes it is of, and what it came to: a fault code (0 for none), its address and the
data. -/
structure AccReq where
  id : Nat
  ma : Nat
  len : Nat
  res : Option (Nat × Nat × List Byte) := none
  deriving DecidableEq, Repr

/-- An access of a master made as requests: those made so far, in their order, the one the master stands at, and whether all of it is done
(the model's own record). -/
structure HeldAcc where
  who : Who
  pos : Nat := 0
  reqs : List AccReq := []
  fin : Bool := false
  deriving DecidableEq, Repr

/-- The state of a sub-channel or channel (06 R153, 07 R175). -/
inductive ChState where
  | active | retiring | retired
  deriving DecidableEq, Repr

/-- A cistern sub-channel (06). `erase` maps a group to its permanently erased pin plus one; `prov` lists provisional
erasures (group, pin); `run` holds run lengths of consecutive codewords in error by pin (key 72·group + pin). -/
structure SubCh where
  st : ChState := .active
  whold : Bool := false
  refRate : BitVec 2 := 0
  spares : BitVec 5 := 0
  erase : Map Nat := []
  prov : List (Nat × Nat) := []
  dead : List (Nat × Nat) := []
  run : Map Nat := []
  window : Bool := false
  waiting : List ReqPart := []
  held : List ReqPart := []
  owed : Nat := 0
  refreshes : Nat := 0
  rows : Map Nat := []
  corrected : Word := 0
  uncorr : Half := 0
  poison : Half := 0
  deriving DecidableEq, Repr

/-- A core's cistern (06 R132, R153). -/
structure Cistern where
  present : BitVec 4 := 0xF
  active : BitVec 4 := 0xF
  wholdLimit : Half := 0x061A
  subs : Map SubCh := []
  deriving DecidableEq, Repr

/-- An evacuation in progress or waiting for a target (06 R146, R147; 07 R171): the element, since when it waits, its target
once it runs, the bursts or granules copied, and the codewords or granules of them written as poison. -/
structure Evac where
  cist : Bool
  owner : Nat
  ch : Nat
  since : Nat
  target : Option DWord
  pos : Nat := 0
  poisoned : Nat := 0
  deriving DecidableEq, Repr

/-- A scrub pass in progress (06 R150, R151; 17 R382, R383). -/
structure Scrub where
  sq : Nat
  cid : Nat
  start : Nat
  len : Nat
  poison : Bool
  deriving DecidableEq, Repr

/-- An item in a channel arbiter's order (07 R162): a part of a request, a launch by its number, or an injected hold by its number. -/
inductive ArbItem where
  | req (r : ReqPart)
  | launch (n : Nat)
  | hold (n : Nat)
  deriving DecidableEq, Repr

/-- An item with its place (07 R162): the bank-clock cycle of its arrival, and its rank among the items of that cycle (a request's port
number, 64 + a launch's partition, 128 for a hold). -/
structure ArbEntry where
  cycle : Nat
  rank : Nat
  item : ArbItem
  deriving DecidableEq, Repr

/-- A reservoir channel (07). `ops` is the arbiter's order not yet performed; `launch` the launch (or injected hold) whose
program holds the channel. -/
structure Chan where
  st : ChState := .active
  proc : Bool := false
  window : Bool := false
  refRate : BitVec 2 := 0
  erase : Option Nat := none
  prov : List Nat := []
  dead : List Nat := []
  run : Map Nat := []
  spares : BitVec 2 := 0
  rows : Map Nat := []
  maxHold : Half := 0
  held : Half := 0
  ops : List ArbEntry := []
  current : Option ArbItem := none
  refreshes : Nat := 0
  owed : Nat := 0
  corrected : Word := 0
  uncorr : Half := 0
  poison : Half := 0
  skimPos : Nat := 0
  skimDue : Nat := 0
  /-- BNK_CH_RUN (08 R198); ACTIVE is `current`. -/
  runNs : Word := 0
  runPart : BitVec 5 := 0
  runPauses : Half := 0
  deriving DecidableEq, Repr

/-! ### Events (14) -/

/-- One configuration change to record in the audit log (14 R322). -/
structure Audit where
  origin : Nat
  oclass : Nat
  object : Nat
  old : DWord
  new : DWord
  odetail : Nat
  deriving DecidableEq, Repr

/-- What an event reports (14 R319; 17 R378, R379): a coded event with its partition and detail words, a queue's halt on a
fault with its record, a queue's return to IDLE, a WCS completion, a doorbell, a JOB_ABORT taken (13 R302), the
end of a job for another reason (13 R301), or a configuration change alone. -/
inductive EvBody where
  | ev (code : Nat) (part : Option Nat) (d : List DWord)
  | queueFault (core q : Nat) (code : Nat) (record : BitVec 512)
  | queueIdle (core q : Nat)
  | completion (sq cid status fault : Nat) (r : List DWord)
  | doorbell (kind ring value : Nat)
  | abort (sq cid : Nat)
  | jobEnd (sq cid status fault : Nat)
  | change
  deriving DecidableEq, Repr

/-- An event waiting in its source's buffer (14 R320): when it was posted, its source of Table WHD-7, what it reports and
the configuration changes it makes. -/
structure Event where
  post : Nat
  src : Nat
  body : EvBody
  audits : List Audit
  deriving DecidableEq, Repr

/-! ### Clepsydra (11) -/

/-- The states of CLP_STAT (11 R251). -/
inductive ClpMode where
  | freeRun | acquire | locked | holdover | phaseError
  deriving DecidableEq, Repr

/-- The clepsydra (11). A tick takes 1,024 + `rate` drops of true time; `sub` is what of a drop has passed, in parts of that number, and
`slew` what is left of the slew or the pull that `rate` is for, in drops; `lossTime` when the cadence was lost; `run` pulses in
consecutive ticks, `lastPulse` and `pulseAt` the tick and the time of the last; `missing` whether the last expected pulse was absent,
`missTick` its tick; `lastBad` the turn of the last misalignment; `newTurns` and `resyncs` the timebase commands that wait; `s2Lock`
whether S2 waits for a marker, `s2Pulses` whether it has seen pulses in its first millisecond; `loads` how often the counter's copy of each
compute die (0, 1) and reservoir base die (2 to 9) has been loaded (R240, R252). -/
structure Clep where
  tick : BitVec 48 := 0
  drop : BitVec 10 := 0
  sub : Nat := 0
  mode : ClpMode := .freeRun
  rate : Int := 0
  slewing : Bool := false
  slew : Int := 0
  phase : Word := 0
  lossTime : Option Nat := none
  everLocked : Bool := false
  uncertSent : Bool := false
  missed : Word := 0
  markerErr : Byte := 0
  relocks : Byte := 0
  late : Half := 0
  cfgLock : Bool := false
  turnEvt : Bool := false
  cadDelay : BitVec 10 := 0
  thresh : BitVec 20 := 0x00400
  lastPulse : Option Nat := none
  pulseAt : Option Nat := none
  run : Nat := 0
  missing : Bool := false
  missTick : Option Nat := none
  lastBad : Option Nat := none
  turnSet : Bool := false
  newTurns : List (Nat × Nat × Word) := []
  resyncs : List (Nat × Nat) := []
  lastTurn : Option Nat := none
  s2Lock : Bool := false
  s2Pulses : Bool := false
  loads : Map Nat := []
  masked : Bool := false
  deriving DecidableEq, Repr

/-! ### Network, sluices, repair record (10, 15) -/

/-- NET_FENCE of a compute die (10 R236, R237). -/
structure NetFence where
  fenced : Bool := false
  cause : BitVec 3 := 0
  rsv : BitVec 4 := 0
  deriving DecidableEq, Repr

/-- The account of one master at one target (10 R229, R230): its share, what is left of the allowance, debt, whether it was
active in this and the last epoch. -/
structure SluAcct where
  weight : Byte := 0
  guar : BitVec 11 := 0
  allow : Nat := 0
  latest : Nat := 0
  debt : Nat := 0
  active : Bool := false
  deriving DecidableEq, Repr

/-- SLU_LAT of one master and target class (10 R231, R237). -/
structure SluLat where
  isOver : Bool := false
  thresh : Half := 0
  maxNs : Half := 0
  deriving DecidableEq, Repr

/-- A repair record entry (15 R342, Table BUP-7). -/
structure RepEnt where
  cls : Byte
  st : Byte
  action : Half
  elem : Word
  source : Byte
  found : Word
  deriving DecidableEq, Repr

/-- A bridge bundle in one direction (10 R225, R226, R237). `failing` are lanes declared and not yet replaced, `bad` every lane
found bad, `parity` errors of this turn by lane, `inject` transmissions that an
injection makes fail. -/
structure Bundle where
  st : BitVec 2 := 0
  spares : BitVec 3 := 0
  replays : Half := 0
  failing : List Nat := []
  bad : List Nat := []
  parity : Map Nat := []
  inject : Nat := 0
  deriving DecidableEq, Repr

/-- One mesh row of a bridge direction (10 R225). At its receiving end: the next flit in order, those that came early, those delivered, and
the replays asked for (bundle, flit). At its sending end: the flits dealt, those kept for replay (flit, bundle), and those sent again over
another bundle (R226). -/
structure BrRow where
  next : Nat := 0
  early : Map (Option (BitVec 512)) := []
  out : List (BitVec 512) := []
  asked : List (Nat × Nat) := []
  dealt : Nat := 0
  sent : List (Nat × Nat) := []
  resent : List (Nat × Nat) := []
  deriving DecidableEq, Repr

/-! ### Heat and power (16) -/

/-- THM_WEIR_j of a region (16 R357, R373): engagement, the core throttled, its swallow, and the comparison of R357. -/
structure Weir where
  engaged : Bool := false
  core : BitVec 9 := 0
  escalations : Byte := 0
  swallow : Byte := 0
  deriving DecidableEq, Repr

/-- The ramp gate (16 R364, R373): target, gate swallow, which of the 256 stages are open, the next to open, and for how many
slots each stage's cores have had no RUN. -/
structure Gate where
  target : Half := 0
  sg : Byte := 0
  opened : BitVec 256 := 0
  next : Byte := 0
  idle : Map Nat := []
  deriving DecidableEq, Repr
/-! ### Bank units (08) -/

/-- A bank-unit accumulator (02 R39): its value is a · 2^(e - 30). -/
structure Acc where
  a : Int := 0
  e : Int := -128
  deriving DecidableEq, Repr

/-- A result of a stream instruction not yet readable (08 R187): kind 0 accumulators, 1 vector buffer, 2 registers, 3 granules;
the first and the number of them; the unit cycle they can be read from. -/
structure BRes where
  kind : Nat
  lo : Nat
  n : Nat
  ready : Nat
  deriving DecidableEq, Repr

/-- A granule write of an ST not yet written out (08 R184, R195): when it begins, in ns of the program, the granule, its bytes (none for
poison) and the flags of its elements. -/
structure GranW where
  start : Nat
  gran : Nat
  bytes : Option (List Byte)
  flags : Flags
  deriving DecidableEq, Repr

/-- A bank unit running a launch (08 R177, R179). `vb` lists the vector-buffer codes that differ from the launch's vector. -/
structure BUnit where
  pc : Nat := 0
  g : Map Word := []
  acc : Map Acc := []
  accTaint : Map Bool := []
  vb : Map (Option Byte) := []
  vbTaint : Map Bool := []
  loops : List LoopLvl := []
  flags : Flags := {}
  cycles : Nat := 0
  waits : List BRes := []
  /-- Granule writes of its last ST, each written out once the program has come past it (the model's own list). -/
  writes : List GranW := []
  pauses : Nat := 0
  ended : Bool := false
  deriving DecidableEq, Repr

/-- What a launch runs: a bank program, or the score or second read of a pass slot (08 R189; 09 R216). -/
inductive LKind where
  | bank
  | score (part slot : Nat)
  | apply (part slot : Nat)
  deriving DecidableEq, Repr

/-- A launch (08 R189 to R197; 09 R216): who gave it, what it runs, where, how far it has come. `ordered` is the mask of
reservoirs that have ordered it; `left` the channels of each reservoir not back in memory mode. -/
structure Launch where
  kind : LKind
  core : Nat
  queue : Nat
  idx : Nat
  part : Nat
  image : List DWord
  chMask : Word
  rsvMask : Byte
  statusMA : Nat
  arg0 : Word
  arg1 : Word
  /-- Where the vector lies and its bytes, for the fetch each reservoir makes in staging (08 R192). -/
  vec : Option (Nat × Nat) := none
  vecs : List (Nat × List Byte)
  ordered : Byte
  left : Map Word
  units : Map BUnit
  fault : Option (Nat × Nat)
  runNs : Nat
  tainted : Nat
  pauses : Nat
  flags : Flags
  deriving DecidableEq, Repr

/-- The registers of a reservoir that no channel owns (07 R175; 08 R198; 09 R219). -/
structure Rsv where
  budgetUs : Half := 0x0032
  launches : Word := 0
  budgetStops : Half := 0
  tainted : Half := 0
  bnkFlags : Flags := {}
  slotBase : BitVec 14 := 0
  slotCount : BitVec 14 := 0
  passLimit : Half := 0x061A
  passes : Word := 0
  cow : Half := 0
  expired : Half := 0
  spareUsed : Bool := false
  spareFor : BitVec 5 := 0
  busyCount : Half := 0
  skimEnable : Bool := true
  skimPoison : Bool := true
  skimPeriod : BitVec 20 := 0x005A0
  skimPasses : Word := 0
  skimBehind : Word := 0
  skimCorrected : Word := 0
  skimUncorr : Half := 0
  skimPoisoned : Half := 0
  deriving DecidableEq, Repr

/-! ### Attention (09) -/

/-- A sequence context (09 R202) with its page table's entries by l · CAP + b (09 R203). -/
structure SeqCtx where
  isOpen : Bool := false
  part : BitVec 5 := 0
  layers : Byte := 0
  toff : Byte := 0
  openPasses : Byte := 0
  len : Word := 0
  cap : BitVec 17 := 0
  tableMA : BitVec 48 := 0
  table : Map Word := []
  deriving DecidableEq, Repr

/-- A pooled frame (09 R201, R210). It is free while both counts are 0. -/
structure PFrame where
  part : Nat
  refs : Nat
  pins : Nat
  deriving DecidableEq, Repr

/-- A pass slot's state (09 R217). -/
inductive PassSt where
  | free | opened | expired
  deriving DecidableEq, Repr

/-- What a unit of the score read has formed for each head (09 R212): its maximum, its sum, whether tainted. -/
structure UnitSum where
  k : Nat
  unit : Nat
  heads : List (Nat × Nat × Bool)
  deriving DecidableEq, Repr

/-- What a unit of the second read has formed (09 R214): for each head 512 sums as FP32 codes, each with whether it is tainted. -/
structure UnitPart where
  k : Nat
  unit : Nat
  heads : List (List (Nat × Bool))
  deriving DecidableEq, Repr

/-- A page of a pass: its block, its reservoir and frame. -/
structure PassPage where
  block : Nat
  k : Nat
  frame : Nat
  deriving DecidableEq, Repr

/-- A pass slot (09 R212 to R217). `read` is 0 for none, 1 for the score read, 2 for the second read; `cmd` the SCORE or APPLY in
progress; `owner` the queue that opened it; `launched` and `done` the stripes whose launch is ordered and whose outputs are written. -/
structure Pass where
  st : PassSt := .free
  seq : Nat := 0
  layer : Nat := 0
  first : Nat := 0
  len : Nat := 0
  tick : Nat := 0
  heads : Nat := 0
  pages : List PassPage := []
  read : Nat := 0
  cmd : Option (Nat × Nat × Nat) := none
  owner : Option (Nat × Nat) := none
  ha : Desc := 0
  hb : Desc := 0
  launched : Byte := 0
  done : Byte := 0
  sums : List UnitSum := []
  parts : List UnitPart := []
  poison : Option Nat := none
  deriving DecidableEq, Repr

/-- An ATT command accepted and not performed (09 R206, R207): its queue and index, its words, its descriptors. -/
structure AttItem where
  core : Nat
  queue : Nat
  idx : Nat
  part : Nat
  cmd : Cmd
  ha : Desc
  hb : Desc
  /-- A paged-DMA translation in place of a command: the channel of the core, and the sequences in whose orders it stands (09 R207). -/
  trans : Option (Nat × List Nat) := none
  /-- The pages an APPEND has reserved and copies into: layer, block, the shared page and the new one (09 R209). -/
  plan : Option (List (Nat × Nat × Nat × Nat)) := none
  deriving DecidableEq, Repr

/-! ### Partitions (10 R232) -/

/-- A partition: its clusters (0: it does not exist), its descriptor table, its contexts and pass slots (10 R232; 09 R219;
12 R265). -/
structure Part where
  clusters : Word := 0
  desc : BitVec 48 := 0
  seqBase : Half := 0
  seqCount : BitVec 17 := 0
  strBase : Half := 0
  strCount : Half := 0
  passSlots : BitVec 7 := 0
  /-- The unit that each stripe's last page came from (09 R201), one more than its number, by reservoir. -/
  lastUnit : Map Nat := []
  deriving DecidableEq, Repr


/-! ### Moarex links (12) -/

/-- STATE of LNK_PORT_STAT (12 R262, R280). -/
inductive PortSt where
  | disabled | down | training | up
  deriving DecidableEq, Repr

/-- What a port has sent: a numbered message, or a cell (12 R259, R261). -/
inductive LinkOut where
  | hdr (h : FrameHdr)
  | cell (frame place : Nat) (c : Cell)
  deriving DecidableEq, Repr

/-- Something sent, with its port and tick; `bad` where an injection makes its CRC fail (17 R387). -/
structure LinkSent where
  port : Nat
  tick : Nat
  bad : Bool
  what : LinkOut
  deriving DecidableEq, Repr

/-- A control message on its way into frame headers (12 R261): its number, the frames it is still to go out in, and the WCS command that
completes once it has been sent twice (13 R297). -/
structure OutMsg where
  num : Half
  msg : LinkMsg
  left : Nat := 2
  cmd : Option (Nat × Nat) := none
  deriving DecidableEq, Repr

/-- A lane change that waits for its turn (12 R257). -/
structure LanePlan where
  map : List Nat
  width : Nat
  turn : Word
  lane : Nat
  deriving DecidableEq, Repr

/-- A Moarex port (12 R253 to R263, R280). `rxMap` and `txMap` list the physical lanes by logical lane; `good` headers in a row while it
trains; `seen` the numbers acted on; `admits` requests for contexts not armed, with their ticks; `laneCorr` corrected symbols of
this turn by lane; `dropCells` and `silentTo` injections in effect; `lastTick` the tick its sender served last; `outbox` messages to be sent; `offered` the queues whose SEND or RECV the engine holds. -/
structure Port where
  st : PortSt := .disabled
  sync : Bool := false
  peerLocked : Bool := false
  txWidth : Nat := 0
  rxWidth : Nat := 0
  txMap : List Nat := []
  rxMap : List Nat := []
  txGood : BitVec 22 := 0
  rxGood : BitVec 22 := 0
  rxFailed : BitVec 22 := 0
  txFailed : BitVec 22 := 0
  txPlan : List LanePlan := []
  rxPlan : List LanePlan := []
  peerNode : BitVec 6 := 0
  peerLink : BitVec 5 := 0
  peerPort : BitVec 5 := 0
  peerTurn : Word := 0
  tickNear : Bool := false
  lastHdr : Nat := 0
  good : Nat := 0
  corrected : Word := 0
  uncorr : Half := 0
  hdrBad : Half := 0
  stale : Half := 0
  broken : Half := 0
  cancelled : Half := 0
  refused : Byte := 0
  cfgLock : Bool := false
  peerResetEn : Bool := false
  admitWait : Half := 0x061A
  laneCorr : Map Nat := []
  msgNo : Half := 0
  seen : List Half := []
  admits : List (Nat × LinkMsg) := []
  dropCells : Nat := 0
  silentTo : Option Nat := none
  lastTick : Option Nat := none
  outbox : List OutMsg := []
  offered : List (Nat × Nat) := []
  deriving DecidableEq, Repr

/-- A transmit stream (12 R264 to R271): its command, fields, source, and how far it has come. `admitted` is its place in the order of
admissions; `cancel` a cancellation requested, with the fault its command takes unless a reset abandons it. -/
structure TxStream where
  port : Nat
  core : Nat
  queue : Nat
  idx : Nat
  peer : Nat
  tag : Word
  bytes : Nat
  cells : Nat
  rate : Nat
  start : Nat
  startTick : Nat
  gap : Nat
  src : Desc
  feed : Option Nat
  admitted : Option Nat
  epoch : Byte
  sent : Nat
  lastTick : Option Nat
  cancel : Option (Option Nat)
  dead : Bool
  deriving DecidableEq, Repr

/-- A receive context, armed or open (12 R264 to R273): `next` the cell expected, `committed` bursts, `out` what of the burst
`committed` is still to be written (row, first element, codes) once it is formed, `waiting` cells not yet in the spillway, `drain`
the cells to accept after a CANCEL. -/
structure RxStream where
  port : Nat
  core : Nat
  queue : Nat
  idx : Nat
  tag : Word
  gap : Nat
  dst : Desc
  spill : Desc
  opnd : Desc
  comb : Nat
  burst : Nat
  spilln : Nat
  bflag : Option Nat
  armTick : Nat
  armLimit : Nat
  epoch : Byte
  sctx : Nat
  admitted : Bool
  bytes : Nat
  cells : Nat
  gapFrom : Nat
  next : Nat
  committed : Nat
  out : Option (List (Nat × Nat × List Nat))
  waiting : List (Nat × List Byte)
  drain : Option Nat
  dead : Bool
  deriving DecidableEq, Repr

/-! ### Host interface (13) -/

/-- A ring (13 R291 to R296): its registers, the entries in use, those written since its last interrupt and when the first of them was, and
events dropped since the last one written. -/
structure HostRing where
  addr : BitVec 52 := 0
  enable : Bool := false
  halted : Bool := false
  log2n : BitVec 5 := 0
  cq : BitVec 4 := 0
  vector : Byte := 0
  coalUs : Half := 0
  coalCnt : Half := 1
  lost : Half := 0
  head : Half := 0
  tail : Half := 0
  phase : Bool := true
  used : Nat := 0
  fresh : Nat := 0
  firstAt : Option Nat := none
  lostHere : Half := 0
  deriving DecidableEq, Repr

/-- An MSI-X vector (13 R282, R296): the PCI Express specification masks every vector at reset. -/
structure Msix where
  addr : DWord := 0
  data : Word := 0
  masked : Bool := true
  pending : Bool := false
  deriving DecidableEq, Repr

/-- How a host read ends (13 Table HST-3). -/
inductive CplSt where
  | ok | poisoned | ur | ca
  deriving DecidableEq, Repr

/-- What the hub sends to the host: a memory write, an MSI-X message, a read completion (13 R287, R294 to R296, R303). -/
inductive HostOut where
  | write (addr : DWord) (relaxed : Bool) (bs : List Byte)
  | msix (addr : DWord) (data : Word)
  | cpl (tag : Nat) (st : CplSt) (bs : List Byte)
  deriving DecidableEq, Repr

/-- A host read in progress (13 R287, R289): its parts still missing, what they gave by address, and the first fault by row
(code, address, sub-detail). -/
structure HostRead where
  tag : Nat
  ma : Nat
  len : Nat
  since : Nat
  data : List Byte
  fault : Option (Nat × Nat × Nat)
  deriving DecidableEq, Repr

/-- A WCS command taken (13 R293): 0 not started, 1 started, 2 its completion posted, 3 its completion waits for its ring. `todo` is what
a started one has still to write to module memory, with a number it keeps for its end. -/
structure WcsCmd where
  sq : Nat
  cid : Nat
  part : Nat
  opc : Nat
  order : Bool
  w : List DWord
  stage : Nat
  todo : Option (Nat × List (Nat × List Byte)) := none
  deriving DecidableEq, Repr

/-- A completion sequenced and waiting for its ring (13 R294). -/
structure CqWait where
  sq : Nat
  cid : Nat
  opc : Nat
  status : Nat
  fault : Nat
  result : List DWord
  esn : DWord
  tick : Nat
  deriving DecidableEq, Repr

/-- A job (13 R301, R302): its command, its queues, those whose return to IDLE is not yet sequenced, its limit, the end decided
(status, fault, core, queue) while its queues still halt, and the JOB_ABORTs that wait for it. -/
structure Job where
  sq : Nat
  cid : Nat
  part : Nat
  queues : List (Nat × Nat)
  left : List (Nat × Nat)
  limit : Option Nat
  ended : Option (Nat × Nat × Nat × Nat)
  aborts : List (Nat × Nat)
  deriving DecidableEq, Repr

/-- A program handle (13 R299, R300): the profile generation it was loaded at and its stamp words. -/
structure Prog where
  gen : Word
  stamp : List DWord
  deriving DecidableEq, Repr

/-- A HOST_DMA transfer (13 R303): bytes of the bursts in flight by offset, bytes committed, when data last came. -/
structure Hdma where
  sq : Nat
  cid : Nat
  out : Bool
  log2 : Nat
  host : DWord
  ma : Nat
  len : Nat
  gapUs : Nat
  sig : Option (Nat × Nat)
  got : Map (Option Byte)
  committed : Nat
  lastAt : Nat
  deriving DecidableEq, Repr

/-- PCI Express configuration the rules name (13 R282): BAR2's size at reset is 16 GiB; `maxPayload` and `maxRead` are Device Control's
codes (128 bytes times two to their power), with the reset values of PCI Express. -/
structure PciCfg where
  bar2Log : BitVec 6 := 34
  bar0 : DWord := 0
  bar2 : DWord := 0
  relaxed : Bool := true
  maxPayload : BitVec 3 := 0
  maxRead : BitVec 3 := 2
  msixEn : Bool := false
  msixMask : Bool := false
  deriving DecidableEq, Repr

/-- A host access that the hub holds back behind an earlier posted write (13 R286): of BAR0, of BAR2, of register space, or a write of one
register of BAR0. -/
inductive HubAcc where
  | bar0 (tag off n : Nat) (data : Option DWord)
  | read (tag off n : Nat)
  | write (off : Nat) (bs : List Byte)
  | reg (off n : Nat) (d : DWord)
  | sqDoorbell (ring tail : Nat)
  | headDoorbell (kind ring head : Nat)
  | enable (ring : Nat) (cfg : Word)
  | unmask (vector : Nat)
  deriving DecidableEq, Repr

/-- Host-side registers and tables (13). Rings are 0 to 15 submission, 16 to 31 completion, 32 the event ring; `lastSq` is the
submission ring served last; `hub` holds accesses the hub has received and not performed, oldest first, with their arrival times. -/
structure HostIf where
  hub : List (Nat × HubAcc) := []
  regWin : BitVec 23 := 0x01F800
  win : BitVec 20 := 0
  wprot : Bool := false
  winEn : Bool := false
  faultCode : Half := 0
  faultMA : BitVec 48 := 0
  faultValid : Bool := false
  faultCount : Word := 0
  rings : Map HostRing := []
  msix : Map Msix := []
  lastSq : Nat := 15
  taken : List WcsCmd := []
  cqWait : List CqWait := []
  reads : List HostRead := []
  jobs : List Job := []
  records : List (Nat × Nat) := []
  progs : Map (Option Prog) := []
  hdma : List Hdma := []
  cancels : List (Nat × Nat × Nat) := []
  wallNs : DWord := 0
  deriving DecidableEq, Repr

/-! ### Wellhead (14; 17 R385 to R389) -/

/-- An audit entry as written (14 R322), its eight words. -/
structure AuditEnt where
  esn : DWord
  index : DWord
  pos : DWord
  wall : DWord
  a : Audit
  deriving DecidableEq, Repr

/-- The running firmware (14 R308, R324). -/
structure Firmware where
  version : DWord := 0
  svn : BitVec 6 := 0
  commit : Bool := false
  wcs : Word := 0
  key : List Byte := []
  deriving DecidableEq, Repr

/-- Fuses (13 R283; 14 R309, R312, R314, R324): fixed at test but for the revocation counter. `bad` is the fuse map's elements. -/
structure Fuses where
  stepping : Byte := 0
  gradeB : Bool := false
  moduleId : BitVec 256 := 0
  clusterOff : Word := 0
  portOff : BitVec 20 := 0
  keyHash : BitVec 512 := 0
  counter : BitVec 6 := 0
  bad : List (Byte × Word) := []
  deriving DecidableEq, Repr

/-- A half of the repair record in flash (15 R342, R343). -/
structure RecHalf where
  valid : Bool := false
  gen : DWord := 0
  startNo : Word := 0
  quick : Half := 0
  lastFull : Word := 0
  ents : List RepEnt := []
  deriving DecidableEq, Repr

/-- Flash (14 R307): the firmware image, the licence store by feature, the persistent parameters and the two halves of the repair
record. -/
structure Flash where
  image : List Byte := []
  licences : Map (List Byte) := []
  params : Map (Option DWord) := []
  recA : RecHalf := {}
  recB : RecHalf := {}
  deriving DecidableEq, Repr

/-- An injection (17 R386, R387): its command, type, target, parameter, position (0 at once), and, once applied, its number and when
its effect ends (a tick or a count of samples, by type). -/
structure Inj where
  sq : Nat
  cid : Nat
  ty : Nat
  w1 : Nat
  w2 : Nat
  pos : Nat
  applied : Option Nat
  stop : Nat
  deriving DecidableEq, Repr

/-- The wellhead's own state (14 R324). `dropSent` says that WHD_AUDIT_DROPPED was posted since the last export. -/
structure Wellhead where
  fw : Firmware := {}
  recovery : Bool := false
  cause : BitVec 4 := 0
  esn : DWord := 0
  audit : List AuditEnt := []
  auditIndex : DWord := 0
  auditDropped : Word := 0
  dropSent : Bool := false
  wdogExpiries : Byte := 0
  wdogMs : Half := 0x07D0
  injLock : Bool := false
  injEn : Bool := false
  injCount : Word := 0
  injs : List Inj := []
  counterRetry : Option Nat := none
  deriving DecidableEq, Repr

/-! ### Reset and bring-up (15, 18) -/

/-- A partial reset in progress (15 R345 to R347): scope 2 die, 3 reservoir, 4 partition, 5 core; its object; its command. -/
structure PartialReset where
  sq : Nat
  cid : Nat
  scope : Nat
  object : Nat
  full : Bool
  deriving DecidableEq, Repr

/-- The contacts that hold the module in reset and the board's straps (15 R327, R332, R394); the trip latch. -/
structure Pins where
  vin48 : Bool := false
  pwrOk : Bool := false
  modResetN : Bool := true
  perstN : Bool := true
  trip : Bool := false
  thermTripN : Bool := true
  alertN : Bool := true
  rails : Bool := false
  modId : BitVec 4 := 0xF
  bootMode : BitVec 2 := 0b11
  deriving DecidableEq, Repr

/-- Bring-up (15 R331 to R349): BUP_START, BUP_RECORD_STAT, the stage reports, the stage in progress and since when; `holding` while
the module is held in reset, `resumeS1` where S1 restarts at the release; `fullAsked`
a WCS RESET with FULL; elements found in this start and spares assigned in the stage. -/
structure Bup where
  source : BitVec 4 := 0
  cold : Bool := false
  full : Bool := false
  bootMode : BitVec 2 := 0b11
  modId : BitVec 4 := 0xF
  s1Restarts : BitVec 2 := 0
  degraded : Bool := false
  failed : Bool := false
  quick : Byte := 0
  recGen : DWord := 0
  recHalf : Bool := false
  recValid : Bool := false
  recPending : Bool := false
  recFull : Bool := false
  recEntries : BitVec 20 := 0
  reports : Map (BitVec 256) := []
  stage : BitVec 4 := 0
  running : Bool := false
  since : Nat := 0
  ready : Bool := false
  holding : Bool := true
  resumeS1 : Bool := false
  nextSource : BitVec 4 := 0
  nextCold : Bool := true
  fullAsked : Bool := false
  repairs : Nat := 0
  retired : Nat := 0
  firstFault : Half := 0
  ucl : BitVec 4 := 0
  node : BitVec 6 := 0
  tray : List Nat := []
  recRetry : Nat := 0
  deriving DecidableEq, Repr

/-! ### Sensors, coolant, power (16) -/

/-- A diode of a twin site (16 R351 to R354): its last reading, how many samples in a row it was out of band or, while suspect, in
band and suspect; whether it is suspect or ejected. -/
structure Diode where
  value : Int := 0
  outRun : Nat := 0
  inRun : Nat := 0
  susRun : Nat := 0
  suspect : Bool := false
  ejected : Bool := false
  deriving DecidableEq, Repr

/-- A twin site (16 R350 to R355, R373): its active diodes, whether its spare is in service and which original diodes were ejected,
samples in a row that they differ, whether its bands are narrowed, its control value, whether that is an estimate, and `act`, the control value
of the sample before, which every rule uses until the next sample (R351). -/
structure Site where
  d0 : Diode := {}
  d1 : Diode := {}
  spareUsed : Bool := false
  wasEjected : BitVec 2 := 0
  apart : Nat := 0
  check : Bool := false
  narrow : Bool := false
  ctrl : Int := 0
  act : Int := 0
  est : Bool := false
  off0 : Int := 0
  off1 : Int := 0
  offN0 : Nat := 0
  offN1 : Nat := 0
  deriving DecidableEq, Repr

/-- Corrected symbols of the channels beneath a site (16 R352): the count at the last sample, those of the windows of this turn, and
the mean of the turn before. -/
structure SymHist where
  last : Nat := 0
  recent : List Nat := []
  turn : Nat := 0
  prevTurn : Nat := 0
  deriving DecidableEq, Repr

/-- COOLANT of THM_STAT (16 Table THM-4). -/
inductive Coolant where
  | normal | alarm | emergency | halted
  deriving DecidableEq, Repr

/-- A region's engagement (16 R357): since when, the excess at the last comparison, and when the next comparison falls. -/
structure Engage where
  since : Nat
  last : Int
  due : Nat
  deriving DecidableEq, Repr

/-- Sensors, coolant, the power cap and the trip (16 R373). Temperatures are in 0.125 °C, R_th in 10^-6 °C/W. `flows` are recent flow
readings, newest first; `lowSince`, `goodSince`, `fullSince` when the flow passed the levels of Table THM-4; `rths` the
samples of the last 10 s; `emAct` an entry to EMERGENCY not yet acted on; `layerHot` whether a layer over a region calls for a write hold
(key 4 · region + layer); `coreAct` the control values of the core diodes in force; `rsvRate` the refresh rate of each reservoir layer by its site; `budget` the row of Table THM-3 by the site beneath. -/
structure Thermal where
  sites : Map Site := []
  cores : Map Diode := []
  coreAct : Map Int := []
  sym : Map SymHist := []
  samples : Nat := 0
  lastSample : Option Nat := none
  coolant : Coolant := .normal
  emSince : Nat := 0
  emTemps : List Int := []
  emAct : Bool := false
  layerHot : Map Bool := []
  rsvRate : Map Nat := []
  trayLost : BitVec 3 := 0
  missRuns : List Nat := [0, 0, 0]
  goodRuns : List Nat := [0, 0, 0]
  inlet : Int := 0
  outlet : Int := 0
  flow : Nat := 0
  lastReading : Option Nat := none
  flows : List (Nat × Nat) := []
  lowSince : Option Nat := none
  goodSince : Option Nat := none
  fullSince : Option Nat := none
  inputRange : Bool := false
  tripValid : Bool := false
  tripSite : BitVec 9 := 0
  tripPosted : Bool := true
  capW : Half := 0
  lawW : Half := 0
  escW : Half := 0x12C0
  vin : Half := 0
  sampleW : Half := 0
  slotW : Half := 0
  rth : Half := 0x3E80
  rths : List (Nat × Nat) := []
  slotSum : Nat := 0
  slotN : Nat := 0
  slotAt : Option Nat := none
  prevSlotW : Nat := 0
  lawAt : Option Nat := none
  engaged : Map (Option Engage) := []
  quietSince : Option Nat := none
  escAt : Option Nat := none
  convLost : Nat := 0
  gateLock : Bool := false
  fillEn : Bool := false
  idleSlots : Half := 0x05F6
  budget : Map Nat := []
  deriving DecidableEq, Repr

/-- The state of the GH960. -/
structure State where
  /-- The commands that wait, first in, first out. -/
  pending : List Instr := []
  /-- Drops of true time since reset (the model's own field). -/
  time : Nat := 0
  /-- The number the next free value is drawn with (the model's own field). -/
  free : Nat := 0
  /-- Every byte of module memory that is not 0, by module address (reservoir bytes by their per-stack address). -/
  mem : List Host.Cell := []
  /-- Codewords with errors or poison, by module address ÷ 64. -/
  cw : Map CwErr := []
  /-- Flipped bits of scratchpad and bundle-store words, by module address ÷ 8. -/
  sram : Map (BitVec 72) := []
  cores : Map Core := []
  /-- Logical cores of the module (01 R15): 0 before stage S5 of a start. -/
  nCores : Nat := 0
  /-- The time the clocks were last started at (15 R331). -/
  clockFrom : Nat := 0
  cisterns : Map Cistern := []
  chans : Map Chan := []
  /-- Events posted and not yet sequenced, in posting order (14 R320). -/
  events : List Event := []
  rsvs : Map Rsv := []
  /-- What completed requests delivered, by who issued them, oldest first: the fault code (0 for none), its sub-detail
  (17 Table ERR-4, layout A) and the data (the model's own record of what left the memory). -/
  memDone : List (Who × Nat × Nat × List Byte) := []
  /-- Bank programs and pass reads in progress, by number; the next number. -/
  launches : Map (Option Launch) := []
  launchNo : Nat := 0
  seqs : Map SeqCtx := []
  /-- Pooled frames by 2^22 · reservoir + frame. -/
  pool : Map (Option PFrame) := []
  /-- Pass slots by 64 · partition + slot. -/
  passes : Map Pass := []
  /-- ATT commands accepted and not performed, oldest first. -/
  att : List AttItem := []
  parts : Map Part := []
  /-- WH_LICENCE (14 R317, R324). -/
  licPorts : BitVec 3 := 0
  licCompute : Bool := false
  licMulti : Bool := false
  licLong : Bool := false
  licParts : BitVec 6 := 1
  clp : Clep := {}
  /-- Bundles by 64 · direction + b, rows by 4 · direction + y; directions whose window is open (10 R225 to R227). -/
  bundles : Map Bundle := []
  brRows : Map BrRow := []
  brWindow : BitVec 2 := 0
  /-- Evacuations, in the order declared (06 R146, R147; 07 R171). -/
  evacs : List Evac := []
  /-- Clusters held out in service (15 R339). -/
  heldOut : List Nat := []
  /-- Generation of the device profile (14 R317; 17 R381). -/
  profGen : Word := 0
  /-- The logical map the device profile records: the physical site of each logical core (01 R15). -/
  profMap : List Nat := []
  /-- Parameters that differ from their defaults, by key and partition as W0 packs them (14 R318). -/
  params : Map (Option DWord) := []
  /-- Flags by 4,096 · partition + flag (05 R119). -/
  flags : Map Flag := []
  flagUpds : List FlagUpd := []
  /-- NET_CLUSTER_PART of cluster 16d + 4r + c: its partition (10 R237). -/
  clusterPart : Map (Option (BitVec 5)) := []
  /-- NET_CLUSTER_PART RETIRED bits by cluster (10 R237). -/
  clusterRetired : Map Bool := []
  netFence : Map NetFence := []
  /-- Partitions whose reset is in progress (10 R235). -/
  partReset : List Nat := []
  /-- Cores whose reset is in progress (15 R347). -/
  coreReset : List Nat := []
  /-- SLU_CAP of each target; none is the value of Table NET-3. -/
  sluCap : Map (Option (BitVec 20)) := []
  slu : Map SluAcct := []
  /-- Whether firmware has set the shares of this start (10 R230). -/
  fwShares : Bool := false
  sluLat : Map SluLat := []
  /-- Requests a sluice holds, oldest first (10 R230). -/
  sluHeld : List HeldReq := []
  /-- What waits at the bridge for the end of a calibration window, by the die its direction leaves, oldest first (10 R227). -/
  brWait : List (Nat × BrItem) := []
  /-- Requests under way and the number of the next; the number of the next arrival at a target (10 R409). -/
  reqs : List MemReq := []
  reqNo : Nat := 0
  arrNo : Nat := 0
  /-- Parts that wait in a core's ingress buffers (03 R61, R68). -/
  ingress : List PadPart := []
  /-- Accesses under way that are made as requests (the model's own record). -/
  accs : List HeldAcc := []
  /-- RSV_STACK_MAP of reservoir k: PRESENT, ACTIVE (07 R172, R175). -/
  rsvPresent : Map Word := []
  rsvActive : Map Word := []
  /-- BNK_CHSET of key 32k + p: the channels of reservoir k in partition p's set (08 R190, R198). -/
  chset : Map Word := []
  /-- Injected pin errors in effect (17 R387): element key, pin, codewords left. -/
  pinInj : List (Nat × Nat × Nat) := []
  /-- The repair map in use with changes not yet written (15 R342 to R344), and when the first of them was made. -/
  repairs : List RepEnt := []
  repDirty : Option Nat := none
  /-- START_NO of BUP_START (15 R348). -/
  startNo : Word := 0
  /-- THM_WEIR_j by region (16 R373). -/
  weirs : Map Weir := []
  gate : Gate := {}
  /-- Every core fully swallowed, while the coolant state is HALTED (16 R368). -/
  allSwallowed : Bool := false
  /-- Ports, transmit streams and receive contexts by context, the EPOCH of each context, the number of the next admission, and what
  the ports have sent, oldest first (12). -/
  ports : Map Port := []
  txs : Map (Option TxStream) := []
  rxs : Map (Option RxStream) := []
  epochs : Map Byte := []
  admNo : Nat := 0
  linkOut : List LinkSent := []
  /-- The host interface and what the hub has sent to the host, oldest first (13). -/
  host : HostIf := {}
  hostOut : List HostOut := []
  /-- PCI Express configuration (13 R282). -/
  pci : PciCfg := {}
  /-- Wellhead, fuses and flash (14). -/
  wh : Wellhead := {}
  fuses : Fuses := {}
  flash : Flash := {}
  /-- Scrub passes in progress (06 R150; 17 R382 to R384). -/
  scrubs : List Scrub := []
  /-- Contacts, bring-up and partial resets, oldest first (15, 18). -/
  pins : Pins := {}
  bup : Bup := {}
  partials : List PartialReset := []
  /-- Heat and power (16). -/
  thm : Thermal := {}
  /-- The test access port's instruction state is the reset one (15 R330; 18 R400). -/
  tapReset : Bool := true
  deriving DecidableEq, Repr

/-- The machine right after reset. -/
def State.reset : State := {}

end Sys2Proof.Machine
end

