-- ==== Sys2Proof/Machine/Ops.lean ====
section
/-! DEFINITION. The named operations over the state: accessors, the address map (01 R17 to R20; 06 R133; 07 R156, R157),
codewords and SRAM words with their codes (03 R62; 06 R137 to R142; 07 R165 to R167), reads and writes of module memory, and
the posting of events (14 R319). -/

namespace Sys2Proof.Machine

/-- A number kept to a ceiling: a saturating counter. -/
def satAdd {w : Nat} (x : BitVec w) (n : Nat) : BitVec w :=
  if 2 ^ w ≤ x.toNat + n then BitVec.ofNat w (2 ^ w - 1) else BitVec.ofNat w (x.toNat + n)

/-- Bits [hi:lo] of a number. -/
def bitsOf (x lo n : Nat) : Nat := (x >>> lo) % 2 ^ n
/-- A number of `w` bits read as signed. -/
def signedOf (w x : Nat) : Int := if x % 2 ^ w < 2 ^ (w - 1) then (x % 2 ^ w : Nat) else ((x % 2 ^ w : Nat) : Int) - 2 ^ w
/-- A signed number as `w` bits. -/
def wrapTo (w : Nat) (x : Int) : Nat := (x % 2 ^ w).toNat
/-- The number whose little-endian bytes are listed (00 R4). -/
def leNat : List Byte → Nat
  | [] => 0
  | b :: bs => b.toNat + 256 * leNat bs
/-- The `n` little-endian bytes of a number (00 R4). -/
def leBytes : Nat → Nat → List Byte
  | 0, _ => []
  | n + 1, x => BitVec.ofNat 8 x :: leBytes n (x / 256)
/-- The number of ones among the low `n` bits. -/
def popCount : Nat → Nat → Nat
  | 0, _ => 0
  | n + 1, x => x % 2 + popCount n (x / 2)
/-- The positions of the ones among the low `n` bits, ascending. -/
def onesOf (n x : Nat) : List Nat := (List.range n).filter fun i => x.testBit i
/-- Bytes `from` to `from + n - 1` of a number. -/
def field (x off lo n : Nat) : Nat := (x >>> (8 * off + lo)) % 2 ^ n

/-! ### Accessors -/

/-- A core (by logical number). -/
def State.core (s : State) (n : Nat) : Core := Map.get {} s.cores n
/-- A core replaced. -/
def State.setCore (s : State) (n : Nat) (c : Core) : State := { s with cores := Map.set {} s.cores n c }
/-- A core's cistern. -/
def State.cist (s : State) (n : Nat) : Cistern := Map.get {} s.cisterns n
/-- A core's cistern replaced. -/
def State.setCist (s : State) (n : Nat) (c : Cistern) : State := { s with cisterns := Map.set {} s.cisterns n c }
/-- A sub-channel of a cistern. -/
def Cistern.sub (c : Cistern) (l : Nat) : SubCh := Map.get {} c.subs l
/-- A sub-channel of a core's cistern. -/
def State.sub (s : State) (n l : Nat) : SubCh := (s.cist n).sub l
/-- A sub-channel replaced. -/
def State.setSub (s : State) (n l : Nat) (x : SubCh) : State :=
  let c := s.cist n
  s.setCist n { c with subs := Map.set {} c.subs l x }
/-- Channel c of reservoir k. -/
def State.chan (s : State) (k c : Nat) : Chan := Map.get {} s.chans (32 * k + c)
/-- A channel replaced. -/
def State.setChan (s : State) (k c : Nat) (x : Chan) : State := { s with chans := Map.set {} s.chans (32 * k + c) x }
/-- A queue of a core. -/
def Core.queue (c : Core) (q : Nat) : Queue := Map.get {} c.queues q
/-- A queue of a core replaced. -/
def Core.setQueue (c : Core) (q : Nat) (x : Queue) : Core := { c with queues := Map.set {} c.queues q x }
/-- A queue. -/
def State.queue (s : State) (n q : Nat) : Queue := (s.core n).queue q
/-- A queue replaced. -/
def State.setQueue (s : State) (n q : Nat) (x : Queue) : State := s.setCore n ((s.core n).setQueue q x)
/-- The clepsydra's tick counter. -/
def State.tick (s : State) : Nat := s.clp.tick.toNat
/-- The clepsydra's position: tick shifted left by 10, with the drop below (11 R241). -/
def State.pos (s : State) : Nat := s.clp.tick.toNat * 1024 + s.clp.drop.toNat
/-- Whether the counter has reached tick `d`: the difference of the 48-bit counts, read as signed, is zero or more (11 R241). -/
def State.reached (s : State) (d : Nat) : Bool := decide ((s.tick + 2 ^ 48 - d % 2 ^ 48) % 2 ^ 48 < 2 ^ 47)
/-- Ticks left until tick `d`. -/
def State.ticksTo (s : State) (d : Nat) : Nat := if s.reached d then 0 else (d % 2 ^ 48 + 2 ^ 48 - s.tick) % 2 ^ 48
/-- The skew of a counter copy against the hub's counter, within 4 drops (11 R240); before its first load it has none. -/
def State.copySkew (s : State) (k : Nat) : Int :=
  match Map.get 0 s.clp.loads k with
  | 0 => 0
  | n => max (-4) (min 4 (Config.copySkew k n s.time))
/-- The position a counter copy reads: compute dies 0 and 1, reservoir base dies 2 to 9 (11 R240). -/
def State.copyPos (s : State) (k : Nat) : Nat := (((s.pos : Int) + s.copySkew k) % 2 ^ 58).toNat
/-- The tick a counter copy reads. -/
def State.copyTick (s : State) (k : Nat) : Nat := s.copyPos k / 1024
/-- Counter copies loaded from the hub (11 R252, Table CLP-3). -/
def State.loadCopies (s : State) (ks : List Nat) : State :=
  { s with clp := { s.clp with loads := ks.foldl (fun m k => Map.set 0 m k (Map.get 0 m k + 1)) s.clp.loads } }
/-- One draw number taken for free values (the model's own). -/
def State.draw (s : State) : State := { s with free := s.free + 1 }
/-- The compute die of a core (03 R66, CORE_SITE). -/
def State.dieOf (s : State) (n : Nat) : Nat := (s.core n).site.toNat / 512
/-- The cluster 16d + 4r + c of a core. -/
def State.clusterOf (s : State) (n : Nat) : Nat := (s.core n).site.toNat / 32
/-- The partition a core's cluster belongs to (10 R232, NET_CLUSTER_PART). -/
def State.partOf (s : State) (n : Nat) : Option Nat := (Map.get none s.clusterPart (s.clusterOf n)).map BitVec.toNat
/-- A flag of a partition. -/
def State.flag (s : State) (p f : Nat) : Flag := Map.get {} s.flags (4096 * p + f)
/-- PRESENT of RSV_STACK_MAP. -/
def State.present (s : State) (k : Nat) : Nat := (Map.get (0xFFFFFFFF#32) s.rsvPresent k).toNat
/-- ACTIVE of RSV_STACK_MAP. -/
def State.activeCh (s : State) (k : Nat) : Nat := (Map.get (0xFFFFFFFF#32) s.rsvActive k).toNat
/-- The channels of reservoir k in partition p's set (08 R190). -/
def State.chsetOf (s : State) (k p : Nat) : Nat := (Map.get (0 : Word) s.chset (32 * k + p)).toNat
/-- NET_FENCE of a die. -/
def State.fence (s : State) (d : Nat) : NetFence := Map.get {} s.netFence d
/-- Whether a compute die is fenced: the other die's NET_FENCE says so (10 R237). -/
def State.dieFenced (s : State) (d : Nat) : Bool := (s.fence (1 - d)).fenced
/-- Whether reservoir k is fenced (10 R236, R237). -/
def State.rsvFenced (s : State) (k : Nat) : Bool := (s.fence (k / 4)).rsv.toNat.testBit (k % 4)

/-- The clocks swallowed of every 256 at a core: the larger of the weir's and the gate's counts, or all while the coolant state
is HALTED (16 R356, R364, R368). -/
def State.swallow (s : State) (n : Nat) : Nat :=
  let w := Map.get {} s.weirs ((s.core n).site.toNat / 128)
  let weir := if w.engaged ∧ w.core.toNat = n then w.swallow.toNat else 0
  if s.allSwallowed then 256 else max weir s.gate.sg.toNat
/-- The random bits of the next conversion of one of a core's generators: 0 VEC0, 1 VEC1, 2 the DMA stage (02 R41). -/
def Core.rngBits (c : Core) (n u : Nat) : Nat → Nat := Config.stochBits (3 * n + u) (Map.get 0 c.rng u)
/-- A generator past one conversion (02 R41). -/
def Core.converted (c : Core) (u : Nat) : Core := { c with rng := Map.set 0 c.rng u (Map.get 0 c.rng u + 1) }
/-- Whether a core's clock runs: it is not withheld for a stream line, nor in every cycle (03 R56, R67). -/
def State.clocked (s : State) (n : Nat) : Bool := (s.core n).hold.isNone && decide (s.swallow n < 256)

/-! ### Events -/

/-- An event posted to its source's buffer (14 R319, R320). -/
def State.post (s : State) (src : Nat) (body : EvBody) (audits : List Audit := []) : State :=
  { s with events := s.events ++ [{ post := s.time, src := src, body := body, audits := audits }] }
/-- The events of a source that its full buffer of 1,024 has no room for yet (14 R320). -/
def State.heldEvents (s : State) (src : Nat) : List Event := (s.events.filter fun e => e.src == src).drop 1024
/-- Whether a queue stalls at the post of its halt or of its return to IDLE (14 R320). -/
def State.queueStalled (s : State) (n q : Nat) : Bool :=
  (s.heldEvents (3 + s.dieOf n)).any fun e => match e.body with
    | .queueFault m r _ _ | .queueIdle m r => m == n && r == q
    | _ => false
/-- Event `k` of a source enters its buffer at time `now` (14 R320). -/
def enterBuffer (src now : Nat) : Nat → List Event → List Event
  | _, [] => []
  | k, e :: es =>
    if e.src ≠ src then e :: enterBuffer src now k es
    else match k with
      | 0 => { e with post := now } :: es
      | k + 1 => e :: enterBuffer src now k es
/-- A coded event with its detail words (17 R378, R379). -/
def State.postEv (s : State) (src code : Nat) (part : Option Nat) (d : List Nat) : State :=
  s.post src (.ev code part (d.map (BitVec.ofNat 64)))

/-- The command a completion is of marked so: the oldest of its ring and CID that has none, and of its opcode where it is given (13 R294). -/
def markCmd (sq cid : Nat) (opc : Option Nat) : List WcsCmd → List WcsCmd
  | [] => []
  | w :: ws =>
    if w.sq = sq ∧ w.cid = cid ∧ w.stage < 2 ∧ (opc = none ∨ opc = some w.opc) then { w with stage := 2, todo := none } :: ws
    else w :: markCmd sq cid opc ws
/-- A WCS command completes: its completion is posted (13 R294; 14 R319), and the command stays taken until its entry is written. The configuration changes it makes carry the completion's ESN (14 R322). -/
def State.complete (s : State) (sq cid status fault : Nat) (r : List Nat) (audits : List Audit := []) (opc : Option Nat := none) : State :=
  { s with host := { s.host with taken := markCmd sq cid opc s.host.taken } }.post 14 
    (.completion sq cid status fault (r.map (BitVec.ofNat 64))) audits

/-- A command that ends where no rule states its status: the status is a free value. -/
def State.completeFree (s : State) (sq cid fault : Nat) : State :=
  (s.complete sq cid ((Config.freeWord s.free 0).toNat % 2 ^ 16) fault []).draw

/-- The words of a repair entry, layout R (17 Table ERR-4; 15 R342). -/
def RepEnt.words (e : RepEnt) : List Nat :=
  [e.cls.toNat * 2 ^ 56 + e.st.toNat * 2 ^ 48 + e.action.toNat * 2 ^ 32 + e.elem.toNat,
   e.source.toNat * 2 ^ 56 + e.found.toNat]
/-- A partition in the layout [4:0] number, [5] valid. -/
def partWord (p : Option Nat) : Nat := match p with | some p => 32 + p % 32 | none => 0

/-- A repair finding: it replaces the element's entry (state 0 removes it), BUP_REPAIR is posted (17 R380) with code `code`, the
record is to be written within a second (15 R344), and the change is audited (14 Table WHD-8, class 0x0B) with its origin: firmware in
service, the boot sequence in a start (15 R337). -/
def State.repair (s : State) (src cls elem st action : Nat) (part : Option Nat) (code : Nat := cBupRepair)
    (origin : Nat := 3) (source : Nat := 3) : State :=
  let old := (s.repairs.find? fun e => e.cls.toNat = cls ∧ e.elem.toNat = elem).map fun e => e.st.toNat
  let e : RepEnt := { cls := BitVec.ofNat 8 cls, st := BitVec.ofNat 8 st, action := BitVec.ofNat 16 action,
                      elem := BitVec.ofNat 32 elem, source := BitVec.ofNat 8 source, found := s.startNo }
  let rest := s.repairs.filter fun e => !(e.cls.toNat == cls && e.elem.toNat == elem)
  let s := { s with repairs := if st = 0 then rest else rest ++ [e],
                    repDirty := match s.repDirty with | some t => some t | none => some s.time }
  s.post src (.ev code part ((e.words ++ [partWord part, 0]).map (BitVec.ofNat 64)))
    [{ origin := origin, oclass := 0x0B, object := cls * 2 ^ 40 + elem, old := BitVec.ofNat 64 (old.getD 0),
       new := BitVec.ofNat 64 st, odetail := 0 }]

/-! ### The address map -/

/-- What a module address names (01 Table ARC-5). -/
inductive Tgt where
  | cist (core off : Nat)
  | rsv (k x : Nat)
  | pad (core off : Nat)
  | bstore (core off : Nat)
  | reg (off : Nat)
  | unmapped
  deriving DecidableEq, Repr

/-- Bytes of a cistern the map in force populates (06 R133). -/
def State.cistSize (s : State) (n : Nat) : Nat := popCount 4 (s.cist n).active.toNat * 2 ^ 28
/-- Bytes of a reservoir the map in force populates (07 R156). -/
def State.rsvSize (s : State) (k : Nat) : Nat := popCount 32 (s.activeCh k) * (3 * 2 ^ 30)
/-- The smallest populated size of the eight stacks (07 R157). -/
def State.rsvMin (s : State) : Nat := (List.range 8).foldl (fun m k => min m (s.rsvSize k)) (96 * 2 ^ 30)

/-- The target of a module address (01 R17, R18; 07 R157). -/
def State.resolve (s : State) (ma : Nat) : Tgt :=
  if ma < 2 ^ 39 then
    if ma / 2 ^ 30 < s.nCores ∧ ma % 2 ^ 30 < s.cistSize (ma / 2 ^ 30) then .cist (ma / 2 ^ 30) (ma % 2 ^ 30) else .unmapped
  else if ma < 2 ^ 40 then .unmapped
  else if ma < 2 ^ 41 then
    let k := (ma - 2 ^ 40) / 2 ^ 37
    let x := (ma - 2 ^ 40) % 2 ^ 37
    if x < s.rsvSize k then .rsv k x else .unmapped
  else if ma < 0x030000000000 then
    let y := ma - 2 ^ 41
    if y < 8 * s.rsvMin then .rsv ((y / 32768) % 8) ((y / 32768 / 8) * 32768 + y % 32768) else .unmapped
  else if ma < 0x034000000000 then
    let n := (ma - 0x030000000000) / 2 ^ 23
    let x := (ma - 0x030000000000) % 2 ^ 23
    if n < s.nCores ∧ x < 0x600000 then .pad n x else .unmapped
  else if ma < 0x03F000000000 then
    let n := (ma - 0x034000000000) / 2 ^ 19
    if n < s.nCores then .bstore n ((ma - 0x034000000000) % 2 ^ 19) else .unmapped
  else if ma < 0x040000000000 then .reg (ma - 0x03F000000000)
  else .unmapped

/-- The one address a byte is stored under: reservoir bytes under their per-stack address (01 R19). -/
def Tgt.key : Tgt → Nat
  | .cist n x => n * 2 ^ 30 + x
  | .rsv k x => 2 ^ 40 + k * 2 ^ 37 + x
  | .pad n x => 0x030000000000 + n * 2 ^ 23 + x
  | .bstore n x => 0x034000000000 + n * 2 ^ 19 + x
  | .reg x => 0x03F000000000 + x
  | .unmapped => 0

/-- The sub-channel and codeword group of a cistern offset (06 R133, R137). -/
def State.cistLoc (s : State) (n x : Nat) : Nat × Nat :=
  let layers := onesOf 4 (s.cist n).active.toNat
  (layers.getD ((x / 1024) % layers.length) 0, (x % 1024) / 64)
/-- The channel of a reservoir offset (07 R156). -/
def State.rsvCh (s : State) (k x : Nat) : Nat :=
  let act := onesOf 32 (s.activeCh k)
  act.getD ((x / 32768) % act.length) 0
/-- The bank group, the frame slot and the granule of a reservoir offset (07 R156). -/
def State.rsvPlace (s : State) (k x : Nat) : Nat × Nat × Nat :=
  let n := popCount 32 (s.activeCh k)
  (((x / 32768) / n) % 8, (x / 32768) / (8 * n), (x % 32768) / 512)
/-- The bank within the bank group, the row, the granule within the 2 KiB row and the byte within the granule (07 R156). No command depends
on them: a row's repair names its own (07 R170). -/
def State.rsvCell (s : State) (k x : Nat) : Nat × Nat × Nat × Nat :=
  let place := s.rsvPlace k x
  (place.2.2 % 4, place.2.1 * 4 + place.2.2 / 4 / 4, place.2.2 / 4 % 4, x % 512)
/-- The per-stack offset of granule `gran` of frame slot `slot` in bank group `bg` of channel `c` (07 R156 inverted). -/
def State.rsvOff (s : State) (k c bg slot gran : Nat) : Nat :=
  let act := onesOf 32 (s.activeCh k)
  let n := act.length
  ((slot * 8 + bg) * n + (act.idxOf c)) * 32768 + gran * 512

/-! ### Raw bytes, codewords and SRAM words -/

/-- The canonical form of memory: addresses strictly rising, and no byte listed that an unlisted address reads as. -/
def Memory.wf (m : List Host.Cell) : Bool := Map.wf 0 m
/-- `n` stored bytes. -/
def State.raw (s : State) (key n : Nat) : List Byte := Map.getRange 0 s.mem key n
/-- Stored bytes replaced. -/
def State.setRaw (s : State) (key : Nat) (bs : List Byte) : State := { s with mem := Map.setRange 0 s.mem key bs }

/-- What decoding a codeword gives (06 R138, R139; 07 R167). -/
inductive CwOut where
  | data (bs : List Byte)
  | poison
  | uncorr
  deriving DecidableEq, Repr

/-- Errors corrected and detected with `e` known erasures (06 Table CST-5). -/
def eccLimits (e : Nat) : Nat × Nat := if e = 0 then (3, 5) else if e = 1 then (3, 4) else (3, 3)

/-- The 64 data bytes stored, with the stored symbol errors applied (06 R138: passed unaltered). -/
def State.rawErr (s : State) (key : Nat) (err : CwErr) : List Byte :=
  (numbered 0 (s.raw key 64)).map fun p => p.2 ^^^ Map.get 0 err.syms p.1

/-- A codeword decoded: `era` its known erasures, `twoEra` whether the two-erasure row applies whatever their number, `pins` the
pins whose symbols arrive in error. Also the symbols corrected. Beyond the detection limit the outcome is free: reported
uncorrectable, passed unaltered, or miscorrected to free bytes (06 R138). -/
def State.decodeCw (s : State) (key : Nat) (era : List Nat) (twoEra : Bool) (pins : List Nat) : CwOut × Nat :=
  let err := Map.get {} s.cw (key / 64)
  let bad := (err.syms.map Prod.fst ++ pins).eraseDups.filter fun p => !era.contains p
  let n := bad.length
  let lim := eccLimits (if twoEra then 2 else era.length)
  let beyond : CwOut :=
    if Config.freeBit s.free 0 then .uncorr
    else if Config.freeBit s.free 1 then .data (s.rawErr key err)
    else .data ((List.range 64).map (Config.freeByte s.free))
  if err.poison then
    if n = 0 then (.poison, 0) else if n ≤ lim.2 then (.uncorr, 0) else (beyond, 0)
  else if n ≤ lim.1 then (.data (s.raw key 64), n)
  else if n ≤ lim.2 then (.uncorr, 0)
  else (beyond, 0)

/-- What reading an 8-byte SRAM word gives (03 R62): its bytes (none when uncorrectable) and whether one bit was corrected. With
three or more bit errors the outcome is free, confined to the word. -/
def State.decodeSram (s : State) (key : Nat) : Option (List Byte) × Bool :=
  let f := Map.get 0 s.sram (key / 8)
  let n := popCount 72 f.toNat
  let raw := s.raw (key / 8 * 8) 8
  if n = 0 then (some raw, false)
  else if n = 1 then (some raw, true)
  else if n = 2 then (none, false)
  else if Config.freeBit s.free 2 then (none, false)
  else if Config.freeBit s.free 3 then (some (leBytes 8 (leNat raw ^^^ (f.toNat % 2 ^ 64))), false)
  else (some ((List.range 8).map (Config.freeByte s.free)), false)

/-- A run of bytes cut at multiples of `b`: (address, length) pieces; `fuel` bounds their number. -/
def pieces (b : Nat) : Nat → Nat → Nat → List (Nat × Nat)
  | 0, _, _ => []
  | fuel + 1, a, n =>
    if n = 0 then []
    else
      let k := min n (b - a % b)
      (a, k) :: pieces b fuel (a + k) (n - k)

/-- `n` bytes of a scratchpad or bundle store read word by word (03 R62): the bytes (an uncorrectable word reads as zero), the
first address that was uncorrectable, and the number of words corrected. -/
def State.readSram (s : State) (key n : Nat) : List Byte × Option Nat × Nat :=
  (pieces 8 (n / 8 + 2) key n).foldl
    (fun acc p =>
      match s.decodeSram p.1 with
      | (some w, fix) => (acc.1 ++ (w.drop (p.1 % 8)).take p.2, acc.2.1, acc.2.2 + if fix then 1 else 0)
      | (none, _) => (acc.1 ++ List.replicate p.2 0, (acc.2.1.orElse fun _ => some p.1), acc.2.2))
    ([], none, 0)

/-- Bytes written to a scratchpad or bundle store (03 R62): whole words get new check bits; part of a word reads the word
first, and if that is uncorrectable the word is left and its address is reported. Also the number of words corrected by such reads. -/
def State.writeSram (s : State) (key : Nat) (bs : List Byte) : State × Option Nat × Nat :=
  (pieces 8 (bs.length / 8 + 2) key bs.length).foldl
    (fun acc p =>
      let s := acc.1
      let chunk := (bs.drop (p.1 - key)).take p.2
      if p.2 = 8 then ({ s.setRaw p.1 chunk with sram := Map.set 0 s.sram (p.1 / 8) 0 }, acc.2)
      else
        match s.decodeSram p.1 with
        | (some w, fix) =>
          let w' := w.take (p.1 % 8) ++ chunk ++ w.drop (p.1 % 8 + p.2)
          ({ s.setRaw (p.1 / 8 * 8) w' with sram := Map.set 0 s.sram (p.1 / 8) 0 }, acc.2.1, acc.2.2 + if fix then 1 else 0)
        | (none, _) => (s, (acc.2.1.orElse fun _ => some p.1), acc.2.2))
    (s, none, 0)

end Sys2Proof.Machine
end

