-- ==== Sys2Proof/Machine/Sluice.lean ====
section
/-! DEFINITION. The sluices: targets, accounts, and whether a request may enter the network now (10 R228 to R231). -/

namespace Sys2Proof.Machine

/-- Target class (10 Table NET-3). -/
def sluClass (t : Nat) : Nat := if t < 8 then 0 else if t < 10 then 1 else if t < 42 then 2 else if t < 62 then 3 else 4
/-- Default CAP (10 Table NET-3). -/
def sluCapDefault (t : Nat) : Nat :=
  if t < 8 then 28672 else if t < 10 then 114688 else if t < 42 then 32768 else if t < 62 then 7168 else 4096
/-- SLU_CAP of a target. -/
def State.capOf (s : State) (t : Nat) : Nat := ((Map.get none s.sluCap t).map BitVec.toNat).getD (sluCapDefault t)
/-- The account of a master no SET_SHARES has named: none before a start's shares are set, then the share firmware gives every master,
with the whole CAP for the epoch in progress (10 R230; assumption log 109). -/
def State.sluDefault (s : State) (t : Nat) : SluAcct :=
  if s.fwShares then { weight := 1, allow := sluCapDefault t, latest := sluCapDefault t } else {}
/-- The account of master m at target t. -/
def State.acct (s : State) (t m : Nat) : SluAcct := Map.get (s.sluDefault t) s.slu (64 * t + m)
/-- An account replaced. -/
def State.setAcct (s : State) (t m : Nat) (x : SluAcct) : State := { s with slu := Map.set (s.sluDefault t) s.slu (64 * t + m) x }

/-- The compute die a master port belongs to (10 Table NET-2). -/
def portDie (p : Nat) : Nat :=
  if p < 32 then p / 16 else if p < 40 then (p - 32) / 4 else if p < 42 then p - 40 else if p < 62 then (p - 42) / 10 else 0

/-- The (master, target) pairs a request counts against at its own port, and at the bridge endpoint that forwards it (10 R228): its final
target, or across the bridge the direction that carries its data and, at the endpoint, the final target. What the hub's masters read goes
out of the network at the hub-die port, target 62 (DESIGN CHOICE: no rule says which requests count against target 62). -/
def sluNeeds (port tgt tgtDie : Nat) (wr : Bool) : List (Nat × Nat) × List (Nat × Nat) :=
  let hub := if !wr && (port == 62 || port == 63) then [(port, 62)] else []
  if portDie port = tgtDie then ((port, tgt) :: hub, [])
  else ((port, 8 + if wr then portDie port else tgtDie) :: hub, [(40 + tgtDie, tgt)])

/-- What the sluice answers (10 R230). -/
inductive SluRes where
  | go | hold | barred
  deriving DecidableEq, Repr

/-- Accounts with the flits that count against each, one account's added up (10 R228, R409). -/
def addNeed (ns : List ((Nat × Nat) × Nat)) (a : Nat × Nat) (flits : Nat) : List ((Nat × Nat) × Nat) :=
  if ns.any fun n => n.1 = a then ns.map fun n => if n.1 = a then (a, n.2 + flits) else n else ns ++ [(a, flits)]

/-- Whether a request of `flits` fits an account: within the allowance with no debt, or larger than any allowance the master can
hold while some allowance is left (10 R230). -/
def SluAcct.fits (a : SluAcct) (flits : Nat) : Bool :=
  a.debt == 0 && (decide (flits ≤ a.allow) || (decide (a.latest + 16 < flits) && decide (0 < a.allow)))
/-- The account after the request issued. -/
def SluAcct.take (a : SluAcct) (flits : Nat) : SluAcct :=
  { a with allow := a.allow - flits, debt := a.debt + (flits - a.allow), active := true }

/-- A request at a sluice (10 R230), with the accounts it counts against and its flits at each: barred where the master has no share,
issued where it fits every account and none of them is `blocked` by an older request held for it, else held; either way the master is
active in this epoch (10 R229). -/
def State.sluice (s : State) (blocked : List (Nat × Nat)) (needs : List ((Nat × Nat) × Nat)) : State × SluRes :=
  if needs.any fun p => (s.acct p.1.2 p.1.1).weight = 0 ∧ (s.acct p.1.2 p.1.1).guar = 0 then (s, .barred)
  else if (needs.all fun p => (s.acct p.1.2 p.1.1).fits p.2) && !(needs.any fun p => blocked.contains p.1) then
    (needs.foldl (fun s p => s.setAcct p.1.2 p.1.1 ((s.acct p.1.2 p.1.1).take p.2)) s, .go)
  else (needs.foldl (fun s p => s.setAcct p.1.2 p.1.1 { s.acct p.1.2 p.1.1 with active := true }) s, .hold)

/-- A request's latency measured at its sluice (10 R231): the largest is kept, and passing a non-zero threshold while OVER is
clear sets OVER and posts NET_LATENCY_HIGH. -/
def State.sluLatency (s : State) (m t ns : Nat) : State :=
  let k := 5 * m + sluClass t
  let r := Map.get {} s.sluLat k
  let mx := BitVec.ofNat 16 (max r.maxNs.toNat (min ns 65535))
  let hit := decide (r.thresh ≠ 0) && decide (r.thresh.toNat < ns) && !r.isOver
  let s := { s with sluLat := Map.set {} s.sluLat k { r with maxNs := mx, isOver := r.isOver || hit } }
  if hit then s.postEv (3 + portDie m) cNetLatencyHigh none [m + sluClass t * 2 ^ 16, r.maxNs.toNat, ns, 0] else s

/-- The carry and allowance of an account at a new epoch (10 R229): up to 16 unused flits carried, debt repaid first. -/
def SluAcct.renew (a : SluAcct) (allow : Nat) (held : Bool) : SluAcct :=
  let got := allow + min 16 a.allow
  { a with allow := got - a.debt, debt := a.debt - got, latest := allow, active := held }

/-- The allowance of master m at target t for an epoch (10 R229). -/
def State.allowance (s : State) (t m : Nat) : Nat :=
  let c := s.capOf t
  let ms := List.range 64
  let gAll := (ms.map fun i => (s.acct t i).guar.toNat).sum
  let lent := ((ms.filter fun i => !(s.acct t i).active).map fun i => (s.acct t i).guar.toNat).sum
  let r := (c * (1024 - gAll)) / 1024 + (c * lent) / 1024
  let wAct := ((ms.filter fun i => (s.acct t i).active).map fun i => (s.acct t i).weight.toNat).sum
  (c * (s.acct t m).guar.toNat) / 1024 +
    (if (s.acct t m).active && decide (0 < wAct) then (r * (s.acct t m).weight.toNat) / wAct else 0)

end Sys2Proof.Machine
end

