-- ==== Sys2Proof/Machine/Mem.lean ====
section
/-! DEFINITION. Reads and writes of module memory at their target: who may reach it, and each memory's own units and conditions
(03 R62; 06 R134, R141, R145, R149; 07 R158, R163, R167, R171; 10 R233, R235). -/

namespace Sys2Proof.Machine

/-- A master: its port (10 Table NET-2), its partition, and the core it acts for. -/
structure Master where
  port : Nat
  part : Option Nat
  core : Option Nat
  deriving DecidableEq, Repr

/-- The DMA engine, feeders and queues of a core. -/
def State.coreMaster (s : State) (n : Nat) : Master := { port := s.clusterOf n, part := s.partOf n, core := some n }
/-- The hub: host DMA and BAR2. -/
def hubMaster : Master := { port := 62, part := none, core := none }
/-- The wellhead. -/
def whMaster : Master := { port := 63, part := none, core := none }

/-- The outcome of a part of a request at its target: the bytes of a read, a fault and the address it is of, or that it has to wait. -/
inductive PieceRes where
  | data (bs : List Byte)
  | fault (code ma : Nat)
  | wait
  deriving DecidableEq, Repr

/-- Whether a master may reach a target (10 Table NET-4): the host and the wellhead always, a core its own memories, a partition
its cores' memories and the reservoir channels of its set. -/
def State.permitted (s : State) (m : Master) (t : Tgt) : Bool :=
  if m.port = 62 ∨ m.port = 63 then true
  else
    match t with
    | .cist n _ | .pad n _ | .bstore n _ =>
      decide (m.core = some n) || (match m.part with | some p => decide (s.partOf n = some p) | none => false)
    | .rsv k x => match m.part with | some p => (s.chsetOf k p).testBit (s.rsvCh k x) | none => false
    | _ => false

/-- Whether a reset or a fence answers for the target (10 R235, R236; 07 R176; 15 R339, R347). -/
def State.targetReset (s : State) (t : Tgt) : Bool :=
  match t with
  | .cist n _ | .pad n _ | .bstore n _ =>
    s.dieFenced (s.dieOf n) || s.coreReset.contains n || s.heldOut.contains (s.clusterOf n) ||
      (match s.partOf n with | some p => s.partReset.contains p | none => false)
  | .rsv k _ => s.rsvFenced k
  | _ => false

/-- The sluice target and its die, or none where the access never enters the network: a core's of its own memories (R9), a reservoir
controller's of its own stack (10 R222, R224, R228). -/
def State.sluTarget (s : State) (m : Master) (t : Tgt) : Option (Nat × Nat) :=
  match t with
  | .cist n _ | .pad n _ | .bstore n _ => if m.core = some n then none else some (10 + s.clusterOf n, s.dieOf n)
  | .rsv k _ => if m.port = 32 + k then none else some (k, k / 4)
  | _ => none

/-- The element keys of injected pin errors: a cistern group, a reservoir channel (17 R387). -/
def cistPinKey (n l g : Nat) : Nat := (n * 4 + l) * 16 + g
/-- The element key of a reservoir channel. -/
def rsvPinKey (k c : Nat) : Nat := 2 ^ 20 + 32 * k + c

/-- The pins of an element that injected errors hit now, each injection counted down by one codeword (17 R387). -/
def State.takePins (s : State) (key : Nat) : State × List Nat :=
  ({ s with pinInj := (s.pinInj.map fun p => if p.1 = key then (p.1, p.2.1, p.2.2 - 1) else p).filter fun p => p.2.2 ≠ 0 },
   (s.pinInj.filter fun p => p.1 = key).map fun p => p.2.1)

/-- The pin index 0 to 1,175 of a group's pin (06 R137). -/
def cistPin (g p : Nat) : Nat := if p < 64 then 64 * g + p else 1024 + 8 * g + (p - 64)
/-- The repair element of a cistern pin (15 Table BUP-7). -/
def State.cistPinElem (s : State) (n l pin : Nat) : Nat := (s.core n).site.toNat * 2 ^ 22 + l * 2 ^ 20 + pin
/-- The repair element of a reservoir pin. -/
def rsvPinElem (k c pin : Nat) : Nat := k * 2 ^ 29 + c * 2 ^ 23 + pin

/-- The known erasures of a cistern group (06 R142, R143, Table CST-5). -/
def SubCh.erasures (x : SubCh) (g : Nat) : List Nat :=
  let perm := match Map.get 0 x.erase g with | 0 => [] | p + 1 => [p]
  (perm ++ (x.prov.filter fun e => e.1 = g).map Prod.snd).take 2

/-- Run lengths of pins in error over consecutive decoded codewords of one group: a pin in error counts on, every other pin of
the group starts again (06 R142). Keys are `base + pin`. -/
def runNext (run : Map Nat) (base : Nat) (bad : List Nat) : Map Nat :=
  bad.foldl (fun m p => Map.set 0 m (base + p) (Map.get 0 run (base + p) + 1))
    (Map.drop (fun k => base ≤ k && k < base + 72) run)

/-- One cistern codeword decoded with its counters, run lengths and provisional erasures (06 R138, R139, R142, R153). `extra`
are pins whose symbols arrive in error at this read. Also the symbols corrected. -/
def State.cistDecodeN (s : State) (n x : Nat) (extra : List Nat) : State × CwOut × Nat :=
  let loc := s.cistLoc n x
  let l := loc.1
  let g := loc.2
  let (s, inj) := s.takePins (cistPinKey n l g)
  let sub := s.sub n l
  let key := (Tgt.cist n x).key / 64 * 64
  let pins := (extra ++ inj).eraseDups
  let (out, fixed) := s.decodeCw key (sub.erasures g) (sub.st == .retiring) pins
  let bad := ((Map.get {} s.cw (key / 64)).syms.map Prod.fst ++ pins).eraseDups
  let run := match out with | .data _ => runNext sub.run (72 * g) bad | _ => sub.run
  let newPins := bad.filter fun p => decide (8 ≤ Map.get 0 run (72 * g + p)) && !(sub.erasures g).contains p
  let sub := { sub with
    run := run
    prov := sub.prov ++ newPins.map fun p => (g, p)
    corrected := satAdd sub.corrected fixed
    uncorr := satAdd sub.uncorr (match out with | .uncorr => 1 | _ => 0)
    poison := satAdd sub.poison (match out with | .poison => 1 | _ => 0) }
  let s := s.setSub n l sub
  let s := newPins.foldl
    (fun s p => s.repair 14 0x01 (s.cistPinElem n l (cistPin g p)) 5 0 (s.partOf n)) s
  (s.draw, out, fixed)
/-- The same without the number of symbols corrected. -/
def State.cistDecode (s : State) (n x : Nat) (extra : List Nat) : State × CwOut :=
  let r := s.cistDecodeN n x extra
  (r.1, r.2.1)

/-- The known erasures of a reservoir channel (07 R165, R169). -/
def Chan.erasures (x : Chan) : List Nat :=
  ((match x.erase with | some p => [p] | none => []) ++ x.prov).take 2

/-- The pin set the pins of a channel belong to in the repair record (07 R169; 15 Table BUP-7): its own, or 32 where the stack's spare path
serves it. -/
def State.pinPath (s : State) (k c : Nat) : Nat :=
  let v := Map.get {} s.rsvs k
  if v.spareUsed && v.spareFor.toNat == c then 32 else c

/-- The partition whose channel set holds a channel (08 R190). -/
def State.chanPart (s : State) (k c : Nat) : Option Nat := (List.range 32).find? fun p => (s.chsetOf k p).testBit c

/-- One reservoir codeword decoded with its counters, run lengths and provisional erasures (07 R165, R167, R169, R175).
Also the symbols corrected. -/
def State.rsvDecodeN (s : State) (k x : Nat) (extra : List Nat) : State × CwOut × Nat :=
  let c := s.rsvCh k x
  let (s, inj) := s.takePins (rsvPinKey k c)
  let ch := s.chan k c
  let key := (Tgt.rsv k x).key / 64 * 64
  let pins := (extra ++ inj).eraseDups
  let (out, fixed) := s.decodeCw key ch.erasures (ch.st == .retiring) pins
  let bad := ((Map.get {} s.cw (key / 64)).syms.map Prod.fst ++ pins).eraseDups
  let run := match out with | .data _ => runNext ch.run 0 bad | _ => ch.run
  let newPins := bad.filter fun p => decide (8 ≤ Map.get 0 run p) && !ch.erasures.contains p
  let ch := { ch with
    run := run
    prov := ch.prov ++ newPins
    corrected := satAdd ch.corrected fixed
    uncorr := satAdd ch.uncorr (match out with | .uncorr => 1 | _ => 0)
    poison := satAdd ch.poison (match out with | .poison => 1 | _ => 0) }
  let s := s.setChan k c ch
  let s := newPins.foldl (fun s p => s.repair 14 0x07 (rsvPinElem k (s.pinPath k c) p) 5 0 (s.chanPart k c)) s
  (s.draw, out, fixed)
/-- The same without the number of symbols corrected. -/
def State.rsvDecode (s : State) (k x : Nat) (extra : List Nat) : State × CwOut :=
  let r := s.rsvDecodeN k x extra
  (r.1, r.2.1)

/-- One reservoir codeword decoded by a base-die decoder (07 R165, R167, R175): it knows the channel's erasures, as every decoder of the
channel does, and never touches the pins. Also the symbols corrected. -/
def State.baseCw (s : State) (k c key : Nat) : State × CwOut × Nat :=
  let ch := s.chan k c
  let o := s.decodeCw key ch.erasures (ch.st == .retiring) []
  ((s.setChan k c { ch with
    corrected := satAdd ch.corrected o.2
    uncorr := satAdd ch.uncorr (match o.1 with | .uncorr => 1 | _ => 0)
    poison := satAdd ch.poison (match o.1 with | .poison => 1 | _ => 0) }).draw, o.1, o.2)

/-- A whole codeword stored with valid check symbols (06 R134, 07 R158). -/
def State.putCw (s : State) (key : Nat) (bs : List Byte) : State :=
  { s.setRaw key bs with cw := Map.set {} s.cw (key / 64) {} }
/-- The poison codeword stored (07 R167). -/
def State.putPoison (s : State) (key : Nat) : State :=
  { s.setRaw key (List.replicate 64 0) with cw := Map.set {} s.cw (key / 64) { poison := true } }

/-- Codewords of a piece decoded in ascending order: the bytes, or the code of the fault it reports. In a reservoir an uncorrectable
codeword is reported before poison (07 R167). -/
def State.readCws (s : State) (dec : State → Nat → State × CwOut) (x n : Nat) (uncorrFirst : Bool) : State × Except Nat (List Byte) :=
  let r := (pieces 64 (n / 64 + 2) x n).foldl
    (fun (acc : State × List Byte × List Nat) p =>
      let o := dec acc.1 p.1
      match o.2 with
      | .data bs => (o.1, acc.2.1 ++ (bs.drop (p.1 % 64)).take p.2, acc.2.2)
      | .poison => (o.1, acc.2.1, acc.2.2 ++ [cMemPoison])
      | .uncorr => (o.1, acc.2.1, acc.2.2 ++ [cMemUncorrectable]))
    (s, [], [])
  match r.2.2 with
  | [] => (r.1, .ok r.2.1)
  | f :: fs => (r.1, .error (if uncorrFirst && (f :: fs).contains cMemUncorrectable then cMemUncorrectable else f))

/-- The runs of a part read one after another: the bytes of all, or the fault of the lowest that failed. -/
def readRuns (one : State → Nat × Nat → State × Except Nat (List Byte)) (s : State) (runs : List (Nat × Nat)) : State × PieceRes :=
  let r := runs.foldl
    (fun (acc : State × List Byte × Option (Nat × Nat)) p =>
      let o := one acc.1 p
      match o.2 with
      | .ok bs => (o.1, acc.2.1 ++ bs, acc.2.2)
      | .error c => (o.1, acc.2.1, acc.2.2.orElse fun _ => some (c, p.1)))
    (s, [], none)
  match r.2.2 with
  | none => (r.1, .data r.2.1)
  | some f => (r.1, .fault f.1 f.2)

/-- Runs with the bytes a write gives each, in order. -/
def runChunks : List (Nat × Nat) → List Byte → List (Nat × List Byte)
  | [], _ => []
  | r :: rs, bs => (r.1, bs.take r.2) :: runChunks rs (bs.drop r.2)

/-- The codewords of a written part whole, by key: those it covers in part are read first, and a bad one of them is reported, with its
address (06 R134, 07 R158). `at_` gives the key and the offset of a module address. -/
def State.fillCws (s : State) (dec : State → Nat → State × CwOut) (at_ : Nat → Nat × Nat) (ws : List (Nat × List Byte)) :
    State × List (Nat × List Byte) × Option (Nat × Nat) :=
  let cuts := ws.flatMap fun w => (pieces 64 (w.2.length / 64 + 2) w.1 w.2.length).map fun p => (p.1, (w.2.drop (p.1 - w.1)).take p.2)
  cuts.foldl
    (fun (acc : State × List (Nat × List Byte) × Option (Nat × Nat)) w =>
      let k := at_ w.1
      let key := k.1 / 64 * 64
      if w.2.length = 64 then (acc.1, acc.2.1 ++ [(key, w.2)], acc.2.2)
      else
        let o := dec acc.1 k.2
        match o.2 with
        | .data old => (o.1, acc.2.1 ++ [(key, old.take (w.1 % 64) ++ w.2 ++ old.drop (w.1 % 64 + w.2.length))], acc.2.2)
        | .poison => (o.1, acc.2.1, acc.2.2.orElse fun _ => some (cMemPoison, w.1))
        | .uncorr => (o.1, acc.2.1, acc.2.2.orElse fun _ => some (cMemUncorrectable, w.1)))
    (s, [], none)

/-- A part written: whole codewords as they are, a part of one by read-modify-write; where such a codeword is bad the part is not
performed (06 R134, 07 R158). -/
def State.writeCws (s : State) (dec : State → Nat → State × CwOut) (at_ : Nat → Nat × Nat) (ws : List (Nat × List Byte)) : State × PieceRes :=
  let r := s.fillCws dec at_ ws
  match r.2.2 with
  | some f => (r.1, .fault f.1 f.2)
  | none => (r.2.1.foldl (fun s w => s.putCw w.1 w.2) r.1, .data [])

/-- Whether an item is a request. -/
def ArbEntry.isReq (e : ArbEntry) : Bool := match e.item with | .req _ => true | _ => false
/-- Whether a channel's arbiter has a launch or an injected hold before a new request (07 R162, R163). -/
def Chan.busy (x : Chan) : Bool := x.proc || x.current.isSome || x.ops.any fun e => !e.isReq

/-- Whether two sets of runs have a codeword in common. -/
def runsMeet (a b : List (Nat × Nat)) : Bool :=
  a.any fun x => b.any fun y => decide (x.1 / 64 * 64 < y.1 + y.2) && decide (y.1 / 64 * 64 < x.1 + x.2)
/-- Whether a held or waiting write covers a codeword of the runs (06 R134, R149). -/
def SubCh.pendingWrite (x : SubCh) (runs : List (Nat × Nat)) : Bool :=
  (x.held ++ x.waiting).any fun r => r.wr && runsMeet r.runs runs

/-- A part read at its target (10 R409). Scratchpads and bundle stores are read bank word by bank word (03 R61), here whole. -/
def State.readAt (s : State) (runs : List (Nat × Nat)) : State × PieceRes :=
  let a := (runs.headD (0, 0)).1
  match s.resolve a with
  | .unmapped => (s, .fault cMemUnmapped a)
  | .reg _ => (s, .fault cNetRegDenied a)
  | .pad c _ | .bstore c _ =>
    readRuns
      (fun s p =>
        let r := s.readSram (s.resolve p.1).key p.2
        let co := s.core c
        let s := (s.setCore c { co with sramFixed := co.sramFixed + r.2.2 }).draw
        (s, if r.2.1.isSome then .error cMemUncorrectable else .ok r.1)) s runs
  | .cist c x =>
    let sub := s.sub c (s.cistLoc c x).1
    if sub.st = .retired then (s, .fault cMemSubchannelRetired a)
    else if sub.window || sub.pendingWrite runs then (s, .wait)
    else readRuns (fun s p => s.readCws (fun s y => s.cistDecode c y []) (p.1 % 2 ^ 30) p.2 false) s runs
  | .rsv k x =>
    let ch := s.chan k (s.rsvCh k x)
    if ch.st = .retired then (s, .fault cRsvChannelRetired a)
    else if ch.window || ch.busy then (s, .wait)
    else
      -- whole granules are read and decoded; the bytes asked for are delivered (07 R158, R167)
      readRuns
        (fun s p =>
          let y := match s.resolve p.1 with | .rsv _ y => y | _ => 0
          let r := s.readCws (fun s y => s.rsvDecode k y []) (y / 512 * 512) 512 true
          (r.1, r.2.map fun bs => (bs.drop (y % 512)).take p.2)) s runs

/-- A part written at its target. -/
def State.writeAt (s : State) (runs : List (Nat × Nat)) (bs : List Byte) : State × PieceRes :=
  let a := (runs.headD (0, 0)).1
  match s.resolve a with
  | .unmapped => (s, .fault cMemUnmapped a)
  | .reg _ => (s, .fault cNetRegDenied a)
  | .pad c _ | .bstore c _ =>
    let r := (runChunks runs bs).foldl
      (fun (acc : State × Option Nat) w =>
        let r := acc.1.writeSram (acc.1.resolve w.1).key w.2
        let co := r.1.core c
        (r.1.setCore c { co with sramFixed := co.sramFixed + r.2.2 }, acc.2.orElse fun _ => r.2.1.map fun _ => w.1)) (s, none)
    (r.1.draw, match r.2 with | some x => .fault cMemUncorrectable x | none => .data [])
  | .cist c x =>
    let sub := s.sub c (s.cistLoc c x).1
    if sub.st ≠ .active then (s, .fault cMemSubchannelRetired a)
    else if sub.window || sub.whold || sub.pendingWrite runs then (s, .wait)
    else s.writeCws (fun s y => s.cistDecode c y []) (fun ma => ((s.resolve ma).key, ma % 2 ^ 30)) (runChunks runs bs)
  | .rsv k x =>
    let ch := s.chan k (s.rsvCh k x)
    if ch.st ≠ .active then (s, .fault cRsvChannelRetired a)
    else if ch.window || ch.busy then (s, .wait)
    else s.writeCws (fun s y => s.rsvDecode k y [])
      (fun ma => ((s.resolve ma).key, match s.resolve ma with | .rsv _ y => y | _ => 0)) (runChunks runs bs)

/-- Whether a request comes from a fenced element and leaves it (10 R236): it is discarded. -/
def State.masterFenced (s : State) (port : Nat) (t : Tgt) : Bool :=
  if 32 ≤ port ∧ port < 40 then s.rsvFenced (port - 32)
  else decide (port < 62) && s.dieFenced (portDie port) &&
    (match t with | .cist n _ | .pad n _ | .bstore n _ => s.dieOf n != portDie port | _ => true)

/-- Whether frame slot `slot` of reservoir `k` lies in its walker area (09 R204). -/
def State.slotInArea (s : State) (k slot : Nat) : Bool :=
  let r := Map.get {} s.rsvs k
  decide (r.slotBase.toNat ≤ slot) && decide (slot < r.slotBase.toNat + r.slotCount.toNat)

/-- Whether a write of a port falls in a walker area that only a walker or the wellhead may write (09 R204). -/
def State.areaBarred (s : State) (port : Nat) (t : Tgt) : Bool :=
  match t with
  | .rsv k x => !(decide (32 ≤ port) && decide (port < 40)) && port != 63 && s.slotInArea k (s.rsvPlace k x).2.1
  | _ => false

/-- The outcome of a request (10 R409): the bytes; the fault of the lowest-addressed failed part and its address; or that some part has to
wait. -/
inductive AccRes where
  | ok (bs : List Byte)
  | fault (code ma : Nat)
  | wait
  deriving DecidableEq, Repr

end Sys2Proof.Machine
end

