-- ==== Sys2Proof/Machine/Arbiter.lean ====
section
/-! DEFINITION. Requests: their parts, their entry through the sluices and over the bridge, their order at a sub-channel, at a reservoir
channel's arbiter with its hold queue and at a core's ingress, and their completions (03 R61, R68; 06 R134, R141, R149; 07 R161 to R164;
10 R223, R227 to R236, R409). -/

namespace Sys2Proof.Machine

/-- The registers of a reservoir. -/
def State.rsv (s : State) (k : Nat) : Rsv := Map.get {} s.rsvs k
/-- The registers of a reservoir replaced. -/
def State.setRsv (s : State) (k : Nat) (x : Rsv) : State := { s with rsvs := Map.set {} s.rsvs k x }

/-- Microseconds in a span of drops; 1,600 drops make a microsecond (11 R241). -/
def usIn (drops : Nat) : Nat := drops / 1600

/-- Nanoseconds in a span of drops (11 R241). -/
def nsIn (drops : Nat) : Nat := drops * 5 / 8

/-! ### What the host is told -/

/-- The row of Table HST-3 a fault code falls in (13 R287). -/
def hostRow (code : Nat) : Nat :=
  if code = 0 then 4 else if code = cMemUnmapped then 1 else if code = cMemUncorrectable ∨ code = cMemPoison then 2 else 3

/-- A host access that failed: counted, and captured while VALID is clear, with its event (13 R288). -/
def State.barFault (s : State) (code ma : Nat) (sub : Nat := 0) : State :=
  let h := s.host
  let s' := { s with host := { h with
    faultCount := satAdd h.faultCount 1
    faultValid := true
    faultCode := if h.faultValid then h.faultCode else BitVec.ofNat 16 code
    faultMA := if h.faultValid then h.faultMA else BitVec.ofNat 48 ma } }
  if h.faultValid then s' else s'.postEv 13 cHstBarFault none [ma % 2 ^ 48 + 62 * 2 ^ 48, 0, sub, 0]

/-- A host read ends: its completion goes to the host (13 R287, R288), and data that come later for it are discarded (R289). -/
def State.endHostRead (s : State) (h : HostRead) : State :=
  let s := { s with host := { s.host with reads := s.host.reads.filter fun r => r.tag != h.tag }
                    reqs := s.reqs.filter fun r => decide (r.who ≠ .hostRead h.tag) }
  let out (st : CplSt) (bs : List Byte) (s : State) : State := { s with hostOut := s.hostOut ++ [.cpl h.tag st bs] }
  match h.fault with
  | none => out .ok h.data s
  | some (c, ma, sub) =>
    (match hostRow c with
      | 1 => out .ur [] s
      | 2 => out .poisoned (List.replicate h.len 0xFF) s
      | _ => out .ca [] s).barFault c ma sub

/-- What a completed request does for the host access it is (13 R287, R288). -/
def State.hostAnswer (s : State) (r : MemReq) (bs : List Byte) : State :=
  match r.who with
  | .hostWrite => match r.fault with | some f => s.barFault f.1 f.2.1 f.2.2 | none => s
  | .hostRead tag =>
    match s.host.reads.find? fun h => h.tag = tag with
    | none => s
    | some h => s.endHostRead { h with data := bs, fault := r.fault }
  | _ => s

/-! ### Accesses under way -/

/-- The access of `w` that is under way. -/
def State.accOf (s : State) (w : Who) : Option HeldAcc := s.accs.find? fun a => decide (a.who = w)
/-- It is over. -/
def State.dropAcc (s : State) (w : Who) : State := { s with accs := s.accs.filter fun a => !decide (a.who = w) }
/-- Accesses nobody counts on any more are dropped. -/
def State.dropAccs (s : State) (gone : Who → Bool) : State := { s with accs := s.accs.filter fun a => !gone a.who }
/-- It is replaced. -/
def State.setAcc (s : State) (a : HeldAcc) : State := { s with accs := s.accs.map fun x => if x.who = a.who then a else x }
/-- An access begins. -/
def State.openAcc (s : State) (w : Who) : State := { s with accs := s.accs ++ [{ who := w }] }
/-- All of an access is done, though its master still counts on it. -/
def State.finAcc (s : State) (w : Who) : State := { s with accs := s.accs ++ [{ who := w, fin := true }] }
/-- Whether all of it is done. -/
def State.accFin (s : State) (w : Who) : Bool := match s.accOf w with | some a => a.fin | none => false
/-- What a request of an access under way came to. -/
def State.recordReq (s : State) (w : Who) (id code ma : Nat) (bs : List Byte) : State :=
  match s.accOf w with
  | some a => s.setAcc { a with reqs := a.reqs.map fun r => if r.id = id then { r with res := some (code, ma, bs) } else r }
  | none => s

/-! ### Completions -/

/-- What a read delivered put into address order. -/
def insertPiece (p : Nat × List Byte) : List (Nat × List Byte) → List (Nat × List Byte)
  | [] => [p]
  | x :: xs => if p.1 < x.1 then p :: x :: xs else x :: insertPiece p xs

/-- The fault a request completes with, of two of its parts': the lowest-addressed part's (10 R409); for a host read the first row of Table
HST-3 that applies (13 R287), and of one row the lowest-addressed. -/
def worseFault (who : Who) (a b : Nat × Nat × Nat) : Nat × Nat × Nat :=
  let lower := if b.2.1 < a.2.1 then b else a
  match who with
  | .hostRead _ => if hostRow a.1 < hostRow b.1 then a else if hostRow b.1 < hostRow a.1 then b else lower
  | _ => lower

/-- A request with no part left completes to whoever issued it (10 R409): with its data, or with its fault and none. -/
def State.finishReq (s : State) (r : MemReq) : State :=
  let s := { s with reqs := s.reqs.filter fun x => x.id != r.id }
  let bs := match r.fault with | none => (r.got.map Prod.snd).flatten | some _ => []
  let f := r.fault.getD (0, 0, 0)
  if r.acc then s.recordReq r.who r.id f.1 f.2.1 bs
  else ({ s with memDone := s.memDone ++ [(r.who, f.1, f.2.2, bs)] } : State).hostAnswer r bs

/-- The latencies a response of a part ends are measured (10 R231). -/
def State.measure (s : State) (r : MemReq) (p : ReqPart) : State × List LatRun :=
  let mine (l : LatRun) : Bool := (p.near ++ p.far).contains (l.master, l.target)
  let ls := r.lats.map fun l => if mine l then { l with left := l.left - 1 } else l
  (ls.foldl (fun s l => if l.left = 0 then s.sluLatency l.master l.target (nsIn (s.time - l.since)) else s) s,
   ls.filter fun l => l.left != 0)

/-- The response of a part reaches its master: what it delivered or its fault is kept, and after the last one the request completes. A
request nobody waits for any more is gone. -/
def State.partDone (s : State) (p : ReqPart) (code ma sub : Nat) (bs : List Byte) : State :=
  match s.reqs.find? fun r => r.id = p.id with
  | none => s
  | some r =>
    let t := s.measure r p
    let got := if code = 0 ∧ !p.wr then (runChunks p.runs bs).foldl (fun g c => insertPiece c g) r.got else r.got
    let fault := if code = 0 then r.fault else some (match r.fault with | none => (code, ma, sub) | some f => worseFault r.who f (code, ma, sub))
    let r := { r with left := r.left - 1, got := got, fault := fault, lats := t.2 }
    if r.left = 0 then t.1.finishReq r
    else { t.1 with reqs := t.1.reqs.map fun x => if x.id = r.id then r else x }

/-- Whether a part crosses the bridge. -/
def ReqPart.cross (p : ReqPart) : Bool := p.far != []
/-- Whether the bridge direction out of a die is in its calibration window (10 R227). -/
def State.brShut (s : State) (d : Nat) : Bool := s.brWindow.toNat.testBit d

/-- A part answered at its target: its response crosses the bridge back, or waits there for the end of a window (10 R227). -/
def State.answer (s : State) (p : ReqPart) (code ma sub : Nat) (bs : List Byte) : State :=
  let d := 1 - portDie p.port
  if p.cross && s.brShut d then { s with brWait := s.brWait ++ [(d, .back p code ma sub bs)] } else s.partDone p code ma sub bs

/-- The lowest address of a part. -/
def ReqPart.ma (p : ReqPart) : Nat := (p.runs.headD (0, 0)).1
/-- The bytes of a part. -/
def ReqPart.len (p : ReqPart) : Nat := (p.runs.map Prod.snd).sum
/-- The flits of a part: a partial one counts whole (10 R228). -/
def ReqPart.flits (p : ReqPart) : Nat := (p.len + 63) / 64
/-- A part that ends in a fault on its master's side of the bridge. -/
def State.failPart (s : State) (code sub : Nat) (p : ReqPart) : State := s.partDone p code p.ma sub []
/-- A part that ends in a fault at its target. -/
def State.refusePart (s : State) (code sub : Nat) (p : ReqPart) : State := s.answer p code p.ma sub []

/-- Codewords stored as poison, by address (07 R167). -/
def State.poisonCws (s : State) (ma : List Nat) : State := ma.foldl (fun s a => s.putPoison ((s.resolve a).key / 64 * 64)) s

/-- A part performed at its target, the checks before the arbiter being done: its answer, or none where it has to wait. -/
def State.perform (s : State) (p : ReqPart) : Option State :=
  let o := if p.wr then s.writeAt p.runs p.data else s.readAt p.runs
  match o.2 with
  | .data bs => some ((o.1.poisonCws p.poison).answer p 0 0 0 bs)
  | .fault c ma => some (o.1.answer p c ma 0 [])
  | .wait => none

/-! ### At a channel's arbiter -/

/-- Whether an entry is a request in the hold queue (07 R163). -/
def ArbEntry.inHold (e : ArbEntry) : Bool := match e.item with | .req r => r.inHold | _ => false
/-- Requests in the hold queue (07 R163, R175). -/
def Chan.depth (x : Chan) : Nat := (x.ops.filter ArbEntry.inHold).length

/-- The tick a part arrived at its target. -/
def ReqPart.arrivedTick (p : ReqPart) (now : Nat) : Nat := match p.arrived with | some a => a.1 | none => now
/-- The time a part arrived at its target. -/
def ReqPart.arrivedTime (p : ReqPart) (now : Nat) : Nat := match p.arrived with | some a => a.2.1 | none => now
/-- The number of its arrival. -/
def ReqPart.seq (p : ReqPart) : Nat := match p.arrived with | some a => a.2.2 | none => 0

/-- Whether a held request's wait has reached 100 µs (07 R163). -/
def State.holdLate (s : State) (p : ReqPart) : Bool := p.inHold && decide (p.arrivedTime s.time + 160000 ≤ s.time)

/-- RSV_CHANNEL_BUSY: a request not performed, with HOLD_FULL (1) or HOLD_TIMEOUT (2) (07 R163, R175). -/
def State.channelBusy (s : State) (k sub : Nat) (p : ReqPart) : State :=
  let v := s.rsv k
  (s.setRsv k { v with busyCount := satAdd v.busyCount 1 }).refusePart cRsvChannelBusy sub p

/-- The requests at the head of a channel's order performed, up to the first launch or hold, while the channel serves requests
(07 R162, R164); `fuel` bounds their number. A held request's wait is recorded (07 R175); one whose wait has reached its limit is not
performed (R163). -/
def State.serveN (s : State) (k c : Nat) : Nat → State
  | 0 => s
  | fuel + 1 =>
    let ch := s.chan k c
    if ch.window || ch.proc || ch.current.isSome then s
    else
      match ch.ops with
      | e :: rest =>
        match e.item with
        | .req r =>
          if s.holdLate r then ((s.setChan k c { ch with ops := rest }).channelBusy k 2 r).serveN k c fuel
          else
            -- the request is performed as the only item of the channel
            match (s.setChan k c { ch with ops := [] }).perform r with
            | some s2 =>
              let w := if r.inHold then usIn (s.time - r.arrivedTime s.time) else 0
              let ch2 := s2.chan k c
              (s2.setChan k c { ch2 with ops := rest, maxHold := BitVec.ofNat 16 (max ch2.maxHold.toNat (min w 65535)) }).serveN k c fuel
            | none => s
        | _ => s
      | [] => s

/-- All of them, however many (07 R162, R164, R168). -/
def State.serve (s : State) (k c : Nat) : State := s.serveN k c ((s.chan k c).ops.length + 1)

/-- An item put into the arrival order: behind every item of an earlier bank-clock cycle, and of its own cycle behind those of its rank or
a lower one (07 R162). -/
def orderIn (e : ArbEntry) : List ArbEntry → List ArbEntry
  | [] => [e]
  | x :: xs => if e.cycle < x.cycle ∨ (e.cycle = x.cycle ∧ e.rank < x.rank) then e :: x :: xs else x :: orderIn e xs

/-- An item ordered now at a channel's arbiter; the bank clock is 1.0 GHz (07 R162). -/
def State.order (s : State) (k c rank : Nat) (i : ArbItem) : State :=
  let ch := s.chan k c
  s.setChan k c { ch with ops := orderIn { cycle := nsIn s.time, rank := rank, item := i } ch.ops }

/-- Whether a request of port `via` ordered now comes behind a launch or hold that has not ended (07 R162, R163). -/
def State.behindLaunch (s : State) (k c via : Nat) : Bool :=
  let ch := s.chan k c
  ch.proc || ch.current.isSome || ch.ops.any fun e => !e.isReq && !(decide (nsIn s.time = e.cycle) && decide (via < e.rank))

/-- A request at a channel's arbiter (07 R162, R163): performed where nothing is ordered before it, else held; a full hold queue
answers RSV_CHANNEL_BUSY with HOLD_FULL. -/
def State.arbitrate (s : State) (k c : Nat) (r : ReqPart) : State :=
  let ch := s.chan k c
  let held := s.behindLaunch k c r.via
  if ch.ops = [] ∧ !ch.window ∧ !ch.busy then
    match s.perform r with
    | some s => s
    | none => s
  else if held ∧ 256 ≤ ch.depth then s.channelBusy k 1 r
  else
    let s := s.order k c r.via (.req { r with inHold := held })
    let ch := s.chan k c
    (s.setChan k c { ch with held := if held then satAdd ch.held 1 else ch.held }).serve k c

/-! ### At a sub-channel -/

/-- A part put among those that wait, in the order of arrival (06 R134, R141). -/
def insertArrived (p : ReqPart) : List ReqPart → List ReqPart
  | [] => [p]
  | x :: xs => if p.seq < x.seq then p :: x :: xs else x :: insertArrived p xs

/-- A part at a sub-channel (06 R134, R141, R145, R149). -/
def State.atSub (s : State) (n l : Nat) (r : ReqPart) : State :=
  let sub := s.sub n l
  if sub.st = .retired ∨ (r.wr ∧ sub.st ≠ .active) then s.refusePart cMemSubchannelRetired 0 r
  else if sub.window then s.setSub n l { sub with waiting := insertArrived r sub.waiting }
  else if (r.wr && sub.whold) || sub.pendingWrite r.runs then s.setSub n l { sub with held := insertArrived r sub.held }
  else (s.perform r).getD s

/-! ### At a core's ingress (03 R61, R68) -/

/-- Whether no cycle-counted port of a core has a scratchpad access pending (03 R61). -/
def Core.portsIdle (c : Core) : Bool := c.loads == [] && c.stores == [] && c.steps == []

/-- The bank words of a part: address and length within 16 bytes each (03 R61). -/
def ReqPart.words (p : ReqPart) : List (Nat × Nat) := p.runs.flatMap fun r => pieces 16 (r.2 / 16 + 2) r.1 r.2

/-- The bytes a write has for an address on, `n` of them. -/
def ReqPart.bytesAt (p : ReqPart) (a n : Nat) : List Byte :=
  ((runChunks p.runs p.data).findSome? fun c =>
    if c.1 ≤ a ∧ a < c.1 + c.2.length then some ((c.2.drop (a - c.1)).take n) else none).getD []

/-- One bank word of a part read or written whole (03 R61, R62); after the last the part is answered. -/
def State.serveWord (s : State) (n seq ma len : Nat) : State :=
  match s.ingress.find? fun x => x.core = n ∧ x.seq = seq with
  | none => s
  | some x =>
    let key := (s.resolve ma).key
    let count (s : State) (k : Nat) : State := let c := s.core n; s.setCore n { c with sramFixed := c.sramFixed + k }
    let r : State × PadPart :=
      if x.p.wr then
        let w := s.writeSram key (x.p.bytesAt ma len)
        (count w.1 w.2.2, { x with bad := x.bad.orElse fun _ => w.2.1.map fun _ => ma })
      else
        let w := s.readSram key len
        (count s w.2.2, { x with got := insertPiece (ma, w.1) x.got, bad := x.bad.orElse fun _ => w.2.1.map fun _ => ma })
    let y : PadPart := { r.2 with todo := x.todo - 1 }
    let s := r.1.draw
    if y.todo = 0 then
      let s := { s with ingress := s.ingress.filter fun z => !(z.core == n && z.seq == seq) }
      match y.bad with
      | some a => s.answer y.p cMemUncorrectable a 0 []
      | none => s.answer y.p 0 0 0 (if y.p.wr then [] else (y.got.map Prod.snd).flatten)
    else { s with ingress := s.ingress.map fun z => if z.core = n ∧ z.seq = seq then y else z }

/-- A part at a core's scratchpad or bundle store: in the ingress buffers until every bank word has been served. Those of a core whose
clock is withheld wait (03 R67, R68); with no cycle-counted access pending they are served at once (R61). -/
def State.atPad (s : State) (n : Nat) (p : ReqPart) : State :=
  let c := s.core n
  let ws := p.words
  let s := { s with ingress := s.ingress ++ [{ core := n, seq := p.seq, p := p, todo := ws.length }] }
  if s.clocked n && c.portsIdle && c.asyncWait == [] then ws.foldl (fun s w => s.serveWord n p.seq w.1 w.2) s
  else s.setCore n { c with asyncWait := c.asyncWait ++ ws.map fun w => .word p.seq w.1 w.2 }

/-- What waits in a core's ingress buffers served once its clock runs and no cycle-counted access is pending. -/
def State.drainPad (s : State) (n : Nat) : State :=
  let c := s.core n
  if !s.clocked n || !c.portsIdle then s
  else
    let ws := c.asyncWait.filterMap fun i => match i with | .word q a k => some (q, a, k) | .port _ => none
    let s := s.setCore n { c with asyncWait := c.asyncWait.filter fun i => match i with | .word _ _ _ => false | .port _ => true }
    ws.foldl (fun s w => s.serveWord n w.1 w.2.1 w.2.2) s

/-! ### From the port to the target -/

/-- A part that has entered the network and arrives at its target (06 R134, R141; 07 R162; 03 R61). -/
def State.arrive (s : State) (p0 : ReqPart) : State :=
  let p := match p0.arrived with | some _ => p0 | none => { p0 with arrived := some (s.tick, s.time, s.arrNo) }
  let s := match p0.arrived with | some _ => s | none => { s with arrNo := s.arrNo + 1 }
  match s.resolve p.ma with
  | .cist n x => s.atSub n (s.cistLoc n x).1 p
  | .rsv k x => s.arbitrate k (s.rsvCh k x) p
  | .pad n _ | .bstore n _ => s.atPad n p
  | _ => (s.perform p).getD s

/-- A part at the target's side of the network: a reset or a fence answers for the target (10 R235, R236), the reservoir router checks the
partition (R233), and only a walker or the wellhead writes a walker area (09 R204). -/
def State.reach (s : State) (p : ReqPart) : State :=
  let t := s.resolve p.ma
  let rsv : Bool := match t with | .rsv _ _ => true | _ => false
  if s.targetReset t then s.refusePart cNetTargetReset 0 p
  else if rsv && !s.permitted { port := p.port, part := p.part, core := none } t then s.refusePart cNetPartDenied 0 p
  else if p.wr && p.runs.any fun r => s.areaBarred p.port (s.resolve r.1) then s.refusePart cAttTableProtected 0 p
  else s.arrive p

/-- The accounts a held request counts against, with its flits at each (10 R228, R409). -/
def HeldReq.needs (h : HeldReq) : List ((Nat × Nat) × Nat) :=
  (if h.there then [] else h.extra).foldl (fun ns e => addNeed ns e.1 e.2)
    (h.parts.foldl (fun ns p => (if h.there then p.far else p.near).foldl (fun ns a => addNeed ns a p.flits) ns) [])

/-- The accounts that held requests wait for: a request held for one target does not hold requests to another (10 R230). -/
def State.blockedBy (s : State) (hs : List HeldReq) : List (Nat × Nat) :=
  hs.flatMap fun h => (h.needs.filter fun n => !(s.acct n.1.2 n.1.1).fits n.2).map Prod.fst

/-- The latencies of a request that stands at a sluice begin (10 R231). -/
def State.clockReq (s : State) (h : HeldReq) : State :=
  let ls := h.needs.map fun n =>
    ({ master := n.1.1, target := n.1.2, since := s.time,
       left := if h.parts.any (fun p => p.wr) then (h.parts.filter fun p => (if h.there then p.far else p.near).contains n.1).length else 1 } : LatRun)
  { s with reqs := s.reqs.map fun r => if r.id = h.id then { r with lats := r.lats ++ ls } else r }

/-- A request a sluice does not let in: NET_SLUICE_BARRED, with STARVED (3) where no allowance came (10 R230). -/
def State.refuseHeld (s : State) (h : HeldReq) (sub : Nat) : State :=
  h.parts.foldl (fun s p => if h.there then s.refusePart cNetSluiceBarred sub p else s.failPart cNetSluiceBarred sub p) s

/-- A request that comes to a sluice: `go` is what it does once it may enter (10 R230). -/
def State.atSluice (s0 : State) (h : HeldReq) (go : State → State) : State :=
  let s := s0.clockReq h
  let r := s.sluice (s.blockedBy s.sluHeld) h.needs
  match r.2 with
  | .go => go r.1
  | .hold => { r.1 with sluHeld := r.1.sluHeld ++ [h] }
  | .barred => s.refuseHeld h 0

/-- A request at the bridge endpoint that forwards it (10 R224, R228). -/
def State.atEndpoint (s : State) (h : HeldReq) : State := s.atSluice { h with there := true, starved := [] } fun s => h.parts.foldl State.reach s

/-- The die a request across the bridge goes to. -/
def HeldReq.toDie (h : HeldReq) : Nat := 1 - portDie h.port

/-- The parts of a request that cross the bridge: a fenced die's are answered on this side (10 R236), and in a calibration window they
wait at the sender (R227). -/
def State.cross (s : State) (h : HeldReq) : State :=
  if s.dieFenced h.toDie then h.parts.foldl (State.failPart · cNetTargetReset 0) s
  else if s.brShut (portDie h.port) then { s with brWait := s.brWait ++ [(portDie h.port, .go h)] }
  else s.atEndpoint h

/-- A request that the sluice of its port lets in. What a fenced element sends is discarded (10 R236). -/
def State.leave (s : State) (h : HeldReq) : State :=
  let ps := h.parts.filter fun p => !s.masterFenced h.port (s.resolve p.ma)
  let s := (ps.filter fun p => !p.cross).foldl State.reach s
  let far := ps.filter ReqPart.cross
  if far = [] then s else s.cross { h with parts := far }

/-- One held request issued, if it may now enter. -/
def State.issueOne (s : State) (h : HeldReq) : State :=
  let r := s.sluice (s.blockedBy (s.sluHeld.takeWhile fun x => x != h)) h.needs
  let gone (s : State) : State := { s with sluHeld := s.sluHeld.erase h }
  match r.2 with
  | .go => if h.there then h.parts.foldl State.reach (gone r.1) else (gone r.1).leave h
  | .hold => r.1
  | .barred => (gone s).refuseHeld h 0

/-- Held requests issued where they now fit, in arrival order for each target (10 R230): at the endpoints first, then at the ports. -/
def State.issueHeld (s : State) : State :=
  (s.sluHeld.filter HeldReq.there ++ s.sluHeld.filter fun h => !h.there).foldl State.issueOne s

/-! ### Requests -/

/-- The channel, sub-channel or memory an address lies in, as a key (10 R409). -/
def State.partKey (s : State) (t : Tgt) : Nat × Nat × Nat :=
  match t with
  | .cist n x => (0, n, (s.cistLoc n x).1)
  | .rsv k x => (1, k, s.rsvCh k x)
  | .pad n _ => (2, n, 0)
  | .bstore n _ => (3, n, 0)
  | .reg _ => (4, 0, 0)
  | .unmapped => (5, 0, 0)

/-- A request cut into its parts, one per channel, sub-channel or memory, in the order of their lowest addresses (10 R409). -/
def State.splitReq (s : State) (m : Master) (who : Who) (id : Nat) (wr : Bool) (ma len : Nat) (data : List Byte)
    (poison : List Nat := []) : List ReqPart :=
  let one (ps : List ((Nat × Nat × Nat) × ReqPart)) (p : Nat × Nat) : List ((Nat × Nat × Nat) × ReqPart) :=
    let t := s.resolve p.1
    let k := s.partKey t
    let d := (data.drop (p.1 - ma)).take p.2
    let bad := poison.filter fun a => decide (p.1 ≤ a) && decide (a < p.1 + p.2)
    if ps.any fun q => q.1 = k then
      ps.map fun q => if q.1 = k then (k, { q.2 with runs := q.2.runs ++ [p], data := q.2.data ++ d, poison := q.2.poison ++ bad }) else q
    else
      let ns := match s.sluTarget m t with | some (tg, die) => sluNeeds m.port tg die wr | none => ([], [])
      ps ++ [(k, { id := id, who := who, port := m.port, via := if ns.2 = [] then m.port else 40 + (1 - portDie m.port), part := m.part, wr := wr,
                   runs := [p], data := d, near := ns.1, far := ns.2, poison := bad })]
  ((pieces 512 (len / 512 + 2) ma len).foldl one []).map Prod.snd

/-- The number of the next request: above that of every request under way. -/
def State.reqId (s : State) : Nat := s.reqs.foldl (fun m r => max m (r.id + 1)) s.reqNo

/-- A request registered, with its parts. -/
def State.openReq (s : State) (m : Master) (who : Who) (acc wr : Bool) (ma len : Nat) (data : List Byte)
    (poison : List Nat := []) : State × List ReqPart :=
  let id := s.reqId
  let ps := s.splitReq m who id wr ma len data poison
  let r : MemReq := { id := id, who := who, port := m.port, wr := wr, ma := ma, len := len, acc := acc, left := ps.length }
  let s := { s with reqNo := id + 1, reqs := s.reqs ++ [r] }
  (if ps = [] then s.finishReq r else s, ps)

/-- The fault a part meets before the network: an unpopulated address (01 R18), register space (R21), or at the issuing router a core
memory of another partition (10 R233). -/
def State.gateFault (s : State) (m : Master) (p : ReqPart) : Option Nat :=
  match s.resolve p.ma with
  | .unmapped => some cMemUnmapped
  | .reg _ => some cNetRegDenied
  | .rsv _ _ => none
  | t => if s.permitted m t then none else some cNetPartDenied

/-- The egress account the fetch of a cell counts against beside its memory's (12 R269): 8 flits of the port, charged to the cluster whose
queue issued the SEND, once for each cell. -/
def State.egress (s : State) (w : Who) : List ((Nat × Nat) × Nat) :=
  match w, s.accOf w with
  | .linkTx c, some a =>
    (match Map.get none s.txs c with
      | some x => if a.reqs.length = 1 then [((s.clusterOf x.core, 42 + x.port), 8)] else []
      | none => [])
  | _, _ => []

/-- The parts of a request at its master's port: those that fault before the network, those that never enter it, and the rest as one
request at the sluice (10 R230, R409). -/
def State.sendReq (s : State) (m : Master) (ps : List ReqPart) : State :=
  let s := ps.foldl (fun s p => match s.gateFault m p with | some c => s.failPart c 0 p | none => s) s
  let live := ps.filter fun p => (s.gateFault m p).isNone
  let s := (live.filter fun p => p.near == []).foldl State.reach s
  match live.filter fun p => p.near != [] with
  | [] => s
  | p :: ps =>
    let h : HeldReq := { id := p.id, who := p.who, port := m.port, part := m.part, there := false, parts := p :: ps,
                         extra := s.egress p.who }
    if h.parts.all fun q => s.masterFenced m.port (s.resolve q.ma) then s else s.atSluice h fun s => s.leave h

/-- A request of a master. -/
def State.submit (s : State) (m : Master) (who : Who) (acc wr : Bool) (ma len : Nat) (data : List Byte)
    (poison : List Nat := []) : State :=
  let r := s.openReq m who acc wr ma len data poison
  r.1.sendReq m r.2

/-! ### Accesses made as requests -/

/-- The next request of an access under way: what it came to where it has been made before, for the same bytes, else it is made now.
`retry` makes one that ended in RSV_CHANNEL_BUSY again, `poison` names the codewords a write stores as poison. -/
def State.access (s : State) (w : Who) (m : Master) (wr : Bool) (ma n : Nat) (data : List Byte) (poison : List Nat := [])
    (retry : Bool := false) : State × AccRes :=
  match s.accOf w with
  | none => (s, .wait)
  | some a =>
    let busy (r : Option (Nat × Nat × List Byte)) : Bool := retry && (match r with | some (c, _) => c == cRsvChannelBusy | none => false)
    let made : Bool := match a.reqs[a.pos]? with | some r => r.ma == ma && r.len == n && !busy r.res | none => false
    let fresh : AccReq := { id := s.reqId, ma := ma, len := n }
    let s := s.setAcc { a with pos := a.pos + 1, reqs := if made then a.reqs else a.reqs.take a.pos ++ fresh :: a.reqs.drop (a.pos + 1) }
    let s := if made then s else s.submit m w true wr ma n data poison
    match (s.accOf w).bind fun b => (b.reqs[a.pos]?).bind AccReq.res with
    | some (0, _, bs) => (s, .ok bs)
    | some (c, x, _) => (s, if busy (some (c, x, [])) then .wait else .fault c x)
    | none => (s, .wait)

/-- A read of `n` bytes by a master, as a request of the access of `w`. -/
def State.readMA (s : State) (w : Who) (m : Master) (ma n : Nat) : State × AccRes := s.access w m false ma n []
/-- A write by a master, likewise. -/
def State.writeMA (s : State) (w : Who) (m : Master) (ma : Nat) (bs : List Byte) : State × AccRes := s.access w m true ma bs.length bs

/-- Whether an access has to wait. -/
def AccRes.isWait : AccRes → Bool
  | .wait => true
  | _ => false

/-- What `f` does, as an access of `w`: it is gone through from its start each time its master takes it up, on what its requests came to so
far, until none of them has to wait. -/
def State.track {α : Type} (s : State) (w : Who) (waits : α → Bool) (f : State → State × α) : State × α :=
  let s := match s.accOf w with | some a => s.setAcc { a with pos := 0 } | none => s.openAcc w
  let r := f s
  if waits r.2 then r else (r.1.dropAcc w, r.2)

end Sys2Proof.Machine
end

