-- ==== Sys2Proof/Machine/Queue.lean ====
section
/-! DEFINITION. What happens to a queue as its commands issue, complete, signal and fault (05 R102, R106, R107, R126, R129). -/

namespace Sys2Proof.Machine

/-- The fields of a queue fault record that apply to a fault; the rest read zero (05 R126). -/
structure RecF where
  cmd : Nat := 0
  code : Nat := 0
  opcode : Nat := 0
  pc : Option (Nat × Nat) := none
  detail : Nat := 0
  flagValue : Nat := 0
  flag : Nat := 0
  last : Updater := .never
  peer : Nat := 0
  peerCmd : Nat := 0
  target : Nat := 0
  peerFlagValue : Nat := 0
  deriving DecidableEq, Repr

/-- Last-updater fields of the record: LU_HOST [12], LU_VALID [11], LU_QUEUE [10:9], LU_CORE [8:0] (05 R126). -/
def Updater.word : Updater → Nat
  | .never => 0
  | .host => 2 ^ 12 + 2 ^ 11
  | .queue core q => 2 ^ 11 + (q % 4) * 2 ^ 9 + core % 512

/-- The 64 bytes of a fault record (05 R126), word 0 lowest. -/
def RecF.encode (f : RecF) (core q tick : Nat) : BitVec 512 :=
  let w0 := f.cmd % 2 ^ 32 * 2 ^ 32 + core % 512 * 2 ^ 18 + q % 4 * 2 ^ 16 + f.code
  let w1 := f.opcode % 256 * 2 ^ 48 + tick % 2 ^ 48
  let w2 := match f.pc with | some (slot, pc) => 2 ^ 22 + slot % 8 * 2 ^ 19 + pc % 2 ^ 19 | none => 0
  let w4 := f.flagValue % 2 ^ 32 * 2 ^ 32 + f.flag % 4096
  let w6 := f.peerCmd % 2 ^ 32 * 2 ^ 32 + f.peer
  let w7 := f.target % 2 ^ 32 * 2 ^ 32 + f.peerFlagValue % 2 ^ 32
  BitVec.ofNat 512 (w0 + w1 * 2 ^ 64 + w2 * 2 ^ 128 + f.detail % 2 ^ 64 * 2 ^ 192 + w4 * 2 ^ 256 +
    f.last.word * 2 ^ 320 + w6 * 2 ^ 384 + w7 * 2 ^ 448)

/-- Word `i` (64 bits) of a command or a record. -/
def wordOf {w : Nat} (x : BitVec w) (i : Nat) : Nat := (x.toNat >>> (64 * i)) % 2 ^ 64
/-- OP of a command (05 R107). -/
def Cmd.op (c : Cmd) : Nat := c.toNat % 256
/-- OUTER_START of a DMA command (05 R109). -/
def Cmd.ostart (c : Cmd) : Nat := wordOf c 1 >>> 32
/-- The FENCE bit of the header (05 R107). -/
def Cmd.fence (c : Cmd) : Bool := c.toNat.testBit 8
/-- The completion signal of the header (05 R107): flag and value. -/
def Cmd.sig (c : Cmd) : Option (Nat × Word) :=
  if c.toNat.testBit 9 then some (bitsOf c.toNat 16 12, BitVec.ofNat 32 (c.toNat >>> 32)) else none

/-- A completion signal sent to its flag's home (05 R107, R120, R123). -/
def State.signal (s : State) (n q : Nat) (sig : Option (Nat × Word)) : State :=
  match sig, s.partOf n with
  | some (f, v), some p =>
    { s with flagUpds := s.flagUpds ++
        [{ part := p, flag := f, add := true, value := v, by_ := .queue n q, done := none, wcs := none }] }
  | _, _ => s

/-- Whether an update by a queue is still on its way. -/
def State.updInFlight (s : State) (n q : Nat) : Bool := s.flagUpds.any fun u => decide (u.by_ = .queue n q)

/-- Whether a queue stands still: IDLE or HALTED. -/
def State.still (s : State) (p : Nat × Nat) : Bool := (s.queue p.1 p.2).st == .idle || (s.queue p.1 p.2).st == .halted

/-- Jobs whose end is decided and whose queues all stand still: their completions are posted, and after each those of the
JOB_ABORTs that wait for it (13 R301, R302). -/
def State.finishJobs (s : State) : State :=
  s.host.jobs.foldl
    (fun s j =>
      match j.ended with
      | none => s
      | some (st, fl, c, q) =>
        if j.queues.all s.still then
          let s := { s with host := { s.host with jobs := s.host.jobs.erase j, records := s.host.records ++ [(j.sq, j.cid)] } }
          let s := s.complete j.sq j.cid st fl [c % 512 + q % 4 * 512]
          j.aborts.foldl (fun s a => s.complete a.1 a.2 0 0 []) s
        else s) s

/-- What follows once a queue has nothing more in flight: a draining queue halts (05 R106), a fence completes (R102, R107), and a
queue that has issued its last command returns to IDLE once its signals are applied (R129; 14 R320). -/
def State.settle (s : State) (n q : Nat) : State :=
  let x := s.queue n q
  if x.inflight ≠ [] then s
  else if x.st = .draining then
    -- the signals of what completed are applied before the queue is HALTED (R106)
    if s.updInFlight n q then s else (s.setQueue n q { x with st := .halted }).finishJobs
  else
    let s := match x.fence with
      | some f =>
        let s := s.setQueue n q { x with fence := none, st := .issuing }
        let s := if f.dinv then s.setCore n { s.core n with descs := [] } else s
        s.signal n q f.sig
      | none => s
    let x := s.queue n q
    if x.st = .issuing ∧ x.ptr.toNat = x.count.toNat ∧ x.wait = none ∧ x.running = none ∧ !s.updInFlight n q then
      (s.setQueue n q { x with st := .idle }).post (3 + s.dieOf n) (.queueIdle n q)
    else s

/-- An asynchronous command completes: its signal is sent and what waited for it goes on (05 R102, R107). -/
def State.completeCmd (s : State) (n q idx : Nat) : State :=
  let x := s.queue n q
  match x.inflight.find? fun c => c.idx = idx with
  | some c =>
    let s := s.setQueue n q { x with inflight := x.inflight.filter fun c => c.idx ≠ idx }
    (s.signal n q c.sig).settle n q
  | none => s

/-- The RUN of a core ends or is discarded: its loops, stream contexts and window configuration go with it (04 R97, 05 R130).
Results in flight are delivered in their cycles. -/
def Core.dropRun (c : Core) : Core :=
  { c with run := none, hold := none, loops := [], ctx0 := {}, ctx1 := {}, window := none }

/-- What a queue that halts had asked memory for: its next command, a bank image, descriptors of its core; a link engine that was offered its
command lets go of it (12 R266). -/
def State.dropWaits (s : State) (n q : Nat) : State :=
  let free (x : Port) : Port := { x with offered := x.offered.filter fun e => e != (n, q) }
  { s with ports := if s.ports.any fun e => e.2.offered.contains (n, q) then Map.mapAll {} free s.ports else s.ports
           accs := s.accs.filter fun a => match a.who with
      | .fetch m r | .bankImage m r => !(m == n && r == q)
      | .desc m _ => m != n
      | _ => true }

/-- A queue halts (05 R106): it issues nothing further, its RUN stops, and it drains. -/
def State.stopQueue (s : State) (n q : Nat) : State :=
  let c := s.core n
  let x := c.queue q
  let c := match c.run with
    | some r => if r.queue = q then c.dropRun else c
    | none => c
  (s.dropWaits n q).setCore n (c.setQueue q { x with st := if x.inflight = [] ∧ !s.updInFlight n q then .halted else .draining,
                                                            wait := none, fence := none, running := none, fetched := [] })

/-- A queue halts on a fault: the record is captured and the halt is posted (05 R106, R126; 14 R319). -/
def State.haltQueue (s : State) (n q : Nat) (f : RecF) : State :=
  let rec_ := f.encode n q s.tick
  let s := s.stopQueue n q
  let x := s.queue n q
  let s := s.setQueue n q { x with lastFault := BitVec.ofNat 16 f.code, record := rec_ }
  (s.post (3 + s.dieOf n) (.queueFault n q f.code rec_)).finishJobs

/-- An issued asynchronous command faults: it neither completes nor signals, and its queue halts (05 R102, R106). -/
def State.faultCmd (s : State) (n q idx : Nat) (f : RecF) : State :=
  let x := s.queue n q
  match x.inflight.find? fun c => c.idx = idx with
  | some c =>
    let s := s.setQueue n q { x with inflight := x.inflight.filter fun c => c.idx ≠ idx }
    let x := s.queue n q
    -- a queue already draining or halted keeps its first record
    if x.st = .draining ∨ x.st = .halted then s.settle n q
    else s.haltQueue n q { f with cmd := idx, opcode := c.op }
  | none => s

/-- The command at the head of a queue that may issue now: the queue is ISSUING or waiting for an engine, no wait, fence or RUN
holds it, the command is fetched (05 R102, R104, R105), no event of the queue waits for room (14 R320), and the command processors have
their clock (03 R56, R67). -/
def State.head (s : State) (n q : Nat) : Option Cmd :=
  let x := s.queue n q
  if (x.st = .issuing ∨ x.st = .waitEngine) ∧ x.wait = none ∧ x.fence = none ∧ x.running = none ∧ !s.coreReset.contains n ∧
    !s.queueStalled n q ∧ s.clocked n
  then x.fetched.head? else none

/-- The head command issued: PTR moves on (05 R129). -/
def State.issued (s : State) (n q : Nat) : State :=
  let x := s.queue n q
  s.setQueue n q { x with ptr := x.ptr + 1, fetched := x.fetched.tail, st := .issuing }

/-- The queue waits at issue for an engine (05 R104, R129). -/
def State.waitEngine (s : State) (n q : Nat) : State :=
  let x := s.queue n q
  s.setQueue n q { x with st := .waitEngine }

/-- The head command issued and in flight (05 R102). -/
def State.launchCmd (s : State) (n q : Nat) (c : Cmd) : State :=
  let x := s.queue n q
  let s := s.issued n q
  let y := s.queue n q
  s.setQueue n q { y with inflight := y.inflight ++ [{ idx := x.ptr.toNat, op := c.op, sig := c.sig }] }

/-- The head command refused before it is performed: its queue halts with `code` and a detail (05 R108, R113, R125). -/
def State.refuseCmd (s : State) (n q : Nat) (c : Cmd) (code detail : Nat) : State :=
  let x := s.queue n q
  s.haltQueue n q { cmd := x.ptr.toNat, code := code, opcode := c.op, detail := detail }

/-- A header with FENCE set that still has earlier commands in flight holds the queue at issue (05 R107). -/
def State.fenced (s : State) (n q : Nat) (c : Cmd) : Bool := c.fence && (s.queue n q).inflight ≠ []

end Sys2Proof.Machine
end

