-- ==== Sys2Proof/Machine/Operands.lean ====
section
/-! DEFINITION. Operands of bundle slots: the register files with their fixed registers (04 R79), masks (R80), scratchpad
addresses (R81), elements of narrow formats in lanes (R79, R90). -/

namespace Sys2Proof.Machine

/-- One lane of a v register. -/
def Core.lane (c : Core) (r i : Nat) : Word := Map.get 0 c.v (256 * r + i)
/-- A v register. -/
def Core.vreg (c : Core) (r : Nat) : List Word := (List.range 256).map (c.lane r)
/-- An s register; s0 reads 0 (04 R79). -/
def Core.sreg (c : Core) (r : Nat) : DWord := if r = 0 then 0 else Map.get 0 c.s r
/-- An a register; a0 reads 0 (04 R79). -/
def Core.areg (c : Core) (r : Nat) : Word := if r = 0 then 0 else Map.get 0 c.a r
/-- A p register; p0 reads all ones (04 R79). -/
def Core.preg (c : Core) (r : Nat) : BitVec 256 := if r = 0 then BitVec.allOnes 256 else Map.get 0 c.p r
/-- An s register written; a write to s0 is discarded (04 R79). -/
def Core.setS (c : Core) (r : Nat) (x : DWord) : Core := if r = 0 then c else { c with s := Map.set 0 c.s r x }
/-- An a register written; a write to a0 is discarded (04 R79). -/
def Core.setA (c : Core) (r : Nat) (x : Word) : Core := if r = 0 then c else { c with a := Map.set 0 c.a r x }
/-- A p register written in the lanes of `mask`; a write to p0 is discarded (04 R79). -/
def Core.setP (c : Core) (r : Nat) (mask x : BitVec 256) : Core :=
  if r = 0 then c else { c with p := Map.set 0 c.p r ((Map.get 0 c.p r &&& ~~~mask) ||| (x &&& mask)) }
/-- Lanes of a v register written. -/
def Core.setLanes (c : Core) (r : Nat) (ls : List (Nat × Word)) : Core :=
  { c with v := ls.foldl (fun m p => Map.set 0 m (256 * r + p.1) p.2) c.v }
/-- The key of element (r, n) of accumulator `a` of cube `k` (04 R79). -/
def accKey (k a r n : Nat) : Nat := (k * 16 + a) * 64 + 8 * r + n

/-- The mask of a slot operation: p[PRED], inverted when PNEG is 1 (04 R80). -/
def Core.mask (c : Core) (pred : BitVec 3) (pneg : Bool) : BitVec 256 :=
  if pneg then ~~~(c.preg pred.toNat) else c.preg pred.toNat
/-- Whether a whole operation is performed: bit 0 of the mask (04 R80). -/
def Core.performed (c : Core) (pred : BitVec 3) (pneg : Bool) : Bool := (c.mask pred pneg).getLsbD 0

/-- A scratchpad byte offset: (a[REG] + OFF × unit) mod 2^23 (04 R81). -/
def Core.padAddr (c : Core) (reg off unit : Nat) : Nat := ((c.areg reg).toNat + off * unit) % 2 ^ 23
/-- Bytes of a scratchpad (03 R59). -/
def padSize : Nat := 0x600000

/-- Element `e` of a format of `b` bits in a list of lanes (04 R79). -/
def elemAt (ls : List Word) (b e : Nat) : Nat :=
  ((ls.getD (e * b / 32) 0).toNat >>> (e * b % 32)) % 2 ^ b
/-- Element codes packed into 32-bit lanes, lowest element first (04 R79); `n` lanes of `32 / b` elements. -/
def packLanes (b : Nat) (cs : List Nat) : Nat → List Word
  | 0 => []
  | n + 1 =>
    BitVec.ofNat 32 ((cs.take (32 / b)).foldr (fun c x => c + x * 2 ^ b) 0) :: packLanes b (cs.drop (32 / b)) n

/-- The module address of a scratchpad offset of a core (01 Table ARC-5). -/
def padMA (n off : Nat) : Nat := 0x030000000000 + n * 2 ^ 23 + off
/-- The module address of a bundle-store offset of a core (01 Table ARC-5). -/
def bundleMA (n pc : Nat) : Nat := 0x034000000000 + n * 2 ^ 19 + pc

end Sys2Proof.Machine
end

