-- ==== Sys2Proof/Machine/Bundle.lean ====
section
/-! DEFINITION. The bundle word (04 R71 to R74): slots, operation codes, fields, and which encodings are legal. -/

namespace Sys2Proof.Machine

/-- The SCA operations of Table BDL-12. -/
inductive ScaOp where
  | add | sub | addi | shin | and | or | xor | shl | shr | sra | shli | shri | mul | cmpeq | cmplt | cmpltu | aaddi | amov
  | smova | getv | getf | getlc | gett
  deriving DecidableEq, Repr
/-- The MEM operations of Table BDL-14. -/
inductive MemOp where
  | vld | vst | sld | sst | ald | ast | pld | pst
  deriving DecidableEq, Repr
/-- The CTL operations of Table BDL-15. -/
inductive CtlOp where
  | br | brl | bri | loop | loopx | endRun | clrf | trap
  deriving DecidableEq, Repr

/-- The operation of one slot. -/
inductive SlotOp where
  | step (z : Bool) (f : StepF)
  | drain (z : Bool) (f : DrainF)
  | sopen (f : SopenF)
  | vec (op : VecOp) (f : VecF)
  | sfu (op : SfuOp) (f : SfuF)
  | sca (op : ScaOp) (f : ScaF)
  | mem (op : MemOp) (f : MemF)
  | ctl (op : CtlOp) (f : CtlF)
  deriving DecidableEq, Repr

/-- Slot number (04 Table BDL-1). -/
def SlotOp.slot : SlotOp → Nat
  | .step _ _ | .drain _ _ | .sopen _ => 0
  | .vec _ f => if f.vec1 then 2 else 1
  | .sfu _ _ => 3
  | .sca _ f => if f.sca1 then 5 else 4
  | .mem _ _ => 6
  | .ctl _ _ => 7

/-- Bytes of each slot (04 Table BDL-1). -/
def slotBytes : Nat → Nat
  | 0 => 12 | 1 => 8 | 2 => 8 | 3 => 6 | 4 => 4 | 5 => 4 | 6 => 8 | _ => 4

/-- VEC opcodes. -/
def VecOp.ofCode : Nat → Option VecOp
  | 0x01 => some .vadd | 0x02 => some .vsub | 0x03 => some .vmul | 0x04 => some .vfma | 0x05 => some .vmax
  | 0x06 => some .vmin | 0x07 => some .vabs | 0x08 => some .vneg | 0x09 => some .vhadd | 0x0A => some .vhmul
  | 0x0B => some .vhfma | 0x10 => some .viadd | 0x11 => some .visub | 0x12 => some .viadds | 0x13 => some .vimul
  | 0x14 => some .vand | 0x15 => some .vor | 0x16 => some .vxor | 0x17 => some .vshl | 0x18 => some .vshr
  | 0x19 => some .vsra | 0x20 => some .vcmpeq | 0x21 => some .vcmplt | 0x22 => some .vcmple | 0x28 => some .vsel
  | 0x29 => some .vmov | 0x2A => some .vbcast | 0x2B => some .vperm | 0x30 => some .vrsum | 0x31 => some .vrmax
  | 0x32 => some .vscan | 0x40 => some .vcvt
  | _ => none
/-- SFU opcodes (04 Table BDL-10). -/
def SfuOp.ofCode : Nat → Option SfuOp
  | 1 => some .rcp | 2 => some .rsqrt | 3 => some .exp | 4 => some .exp2 | 5 => some .log | 6 => some .log2
  | 7 => some .tanh | 8 => some .sigm | 9 => some .sin | 10 => some .cos | 11 => some .expd
  | _ => none
/-- SCA opcodes. -/
def ScaOp.ofCode : Nat → Option ScaOp
  | 0x01 => some .add | 0x02 => some .sub | 0x03 => some .addi | 0x04 => some .shin | 0x05 => some .and | 0x06 => some .or
  | 0x07 => some .xor | 0x08 => some .shl | 0x09 => some .shr | 0x0A => some .sra | 0x0B => some .shli | 0x0C => some .shri
  | 0x0D => some .mul | 0x10 => some .cmpeq | 0x11 => some .cmplt | 0x12 => some .cmpltu | 0x18 => some .aaddi
  | 0x19 => some .amov | 0x1A => some .smova | 0x1C => some .getv | 0x1D => some .getf | 0x1E => some .getlc
  | 0x1F => some .gett
  | _ => none
/-- MEM opcodes. -/
def MemOp.ofCode : Nat → Option MemOp
  | 1 => some .vld | 2 => some .vst | 3 => some .sld | 4 => some .sst | 5 => some .ald | 6 => some .ast | 7 => some .pld
  | 8 => some .pst
  | _ => none
/-- CTL opcodes. -/
def CtlOp.ofCode : Nat → Option CtlOp
  | 1 => some .br | 2 => some .brl | 3 => some .bri | 4 => some .loop | 5 => some .loopx | 6 => some .endRun | 7 => some .clrf
  | 8 => some .trap
  | _ => none

/-- A bit field of a slot word as a bit vector. -/
def fld (x lo w : Nat) : BitVec w := BitVec.ofNat w (x >>> lo)

/-- A slot's operation from its bits (04 Tables BDL-4, BDL-6, BDL-7, BDL-9, BDL-11, BDL-13, R94); none for an opcode the
tables do not list. -/
def decodeSlot (slot x : Nat) : Option SlotOp :=
  match slot with
  | 0 =>
    let p := fld x 89 3
    let pn := x.testBit 88
    let stepF : StepF :=
      { pred := p, pneg := pn, acc := fld x 84 4, fmta := fld x 80 4, fmtb := fld x 76 4, areg := fld x 72 4,
        aoff := fld x 53 19, ainc := x.testBit 52, awin := x.testBit 51, bsrc := fld x 49 2, breg := fld x 45 4,
        boff := fld x 26 19, binc := x.testBit 25, toffa := fld x 17 8, toffb := fld x 9 8 }
    let drainF : DrainF := { pred := p, pneg := pn, acc := fld x 84 4, vd := fld x 70 6 }
    match bitsOf x 92 4 with
    | 1 => some (.step false stepF)
    | 2 => some (.step true stepF)
    | 3 => some (.drain false drainF)
    | 4 => some (.drain true drainF)
    | 5 => some (.sopen { pred := p, pneg := pn, ctx := x.testBit 87, lw := x.testBit 83, fmtb := fld x 76 4,
                          sbase := fld x 71 5, splane := fld x 66 5, j := fld x 46 20 })
    | _ => none
  | 1 | 2 =>
    (VecOp.ofCode (bitsOf x 56 8)).map fun op => .vec op
      { vec1 := slot == 2, pred := fld x 53 3, pneg := x.testBit 52, vd := fld x 46 6, va := fld x 40 6, vb := fld x 34 6,
        vc := fld x 28 6, fmt := fld x 24 4, fmt2 := fld x 20 4, rnd := fld x 18 2, sat := x.testBit 17,
        bmem := x.testBit 16, imm := fld x 0 16 }
  | 3 =>
    (SfuOp.ofCode (bitsOf x 42 6)).map fun op => .sfu op
      { pred := fld x 39 3, pneg := x.testBit 38, vd := fld x 32 6, va := fld x 26 6, vb := fld x 20 6, qtr := fld x 18 2 }
  | 4 | 5 =>
    (ScaOp.ofCode (bitsOf x 26 6)).map fun op => .sca op
      { sca1 := slot == 5, pred := fld x 23 3, pneg := x.testBit 22, rd := fld x 17 5, ra := fld x 12 5, imm := fld x 0 12 }
  | 6 =>
    (MemOp.ofCode (bitsOf x 58 6)).map fun op => .mem op
      { pred := fld x 55 3, pneg := x.testBit 54, reg := fld x 48 6, areg := fld x 44 4, addr := fld x 21 23,
        size := fld x 15 6, stride := fld x 3 12 }
  | _ =>
    (CtlOp.ofCode (bitsOf x 26 6)).map fun op => .ctl op { pred := fld x 23 3, pneg := x.testBit 22, bits := fld x 0 22 }

/-- The step shape of an A × B pairing: K_f, w_A, w_B (02 Table FMT-5, 03 Table COR-3); none for a pairing or a role assignment
the tables do not give (03 R48). -/
def stepShape (fa fb : Fmt) : Option (Nat × Nat × Nat) :=
  match fa, fb with
  | .fp32, .fp32 => some (2, 8, 8)
  | .bf16, .bf16 | .fp16, .fp16 => some (8, 16, 16)
  | .e4m3, .e4m3 | .e4m3, .e5m2 | .e5m2, .e4m3 | .e5m2, .e5m2 | .int8, .int8 | .l8, .l8 => some (16, 16, 16)
  | .e4m3, .fp4 | .e5m2, .fp4 | .int8, .int4 => some (16, 16, 8)
  | .l8, .l4 => some (32, 32, 16)
  | .fp4, .fp4 | .int4, .int4 | .l4, .l4 => some (32, 16, 16)
  | _, _ => none

/-- The shape of a STEP's fields. -/
def stepShapeOf (f : StepF) : Option (Fmt × Fmt × Nat × Nat × Nat) :=
  match Fmt.ofCode f.fmta.toNat, Fmt.ofCode f.fmtb.toNat with
  | some a, some b => (stepShape a b).map fun x => (a, b, x.1, x.2.1, x.2.2)
  | _, _ => none

/-- An address register pair's first register: even and not 0 (04 Table BDL-4). -/
def pairReg (r : BitVec 4) : Bool := r.toNat % 2 == 0 && r != 0

/-- Legality of STEP and STEPZ (04 R74, R83, R85, R87). -/
def stepLegal (f : StepF) : Bool :=
  match stepShapeOf f with
  | none => false
  | some (a, b, _, _, _) =>
    f.bsrc != 3 && (!(a.isBlock || f.awin) || pairReg f.areg) && (!f.awin || (f.aoff == 0 && !a.isBlock)) &&
      (!(b.isBlock && f.bsrc == 0) || pairReg f.breg)

/-- Operations whose source b may lie in the scratchpad (04 Table BDL-8, mark M). -/
def VecOp.mAllowed : VecOp → Bool
  | .vadd | .vsub | .vmul | .vfma | .vmax | .vmin | .vhadd | .vhmul | .vhfma | .viadd | .visub | .viadds | .vimul | .vand
  | .vor | .vxor | .vcmpeq | .vcmplt | .vcmple => true
  | _ => false

/-- Parts a format has in a register (04 R90). -/
def Fmt.parts (f : Fmt) : Nat := 32 / f.bits

/-- Legality of a VEC operation (04 R74, R89, R90). -/
def vecLegal (op : VecOp) (f : VecF) : Bool :=
  (!f.bmem || op.mAllowed) &&
  match op with
  | .vhadd | .vhmul | .vhfma => f.fmt == 1 || f.fmt == 2
  | .vrsum | .vrmax | .vscan => decide (1 ≤ f.imm.toNat % 16) && decide (f.imm.toNat % 16 ≤ 8)
  | .vcvt =>
    match Fmt.ofCode f.fmt2.toNat, Fmt.ofCode f.fmt.toNat with
    | some src, some dst =>
      f.rnd != 3 && decide (bitsOf f.imm.toNat 0 3 < src.parts) && decide (bitsOf f.imm.toNat 3 3 < dst.parts) &&
        (!src.isBlock || f.va.toNat % 2 == 0) && (!dst.isBlock || f.vd.toNat % 2 == 0)
    | _, _ => false
  | _ => true

/-- Legality of one operation in a bundle of `len` bytes (04 R74, R96). -/
def SlotOp.legal (len : Nat) : SlotOp → Bool
  | .step _ f => stepLegal f
  | .drain _ f => f.vd.toNat % 2 == 0
  | .sopen f => f.j != 0 && (Fmt.ofCode f.fmtb.toNat).isSome
  | .vec op f => vecLegal op f
  | .ctl .loop f => decide (len ≤ 2 * (f.bits.toNat % 2 ^ 11))
  | _ => true

/-- A bundle's header (04 R72). -/
structure Header where
  slots : Nat
  idle : Nat
  bkpt : Bool
  mark : Bool
  last : Bool
  deriving DecidableEq, Repr
/-- The header fields of 16 bits (04 Table BDL-2). -/
def Header.ofNat (x : Nat) : Header :=
  { slots := bitsOf x 8 8, idle := bitsOf x 4 4, bkpt := x.testBit 3, mark := x.testBit 2, last := x.testBit 1 }
/-- Length of a bundle (04 R71). -/
def Header.len (h : Header) : Nat := 2 + ((onesOf 8 h.slots).map slotBytes).sum

/-- The slots of a bundle from its bytes after the header, in ascending slot number: each slot's number and operation, none
for an illegal one. -/
def decodeSlots (len : Nat) : List Nat → List Byte → List (Nat × Option SlotOp)
  | [], _ => []
  | k :: ks, bs =>
    let op := (decodeSlot k (leNat (bs.take (slotBytes k)))).filter fun o => o.legal len
    (k, op) :: decodeSlots len ks (bs.drop (slotBytes k))

/-- Where each present slot starts. -/
def slotEnds : Nat → List Nat → List (Nat × Nat)
  | _, [] => []
  | off, k :: ks => (k, off + slotBytes k) :: slotEnds (off + slotBytes k) ks

/-- Latency of a conversion (02 R44, Table FMT-8). -/
def cvtLatency (src dst : Fmt) : Nat :=
  if src.isFloat && dst.isFloat then
    if src ≠ dst ∧ src.eb ≤ dst.eb ∧ src.mb ≤ dst.mb then 1
    else if src ≠ dst ∧ dst.eb ≤ src.eb ∧ dst.mb ≤ src.mb then 2
    else 3
  else if (src.isFloat && dst.isInt) || (src.isInt && dst.isFloat) then 2
  else
    match src, dst with
    | .l8, .fp32 | .l8, .bf16 | .l8, .fp16 => 2
    | .fp4, .fp32 | .l4, .fp32 => 2
    | .fp32, .fp4 | .fp32, .l4 => 4
    | .l4, .l8 | .l8, .l4 => 2
    | _, _ => 3

/-- Latency of a VEC operation (04 Table BDL-8, R89; 02 R44). -/
def vecLatency (op : VecOp) (f : VecF) : Nat :=
  (match op with
   | .vadd | .vsub | .vmul | .vhadd | .vhmul => 3
   | .vfma | .vhfma => 4
   | .vimul | .vcmpeq | .vcmplt | .vcmple | .vperm => 2
   | .vrsum | .vscan => 6
   | .vrmax => 4
   | .vcvt =>
     (match Fmt.ofCode f.fmt2.toNat, Fmt.ofCode f.fmt.toNat with
      | some a, some b => cvtLatency a b
      | _, _ => 3) + if f.rnd = 2 then 1 else 0
   | _ => 1) + if f.bmem then 3 else 0

/-- Occupancy of a slot operation (04 Table BDL-8). -/
def SlotOp.occ : SlotOp → Nat
  | .vec .vperm _ | .vec .vrsum _ | .vec .vscan _ => 2
  | _ => 1

end Sys2Proof.Machine
end

