-- ==== Sys2Proof/Machine/VecOps.lean ====
section
/-! DEFINITION. What the VEC operations compute (04 R88 to R90, Table BDL-8). -/

namespace Sys2Proof.Machine

/-- A word as a signed number. -/
def sgn (x : Word) : Int := x.toInt

/-- A packed 16-bit operation on both halves of a lane (04 Table BDL-8). -/
def halves (g : Nat → Nat → Nat → Nat × Flags) (a b c : Word) : Word × Flags :=
  let lo := g (a.toNat % 65536) (b.toNat % 65536) (c.toNat % 65536)
  let hi := g (a.toNat / 65536) (b.toNat / 65536) (c.toNat / 65536)
  (BitVec.ofNat 32 (lo.1 + 65536 * hi.1), Flags.or lo.2 hi.2)

/-- A Nat-valued lane result as a word. -/
def wordRes (r : Nat × Flags) : Word × Flags := (BitVec.ofNat 32 r.1, r.2)

/-- The 16-bit format of a VH operation (04 Table BDL-7). -/
def vhFmt (f : VecF) : Fmt := if f.fmt = 1 then .bf16 else .fp16

/-- One lane of a lane-wise VEC operation that writes a v register (04 Table BDL-8). `sel` is VSEL's predicate bit, `sv` the
scalar of VBCAST, `draw` and `i` number the free choice between zeros of VMAX and VMIN. -/
def vecLane (op : VecOp) (f : VecF) (draw i : Nat) (a b c : Word) (sel : Bool) (sv : DWord) : Word × Flags :=
  let x := a.toNat
  let y := b.toNat
  match op with
  | .vadd => wordRes (fpAdd .fp32 x y)
  | .vsub => wordRes (fpAdd .fp32 x (fpNeg .fp32 y))
  | .vmul => wordRes (fpMul .fp32 x y)
  | .vfma => wordRes (fpFma .fp32 x y c.toNat)
  | .vmax => wordRes (fpMax .fp32 false (Config.freeBit draw i) x y)
  | .vmin => wordRes (fpMax .fp32 true (Config.freeBit draw i) x y)
  | .vabs => (BitVec.ofNat 32 (fpAbs .fp32 x), .none)
  | .vneg => (BitVec.ofNat 32 (fpNeg .fp32 x), .none)
  | .vhadd => halves (fun p q _ => fpAdd (vhFmt f) p q) a b c
  | .vhmul => halves (fun p q _ => fpMul (vhFmt f) p q) a b c
  | .vhfma => halves (fun p q r => fpFma (vhFmt f) p q r) a b c
  | .viadd => (a + b, .none)
  | .visub => (a - b, .none)
  | .viadds =>
    let t := sgn a + sgn b
    if t < -(2 ^ 31) then (BitVec.ofNat 32 (2 ^ 31), .S)
    else if 2 ^ 31 ≤ t then (BitVec.ofNat 32 (2 ^ 31 - 1), .S)
    else (a + b, .none)
  | .vimul => (a * b, .none)
  | .vand => (a &&& b, .none)
  | .vor => (a ||| b, .none)
  | .vxor => (a ^^^ b, .none)
  | .vshl => (a <<< (y % 32), .none)
  | .vshr => (a >>> (y % 32), .none)
  | .vsra => (a.sshiftRight (y % 32), .none)
  | .vsel => (if sel then a else b, .none)
  | .vmov => (a, .none)
  | .vbcast => (sv.setWidth 32, .none)
  | _ => (a, .none)

/-- One lane of a VEC compare: `IMM`[0] 0 compares FP32 (a NaN compares false and sets INV), 1 signed integers. -/
def vecCmp (op : VecOp) (f : VecF) (a b : Word) : Bool × Flags :=
  if f.imm.toNat % 2 = 0 then
    if (fpVal .fp32 a.toNat).isNaN || (fpVal .fp32 b.toNat).isNaN then (false, .I)
    else
      let x := fpKey .fp32 a.toNat
      let y := fpKey .fp32 b.toNat
      (match op with | .vcmpeq => decide (x = y) | .vcmplt => decide (x < y) | _ => decide (x ≤ y), .none)
  else
    let x := sgn a
    let y := sgn b
    (match op with | .vcmpeq => decide (x = y) | .vcmplt => decide (x < y) | _ => decide (x ≤ y), .none)

/-- The bits of a predicate result. -/
def bitsToPred (l : List (Nat × Bool)) : BitVec 256 :=
  BitVec.ofNat 256 (l.foldl (fun n p => if p.2 then n + 2 ^ p.1 else n) 0)

/-- Lane groups of 2^g lanes (04 Table BDL-8): the group's lanes in order. -/
def laneGroups (g : Nat) (a : List Word) : List (List Word) :=
  (List.range (256 / 2 ^ g)).map fun k => (a.drop (k * 2 ^ g)).take (2 ^ g)

/-- The maximum of a list of lanes. -/
def maxLanes (draw i : Nat) : List Word → Nat × Flags
  | [] => (0, .none)
  | x :: xs =>
    xs.foldl (fun m y =>
      let r := fpMax .fp32 false (Config.freeBit draw i) m.1 y.toNat
      (r.1, Flags.or m.2 r.2))
      (if (fpVal .fp32 x.toNat).isNaN then (Fmt.canonNaN .fp32, .I) else (x.toNat, .none))

/-- A result for every lane of every group. -/
def spread (g : Nat) (rs : List (Nat × Flags)) : List (Nat × Word) × Flags :=
  (numbered 0 (rs.map fun r => List.replicate (2 ^ g) (BitVec.ofNat 32 r.1 : Word)).flatten, Flags.all (rs.map Prod.snd))

/-- The values of the 256 elements a VCVT converts (04 R90): from a part of `a`, with block bytes from `a2` for a block
format. -/
def cvtSource (src : Fmt) (part : Nat) (t : Int) (a a2 : List Word) : List XV :=
  (List.range 256).map fun e =>
    let blk := elemAt a2 8 (8 * part + e / 32)
    elemVal src t blk (elemAt a src.bits (256 * part + e))

/-- VCVT (04 R90): the lanes written in VD and, for a block target, in VD + 1. -/
def vcvt (f : VecF) (draw : Nat) (bits : Nat → Nat) (a a2 : List Word) : List Dest × Flags :=
  match Fmt.ofCode f.fmt2.toNat, Fmt.ofCode f.fmt.toNat with
  | some src, some dst =>
    let t := signedOf 8 (bitsOf f.imm.toNat 6 8)
    let mode : Rnd := if f.rnd = 1 then .rtz else if f.rnd = 2 then .stoch else .rne
    let p0 := bitsOf f.imm.toNat 0 3
    let p1 := bitsOf f.imm.toNat 3 3
    let r := convList dst t mode f.sat draw bits (cvtSource src p0 t a a2)
    let lanes := numbered (8 * dst.bits * p1) (packLanes dst.bits r.1 (8 * dst.bits))
    (Dest.v f.vd.toNat lanes ::
      (if dst.isBlock then [Dest.v (f.vd.toNat + 1) (numbered (2 * p1) (packLanes 8 r.2.1 2))] else []), r.2.2)
  | _, _ => ([], .none)

/-- A VEC operation on captured operands: `mask` its lane mask, `a` and `c` the source lanes, `b` source b (or, for VCVT, the
register after VA), `bits` a conversion's random bits. Whole operations (04 R80) reach here only when performed. -/
def vecApply (op : VecOp) (f : VecF) (mask : BitVec 256) (a b c : List Word) (selP : BitVec 256) (sv : DWord) (draw : Nat)
    (bits : Nat → Nat) : List Dest × Flags :=
  let on := onesOf 256 mask.toNat
  match op with
  | .vcmpeq | .vcmplt | .vcmple =>
    let rs := on.map fun i => (i, vecCmp op f (a.getD i 0) (b.getD i 0))
    ([.p (f.vd.toNat % 8) mask (bitsToPred (rs.map fun r => (r.1, r.2.1)))], Flags.all (rs.map fun r => r.2.2))
  | .vperm =>
    ([.v f.vd.toNat ((List.range 256).map fun i => (i, a.getD ((b.getD i 0).toNat % 256) 0))], .none)
  | .vrsum =>
    let g := f.imm.toNat % 16
    let r := spread g ((numbered 0 (laneGroups g a)).map fun p => laneSum draw p.1 (p.2.map BitVec.toNat))
    ([.v f.vd.toNat r.1], r.2)
  | .vrmax =>
    let g := f.imm.toNat % 16
    let r := spread g ((numbered 0 (laneGroups g a)).map fun p => maxLanes draw p.1 p.2)
    ([.v f.vd.toNat r.1], r.2)
  | .vscan =>
    let g := f.imm.toNat % 16
    let rs := (List.range 256).map fun i =>
      laneSum draw i (((a.drop (i / 2 ^ g * 2 ^ g)).take (i % 2 ^ g + 1)).map BitVec.toNat)
    ([.v f.vd.toNat (numbered 0 (rs.map fun r => (BitVec.ofNat 32 r.1 : Word)))], Flags.all (rs.map Prod.snd))
  | .vcvt => vcvt f draw bits a b
  | op =>
    let rs := on.map fun i => (i, vecLane op f draw i (a.getD i 0) (b.getD i 0) (c.getD i 0) (selP.getLsbD i) sv)
    ([.v f.vd.toNat (rs.map fun r => (r.1, r.2.1))], Flags.all (rs.map fun r => r.2.2))

/-- Operations performed whole or not at all (04 R80). -/
def VecOp.whole : VecOp → Bool
  | .vcvt | .vperm | .vrsum | .vrmax | .vscan => true
  | _ => false

end Sys2Proof.Machine
end

