-- ==== Sys2Proof/Machine/CoreCycle.lean ====
section
/-! DEFINITION. One executed cycle of a core: results becoming visible, cube steps landing, drains, scratchpad accesses in their
cycle, bank clashes, feeder holds and swallowed clocks (03 R49 to R62, R67 to R69; 04 R76, R77, R82, R86). -/

namespace Sys2Proof.Machine

/-- The cube latency U of a core: 12 + EQ_MODE (03 R65, R66). -/
def Core.cubeLat (c : Core) : Nat := if c.eqMode then 13 else 12

/-- Whether two results write one register element, and if so its file and register (04 R77). -/
def collide (x y : Dest) : Option (Nat × Nat) :=
  match x, y with
  | .v r l, .v r' l' => if r = r' ∧ l.any (fun p => l'.any fun q => p.1 = q.1) then some (0, r) else none
  | .s r _, .s r' _ => if r = r' ∧ r ≠ 0 then some (1, r) else none
  | .a r _, .a r' _ => if r = r' ∧ r ≠ 0 then some (2, r) else none
  | .p r _ _, .p r' _ _ => if r = r' ∧ r ≠ 0 then some (3, r) else none
  | _, _ => none

/-- Results put in the order in which later ones win: by slot number, then by issue order (04 R77). -/
def insertRes (r : Result) : List Result → List Result
  | [] => [r]
  | x :: xs =>
    if r.slot < x.slot ∨ (r.slot = x.slot ∧ r.seq < x.seq) then r :: x :: xs else x :: insertRes r xs

/-- The first collision among results in winning order: file, register, the slot kept, the slot discarded. Of several collisions of one
cycle, and of three results to one register, CORE_DBG describes the two lowest slots that collide: DESIGN CHOICE (R77 and R99 do not
say which). -/
def firstCollision : List Result → Option (Nat × Nat × Nat × Nat)
  | [] => none
  | r :: rs =>
    match rs.findSome? fun y => (collide r.dest y.dest).map fun c => (c.1, c.2, y.slot, r.slot) with
    | some c => some c
    | none => firstCollision rs

/-- A collision recorded in CORE_DBG: only the first since WCOLL was cleared is described (04 R77, R99). -/
def Core.noteCollision (c : Core) (rs : List Result) : Core :=
  match firstCollision rs with
  | some (file, reg, win, lose) =>
    if c.wcoll then c
    else { c with wcoll := true, wcollFile := BitVec.ofNat 4 file, wcollReg := BitVec.ofNat 6 reg,
                  wcollWin := BitVec.ofNat 3 win, wcollLose := BitVec.ofNat 3 lose }
  | none => c

/-- A result written to its destination, with the flags it raised (04 R76). -/
def Core.applyRes (c : Core) (r : Result) : Core :=
  let c := { c with sticky := c.sticky.or r.flags }
  match r.dest with
  | .none => c
  | .v reg ls => c.setLanes reg ls
  | .s reg x => c.setS reg x
  | .a reg x => c.setA reg x
  | .p reg m x => c.setP reg m x

/-- Results in winning order without the predicate results a later one replaces whole (04 R77); their flags stay. -/
def dropLost : List Result → List Result
  | [] => []
  | r :: rs =>
    (match r.dest with
     | .p reg _ _ => if rs.any (fun y => match y.dest with | .p q _ _ => q = reg | _ => false) then { r with dest := .none } else r
     | _ => r) :: dropLost rs

/-- Every result due in cycle `x` becomes visible (04 R76, R77). -/
def Core.commit (c : Core) (x : Nat) : Core :=
  let rs := (c.results.filter fun r => r.due = x).foldr insertRes []
  let c := { c with results := c.results.filter fun r => r.due ≠ x, lastVis := if rs = [] then c.lastVis else x }
  (dropLost rs).foldl Core.applyRes (c.noteCollision rs)

/-- The cells (k, r, n) at distance `d` = r + n + k from the first (03 R49). -/
def cellsAt (d : Nat) : List (Nat × Nat × Nat) :=
  (List.range 8).flatMap fun k => (List.range 8).filterMap fun r =>
    if k + r ≤ d ∧ d - (k + r) < 8 then some (k, r, d - (k + r)) else none

/-- The elements of a unit (03 R48): its bytes as a number, and its plane byte. -/
def unitElems (f : Fmt) (t : Int) (kf : Nat) (u : Nat × Nat) : List XV :=
  (List.range kf).map fun e => elemVal f t u.2 ((u.1 >>> (e * f.bits)) % 2 ^ f.bits)

/-- An FP32 × FP32 product formed to within 2^-23 relative (02 R38): a free relative error held to the bound. -/
def perturb (draw i : Nat) (x : XV) : XV :=
  match x with
  | .fin neg m e =>
    let d := Config.freeInt draw i
    if -(2 ^ 41) ≤ d ∧ d ≤ 2 ^ 41 then .fin neg (m * (2 ^ 64 + d).toNat) (e - 64) else x
  | x => x

/-- The new value of one accumulator element when a step lands, and its flags (02 R27, R38, R408; 03 R49, R50). -/
def landElem (st : CubeStep) (kf k r n : Nat) (old : Nat) : Nat × Flags :=
  let a := unitElems st.fa st.ta kf (Map.get (0, 0) st.units r)
  let b := unitElems st.fb st.tb kf (Map.get (0, 0) st.units (8 + 8 * k + n))
  let ps := List.zipWith xmul a b
  let vs := if st.fa = .fp32 then
      (numbered 0 ps).map fun p => perturb st.draw (2 * (64 * k + 8 * r + n) + p.1) p.2.1
    else ps.map Prod.fst
  let t := xsum (if st.zero then vs else fpVal .fp32 old :: vs)
  cubeRound t.1 (ps.any Prod.snd || t.2)

/-- K_f and the unit widths of a step in flight. -/
def CubeStep.shape (st : CubeStep) : Nat × Nat × Nat := (stepShape st.fa st.fb).getD (0, 0, 0)

/-- The elements a step adds in cycle `x` (03 R49). -/
def Core.landStep (c : Core) (x : Nat) (st : CubeStep) : Core :=
  let t := st.t + c.cubeLat
  if t ≤ x ∧ x ≤ t + 21 then
    (cellsAt (x - t)).foldl
      (fun c p =>
        let key := accKey p.1 st.acc p.2.1 p.2.2
        let r := landElem st st.shape.1 p.1 p.2.1 p.2.2 (Map.get 0 c.acc key).toNat
        { c with acc := Map.set 0 c.acc key (BitVec.ofNat 32 r.1), sticky := c.sticky.or r.2 }) c
  else c

/-- The start of cycle `x`: flags a CLRF of the cycle before clears (04 R99), results, then landing steps. -/
def Core.beginCycle (c : Core) (x : Nat) : Core :=
  let c := match c.clrfAt with
    | some (t, m) => if t = x then { c with sticky := c.sticky.clear m, clrfAt := none } else c
    | none => c
  let c := c.commit x
  let c := c.steps.foldl (fun c st => c.landStep x st) c
  { c with
    lastVis := if c.steps.any (fun st => st.t + c.cubeLat ≤ x) then x else c.lastVis
    steps := c.steps.filter fun st => x < st.t + c.cubeLat + 21 }

/-- The B unit indexes (k, n) a step reads at delay `d` (03 R54). -/
def bAt (d : Nat) : List (Nat × Nat) :=
  (List.range 8).filterMap fun k => if k ≤ d ∧ d - k < 8 then some (k, d - k) else none

/-- The scratchpad units a step reads at delay `d`: port (0 A, 1 B), unit key, address, width, plane address. -/
def CubeStep.padReads (st : CubeStep) (d : Nat) : List (Nat × Nat × Nat × Nat × Option Nat) :=
  let sh := st.shape
  let as_ := if d < 8 then
      match st.aUnits.getD d none with
      | some a => [(0, d, a, sh.2.1, st.aPlanes[d]?)]
      | none => []
    else []
  let bs := match st.b with
    | .pad us ps => (bAt d).map fun p => (1, 8 + 8 * p.1 + p.2, us.getD (8 * p.1 + p.2) 0, sh.2.2, ps[8 * p.1 + p.2]?)
    | .stream _ _ _ => []
  as_ ++ bs

/-- The stream line a step needs at delay `d` (03 R55, R56). -/
def CubeStep.lineAt (st : CubeStep) (d : Nat) : Option (Nat × Nat) :=
  match st.b with
  | .stream ctx _ j => some (ctx.gen, j + d)
  | .pad _ _ => none

/-- A line in the feeder buffer. -/
def Core.line (c : Core) (gen line : Nat) : Option FeedLine := c.lines.find? fun l => l.gen = gen ∧ l.line = line

/-- The lines the steps in flight need in cycle `x` that the feeder buffer does not hold (03 R56). -/
def Core.missing (c : Core) (x : Nat) : List (Nat × Nat) :=
  (c.steps.filterMap fun st => if x - st.t ≤ 14 then st.lineAt (x - st.t) else none).filter
    fun l => (c.line l.1 l.2).isNone

/-- The RUN in progress told to stop (04 R75), unless it already stops. -/
def Core.stopRun (c : Core) (i : StopInfo) : Core :=
  match c.run with
  | some r => if r.stop.isSome then c else { c with run := some { r with stop := some i } }
  | none => c

/-- The bank words cycle-counted ports touch in the cycle (03 R59, R60): (port, 16-byte word). -/
def Core.portWords (c : Core) (x : Nat) : List (Nat × Nat) :=
  let span (port a n : Nat) := (List.range ((a % 16 + n + 15) / 16)).map fun i => (port, a / 16 + i)
  let feeds := c.steps.flatMap fun st =>
    if x - st.t ≤ 14 then
      (st.padReads (x - st.t)).flatMap fun r =>
        span r.1 r.2.2.1 r.2.2.2.1 ++ (match r.2.2.2.2 with | some p => span r.1 p 1 | none => [])
    else []
  let lds := (c.loads.filter fun l => l.at_ = x).flatMap fun l =>
    l.offs.flatMap fun o => span (if l.slot = 6 then 2 else l.slot + 2) o l.width
  let sts := (c.stores.filter fun t => t.at_ = x).flatMap fun t => t.chunks.flatMap fun ch => span 2 ch.1 ch.2.length
  (feeds ++ lds ++ sts).eraseDups

/-- The scratchpad bank of a 16-byte word (03 R59). -/
def bankOf (w : Nat) : Nat := if w * 16 < 0x300000 then w % 64 else 64 + w % 64

/-- Cycles the core holds for bank clashes: one less than the largest number of accesses to one bank (03 R60). -/
def Core.clashes (c : Core) (x : Nat) : Nat :=
  let bs := (c.portWords x).map fun w => bankOf w.2
  (bs.map fun b => bs.count b).foldl max 1 - 1

/-- One unit stored in a step. -/
def CubeStep.put (st : CubeStep) (key : Nat) (u : Nat × Nat) : CubeStep :=
  { st with units := Map.set (0, 0) st.units key u }

/-- A unit of free data, where the spec gives the A feeder no window configuration. -/
def freeUnit (draw r : Nat) : Nat :=
  leNat ((List.range 16).map fun i => Config.freeByte draw (16 * r + i))

/-- The units one step reads in cycle `x` (03 R54, R55, R62): from the scratchpad, or from its stream line. An unreadable word
enters as zero elements and stops the RUN. A stream opened without a plane gives a block-format step free block bytes. -/
def State.feedStep (s : State) (n x : Nat) (st : CubeStep) : State × CubeStep :=
  let d := x - st.t
  if 14 < d then (s, st)
  else
    let r := (st.padReads d).foldl
      (fun (acc : State × CubeStep) p =>
        let s := acc.1
        let m := s.readSram (padMA n p.2.2.1) p.2.2.2.1
        let pl := match p.2.2.2.2 with | some a => s.readSram (padMA n a) 1 | none => ([], none, 0)
        let c := s.core n
        let c := { c with sramFixed := c.sramFixed + m.2.2 + pl.2.2 }
        match m.2.1.orElse fun _ => pl.2.1 with
        | some ma => (s.setCore n (c.stopRun ⟨cMemUncorrectable, st.pc, 0, ma - padMA n 0⟩), acc.2)
        | none => (s.setCore n c, acc.2.put p.2.1 (leNat m.1, leNat pl.1)))
      (s, st)
    let r := if st.aFree ∧ d < 8 then (r.1, r.2.put d (freeUnit st.draw d, 0)) else r
    match st.lineAt d with
    | none => r
    | some (gen, ln) =>
      match (r.1.core n).line gen ln with
      | none => r
      | some l =>
        let w := st.shape.2.2
        (bAt d).foldl
          (fun (acc : State × CubeStep) p =>
            let off := (8 * p.1 + d % 8) * w
            let bad := l.bad.contains (off / 64) || l.planeBad
            if bad then
              (acc.1.setCore n ((acc.1.core n).stopRun ⟨l.code, st.pc, 0, l.ma⟩), acc.2)
            else
              (acc.1, acc.2.put (8 + 8 * p.1 + p.2)
                (leNat ((l.bytes.drop off).take w),
                  (l.plane.getD (8 * p.1 + d % 8) (Config.freeByte st.draw (128 + 8 * p.1 + p.2))).toNat)))
          r

/-- Every step's units read in cycle `x`. -/
def State.feed (s : State) (n x : Nat) : State :=
  let r := (s.core n).steps.foldl
    (fun (acc : State × List CubeStep) st =>
      let o := acc.1.feedStep n x st
      (o.1, acc.2 ++ [o.2])) (s, [])
  r.1.setCore n { r.1.core n with steps := r.2 }

/-- What a load delivers once its bytes are read (04 R89, R93). -/
def loadDest (c : Core) (l : Load) (bs : List Byte) : List Dest × Flags :=
  let words := packLanes 8 (bs.map BitVec.toNat) (bs.length / 4)
  match l.kind with
  | .vld reg mask =>
    ([.v reg (((numbered 0 words) ++ (numbered words.length (List.replicate (256 - words.length) (0 : Word)))).filter
        fun p => mask.getLsbD p.1)], .none)
  | .sld reg => ([.s reg (BitVec.ofNat 64 (leNat bs))], .none)
  | .ald reg => ([.a reg (BitVec.ofNat 32 (leNat bs))], .none)
  | .pld reg => ([.p reg (BitVec.allOnes 256) (BitVec.ofNat 256 (leNat bs))], .none)
  | .vec op f mask a cc draw => vecApply op f mask a words cc (c.preg (f.vc.toNat % 8)) 0 draw fun _ => 0

/-- Results queued: one for each destination, the flags with the first. -/
def mkResults (due slot seq : Nat) (ds : List Dest) (fl : Flags) : List Result :=
  match ds with
  | [] => [{ due := due, slot := slot, seq := seq, dest := .none, flags := fl }]
  | d :: ds =>
    { due := due, slot := slot, seq := seq, dest := d, flags := fl } ::
      ds.map fun d => { due := due, slot := slot, seq := seq, dest := d, flags := .none }

/-- The scratchpad reads of cycle `x`, and their results queued (04 R89, R93; 03 R62). -/
def State.doLoads (s : State) (n x : Nat) : State :=
  let c := s.core n
  let now := c.loads.filter fun l => l.at_ = x
  let s := s.setCore n { c with loads := c.loads.filter fun l => l.at_ ≠ x }
  now.foldl
    (fun s l =>
      let rd := l.offs.foldl
        (fun (acc : List Byte × Option Nat × Nat) o =>
          let r := s.readSram (padMA n o) l.width
          (acc.1 ++ r.1, acc.2.1.orElse (fun _ => r.2.1), acc.2.2 + r.2.2))
        ([], none, 0)
      let c := s.core n
      let d := loadDest c l rd.1
      let c := { c with results := c.results ++ mkResults l.due l.slot l.seq d.1 d.2, sramFixed := c.sramFixed + rd.2.2 }
      let c := match rd.2.1 with
        | some ma => c.stopRun ⟨cMemUncorrectable, l.pc, l.slot, ma - padMA n 0⟩
        | none => c
      s.setCore n c)
    s

/-- A drain with the elements it reads in cycle `x` (03 R49, 04 R86), by lane of its register pair. -/
def Drain.read (acc : Map Word) (x : Nat) (d : Drain) : Drain :=
  if x - d.t ≤ 21 then
    { d with vals := d.vals ++ (cellsAt (x - d.t)).map fun p =>
        (64 * p.1 + 8 * p.2.1 + p.2.2, Map.get 0 acc (accKey p.1 d.acc p.2.1 p.2.2)) }
  else d
/-- The accumulators with the elements a DRAINZ read in cycle `x` zeroed (04 R86). -/
def Drain.clear (x : Nat) (acc : Map Word) (d : Drain) : Map Word :=
  if d.zero ∧ x - d.t ≤ 21 then
    (cellsAt (x - d.t)).foldl (fun m p => Map.set 0 m (accKey p.1 d.acc p.2.1 p.2.2) 0) acc
  else acc
/-- The results of a drain that has read its last element: both registers, visible at t + 22 (04 R86). -/
def Drain.results (d : Drain) : List Result :=
  mkResults (d.t + 22) 0 d.seq
    [.v d.vd (d.vals.filter fun p => p.1 < 256),
     .v (d.vd + 1) ((d.vals.filter fun p => 256 ≤ p.1).map fun p => (p.1 - 256, p.2))] .none

/-- The drain reads of cycle `x` (03 R49, 04 R86). -/
def Core.doDrains (c : Core) (x : Nat) : Core :=
  let ds := c.drains.map (Drain.read c.acc x)
  let done := ds.filter fun d : Drain => x = d.t + 21
  { c with
    acc := ds.foldl (Drain.clear x) c.acc
    drains := ds.filter fun d : Drain => x ≠ d.t + 21
    results := c.results ++ done.flatMap Drain.results }

/-- The scratchpad writes of cycle `x`, after every read of the cycle (03 R60, 04 R82). -/
def State.doStores (s : State) (n x : Nat) : State :=
  let c := s.core n
  let now := c.stores.filter fun t => t.at_ = x
  let s := s.setCore n { c with stores := c.stores.filter fun t => t.at_ ≠ x, lastVis := if now = [] then c.lastVis else x }
  now.foldl
    (fun s t =>
      t.chunks.foldl
        (fun s ch =>
          let r := s.writeSram (padMA n ch.1) ch.2
          let c := r.1.core n
          let c := { c with sramFixed := c.sramFixed + r.2.2 }
          r.1.setCore n (match r.2.1 with
            | some ma => c.stopRun ⟨cMemUncorrectable, t.pc, 6, ma - padMA n 0⟩
            | none => c)) s)
    s

/-- Lines leave the feeder buffer once the last step that reads them has read them (03 R55). -/
def Core.purge (c : Core) : Core :=
  let keep (l : FeedLine) : Bool :=
    (c.steps.any fun st => match st.b with
      | .stream ctx _ j => ctx.gen == l.gen && decide (j ≤ l.line) && decide (l.line ≤ j + 14) && decide (c.cycle ≤ st.t + (l.line - j))
      | .pad _ _ => false) ||
    [c.ctx0, c.ctx1].any fun x => x.opened && x.gen == l.gen && decide (x.consumed ≤ min l.line (x.total - 1))
  { c with lines := c.lines.filter keep }

/-- Whether core clock `k` is swallowed when `w` of every 256 are, spread evenly (16 R356). -/
def swallowed (w k : Nat) : Bool := decide (k * w / 256 < (k + 1) * w / 256)
/-- Clocks from `k` on up to the next that is not swallowed, at most `fuel`. -/
def skipClocks : Nat → Nat → Nat → Nat
  | 0, _, _ => 0
  | fuel + 1, w, k => if swallowed w k then 1 + skipClocks fuel w (k + 1) else 0

/-- How many of the `k` core clocks from `c` on are swallowed when `w` of every 256 are. -/
def swallowedIn (w c k : Nat) : Nat := (c + k) * w / 256 - c * w / 256

/-- Core clocks in `d` drops of true time: 11 in 16 (1.1 GHz; a drop is 0.625 ns). -/
def clocksIn (d : Nat) : Nat := d * 11 / 16

/-- A hold that ends: its clocks are counted, a clock both swallowed and held as swallowed (03 R56, R69). -/
def State.endHold (s : State) (n : Nat) : State :=
  let c := s.core n
  match c.hold with
  | none => s
  | some h =>
    let w := s.swallow n
    let k := clocksIn (s.time - h.time)
    let sw := swallowedIn w c.clocks k
    s.setCore n { c with hold := none, clocks := c.clocks + k, cycFeed := c.cycFeed + BitVec.ofNat 64 (k - sw),
                         cycSwallow := c.cycSwallow + BitVec.ofNat 64 sw }

/-- The scratchpad bank an item waits for, none for a bundle store (03 R59, R61). -/
def AsyncItem.bank : AsyncItem → Option Nat
  | .port a => some (bankOf (a.off / 16))
  | .word _ ma _ => if ma < 0x034000000000 then some (bankOf (ma % 2 ^ 23 / 16)) else none

/-- The access of an asynchronous port by itself. -/
def AsyncItem.access : AsyncItem → Option AsyncAcc
  | .port a => some a
  | .word _ _ _ => none

/-- The count of consecutive refusals of each bank an asynchronous access waits for, after cycle `x` (03 R61). -/
def Core.countRefusals (c : Core) (x : Nat) : Core :=
  let used := (c.portWords x).map fun w => bankOf w.2
  let waiting := (c.asyncWait.filterMap AsyncItem.bank).eraseDups
  let count (m : Map Nat) (b : Nat) : Map Nat := Map.set 0 m b (if used.contains b then Map.get 0 c.refusals b + 1 else 0)
  { c with refusals := waiting.foldl count [] }

/-- The bank words of waiting parts that a cycle serves: the oldest for each bank that no cycle-counted port used in it, and those of the
bundle store (03 R61). -/
def Core.servable (c : Core) (used : List Nat) : List AsyncItem :=
  (c.asyncWait.foldl
    (fun (acc : List AsyncItem × List Nat) i =>
      match i with
      | .port _ => acc
      | .word _ _ _ => match i.bank with
        | none => (acc.1 ++ [i], acc.2)
        | some b => if acc.2.contains b then acc else (acc.1 ++ [i], b :: acc.2))
    ([], used)).1
/-- They are served. -/
def State.serveWords (s : State) (n : Nat) (used : List Nat) : State :=
  let is := (s.core n).servable used
  let c := s.core n
  let s := s.setCore n { c with asyncWait := c.asyncWait.filter fun i => !is.contains i }
  is.foldl (fun s i => match i with | .word q a k => s.serveWord n q a k | .port _ => s) s

/-- The rest of the present cycle and the start of the next, with the clocks counted (03 R60, R69). -/
def State.turnCycle (s : State) (n : Nat) : State :=
  let x := (s.core n).cycle
  let s := s.endHold n
  let w := s.swallow n
  let clash := (s.core n).clashes x
  let used := ((s.core n).portWords x).map fun w => bankOf w.2
  let s := if (s.core n).asyncWait = [] then s else s.setCore n ((s.core n).countRefusals x)
  let s := s.feed n x
  let s := s.doLoads n x
  let s := s.setCore n ((s.core n).doDrains x)
  let s := s.doStores n x
  let s := if (s.core n).asyncWait = [] then s else s.serveWords n used
  let c := s.core n
  let held := swallowedIn w c.clocks clash
  let sw := skipClocks 512 w (c.clocks + clash)
  let c := { c with cycle := x + 1, cycExec := c.cycExec + 1, cycSwallow := c.cycSwallow + BitVec.ofNat 64 (held + sw),
                    cycBank := c.cycBank + BitVec.ofNat 64 (clash - held), clocks := c.clocks + sw + clash + 1 }
  (s.setCore n (c.purge.beginCycle (x + 1))).draw

/-- One executed cycle, or none: a core whose clocks are all swallowed does not move (16 R368), and a core whose steps need a
stream line the buffer does not hold is held (03 R56). The flag says whether the cycle ended. -/
def State.advance (s : State) (n : Nat) : State × Bool :=
  let c := s.core n
  if 256 ≤ s.swallow n then (s, false)
  else if c.missing c.cycle ≠ [] then
    (match c.hold with
     | some _ => s
     | none => s.setCore n { c with hold := some { time := s.time, pos := s.pos } }, false)
  else (s.turnCycle n, true)

/-- Executed cycles until the core stands at cycle `x`, at most `fuel` of them. -/
def State.advanceTo (s : State) (n x : Nat) : Nat → State
  | 0 => s
  | fuel + 1 =>
    if x ≤ (s.core n).cycle then s
    else
      let r := s.advance n
      if r.2 then r.1.advanceTo n x fuel else r.1

end Sys2Proof.Machine
end

