-- ==== Sys2Proof/Machine/CoreIssue.lean ====
section
/-! DEFINITION. Issuing slot operations and bundles (04 R73 to R99): what each operation does in its issue cycle, program flow, and
how a RUN stops or ends. -/

namespace Sys2Proof.Machine

/-- Results queued at their latency (04 R76). -/
def Core.emit (c : Core) (slot lat : Nat) (ds : List Dest) (fl : Flags) : Core :=
  { c with results := c.results ++ mkResults (c.cycle + lat) slot c.seq ds fl, seq := c.seq + 1 }

/-- A slot operation's fault: code and detail (04 R75). -/
abbrev SlotRes := State × Option (Nat × Nat)

/-- The line address of an operand: bits below the line size are ignored (03 R54). -/
def lineBase (a size : Nat) : Nat := a / size * size

/-- The address of A unit `r` of a window step (03 R57), none where padding replaces it. Where K_f does not divide the channel count the
spec gives no address: DESIGN CHOICE, floor(C / K_f) chunks a tap, and with none tap 0 and chunk j. -/
def Window.unit (w : Window) (kf wa j p0 r : Nat) : Option Nat :=
  let chunks := w.chans / kf
  let cch := j % chunks
  let tap := j / chunks
  let p := p0 + r
  let pw : Int := if w.twoD then (p % w.outW : Nat) else (p : Nat)
  let ph : Int := if w.twoD then (p / w.outW : Nat) else 0
  let tw : Int := if w.twoD then (tap % w.kw : Nat) else (tap : Nat)
  let th : Int := if w.twoD then (tap / w.kw : Nat) else 0
  let qw := pw * w.sw + tw * w.dw - w.pw
  let qh := ph * w.sh + th * w.dh - w.ph
  if qw < 0 ∨ (w.inW : Int) ≤ qw then none
  else if w.twoD ∧ (qh < 0 ∨ (w.inH : Int) ≤ qh) then none
  else
    let a : Int := (w.base : Int) + qw * w.pitchW + (if w.twoD then qh * w.pitchH else 0) + (cch * wa : Nat)
    some (wrapTo 23 a)

/-- Steps per block of a window: taps × chunks (04 R85). -/
def Window.steps (w : Window) (kf : Nat) : Nat := w.kw * (if w.twoD then w.kh else 1) * (w.chans / kf)

/-- The A addresses of a step: units, plane bytes, and whether they are free (a window step of a RUN with no window). -/
def stepA (c : Core) (f : StepF) (fa : Fmt) (kf wa : Nat) : List (Option Nat) × List Nat × Bool :=
  let r := f.areg.toNat
  if f.awin then
    match c.window with
    | some w =>
      ((List.range 8).map (w.unit kf wa (c.areg r).toNat (c.areg (r + 1)).toNat), [], false)
    | none => (List.replicate 8 none, [], true)
  else
    let line := lineBase (c.padAddr r f.aoff.toNat 16) (8 * wa)
    let pl := lineBase ((c.areg (r + 1)).toNat % 2 ^ 23) 8
    ((List.range 8).map fun i => some ((line + i * (8 * wa) + i * wa) % 2 ^ 23),
     if fa.isBlock then (List.range 8).map fun i => (pl + i * 8 + i) % 2 ^ 23 else [], false)

/-- The B addresses of a scratchpad step, unit (k, i) at 8k + i: units and plane bytes (03 R51, R52, R54). -/
def stepB (c : Core) (f : StepF) (fb : Fmt) (wb : Nat) : List Nat × List Nat :=
  let r := f.breg.toNat
  let line := lineBase (c.padAddr r f.boff.toNat 16) (64 * wb)
  let pl := lineBase ((c.areg (r + 1)).toNat % 2 ^ 23) 64
  let ki := (List.range 8).flatMap fun k => (List.range 8).map fun i => (k, i + k)
  (ki.map fun p => (line + p.2 * (64 * wb) + (8 * p.1 + p.2 % 8) * wb) % 2 ^ 23,
   if fb.isBlock then ki.map fun p => (pl + p.2 * 64 + 8 * p.1 + p.2 % 8) % 2 ^ 23 else [])

/-- A register advanced by a post-increment, visible in the next cycle (04 R84, Table BDL-5). -/
def Core.advanceReg (c : Core) (r by_ : Nat) : Core :=
  c.emit 0 1 [.a r (c.areg r + BitVec.ofNat 32 by_)] .none

/-- Post-increments of a step (04 R84, R85). AREG and BREG the same register with both increments: DESIGN CHOICE (the spec is silent),
two results of slot 0 to one register, of which B's is kept and a collision recorded. -/
def stepIncr (c : Core) (f : StepF) (fa fb : Fmt) (kf wa wb : Nat) : Core :=
  let ra := f.areg.toNat
  let rb := f.breg.toNat
  let c :=
    if f.ainc then
      if f.awin then
        match c.window with
        | some w =>
          let j := (c.areg ra).toNat + 1
          if j = w.steps kf then
            (c.emit 0 1 [.a ra 0] .none).emit 0 1 [.a (ra + 1) (c.areg (ra + 1) + 8)] .none
          else c.emit 0 1 [.a ra (BitVec.ofNat 32 j)] .none
        | none => c.advanceReg ra 1
      else
        let c' := c.advanceReg ra (8 * wa)
        if fa.isBlock then c'.advanceReg (ra + 1) 8 else c'
    else c
  if f.binc ∧ f.bsrc = 0 then
    let c' := c.advanceReg rb (64 * wb)
    if fb.isBlock then c'.advanceReg (rb + 1) 64 else c'
  else c

/-- A stream context of a core. -/
def Core.ctx (c : Core) (b : Bool) : StreamCtx := if b then c.ctx1 else c.ctx0
/-- A stream context replaced. -/
def Core.setCtx (c : Core) (b : Bool) (x : StreamCtx) : Core := if b then { c with ctx1 := x } else { c with ctx0 := x }
/-- Bytes of a stream's lines (04 Table BDL-6). -/
def StreamCtx.lineSize (x : StreamCtx) : Nat := if x.lw then 1024 else 512
/-- Whether a stream has a plane (04 Table BDL-6). -/
def StreamCtx.hasPlane (x : StreamCtx) : Bool := match Fmt.ofCode x.fmtb with | some f => f.isBlock | none => false

/-- The check of a stream step's context (04 R87): its fault, if any. A context that has both the wrong LW and all its steps consumed
gives the fault of the line width: DESIGN CHOICE (the spec gives no order). -/
def streamFault (s : State) (n : Nat) (x : StreamCtx) (wb : Nat) : Option (Nat × Nat) :=
  if !x.opened then some (cCoreStreamExhausted, 0)
  else if (if x.lw then 16 else 8) ≠ wb then some (cCoreIllegalBundle, 0)
  else if x.total ≤ x.consumed then some (cCoreStreamExhausted, 0)
  else
    let top := x.base + (x.consumed + 15) * x.lineSize
    let ptop := x.plane + (x.consumed + 15) * 64
    if s.cistSize n < top then some (cMemUnmapped, n * 2 ^ 30 + max x.base (lineBase (s.cistSize n) x.lineSize))
    else if x.hasPlane && decide (s.cistSize n < ptop) then
      some (cMemUnmapped, n * 2 ^ 30 + max x.plane (lineBase (s.cistSize n) 64))
    else none

/-- STEP and STEPZ in their issue cycle (04 R84, R85, R87). -/
def issueStep (s : State) (n pc : Nat) (z : Bool) (f : StepF) : SlotRes :=
  let c := s.core n
  match stepShapeOf f with
  | none => (s, some (cCoreIllegalBundle, 0))
  | some (fa, fb, kf, wa, wb) =>
    if !c.performed f.pred f.pneg then (s, none)
    else
      let a := stepA c f fa kf wa
      let b := stepB c f fb wb
      let aBad := (a.1.filterMap id).find? fun x => decide (padSize < x + wa)
      let apBad := a.2.1.find? fun x => decide (padSize ≤ x)
      let bBad := if f.bsrc = 0 then (b.1.find? fun x => decide (padSize < x + wb)).orElse fun _ =>
        b.2.find? fun x => decide (padSize ≤ x) else none
      let ctx := c.ctx (f.bsrc = 2)
      let sf := if f.bsrc = 0 then none else streamFault s n ctx wb
      match (aBad.orElse fun _ => apBad).orElse fun _ => bBad, sf with
      | some x, _ => (s, some (cMemUnmapped, x))
      | none, some e => (s, some e)
      | none, none =>
        let st : CubeStep :=
          { t := c.cycle, acc := f.acc.toNat, zero := z, fa := fa, fb := fb, ta := f.toffa.toInt, tb := f.toffb.toInt,
            aFree := a.2.2, draw := s.free, pc := pc, aUnits := a.1, aPlanes := a.2.1,
            b := if f.bsrc = 0 then .pad b.1 b.2 else .stream ctx (f.bsrc = 2) ctx.consumed, units := [] }
        let c := { c with steps := c.steps ++ [st] }
        let c := if f.bsrc = 0 then c else c.setCtx (f.bsrc = 2) { ctx with consumed := ctx.consumed + 1 }
        (s.setCore n (stepIncr c f fa fb kf wa wb), none)

/-- DRAIN and DRAINZ (04 R86). -/
def issueDrain (s : State) (n : Nat) (z : Bool) (f : DrainF) : SlotRes :=
  let c := s.core n
  if !c.performed f.pred f.pneg then (s, none)
  else
    (s.setCore n { c with
      drains := c.drains ++ [{ t := c.cycle, acc := f.acc.toNat, vd := f.vd.toNat, zero := z, seq := c.seq, vals := [] }]
      seq := c.seq + 1 }, none)

/-- SOPEN (04 R87): the low 30 bits of the named s registers, bits below the line size ignored. -/
def issueSopen (s : State) (n : Nat) (f : SopenF) : SlotRes :=
  let c := s.core n
  if !c.performed f.pred f.pneg then (s, none)
  else
    let size := if f.lw then 1024 else 512
    let x : StreamCtx :=
      { opened := true, gen := c.gens + 1, base := lineBase ((c.sreg f.sbase.toNat).toNat % 2 ^ 30) size,
        plane := lineBase ((c.sreg f.splane.toNat).toNat % 2 ^ 30) 64, lw := f.lw, fmtb := f.fmtb.toNat,
        total := f.j.toNat, consumed := 0 }
    (s.setCore n ({ c with gens := c.gens + 1 }.setCtx f.ctx x), none)

/-- A VEC operation in its issue cycle (04 R80, R88, R89). -/
def issueVec (s : State) (n pc : Nat) (op : VecOp) (f : VecF) : SlotRes :=
  let c := s.core n
  let slot := if f.vec1 then 2 else 1
  let lat := vecLatency op f
  let m := c.mask f.pred f.pneg
  if op.whole && !c.performed f.pred f.pneg then (s, none)
  else if f.bmem then
    let a := c.padAddr (f.imm.toNat / 4096) (f.imm.toNat % 4096) 1024 / 16 * 16
    if padSize < a + 1024 then (s, some (cMemUnmapped, a))
    else
      let l : Load :=
        { at_ := c.cycle + 1, due := c.cycle + lat, slot := slot, seq := c.seq, pc := pc,
          kind := .vec op f m (c.vreg f.va.toNat) (c.vreg f.vc.toNat) s.free,
          offs := (List.range 64).map fun i => a + 16 * i, width := 16 }
      (s.setCore n { c with loads := c.loads ++ [l], seq := c.seq + 1 }, none)
  else
    let b := if op = .vcvt then c.vreg (f.va.toNat + 1) else c.vreg f.vb.toNat
    let r := vecApply op f m (c.vreg f.va.toNat) b (c.vreg f.vc.toNat) (c.preg (f.vc.toNat % 8))
      (c.sreg (f.imm.toNat % 32)) s.free (c.rngBits n (slot - 1))
    let c := if op = .vcvt then c.converted (slot - 1) else c
    (s.setCore n (c.emit slot lat r.1 r.2), none)

/-- An SFU operation (04 R91): one quarter of the lanes. -/
def issueSfu (s : State) (n : Nat) (op : SfuOp) (f : SfuF) : SlotRes :=
  let c := s.core n
  let m := c.mask f.pred f.pneg
  let ls := ((List.range 64).map fun i => 64 * f.qtr.toNat + i).filter fun i => m.getLsbD i
  let rs := ls.map fun i =>
    (i, sfuLane op s.free i (c.lane f.va.toNat i).toNat (c.lane f.vb.toNat i).toNat)
  (s.setCore n (c.emit 3 op.latency [.v f.vd.toNat (rs.map fun r => (r.1, BitVec.ofNat 32 r.2.1))]
    (Flags.all (rs.map fun r => r.2.2))), none)

/-- What an SCA operation writes (04 Table BDL-12). -/
def scaDest (s : State) (c : Core) (op : ScaOp) (f : ScaF) : Dest :=
  let a := c.sreg f.ra.toNat
  let b := c.sreg (f.imm.toNat / 128)
  let imm : DWord := f.imm.signExtend 64
  let rd := f.rd.toNat
  let sh := b.toNat % 64
  let shi := f.imm.toNat % 64
  let pred (t : Bool) : Dest := .p (rd % 8) (BitVec.allOnes 256) (if t then BitVec.allOnes 256 else 0)
  match op with
  | .add => .s rd (a + b)
  | .sub => .s rd (a - b)
  | .addi => .s rd (a + imm)
  | .shin => .s rd ((a <<< 12) ||| f.imm.setWidth 64)
  | .and => .s rd (a &&& b)
  | .or => .s rd (a ||| b)
  | .xor => .s rd (a ^^^ b)
  | .shl => .s rd (a <<< sh)
  | .shr => .s rd (a >>> sh)
  | .sra => .s rd (a.sshiftRight sh)
  | .shli => .s rd (a <<< shi)
  | .shri => .s rd (a >>> shi)
  | .mul => .s rd (a * b)
  | .cmpeq => pred (a == b)
  | .cmplt => pred (a.slt b)
  | .cmpltu => pred (a.ult b)
  | .aaddi => .a (rd % 16) (c.areg (f.ra.toNat % 16) + (f.imm.signExtend 32) * 16)
  | .amov => .a (rd % 16) (a.setWidth 32)
  | .smova => .s rd ((c.areg (f.ra.toNat % 16)).setWidth 64)
  | .getv => .s rd ((c.lane (f.imm.toNat % 64) (a.toNat % 256)).setWidth 64)
  | .getf => .s rd (BitVec.ofNat 64 c.sticky.toNat)
  | .getlc => .s rd (((c.loops[f.imm.toNat % 4]?).map fun l => l.count.setWidth 64).getD 0)
  | .gett => .s rd (BitVec.ofNat 64 (s.copyTick (c.site.toNat / 512)))

/-- Latency of an SCA operation (04 Table BDL-12). -/
def ScaOp.latency : ScaOp → Nat
  | .mul => 3
  | .getv | .gett => 2
  | _ => 1

/-- An SCA operation (04 R92). -/
def issueSca (s : State) (n : Nat) (op : ScaOp) (f : ScaF) : SlotRes :=
  let c := s.core n
  if !c.performed f.pred f.pneg then (s, none)
  else (s.setCore n (c.emit (if f.sca1 then 5 else 4) op.latency [scaDest s c op f] .none), none)

/-- Bytes of a scalar MEM operation and the address bits it ignores (04 Table BDL-14). -/
def MemOp.bytes : MemOp → Nat
  | .vld | .vst => 16
  | .sld | .sst => 8
  | .ald | .ast => 4
  | .pld | .pst => 32

/-- The word addresses of a MEM operation (04 R93, R81). -/
def memOffs (c : Core) (op : MemOp) (f : MemF) : List Nat :=
  let w := op.bytes
  let a := c.padAddr f.areg.toNat f.addr.toNat 1 / w * w
  match op with
  | .vld | .vst => (List.range (f.size.toNat + 1)).map fun i => a + i * f.stride.toNat * 16
  | _ => [a]

/-- The bytes a VST stores: whole words of 8 bytes where both lanes are performed, else single lanes (04 R80, R93). Words of one VST
that overlap are written in ascending order, so that the last word's lanes stay: DESIGN CHOICE (the spec is silent). -/
def vstChunks (c : Core) (f : MemF) (m : BitVec 256) : Nat → List Nat → List (Nat × List Byte)
  | _, [] => []
  | i, a :: as_ =>
    let lane (j : Nat) := leBytes 4 (c.lane f.reg.toNat (4 * i + j)).toNat
    let on (j : Nat) := m.getLsbD (4 * i + j)
    let pair (j : Nat) : List (Nat × List Byte) :=
      if on j && on (j + 1) then [(a + 4 * j, lane j ++ lane (j + 1))]
      else if on j then [(a + 4 * j, lane j)]
      else if on (j + 1) then [(a + 4 * (j + 1), lane (j + 1))]
      else []
    pair 0 ++ pair 2 ++ vstChunks c f m (i + 1) as_

/-- The bytes a store writes (04 Table BDL-14). -/
def memChunks (c : Core) (op : MemOp) (f : MemF) (m : BitVec 256) (offs : List Nat) : List (Nat × List Byte) :=
  match op, offs with
  | .vst, _ => vstChunks c f m 0 offs
  | .sst, a :: _ => [(a, leBytes 8 (c.sreg (f.reg.toNat % 32)).toNat)]
  | .ast, a :: _ => [(a, leBytes 4 (c.areg (f.reg.toNat % 16)).toNat)]
  | .pst, a :: _ => [(a, leBytes 32 (c.preg (f.reg.toNat % 8)).toNat)]
  | _, _ => []

/-- What a load is for and its latency, none for a store (04 Table BDL-14). -/
def memKind (op : MemOp) (f : MemF) (m : BitVec 256) : Option (LoadKind × Nat) :=
  match op with
  | .vld => some (.vld f.reg.toNat m, 4)
  | .sld => some (.sld (f.reg.toNat % 32), 3)
  | .ald => some (.ald (f.reg.toNat % 16), 3)
  | .pld => some (.pld (f.reg.toNat % 8), 4)
  | _ => none

/-- A MEM operation (04 R93): loads take the banks in cycle t + 1, stores write them there. -/
def issueMem (s : State) (n pc : Nat) (op : MemOp) (f : MemF) : SlotRes :=
  let c := s.core n
  let m := c.mask f.pred f.pneg
  let offs := memOffs c op f
  let lanewise := op = .vld ∨ op = .vst
  if ¬lanewise ∧ !m.getLsbD 0 then (s, none)
  else
    match offs.find? fun a => decide (padSize < a + op.bytes) with
    | some a => (s, some (cMemUnmapped, a))
    | none =>
      match memKind op f m with
      | some (k, lat) =>
        (s.setCore n { c with
          loads := c.loads ++ [{ at_ := c.cycle + 1, due := c.cycle + lat, slot := 6, seq := c.seq, pc := pc, kind := k,
                                 offs := offs, width := op.bytes }]
          seq := c.seq + 1 }, none)
      | none =>
        (s.setCore n { c with
          stores := c.stores ++ [{ at_ := c.cycle + 1, pc := pc, chunks := memChunks c op f m offs }] }, none)

/-- Everything in flight: results, loads, stores, steps, drains. -/
def Core.inFlight (c : Core) : Bool :=
  c.results ≠ [] || c.loads ≠ [] || c.stores ≠ [] || c.steps ≠ [] || c.drains ≠ [] || c.clrfAt.isSome

/-- Executed cycles until nothing is in flight, at most `fuel`; a hold ends the advance. -/
def State.drainPipe (s : State) (n : Nat) : Nat → State
  | 0 => s
  | fuel + 1 =>
    if !(s.core n).inFlight then s
    else
      let r := s.advance n
      if r.2 then r.1.drainPipe n fuel else r.1

/-- The header at a byte of the bundle store, as its bytes stand. -/
def State.headerAt (s : State) (n pc : Nat) : Header :=
  Header.ofNat (leNat (s.raw (bundleMA n pc) 2))
/-- A program counter wrapped into the bundle store (04 R95). -/
def wrapPc (x : Int) : Nat := (x % 2 ^ 19).toNat

/-- The loop stack and next address after the bundle at `pc` of length `len` issues: only the innermost loop is checked
(04 R96). -/
def loopNext (loops : List LoopLvl) (pc len : Nat) : List LoopLvl × Nat :=
  match loops with
  | [] => ([], wrapPc (pc + len : Nat))
  | l :: ls =>
    if l.stop = pc then
      if 1 < l.count.toNat then ({ l with count := l.count - 1 } :: ls, l.start) else (ls, wrapPc (pc + len : Nat))
    else (l :: ls, wrapPc (pc + len : Nat))

/-- The CTL operation of a bundle. -/
def ctlOf : List SlotOp → Option (CtlOp × CtlF)
  | [] => none
  | .ctl op f :: _ => some (op, f)
  | _ :: ops => ctlOf ops

/-- The count of a LOOP (04 R96): its field, or the low 32 bits of the s register it names. -/
def Core.loopCount (c : Core) (f : CtlF) : Nat :=
  if f.bits.getLsbD 21 then (c.sreg (bitsOf f.bits.toNat 11 5)).toNat % 2 ^ 32 else bitsOf f.bits.toNat 11 10

/-- Whether nothing issues in the cycle after the bundle at `p`: it is a RUN's last bundle, or its CTL operation is performed and ends
the RUN, faults, or is a LOOP of count 0 (04 R75, R96, R97). `c` is the core as it stands in the bundle's issue cycle. -/
def State.stopsIssue (s : State) (n : Nat) (c : Core) (p : Nat) (h : Header) : Bool :=
  h.last ||
  match ctlOf ((decodeSlots h.len (onesOf 8 h.slots) (s.raw (bundleMA n p + 2) (h.len - 2))).filterMap Prod.snd) with
  | some (.loop, f) => c.performed f.pred f.pneg && (c.loopCount f == 0 || decide (4 ≤ c.loops.length))
  | some (.endRun, f) | some (.trap, f) => c.performed f.pred f.pneg
  | _ => false

/-- The link address of a branch in cycle `t` (04 R95): the sequential successor of the last bundle that issues in t + 1 or
t + 2, `y` being the next issue cycle and `p` the next address; `succ` is the successor so far. -/
def linkFrom (s : State) (n t : Nat) (useLoops : Bool) : Nat → List LoopLvl → Nat → Nat → Nat → Nat
  | 0, _, _, _, succ => succ
  | fuel + 1, loops, y, p, succ =>
    if t + 3 ≤ y then succ
    else
      let h := s.headerAt n p
      let nx := if useLoops then loopNext loops p h.len else ([], wrapPc (p + h.len : Nat))
      if y = t + 1 ∧ s.stopsIssue n { (s.core n).commit (t + 1) with loops := loops } p h then wrapPc (p + h.len : Nat)
      else linkFrom s n t useLoops fuel nx.1 (y + 1 + h.idle) nx.2 (wrapPc (p + h.len : Nat))

/-- What a CTL operation leaves to the program flow. -/
structure Flow where
  loops : List LoopLvl
  next : Nat
  at_ : Nat
  redirect : Option Redirect
  ended : Bool
  deriving DecidableEq, Repr

/-- Where a RUN goes on after the bundle of a flow: a redirect that has come up by its next issue, or the next address (04 R95). -/
def Flow.target (fl : Flow) : Nat := match fl.redirect with | some rd => if rd.at_ ≤ fl.at_ then rd.target else fl.next | none => fl.next
/-- The redirect still to come up after a flow's next issue. -/
def Flow.later (fl : Flow) : Option Redirect := fl.redirect.filter fun rd => decide (fl.at_ < rd.at_)

/-- A CTL operation in its issue cycle `t` (04 R94 to R97, R99): `fl` is the flow the bundle has without it. -/
def issueCtl (s : State) (n pc len idle : Nat) (op : CtlOp) (f : CtlF) (fl : Flow) : State × Flow × Option (Nat × Nat) :=
  let c := s.core n
  let t := c.cycle
  let b := f.bits.toNat
  let branch (s : State) (target : Nat) : State × Flow × Option (Nat × Nat) :=
    (s, (match fl.redirect with
      | some _ => fl
      | none => { fl with redirect := some { at_ := t + 3, target := target } }), none)
  if !c.performed f.pred f.pneg then (s, fl, none)
  else
    match op with
    | .br => branch s (wrapPc (pc + 2 * signedOf 18 (b / 16)))
    | .brl =>
      let taken := fl.redirect.isNone
      let link := linkFrom s n t taken 2 fl.loops (t + 1 + idle)
        (if taken then fl.next else wrapPc (pc + len : Nat)) (wrapPc (pc + len : Nat))
      branch (s.setCore n (c.emit 7 1 [.s (b / 2 ^ 17) (BitVec.ofNat 64 link)] .none))
        (wrapPc (pc + 2 * signedOf 17 (b % 2 ^ 17)))
    | .bri => branch s ((c.sreg (b / 2 ^ 17)).toNat % 2 ^ 19 / 2 * 2)
    | .loop =>
      let count := c.loopCount f
      let stop := wrapPc (pc + 2 * (b % 2 ^ 11) : Nat)
      if 4 ≤ c.loops.length then (s, fl, some (cCoreLoopOverflow, 0))
      else if count = 0 then
        (s, { fl with next := wrapPc (stop + (s.headerAt n stop).len : Nat), at_ := fl.at_ + 2 }, none)
      else (s, { fl with loops := { start := wrapPc (pc + len : Nat), stop := stop, count := BitVec.ofNat 32 count } :: fl.loops },
            none)
    | .loopx => (s, { fl with loops := fl.loops.tail }, none)
    | .endRun => (s, { fl with ended := true }, none)
    | .clrf => (s.setCore n { c with clrfAt := some (t + 1, b % 16) }, fl, none)
    | .trap => (s, fl, some (cCoreSwTrap, b % 65536))

/-- One slot operation issued, for every slot but CTL. -/
def issueSlot (s : State) (n pc : Nat) : SlotOp → SlotRes
  | .step z f => issueStep s n pc z f
  | .drain z f => issueDrain s n z f
  | .sopen f => issueSopen s n f
  | .vec op f => issueVec s n pc op f
  | .sfu op f => issueSfu s n op f
  | .sca op f => issueSca s n op f
  | .mem op f => issueMem s n pc op f
  | .ctl _ _ => (s, none)

/-- The stop of a RUN acted on: its queue halts with a record naming program counter and slot (04 R74, R75; 05 R126). -/
def State.haltStop (s : State) (n : Nat) : State :=
  match (s.core n).run with
  | some r =>
    match r.stop with
    | some i =>
      let q := s.queue n r.queue
      s.haltQueue n r.queue { cmd := (q.running.map fun c => c.idx).getD q.ptr.toNat, code := i.code, opcode := 1,
                              pc := some (i.slot, i.pc), detail := i.detail }
    | none => s
  | none => s

/-- The stop of a RUN acted on at the end of the bundle, once its idle cycles have passed (04 R75). -/
def State.checkStop (s : State) (n : Nat) : State :=
  match (s.core n).run with
  | some r => if r.nextIssue ≤ (s.core n).cycle + 1 then s.haltStop n else s
  | none => s

/-- The RUN told to stop now: an illegal bundle, or a limit that has passed. -/
def State.stopNow (s : State) (n : Nat) (i : StopInfo) : State := (s.setCore n ((s.core n).stopRun i)).haltStop n

/-- Every slot operation of a bundle issued in slot order, with the fault of the lowest faulting slot: slot, code, detail. That the
record of R75 names the lowest of two faulting slots is a DESIGN CHOICE. -/
def issueAll (s : State) (n pc : Nat) (ops : List SlotOp) : State × Option (Nat × Nat × Nat) :=
  ops.foldl
    (fun acc op =>
      let r := issueSlot acc.1 n pc op
      (r.1.draw, acc.2.orElse fun _ => r.2.map fun e => (op.slot, e.1, e.2)))
    (s, none)

/-- The core after a bundle at `pc` has issued in cycle `x` with flow `fl`: slots taken for their occupancy (04 R78), a mark counted
(R99), the RUN at its next issue (R73, R95 to R97). An operation its predicate leaves not performed (a VPERM, VRSUM or VSCAN too)
keeps its slot busy as one performed: DESIGN CHOICE (R78 does not say). -/
def Core.bundleDone (c : Core) (r : RunState) (x pc : Nat) (h : Header) (ops : List SlotOp) (fl : Flow) : Core :=
  { c with
    loops := fl.loops
    pc := fl.target
    busy := ops.foldl (fun m o => Map.set 0 m o.slot (x + o.occ)) c.busy
    markCount := if h.mark then c.markCount + 1 else c.markCount
    markPc := if h.mark then BitVec.ofNat 19 pc else c.markPc
    run := some { r with nextIssue := fl.at_, redirect := fl.later, ended := fl.ended, skipBkpt := false,
                         stop := c.run.bind fun q => q.stop } }

/-- The CTL operation of a bundle, if any, acts on the flow the bundle has without it. -/
def State.ctlFlow (s : State) (n pc len idle : Nat) (ops : List SlotOp) (fl : Flow) : State × Flow × Option (Nat × Nat) :=
  match ctlOf ops with
  | some (op, f) => issueCtl s n pc len idle op f fl
  | none => (s, fl, none)

/-- Issue of a legal bundle at `pc` in the present cycle (04 R73, R75, R78, R95 to R97). -/
def issueLegal (s : State) (n pc len : Nat) (h : Header) (ops : List SlotOp) : State :=
  let c := s.core n
  match c.run with
  | none => s
  | some r =>
    match ops.find? fun o => decide (c.cycle < Map.get 0 c.busy o.slot) with
    | some o => s.stopNow n ⟨cCoreSlotBusy, pc, o.slot, 0⟩
    | none =>
      let res := issueAll s n pc ops
      let ln := loopNext c.loops pc len
      let ct := res.1.ctlFlow n pc len h.idle ops
        { loops := ln.1, next := ln.2, at_ := c.cycle + 1 + h.idle, redirect := r.redirect, ended := h.last }
      let s := ct.1.setCore n ((ct.1.core n).bundleDone r c.cycle pc h ops ct.2.1)
      match res.2.orElse fun _ => ct.2.2.map fun e => (7, e.1, e.2) with
      | some (slot, code, det) =>
        let s := s.setCore n ((s.core n).stopRun ⟨code, pc, slot, det⟩)
        (s.advanceTo n (c.cycle + h.idle) h.idle).checkStop n
      | none => s.checkStop n

/-- Issue of a bundle whose slots are decoded: an illegal one is not executed in any slot (04 R74). -/
def issueBundle (s : State) (n pc len : Nat) (h : Header) (slots : List (Nat × Option SlotOp)) : State :=
  match slots.find? fun p => p.2.isNone with
  | some p => s.stopNow n ⟨cCoreIllegalBundle, pc, p.1, 0⟩
  | none => issueLegal s n pc len h (slots.filterMap Prod.snd)

/-- Whether a core's RUN can issue: executing, not suspended, not ended. -/
def Core.canIssue (c : Core) : Bool :=
  match c.run with
  | some r => !r.suspended && !r.ended
  | none => false

/-- Whether a resumed RUN still waits for what issued before its breakpoint (05 R130). -/
def Core.undelivered (c : Core) : Bool :=
  match c.run with
  | some r => r.skipBkpt && !r.suspended && c.inFlight
  | none => false

/-- What issued before the breakpoint of a resumed RUN delivered; the RUN goes on behind it (05 R130). -/
def State.settleResumed (s : State) (n : Nat) : State :=
  if (s.core n).undelivered then
    let s := s.drainPipe n 64
    let c := s.core n
    s.setCore n { c with run := c.run.map fun r => { r with nextIssue := max r.nextIssue c.cycle } }
  else s

/-- The core brought to the cycle its next bundle issues in. -/
def State.toIssue (s : State) (n : Nat) : State :=
  let s := s.settleResumed n
  match (s.core n).run with
  | some r => (s.advanceTo n r.nextIssue (r.nextIssue + 1 - (s.core n).cycle)).checkStop n
  | none => s

/-- Whether the core stands in its next issue cycle. -/
def Core.atIssue (c : Core) : Bool :=
  match c.run with
  | some r => !r.suspended && !r.ended && decide (c.cycle = r.nextIssue) && !c.undelivered
  | none => false

/-- Whether the one bundle of a RESUME with STEP has issued (05 R130). -/
def Core.stepped (c : Core) : Bool :=
  match c.run with
  | some r => r.oneShot && !r.skipBkpt
  | none => false

/-- An uncorrectable word that a load or a store of an earlier bundle meets in the present cycle (03 R62): no later bundle issues (04 R75). -/
def State.slotError (s : State) (n : Nat) : Option StopInfo :=
  let c := s.core n
  let x := c.cycle
  let ld := (c.loads.filter fun l => l.at_ = x).findSome? fun l => (l.offs.findSome? fun o => (s.readSram (padMA n o) l.width).2.1).map
    fun ma => (⟨cMemUncorrectable, l.pc, l.slot, ma - padMA n 0⟩ : StopInfo)
  let st := (c.stores.filter fun t => t.at_ = x).findSome? fun t => (t.chunks.findSome? fun ch => (s.writeSram (padMA n ch.1) ch.2).2.1).map
    fun ma => (⟨cMemUncorrectable, t.pc, 6, ma - padMA n 0⟩ : StopInfo)
  ld.orElse fun _ => st

/-- A slot-operation row: the operation issues alone in its slot, as a bundle of one slot and no idle cycles at the present
program counter, in the RUN that executes. -/
def issueRow (s : State) (n : Nat) (op : SlotOp) : State :=
  if !(s.core n).canIssue then s
  else
    let s := s.toIssue n
    if !(s.core n).atIssue || (s.core n).stepped then s
    else
      let len := 2 + slotBytes op.slot
      match s.slotError n with
      | some i => s.stopNow n i
      | none =>
        issueBundle s n (s.core n).pc len { slots := 1 <<< op.slot, idle := 0, bkpt := false, mark := false, last := false }
          [(op.slot, if op.legal len && decide ((s.core n).pc + len ≤ 2 ^ 19) then some op else none)]

/-- A RUN suspended at a breakpoint (04 R99, 05 R130): every issued operation delivers its result, the queue halts with
CORE_BREAKPOINT, and the RUN stays with its program counter, loops and contexts. On a breakpoint in a branch's delay cycles the
pending redirect acts right after that bundle once it is resumed, its cycle t + 3 having passed: DESIGN CHOICE (R95 is silent). -/
def State.suspend (s : State) (n : Nat) : State :=
  let s := s.drainPipe n 64
  let c := s.core n
  match c.run with
  | none => s
  | some r =>
    let q := s.queue n r.queue
    let s := s.haltQueue n r.queue { cmd := (q.running.map fun c => c.idx).getD q.ptr.toNat, code := cCoreBreakpoint,
                                     opcode := 1, pc := some (0, c.pc) }
    let d := s.core n
    let s := s.setCore n { d with
      run := some { r with suspended := true, oneShot := false, left := r.limit.map s.ticksTo }
      loops := c.loops, ctx0 := c.ctx0, ctx1 := c.ctx1, window := c.window }
    s.setQueue n r.queue { s.queue n r.queue with running := q.running }

/-- A bundle that is to issue has an uncorrectable error: all four queues of the core halt (04 R98). -/
def State.fetchFail (s : State) (n pc : Nat) : State :=
  (List.range 4).foldl
    (fun s q =>
      let x := s.queue n q
      if x.st = .halted ∨ x.st = .draining then s
      else s.haltQueue n q { cmd := (x.running.map fun c => c.idx).getD x.ptr.toNat, code := cCoreFetchUncorrectable,
                             pc := some (0, pc) }) s

/-- The fetch and issue of the bundle at the program counter, the core standing in its issue cycle (04 R71, R74, R98, R99). -/
def fetchIssue (s : State) (n : Nat) : State :=
  let c := s.core n
  let pc := c.pc
  let hb := s.readSram (bundleMA n pc) 2
  let h := Header.ofNat (leNat hb.1)
  let skip := match c.run with | some r => r.skipBkpt | none => false
  if hb.2.1.isSome then s.fetchFail n pc
  else if (c.bkptEn && h.bkpt && !skip) || c.stepped then s.suspend n
  else if 2 ^ 19 < pc + h.len then
    let bad := ((slotEnds (pc + 2) (onesOf 8 h.slots)).find? fun p => decide (2 ^ 19 < p.2)).map Prod.fst
    s.stopNow n ⟨cCoreIllegalBundle, pc, bad.getD 0, 0⟩
  else
    let b := s.readSram (bundleMA n pc) h.len
    if b.2.1.isSome then s.fetchFail n pc
    else
      let s := s.setCore n { c with sramFixed := c.sramFixed + b.2.2 }
      issueBundle s n pc h.len h (decodeSlots h.len (onesOf 8 h.slots) (b.1.drop 2))

/-- BUNDLE_ISSUE: the core runs to its next issue cycle and issues the bundle there. -/
def bundleIssue (s : State) (n : Nat) : State :=
  if !(s.core n).canIssue then s
  else
    let s := s.toIssue n
    if !(s.core n).atIssue then s
    else match s.slotError n with
      | some i => s.stopNow n i
      | none => fetchIssue s n

/-- The next cycle in which a result becomes visible or a store is written. -/
def Core.nextVisible (c : Core) : Option Nat :=
  let ts := c.results.map Result.due ++ c.loads.map Load.due ++ c.stores.map Store.at_ ++ c.drains.map fun d => d.t + 22
  match ts with
  | [] => none
  | t :: ts => some (ts.foldl min t)
/-- The next cycle in which a cube step lands. -/
def Core.nextLanding (c : Core) : Option Nat :=
  match c.steps.map fun st => max (c.cycle + 1) (st.t + c.cubeLat) with
  | [] => none
  | t :: ts => some (ts.foldl min t)

/-- The core run to a later cycle, not past its next issue cycle. -/
def State.runTo (s : State) (n : Nat) (t : Option Nat) : State :=
  let c := s.core n
  let stop := match c.run with
    | some r => if r.ended || r.suspended then none else some r.nextIssue
    | none => none
  match t with
  | none => s
  | some t =>
    match stop with
    | some x => if t ≤ x then (s.advanceTo n t (t - c.cycle)).checkStop n else s
    | none => (s.advanceTo n t (t - c.cycle)).checkStop n

/-- RUN_COMPLETE (04 R97): after LAST or END, once nothing is in flight, the RUN completes in the next cycle; loops and
contexts close, the command signals, and the queue goes on. -/
def runComplete (s : State) (n : Nat) : State :=
  match (s.core n).run with
  | none => s
  | some r =>
    if !r.ended || r.suspended then s
    else
      let s := (s.advanceTo n r.nextIssue (r.nextIssue - (s.core n).cycle)).drainPipe n 64
      let c := s.core n
      if c.inFlight || decide (c.cycle < r.nextIssue) then s.checkStop n
      else if ((c.run.bind fun q => q.stop)).isSome then s.checkStop n
      else
        let s := if c.cycle ≤ c.lastVis then (s.advance n).1 else s
        let c := s.core n
        let q := c.queue r.queue
        let sig := q.running.bind fun x => x.sig
        let c := { c.dropRun with lastRunQ := BitVec.ofNat 2 r.queue }
        let s := s.setCore n (c.setQueue r.queue { q with running := none, st := .issuing })
        (s.signal n r.queue sig).settle n r.queue

/-- The cycle in which the last of the steps issued has landed (03 R49). -/
def Core.landed (c : Core) : Nat := c.steps.foldl (fun m st => max m (st.t + c.cubeLat + 21)) c.cycle

/-- The lines the issued steps have still to read that the feeder buffer does not hold (03 R55). -/
def Core.needed (c : Core) : List (Nat × Nat) :=
  (c.steps.flatMap fun st => (List.range 15).filterMap fun d => if c.cycle ≤ st.t + d then st.lineAt d else none).eraseDups.filter
    fun l => (c.line l.1 l.2).isNone

/-- CORE_FEED_TIMEOUT (03 R56): a hold longer than LIMIT_TICKS, counted by the counter (11 R245, R248), ends; the missing lines are delivered as zero, the steps issued land, and
the RUN stops. -/
def feedTimeout (s : State) (n : Nat) : State :=
  let c := s.core n
  match c.hold with
  | none => s
  | some h =>
    let lim := max 1 c.feedLimit.toNat
    if (s.pos + 2 ^ 58 - h.pos) % 2 ^ 58 < 1024 * lim then s
    else
      let s := s.endHold n
      let c := s.core n
      let zero := c.needed.map fun l =>
        ({ gen := l.1, line := l.2, bytes := List.replicate 1024 0, plane := List.replicate 64 0, bad := [], planeBad := false,
           code := 0, ma := 0 } : FeedLine)
      let c := { c with lines := c.lines ++ zero }.stopRun ⟨cCoreFeedTimeout, c.pc, 0, lim⟩
      ((s.setCore n c).advanceTo n c.landed (c.landed - c.cycle)).haltStop n

/-- QUE_RUN_TIMEOUT (05 R109): at the tick boundary issue tick + LIMIT a RUN not complete stops. -/
def runTimeout (s : State) (n : Nat) : State :=
  let c := s.core n
  match c.run with
  | none => s
  | some r =>
    match r.limit with
    | some l => if !r.suspended && s.reached l then s.stopNow n ⟨cQueRunTimeout, c.pc, 0, r.ticks⟩ else s
    | none => s

/-- Bytes of the feeder buffer a line of a stream takes (03 R55). A block-format stream's plane line counts as 64 more: DESIGN CHOICE
(the spec gives the buffer's size and not what a plane line takes of it). -/
def StreamCtx.lineCost (x : StreamCtx) : Nat := x.lineSize + if x.hasPlane then 64 else 0

/-- Room the lines of a stream opened earlier claim (03 R55): those still to come and not in the buffer. -/
def Core.claimed (c : Core) (x y : StreamCtx) : Nat :=
  if y.opened && decide (y.gen < x.gen) then
    (y.total + 14 - y.consumed - (c.lines.filter fun l => l.gen = y.gen ∧ y.consumed ≤ l.line).length) * y.lineCost
  else 0

/-- Whether no issued step needs a line of the buffer: it was fetched ahead (03 R55). -/
def Core.isAhead (c : Core) (l : FeedLine) : Bool :=
  !(c.steps.any fun st => match st.b with
    | .stream y _ j => y.gen == l.gen && decide (j ≤ l.line) && decide (l.line ≤ j + 14)
    | .pad _ _ => false)

/-- Bytes free in a feeder buffer of 128 KiB (03 R55). -/
def feedRoom (ls : List FeedLine) : Nat := 131072 - (ls.map fun l => l.bytes.length + l.plane.length).sum

/-- Lines fetched ahead discarded, those furthest ahead first, until `cost` bytes are free (03 R55). The furthest ahead is the highest line
number over both contexts: DESIGN CHOICE (R55 does not say how lines of two streams compare). -/
def Core.makeRoom (c : Core) (cost : Nat) : Nat → List FeedLine → List FeedLine
  | 0, ls => ls
  | fuel + 1, ls =>
    if cost ≤ feedRoom ls then ls
    else
      match ls.filter c.isAhead with
      | [] => ls
      | l :: rest => c.makeRoom cost fuel (ls.erase (rest.foldl (fun a b => if a.line < b.line then b else a) l))

/-- `k` codewords from address `a` of a core's own cistern read for its feeder, in ascending order. -/
def State.readCodewords (s : State) (a k : Nat) : State × List PieceRes :=
  (List.range k).foldl (fun acc i => let o := acc.1.readAt [(a + 64 * i, 64)]; (o.1, acc.2 ++ [o.2])) (s, [])

/-- STREAM_LINE_FILL (03 R55): a line an issued step still needs, or, where none is missing, one of an open stream ahead of use, comes from
the cistern into the feeder buffer. -/
def streamFill (s : State) (n : Nat) (ctx : Bool) (line : Nat) : State :=
  let c := s.core n
  let needed := (c.steps.findSome? fun st =>
    match st.b with
    | .stream y cx j => if cx = ctx ∧ j ≤ line ∧ line ≤ j + 14 ∧ c.cycle ≤ st.t + (line - j) ∧ (c.line y.gen line).isNone
                        then some y else none
    | .pad _ _ => none)
  let x := needed.getD (c.ctx ctx)
  let isOpen := x.opened && decide (line < x.total + 14) && (c.line x.gen line).isNone && decide (x.consumed ≤ line)
  if !(needed.isSome || (isOpen && c.needed == [])) then s
  else
    let size := x.lineSize
    let cost := x.lineCost
    let lines := if needed.isSome then c.makeRoom cost c.lines.length c.lines else c.lines
    if feedRoom lines < cost + if needed.isSome then 0 else c.claimed x (c.ctx !ctx) then s
    else
      let a := n * 2 ^ 30 + x.base + line * size
      let r := s.readCodewords a (size / 64)
      let p := if x.hasPlane then r.1.readCodewords (n * 2 ^ 30 + x.plane + line * 64) 1 else (r.1, [])
      let all := r.2 ++ p.2
      if all.any fun o => decide (o = .wait) then s
      else
        let bytes (o : PieceRes) : List Byte := match o with | .data bs => bs | _ => List.replicate 64 0
        let isBad (o : PieceRes) : Bool := match o with | .data _ => false | _ => true
        let code := (all.findSome? fun o => match o with | .fault k _ => some k | _ => none).getD 0
        let c := p.1.core n
        let fl : FeedLine :=
          { gen := x.gen, line := line, bytes := r.2.flatMap bytes, plane := p.2.flatMap bytes,
            bad := (numbered 0 r.2).filterMap fun q => if isBad q.2 then some q.1 else none,
            planeBad := p.2.any isBad, code := code, ma := a }
        let s := p.1.setCore n { c with lines := lines ++ [fl] }
        if ((s.core n).missing (s.core n).cycle) = [] then s.endHold n else s

end Sys2Proof.Machine
end

