-- ==== Sys2Proof/Machine/Desc.lean ====
section
/-! DEFINITION. Tensor descriptors: reading them through a core's cache, their fields and their checks (05 R110 to R113). -/

namespace Sys2Proof.Machine

/-- A bit field of a descriptor: `n` bits from bit `lo` of the word at byte offset `off`. -/
def Desc.f (d : Desc) (off lo n : Nat) : Nat := field d.toNat off lo n
/-- VALID. -/
def Desc.valid (d : Desc) : Bool := d.f 0 63 1 == 1
/-- KIND: 0 plain, 1 cascade A, 2 cascade B, 3 window, 4 paged. -/
def Desc.kind (d : Desc) : Nat := d.f 0 56 4
/-- NDIM. -/
def Desc.ndim (d : Desc) : Nat := d.f 0 52 3
/-- FMT, none for a reserved code. -/
def Desc.fmt (d : Desc) : Option Fmt := Fmt.ofCode (d.f 0 48 4)
/-- BASE. -/
def Desc.base (d : Desc) : Nat := d.f 0 0 48
/-- TOFF. -/
def Desc.toff (d : Desc) : Int := signedOf 8 (d.f 8 0 8)
/-- PLANE_BASE. -/
def Desc.plane (d : Desc) : Nat := d.f 0x10 0 48
/-- EXTENT of dimension i. -/
def Desc.ext (d : Desc) (i : Nat) : Nat := d.f (0x20 + 16 * i) 0 32
/-- STRIDE of dimension i, signed. -/
def Desc.stride (d : Desc) (i : Nat) : Int := signedOf 48 (d.f (0x28 + 16 * i) 0 48)
/-- The kind parameters. -/
def Desc.par (d : Desc) (lo n : Nat) : Nat := d.f 0x70 lo n
/-- STEPS of a cascade. -/
def Desc.steps (d : Desc) : Nat := d.par 2 20
/-- K_f (05 R112). -/
def Desc.kf (d : Desc) : Nat := match d.f 0x78 0 2 with | 0 => 2 | 1 => 8 | 2 => 16 | _ => 32
/-- Every extent, dimension 0 first. -/
def Desc.exts (d : Desc) : List Nat := (List.range d.ndim).map d.ext
/-- SEQ and LAYER of a paged descriptor. -/
def Desc.seq (d : Desc) : Nat := d.par 0 16
/-- LAYER of a paged descriptor. -/
def Desc.layer (d : Desc) : Nat := d.par 16 8

/-- The widths a cascade operand may have: K_f and format as operand A or B (03 Table COR-3). -/
def cascadeOk (b : Bool) (kf : Nat) (f : Fmt) : Bool :=
  match f with
  | .fp32 => kf == 2
  | .bf16 | .fp16 => kf == 8
  | .e4m3 | .e5m2 | .int8 => kf == 16
  | .l8 => kf == 16 || (!b && kf == 32)
  | .fp4 | .int4 => kf == 32 || (b && kf == 16)
  | .l4 => kf == 32

/-- The window parameters of a descriptor (05 Table QUE-2; 03 R57). -/
def Desc.window (d : Desc) : Window :=
  { fmt := d.f 0 48 4, kf := d.kf, twoD := d.ndim == 3, base := d.base % 2 ^ 23, chans := d.ext 0, inW := d.ext 1,
    inH := d.ext 2, pitchW := d.stride 1, pitchH := d.stride 2, kw := d.par 0 4 + 1, kh := d.par 4 4 + 1,
    sw := d.par 8 3 + 1, sh := d.par 11 3 + 1, dw := d.par 14 6 + 1, dh := d.par 20 6 + 1, pw := d.par 26 10,
    ph := d.par 36 10, outW := d.par 46 16 + 1 }

/-- A pitch in range (03 Table COR-5). -/
def pitchOk (p : Int) : Bool := p % 16 == 0 && decide (p.natAbs ≤ 2 ^ 24)

/-- The checks of Table QUE-3 that do not depend on the command: `kinds` are those the command can use; `n` is the core. -/
def Desc.check (d : Desc) (n : Nat) (kinds : List Nat) : Option Nat :=
  if !d.valid || !kinds.contains d.kind then some cQueHandleInvalid
  else
    match d.fmt with
    | none => some cQueDescFormat
    | some f =>
      if d.ndim = 0 ∨ 5 < d.ndim ∨ d.exts.contains 0 ∨ (f.isBlock ∧ d.ext 0 % 32 ≠ 0) then some cQueDescShape
      else if d.kind = 3 ∧ (d.ndim < 2 ∨ 3 < d.ndim) then some cQueDescShape
      else if d.kind = 3 ∧ (2 ^ 20 < d.ext 1 ∨ !pitchOk (d.stride 1) ∨
          (d.ndim = 3 ∧ (2 ^ 20 < d.ext 2 ∨ !pitchOk (d.stride 2))) ∨
          d.base < padMA n 0 ∨ padMA n padSize ≤ d.base ∨ d.ext 0 % d.kf ≠ 0) then some cQueDescWindow
      else if (d.kind = 1 ∨ d.kind = 2) ∧ (d.ext 0 ≠ d.steps * d.kf ∨ d.ext 1 % (if d.kind = 2 then 64 else 8) ≠ 0 ∨
          !cascadeOk (d.kind == 2) d.kf f) then some cQueDescCascade
      else none

/-- Reading a descriptor: the snapshot, a fault with its detail, or a wait. -/
inductive DescRes where
  | ok (d : Desc)
  | fault (code detail : Nat)
  | wait
  deriving DecidableEq, Repr

/-- A partition. -/
def State.part (s : State) (p : Nat) : Part := Map.get {} s.parts p
/-- The module address of a descriptor of a core's partition (05 R110). -/
def State.descMA (s : State) (n h : Nat) : Option Nat := (s.partOf n).map fun p => (s.part p).desc.toNat + 128 * h

/-- A descriptor read by a core from its cache or from the table (05 R111): a miss puts it into the cache of 64, where a full
cache drops an entry the spec does not name. -/
def State.readDesc (s : State) (n h : Nat) : State × DescRes :=
  let c := s.core n
  match c.descs.find? fun p => p.1 = h with
  | some p => (s, .ok p.2)
  | none =>
    match s.descMA n h with
    | none => (s, .fault cNetPartDenied h)
    | some ma =>
      let r := s.track (.desc n ma) AccRes.isWait fun s => s.readMA (.desc n ma) (s.coreMaster n) ma 128
      match r.2 with
      | .ok bs =>
        let d : Desc := BitVec.ofNat 1024 (leNat bs)
        let c := r.1.core n
        let old := if c.descs.length < 64 then c.descs else c.descs.eraseIdx ((Config.freeWord r.1.free 0).toNat % 64)
        ((r.1.setCore n { c with descs := old ++ [(h, d)] }).draw, .ok d)
      | .fault code a => (r.1, .fault code a)
      | .wait => (r.1, .wait)

/-- A descriptor read and checked (05 R113): a failed check names the handle. -/
def State.useDesc (s : State) (n h : Nat) (kinds : List Nat) : State × DescRes :=
  let r := s.readDesc n h
  match r.2 with
  | .ok d => match d.check n kinds with | some code => (r.1, .fault code h) | none => r
  | _ => r

end Sys2Proof.Machine
end

