-- ==== Sys2Proof/Machine/BankUnit.lean ====
section
/-! DEFINITION. A bank unit: its accumulators (02 R36, R39, R40), its instructions (08 R180 to R188), and what a launch's image may
hold (R188). -/

namespace Sys2Proof.Machine

/-! ### Accumulators -/

/-- The 16-bit fraction table of the bank units (02 Table FMT-4). -/
def bnkEntry : Nat → Nat
  | 0 => 0x8000 | 1 => 0x8B96 | 2 => 0x9838 | 3 => 0xA5FF | 4 => 0xB505 | 5 => 0xC567 | 6 => 0xD745 | _ => 0xEAC1

/-- A signed number divided by 2^k, rounded half to even. -/
def rheShift (x : Int) (k : Nat) : Int := (if x < 0 then -1 else 1) * (roundQ .rne 0 x.natAbs (-(k : Int)) 0 : Nat)

/-- One group of non-zero products, each a sign and an exponent in octants (02 R39); none for an empty group. -/
def accGroup (ps : List (Bool × Int)) : Option Acc :=
  match ps with
  | [] => none
  | p :: _ =>
    let e := (ps.map fun x => x.2 / 8).foldl max (p.2 / 8) + 11
    if e < -128 then none
    else
      some { a := (ps.map fun x =>
               (if x.1 then -1 else 1) * (roundQ .rne 0 (bnkEntry (x.2 % 8).toNat) (x.2 / 8 - e + 15) 0 : Int)).sum, e := e }

/-- Two accumulators merged, and whether the sum overflowed (02 R39). -/
def Acc.merge (x y : Acc) : Acc × Bool :=
  let e := max x.e y.e
  let a := rheShift x.a (e - x.e).toNat + rheShift y.a (e - y.e).toNat
  let over' := a < -(2 ^ 31) ∨ 2 ^ 31 ≤ a
  let a' := if over' then rheShift a 1 else a
  let e' := if over' then e + 1 else e
  if 127 < e' then ({ a := if a' < 0 then -(2 ^ 31 - 1) else 2 ^ 31 - 1, e := 127 }, true) else ({ a := a', e := e' }, false)

/-- The value of an accumulator: A · 2^(E - 30) (02 R40). -/
def Acc.val (x : Acc) : XV := .fin (x.a < 0) x.a.natAbs (x.e - 30)

/-- An accumulator written out in a format, rounded to nearest (02 R40; 08 R184). -/
def Acc.out (x : Acc) (f : Fmt) (t : Int) (draw i : Nat) : Nat × Flags :=
  match f with
  | .l8 => toL8 t .rne 0 draw i x.val
  | f => toFp f .rne false 0 x.val

/-- The exponent a code of L8 contributes, none for a zero or invalid code (02 R33, R39). -/
def l8Term (c : Nat) (t : Int) : Option (Bool × Int) :=
  if c % 256 = 0 ∨ c % 256 = 0x80 then none else some (c.testBit 7, (c % 128 : Nat) - 64 + t)
/-- A product of two terms. -/
def termMul (x y : Option (Bool × Int)) : Option (Bool × Int) :=
  match x, y with
  | some a, some b => some (a.1 != b.1, a.2 + b.2)
  | _, _ => none

/-- 8 · log2 e in units of 2^-60 octant. -/
def octE60 : Nat := 13306513097844322491

/-- An L8 code from octants above code 0 in units of 2^-40, rounded to nearest (02 R42). -/
def l8OfOct (neg : Bool) (y : Int) : Nat × Flags :=
  if y < 2 ^ 39 then (0, .none)
  else
    let n := roundQ .rne 0 y.toNat (-40) 0
    let s := if neg then 128 else 0
    if n = 0 then (0, .none) else if n < 128 then (s + n, .none) else (s + 127, .S)

/-- The L8 code at offset `t` of exp(s - m) · 2^(-b/8), `s` and `m` FP16 codes and `b` octants with 6 fraction bits
(08 R183). -/
def expCode (s m : Nat) (b t : Int) (draw i : Nat) : Nat × Flags :=
  let d := xsum [fpVal .fp16 s, fpVal .fp32 (fpNeg .fp32 (toFp .fp32 .rne false 0 (fpVal .fp16 m)).1)]
  let d32 := (toFp .fp32 .rne false 0 d.1).1
  match fpVal .fp32 d32 with
  | .nan => (0x80, .I)
  | .inf neg => if neg then (0, .none) else (0x7F, .S)
  | .fin neg k e =>
    let p : Int := (if neg then -1 else 1) * ((k * octE60 : Nat) : Int)
    let y := if 0 ≤ e - 20 then p * 2 ^ (e - 20).toNat else p / 2 ^ (20 - e).toNat
    l8OfOct false (y + octDev draw i - b * 2 ^ 34 + (64 - t) * 2 ^ 40)
  | .log _ _ => (0, .none)

/-! ### The image -/

/-- OP of an instruction (08 R180). -/
def bOp (w : DWord) : Nat := w.toNat >>> 58
/-- A field of an instruction. -/
def bF (w : DWord) (lo n : Nat) : Nat := bitsOf w.toNat lo n

/-- The operation codes of Table BNK-4. -/
def bOps : List Nat := [1, 2, 3, 4, 5, 6, 8, 16, 17, 18, 19, 24, 25]

/-- Whether an instruction of the image is legal by itself (08 R188). -/
def bLegal (i : Nat) (w : DWord) : Bool :=
  let rlen := bF w 44 9
  let glog := bF w 53 3
  let fmt := bF w 56 2
  match bOp w with
  | 16 => decide (1 ≤ rlen) && decide (rlen ≤ 256) && decide (glog ≤ 5) && decide (fmt ≤ 1) && !(fmt == 1 && bF w 40 4 % 2 == 1)
  | 17 => decide (1 ≤ rlen) && decide (rlen ≤ 256) && decide (glog ≤ 5) && fmt == 0 &&
      decide (rlen * 128 * 2 ^ glog + bF w 18 10 ≤ 1024)
  | 24 => fmt != 1
  | 5 => decide (i < bF w 0 9)
  | op => bOps.contains op

/-- Whether index `i` lies within the body of a LOOP at index `j` (08 R188). -/
def inBody (img : List DWord) (j i : Nat) : Bool :=
  match img[j]? with
  | some w => bOp w == 5 && decide (j < i) && decide (i ≤ bF w 0 9)
  | none => false

/-- The first instruction that makes an image illegal, its length counting as index 0 (08 R188). -/
def imageBad (img : List DWord) : Option Nat :=
  if img.length = 0 ∨ 512 < img.length ∨ !(img.any fun w => bOp w == 6) then some 0
  else
    (List.range img.length).find? fun i =>
      match img[i]? with
      | some w => !bLegal i w || (bOp w == 5 && decide (2 ≤ ((List.range i).filter fun j => inBody img j i).length))
      | none => false

/-! ### Registers, buffer and banks of a unit -/

/-- A g register; g0 reads 0 (08 R177). -/
def BUnit.reg (u : BUnit) (r : Nat) : Nat := if r = 0 then 0 else (Map.get 0 u.g r).toNat
/-- A g register written, modulo 2^32; a write to g0 is discarded (08 R177, R181). -/
def BUnit.setReg (u : BUnit) (r x : Nat) : BUnit := if r = 0 then u else { u with g := Map.set 0 u.g r (BitVec.ofNat 32 x) }
/-- A vector-buffer code: what the unit wrote, else the launch's vector, else 0 (08 R179). -/
def BUnit.vbAt (u : BUnit) (vec : List Byte) (i : Nat) : Nat := ((Map.get none u.vb i).getD (vec.getD i 0)).toNat
/-- Whether a vector-buffer element lies in a tainted segment. -/
def BUnit.vbBad (u : BUnit) (i : Nat) : Bool := Map.get false u.vbTaint (i / 512)
/-- An accumulator. -/
def BUnit.accAt (u : BUnit) (i : Nat) : Acc := Map.get {} u.acc i
/-- Whether an accumulator is tainted. -/
def BUnit.accBad (u : BUnit) (i : Nat) : Bool := Map.get false u.accTaint i
/-- An accumulator zeroed and untainted (02 R39; 08 R181, R184). -/
def BUnit.clearAcc (u : BUnit) (i : Nat) : BUnit :=
  { u with acc := Map.set {} u.acc i {}, accTaint := Map.set false u.accTaint i false }
/-- Flags raised. -/
def BUnit.raise (u : BUnit) (f : Flags) : BUnit := { u with flags := u.flags.or f }
/-- A group merged into an accumulator, with taint (02 R39; 08 R186). -/
def BUnit.addGroup (u : BUnit) (i : Nat) (ps : List (Option (Bool × Int))) (bad : Bool) : BUnit :=
  let u := if bad then { u with accTaint := Map.set false u.accTaint i true } else u
  match accGroup (ps.filterMap id) with
  | none => u
  | some g =>
    let r := (u.accAt i).merge g
    { u with acc := Map.set {} u.acc i r.1, flags := if r.2 then u.flags.or .O else u.flags }

/-- The address of a byte of a unit's bank group (08 R178; 07 R156). -/
def State.unitKey (s : State) (k c b byteIx : Nat) : Nat :=
  let gran := byteIx / 512
  (Tgt.rsv k (s.rsvOff k c b (gran / 64) (gran % 64))).key + byteIx % 512

/-- A codeword decoded by a base-die decoder, with no pins (07 R165, R175): its bytes and whether it is uncorrectable or poison, in
which case the bytes are free. -/
def State.baseDecode (s : State) (k c key : Nat) : State × List Byte × Bool :=
  let o := s.baseCw k c key
  match o.2.1 with
  | .data bs => (o.1, bs, false)
  | _ => (o.1, (List.range 64).map (Config.freeByte s.free), true)

/-- `n` bytes of a unit's banks from a byte index on, each with whether its codeword was bad. -/
def State.unitRead (s : State) (k c b at_ n : Nat) : State × List (Nat × Bool) :=
  (pieces 64 (n / 64 + 2) at_ n).foldl
    (fun acc p =>
      let r := acc.1.baseDecode k c (acc.1.unitKey k c b (p.1 / 64 * 64))
      (r.1, acc.2 ++ ((r.2.1.drop (p.1 % 64)).take p.2).map fun x => (x.toNat, r.2.2)))
    (s, [])

/-- A granule written by a unit: its bytes, or poison (07 R166; 08 R184). -/
def State.unitWrite (s : State) (k c b gran : Nat) (bs : Option (List Byte)) : State :=
  let key := s.unitKey k c b (512 * gran)
  (List.range 8).foldl
    (fun s i => match bs with
      | some l => s.putCw (key + 64 * i) ((l.drop (64 * i)).take 64)
      | none => s.putPoison (key + 64 * i)) s

/-- The activation budget of a reservoir's channels as a fraction of their ceiling (16 R358, Table THM-3): a channel has rows in all twelve
layers, and the least of the layers' budgets acts (DESIGN CHOICE: no rule says which layer a row lies in). -/
def State.actBudget (s : State) (k : Nat) : Nat × Nat :=
  match ((List.range 12).map fun l => Map.get 0 s.thm.budget (160 + 13 * k + l)).foldl max 0 with
  | 0 => (1, 1)
  | 1 => (3, 4)
  | 2 => (1, 2)
  | 3 => (1, 4)
  | _ => (1, 8)

/-! ### Instructions -/

/-- Lines of a bank group (08 R178). -/
def bLines : Nat := 3145728

/-- The cycle from which a range of results can be read (08 R187). -/
def BUnit.readyAt (u : BUnit) (rs : List (Nat × Nat × Nat)) : Nat :=
  (u.waits.filter fun w => rs.any fun r => r.1 == w.kind && decide (r.2.1 < w.lo + w.n) && decide (w.lo < r.2.1 + r.2.2)).foldl
    (fun m w => max m w.ready) u.cycles

/-- What an instruction reads and how long it occupies the unit (08 Table BNK-5): ranges (kind, first, count), cycles, the results of a
stream instruction, the lines its activations open, and what a control instruction replaces. -/
structure BCost where
  reads : List (Nat × Nat × Nat)
  cycles : Nat
  writes : List (Nat × Nat × Nat)
  lines : Nat := 0
  replaced : List (Nat × Nat × Nat) := []
  deriving DecidableEq, Repr

/-- The parts of a result outside a range: an instruction that replaces the range leaves nothing of it to wait for (08 R187). -/
def BRes.outside (w : BRes) (r : Nat × Nat × Nat) : List BRes :=
  if w.kind ≠ r.1 then [w]
  else
    [{ w with n := min w.n (r.2.1 - w.lo) }, { w with lo := max w.lo (r.2.1 + r.2.2), n := w.lo + w.n - max w.lo (r.2.1 + r.2.2) }].filter
      fun x => decide (0 < x.n)

/-- Registers as read ranges. -/
def regReads (rs : List Nat) : List (Nat × Nat × Nat) := rs.map fun r => (2, r, 1)

/-- The operands of a stream instruction: registers and fields (08 Table BNK-3). -/
structure BStr where
  fmt : Nat
  glog : Nat
  rlen : Nat
  mreg : Nat
  nreg : Nat
  vreg : Nat
  sreg : Nat
  acc : Nat
  tm : Int
  tv : Int
  z : Bool
  inc : Bool
  deriving DecidableEq, Repr
/-- The stream form (08 Table BNK-3). -/
def bStr (w : DWord) : BStr :=
  { fmt := bF w 56 2, glog := bF w 53 3, rlen := bF w 44 9, mreg := bF w 40 4, nreg := bF w 36 4, vreg := bF w 32 4,
    sreg := bF w 28 4, acc := bF w 18 10, tm := signedOf 8 (bF w 10 8), tv := signedOf 8 (bF w 2 8),
    z := w.getLsbD 1, inc := w.getLsbD 0 }

/-- Accumulators in a granule and the format ST writes (08 R184). -/
def stFmt : Nat → Fmt × Nat
  | 3 => (.fp32, 128)
  | 2 => (.fp16, 256)
  | _ => (.l8, 512)

/-- Cost of a stream instruction with N above 0 (08 R187, Table BNK-5). -/
def bStreamCost (u : BUnit) (f : BStr) (op n g lines : Nat) : BCost :=
  match op with
  | 16 =>
    let el := if f.fmt = 1 then 256 else 128
    let rows := n / max 1 f.rlen
    let vspan := (g - 1) * u.reg f.sreg + f.rlen * el
    ⟨regReads ([f.mreg, f.nreg, f.vreg, f.sreg] ++ if f.fmt = 1 then [f.mreg + 1] else []) ++
       [(0, f.acc, rows * g), (1, u.reg f.vreg, vspan), (3, lines / 4, (lines % 4 + n + 3) / 4)] ++
       (if f.fmt = 1 then [(3, u.reg (f.mreg + 1) / 512, (u.reg (f.mreg + 1) % 512 + 8 * n + 511) / 512)] else []),
     n * ((el * g + 1023) / 1024) + (if f.fmt = 1 then (n + 15) / 16 else 0), [(0, f.acc, rows * g)],
     n + (if f.fmt = 1 then (n + 15) / 16 else 0), []⟩
  | 17 =>
    let rows := n / max 1 f.rlen
    ⟨regReads [f.mreg, f.nreg, f.vreg, f.sreg] ++
       [(0, f.acc, f.rlen * 128 * g), (1, u.reg f.vreg, (g - 1) * u.reg f.sreg + rows), (3, lines / 4, (lines % 4 + n + 3) / 4)],
     n, [(0, f.acc, f.rlen * 128 * g)], n, []⟩
  | 18 => ⟨regReads [f.mreg, f.nreg, f.sreg] ++ [(3, lines / 4, (lines % 4 + n + 3) / 4)], n, [(2, f.sreg, 1), (0, f.acc, 1)], n, []⟩
  | 19 =>
    ⟨regReads [f.mreg, f.nreg, f.vreg, f.sreg] ++ [(0, f.acc, 1), (3, lines / 4, (lines % 4 + n + 3) / 4)], n,
     [(1, u.reg f.vreg, 64 * n), (0, f.acc, 1)], n, []⟩
  | 24 => ⟨regReads [f.mreg, f.nreg] ++ [(0, f.acc, n * (stFmt f.fmt).2)], 4 * n, [(3, lines, n)], 0, []⟩
  | _ => ⟨regReads [f.mreg, f.nreg, f.vreg] ++ [(3, lines, n)], 4 * n, [(1, u.reg f.vreg, 512 * n)], 4 * n, []⟩

/-- Cost of an instruction (08 R187, Table BNK-5). A stream instruction with N of 0 reads no data and has no result. -/
def bCost (u : BUnit) (w : DWord) : BCost :=
  let f := bStr w
  let n := u.reg f.nreg
  let g := 2 ^ f.glog
  let lines := u.reg f.mreg
  match bOp w with
  | 1 => { reads := [], cycles := 1, writes := [], replaced := regReads [bF w 54 4] }
  | 2 => { reads := regReads [bF w 50 4], cycles := 1, writes := [], replaced := regReads [bF w 54 4] }
  | 3 | 4 => { reads := regReads [bF w 50 4, bF w 46 4], cycles := 1, writes := [], replaced := regReads [bF w 54 4] }
  | 5 => ⟨regReads [bF w 50 4], if (if bF w 50 4 = 0 then bF w 16 16 else u.reg (bF w 50 4)) = 0 then 3 else 1, [], 0, []⟩
  | 8 =>
    let k := if bF w 10 11 = 0 then 1024 else bF w 10 11
    ⟨[], (k + 63) / 64, [], 0, [(0, bF w 0 10, k)]⟩
  | 16 | 17 | 18 | 19 | 24 | 25 => if n = 0 then ⟨regReads [f.nreg], 1, [], 0, []⟩ else bStreamCost u f (bOp w) n g lines
  | _ => ⟨[], 1, [], 0, []⟩

/-- What an instruction did: the state, the unit, whether it stopped on RSV_BANK_RANGE, granules written as poison. -/
structure BOut where
  s : State
  u : BUnit
  range : Bool := false
  tainted : Nat := 0

/-- The elements of one line as terms: the term, whether its code is invalid, whether its codeword was bad (08 R182). -/
def lineTerms (l4 : Bool) (tm : Int) (data plane : List (Nat × Bool)) : List (Option (Bool × Int) × Bool × Bool) :=
  if l4 then
    (List.range 256).map fun e =>
      let d := data.getD (e / 2) (0, false)
      let p := plane.getD (e / 32) (0, false)
      let c := (d.1 >>> (4 * (e % 2))) % 16
      if p.1 = 255 then (none, true, d.2 || p.2)
      else (if c % 8 = 0 then none else some (c.testBit 3, (p.1 : Int) - 128 + 4 * (c % 8 : Nat)), false, d.2 || p.2)
  else data.map fun d => (l8Term d.1 tm, d.1 == 0x80, d.2)

/-- Lines of a stream instruction read once each, as terms. -/
def State.readTerms (s : State) (k c b : Nat) (l4 : Bool) (tm : Int) (line plane : Nat) :
    Nat → State × List (List (Option (Bool × Int) × Bool × Bool))
  | 0 => (s, [])
  | n + 1 =>
    let r := s.readTerms k c b l4 tm line plane n
    let d := r.1.unitRead k c b (128 * (line + n)) 128
    let p := if l4 then d.1.unitRead k c b (plane + 8 * n) 8 else (d.1, [])
    (p.1, r.2 ++ [lineTerms l4 tm d.2 p.2])

/-- Advance of a register after a stream instruction with INC. -/
def BUnit.inc (u : BUnit) (f : BStr) (n : Nat) : BUnit := if f.inc then u.setReg f.mreg (u.reg f.mreg + n) else u

/-- MAC (08 R182, R185). `room` is the cycles left of the budget: of a MAC stopped by it only the whole rows read by then act (R195). -/
def bMac (s : State) (u : BUnit) (vec : List Byte) (k c b : Nat) (f : BStr) (room : Nat) : BOut :=
  let l4 := f.fmt == 1
  let el := if l4 then 256 else 128
  let n := u.reg f.nreg
  let g := 2 ^ f.glog
  let line := u.reg f.mreg
  let plane := u.reg (f.mreg + 1)
  let v0 := u.reg f.vreg
  let st := u.reg f.sreg
  let rows := n / f.rlen
  if n % f.rlen ≠ 0 then ⟨s, u, true, 0⟩
  else if n = 0 then ⟨s, u, false, 0⟩
  else if bLines < line + n ∨ (l4 ∧ 128 * bLines < plane + 8 * n) ∨ 1024 < f.acc + rows * g ∨
      131072 < v0 + (g - 1) * st + f.rlen * el then ⟨s, u, true, 0⟩
  else
    let per := (el * g + 1023) / 1024
    let done := if n * per + (if l4 then (n + 15) / 16 else 0) ≤ room then rows else min rows (room / per / f.rlen)
    let r := s.readTerms k c b l4 f.tm line plane (done * f.rlen)
    let chunk := if l4 then 4 else 8
    let one (u : BUnit) (row gg c0 : Nat) : BUnit :=
      let idx := (List.range (min chunk (f.rlen - c0))).flatMap fun j =>
        ((r.2.getD (row * f.rlen + c0 + j) []).zipIdx).map fun p =>
          (p.1, v0 + gg * st + (c0 + j) * el + p.2)
      let ps := idx.map fun p => termMul p.1.1 (l8Term (u.vbAt vec p.2) f.tv)
      let inv := idx.any fun p => p.1.2.1 || u.vbAt vec p.2 == 0x80
      let bad := idx.any fun p => p.1.2.2 || u.vbBad p.2
      (u.addGroup (f.acc + row * g + gg) ps bad).raise { inv := inv }
    let u' := (List.range done).foldl (fun u row =>
      (List.range g).foldl (fun u gg =>
        (List.range ((f.rlen + chunk - 1) / chunk)).foldl (fun u j => one u row gg (j * chunk)) u) u) u
    let u' := u'.inc f n
    ⟨r.1, if f.inc && l4 then u'.setReg (f.mreg + 1) (plane + 8 * n) else u', false, 0⟩

/-- MACT (08 R182, R185); of one the budget stops, the lines read by then act (R195). -/
def bMact (s : State) (u : BUnit) (vec : List Byte) (k c b : Nat) (f : BStr) (room : Nat) : BOut :=
  let n := u.reg f.nreg
  let g := 2 ^ f.glog
  let line := u.reg f.mreg
  let v0 := u.reg f.vreg
  let st := u.reg f.sreg
  let rows := n / f.rlen
  if n % f.rlen ≠ 0 then ⟨s, u, true, 0⟩
  else if n = 0 then ⟨s, u, false, 0⟩
  else if bLines < line + n ∨ 131072 < v0 + (g - 1) * st + rows then ⟨s, u, true, 0⟩
  else
    let done := min n room
    let r := s.readTerms k c b false f.tm line 0 done
    let one (u : BUnit) (i gg : Nat) (p : (Option (Bool × Int) × Bool × Bool) × Nat) : BUnit :=
      let vi := v0 + gg * st + i / f.rlen
      let w := u.vbAt vec vi
      (u.addGroup (f.acc + ((i % f.rlen) * 128 + p.2) * g + gg) [termMul p.1.1 (l8Term w f.tv)]
        (p.1.2.2 || u.vbBad vi)).raise { inv := p.1.2.1 || w == 0x80 }
    let u' := (List.range done).foldl (fun u i =>
      (List.range g).foldl (fun u gg => ((r.2.getD i []).zipIdx).foldl (fun u p => one u i gg p) u) u) u
    ⟨r.1, u'.inc f n, false, 0⟩

/-- FP16 values of lines, each with whether its codeword was bad (08 R183). -/
def fp16s : List (Nat × Bool) → List (Nat × Bool)
  | a :: b :: r => (a.1 + 256 * b.1, a.2 || b.2) :: fp16s r
  | _ => []

/-- The FP16 maximum, NaN skipped (08 R183): starting from `m`, none while nothing but NaN was seen. -/
def maxSkip (m : Option Nat) (x : Nat) : Option Nat :=
  if (fpVal .fp16 x).isNaN then m
  else match m with
    | none => some x
    | some y => if fpKey .fp16 y < fpKey .fp16 x then some x else some y

/-- SMAX (08 R183). The spec gives the accumulator's value; which of the exact pairs (A, E) holds it is free. Of one the budget stops,
the lines read by then act (R195). -/
def bSmax (s : State) (u : BUnit) (k c b : Nat) (f : BStr) (room : Nat) : BOut :=
  let n := u.reg f.nreg
  let line := u.reg f.mreg
  if n = 0 then ⟨s, u, false, 0⟩
  else if bLines < line + n then ⟨s, u, true, 0⟩
  else
    let n := min n room
    let r := s.unitRead k c b (128 * line) (128 * n)
    let vs := fp16s r.2
    let start := u.reg f.sreg % 65536
    let xs := start :: vs.map Prod.fst
    let m0 := (xs.foldl maxSkip none).getD 0xFC00
    -- of a zero of each sign either is the maximum
    let m := if m0 % 32768 = 0 ∧ xs.contains 0 ∧ xs.contains 0x8000 then
        (if (Config.freeWord r.1.free 1).getLsbD 0 then 0x8000 else 0) else m0
    let inv := xs.any fun x => (fpVal .fp16 x).isNaN
    let fr := (Config.freeWord r.1.free 0).toNat % 20
    let a : Acc × Bool := match fpVal .fp16 m with
      | .inf neg => ({ a := if neg then -(2 ^ 31 - 1) else 2 ^ 31 - 1, e := 127 }, true)
      | .fin neg q e => (if q = 0 then {} else { a := (if neg then -1 else 1) * ((q * 2 ^ fr : Nat) : Int), e := e + 30 - fr }, false)
      | _ => ({}, false)
    let u := u.setReg f.sreg (u.reg f.sreg / 65536 * 65536 + m)
    let u := { u with acc := Map.set {} u.acc f.acc a.1
                      accTaint := Map.set false u.accTaint f.acc (vs.any Prod.snd) }
    ⟨r.1.draw, (u.raise { inv := inv, ovf := a.2 }).inc f n, false, 0⟩

/-- EXPL (08 R183, R185, R186); of one the budget stops, the lines read by then act (R195). -/
def bExpl (s : State) (u : BUnit) (k c b : Nat) (f : BStr) (room : Nat) : BOut :=
  let n := u.reg f.nreg
  let line := u.reg f.mreg
  let v0 := u.reg f.vreg
  if n = 0 then ⟨s, u, false, 0⟩
  else if bLines < line + n ∨ 131072 < v0 + 64 * n then ⟨s, u, true, 0⟩
  else
    let n := min n room
    let r := s.unitRead k c b (128 * line) (128 * n)
    let vs := fp16s r.2
    let m := u.reg f.sreg % 65536
    let bb := signedOf 16 (u.reg f.sreg / 65536)
    let cs := (numbered 0 vs).map fun p => (p.1, expCode p.2.1 m bb f.tv r.1.free p.1, p.2.2)
    let u := cs.foldl (fun u p =>
      { u with vb := Map.set none u.vb (v0 + p.1) (some (BitVec.ofNat 8 p.2.1.1))
               vbTaint := if p.2.2 then Map.set false u.vbTaint ((v0 + p.1) / 512) true else u.vbTaint
               flags := u.flags.or p.2.1.2 }) u
    let u := (List.range ((cs.length + 1023) / 1024)).foldl (fun u j =>
      let grp := (cs.drop (1024 * j)).take 1024
      (u.addGroup f.acc (grp.map fun p => l8Term p.2.1.1 f.tv) (grp.any fun p => p.2.2)).raise
        { inv := grp.any fun p => p.2.1.1 == 0x80 }) u
    ⟨r.1.draw, u.inc f n, false, 0⟩

/-- ST (08 R184, R186): its granule writes begin 4 cycles apart from `start`, and each is made as the program comes past it (R195). -/
def bSt (s : State) (u : BUnit) (f : BStr) (start : Nat) : BOut :=
  let n := u.reg f.nreg
  let g0 := u.reg f.mreg
  let fm := stFmt f.fmt
  if n ≠ 0 ∧ (bLines / 4 < g0 + n ∨ 1024 < f.acc + n * fm.2) then ⟨s, u, true, 0⟩
  else
  let r := (List.range n).foldl
    (fun (o : BOut) i =>
      let a0 := f.acc + i * fm.2
      let ix := (List.range fm.2).map fun j => a0 + j
      let outs := ix.map fun j => (o.u.accAt j).out fm.1 f.tv o.s.free (j - a0)
      let bytes := outs.flatMap fun x => leBytes (fm.1.bits / 8) x.1
      let w : GranW := { start := start + 4 * i, gran := g0 + i, bytes := if ix.any o.u.accBad then none else some bytes,
                         flags := Flags.all (outs.map Prod.snd) }
      let u := { o.u with writes := o.u.writes ++ [w] }
      ⟨o.s.draw, if f.z then ix.foldl BUnit.clearAcc u else u, false, 0⟩)
    ⟨s, u, false, 0⟩
  { r with u := r.u.inc f n }

/-- LVB (08 R184, R186); of one the budget stops, the granules read by then act (R195). -/
def bLvb (s : State) (u : BUnit) (k c b : Nat) (f : BStr) (room : Nat) : BOut :=
  let n := u.reg f.nreg
  let g0 := u.reg f.mreg
  let v0 := u.reg f.vreg
  if v0 % 512 ≠ 0 then ⟨s, u, true, 0⟩
  else if n = 0 then ⟨s, u, false, 0⟩
  else if bLines / 4 < g0 + n ∨ 131072 < v0 + 512 * n then ⟨s, u, true, 0⟩
  else
    let n := min n (room / 4)
    let r := s.unitRead k c b (512 * g0) (512 * n)
    let u := (numbered 0 r.2).foldl (fun u p =>
      { u with vb := Map.set none u.vb (v0 + p.1) (some (BitVec.ofNat 8 p.2.1)) }) u
    let u := (List.range n).foldl (fun u i =>
      { u with vbTaint := Map.set false u.vbTaint (v0 / 512 + i) (((r.2.drop (512 * i)).take 512).any Prod.snd) }) u
    ⟨r.1, u.inc f n, false, 0⟩

/-- CLR (08 R181). -/
def bClr (s : State) (u : BUnit) (w : DWord) : BOut :=
  let k := if bF w 10 11 = 0 then 1024 else bF w 10 11
  let a := bF w 0 10
  if 1024 < a + k then ⟨s, u, true, 0⟩
  else ⟨s, (List.range k).foldl (fun u i => u.clearAcc (a + i)) u, false, 0⟩

/-- The effect of an instruction on its unit and banks, but for program flow (08 R181 to R184): it begins at `start` ns of the program. -/
def bEffect (s : State) (u : BUnit) (vec : List Byte) (k c b : Nat) (w : DWord) (start budget : Nat) : BOut :=
  let gd := bF w 54 4
  let ga := u.reg (bF w 50 4)
  let gb := u.reg (bF w 46 4)
  let imm := bF w 0 32
  let f := bStr w
  match bOp w with
  | 1 => ⟨s, u.setReg gd imm, false, 0⟩
  | 2 => ⟨s, u.setReg gd (ga + imm), false, 0⟩
  | 3 => ⟨s, u.setReg gd (ga + gb), false, 0⟩
  | 4 => ⟨s, u.setReg gd (ga + 2 ^ 32 - gb), false, 0⟩
  | 6 => ⟨s, { u with ended := true }, false, 0⟩
  | 8 => bClr s u w
  | 16 => bMac s u vec k c b f (budget - start)
  | 17 => bMact s u vec k c b f (budget - start)
  | 18 => bSmax s u k c b f (budget - start)
  | 19 => bExpl s u k c b f (budget - start)
  | 24 => bSt s u f start
  | 25 => bLvb s u k c b f (budget - start)
  | _ => ⟨s, u, false, 0⟩

/-- The loop stack and next index after an instruction (08 R181; 04 R96), or none where a third loop would open. -/
def bFlow (u : BUnit) (w : DWord) : Option (List LoopLvl × Nat) :=
  let nx := match u.loops with
    | l :: ls => if l.stop = u.pc then
        (if 1 < l.count.toNat then ({ l with count := l.count - 1 } :: ls, l.start) else (ls, u.pc + 1))
      else (u.loops, u.pc + 1)
    | [] => ([], u.pc + 1)
  if bOp w = 5 then
    let count := if bF w 50 4 = 0 then bF w 16 16 else u.reg (bF w 50 4)
    let stop := bF w 0 9
    if 2 ≤ u.loops.length then none
    else if count = 0 then some (nx.1, stop + 1)
    else some ({ start := u.pc + 1, stop := stop, count := BitVec.ofNat 32 count } :: nx.1, nx.2)
  else some nx

/-- Cycles of an instruction under the activation budget of its stack (08 R196; 16 R358): lines are read no faster than the budget's
share of the full rate. -/
def BCost.slowed (x : BCost) (budget : Nat × Nat) : Nat := max x.cycles ((x.lines * budget.2 + budget.1 - 1) / budget.1)

/-- One instruction of a unit (08 R187, R188): effect, occupancy and flow. -/
def bStep (s : State) (u : BUnit) (vec : List Byte) (img : List DWord) (k c b budget : Nat) (w : DWord) : BOut :=
  let cost := bCost u w
  let start := u.readyAt cost.reads
  let o := bEffect s u vec k c b w (start + 110 * u.pauses) budget
  let fin := start + max 1 (cost.slowed (s.actBudget k))
  let waits := (((cost.replaced ++ cost.writes).foldl (fun ws r => ws.flatMap fun w => w.outside r) u.waits).filter
      fun x => decide (fin < x.ready)) ++
    cost.writes.map fun r => { kind := r.1, lo := r.2.1, n := r.2.2, ready := fin + 18 }
  let v := { o.u with cycles := fin, waits := waits }
  if o.range then { o with u := v }
  else if v.ended then { o with u := v }
  else
    match bFlow u w with
    | none => { o with u := v, range := true }
    | some fl => { o with u := { v with loops := fl.1, pc := fl.2 }, range := decide (img.length ≤ fl.2) }

end Sys2Proof.Machine
end

