-- ==== Sys2Proof/Machine/QueueOps.lean ====
section
/-! DEFINITION. What the commands of a queue do at issue, and what completes or ends them, for RUN, flags and fences
(05 R101 to R109, R119 to R130; 16 R364). -/

namespace Sys2Proof.Machine

/-- OP values Table QUE-1 lists. -/
def opLegal (op : Nat) : Bool := decide (1 ≤ op) && decide (op ≤ 9)

/-- The head command of a queue handed to its meaning: an OP outside Table QUE-1 halts the queue (05 R108), a header with FENCE
set waits for earlier commands (R107), another OP is left alone. -/
def State.withHead (s : State) (n q op : Nat) (f : State → Cmd → State) : State :=
  match s.head n q with
  | none => s
  | some c =>
    if s.fenced n q c then s.waitEngine n q
    else if !opLegal c.op then s.refuseCmd n q c cQueBadCommand 0
    else if c.op = op then f s c
    else s

/-- Whether the gate lets a core's queues issue RUN, DMA, BANK, ATT and SEND (16 R364). -/
def State.gateOpen (s : State) (n : Nat) : Bool := s.gate.opened.getLsbD (n % 256)

/-- Whether a queue's head is a RUN that could issue now. -/
def State.runReady (s : State) (n q : Nat) : Bool :=
  match s.head n q with
  | some c => c.op == 1 && !s.fenced n q c
  | none => false

/-- The queue whose RUN starts next: the first ready after the queue of the most recent RUN (05 R103). -/
def State.nextRun (s : State) (n : Nat) : Option Nat :=
  ([1, 2, 3, 4].map fun i => ((s.core n).lastRunQ.toNat + i) % 4).find? (s.runReady n)

/-- The descriptors of a list of handles read and checked in order; the first failure stops. -/
def State.useDescs (s : State) (n : Nat) : List (Nat × List Nat) → State × List Desc × Option DescRes
  | [] => (s, [], none)
  | (h, ks) :: hs =>
    let r := s.useDesc n h ks
    match r.2 with
    | .ok d => let t := r.1.useDescs n hs; (t.1, d :: t.2.1, t.2.2)
    | e => (r.1, [], some e)

/-- RUN (05 R103, R109): arguments and window loaded, execution starts at START_PC. -/
def cmdRun (s : State) (n q : Nat) (c : Cmd) : State :=
  let w := wordOf c 1
  if w % 2 = 1 then s.refuseCmd n q c cQueBadCommand 0
  else if (s.core n).run.isSome || s.nextRun n != some q || !s.gateOpen n then s.waitEngine n q
  else
    let args := (List.range 4).filter fun i => w.testBit (32 + i)
    let hs := args.map fun i => (bitsOf (wordOf c 2) (12 * i) 12, [0, 1, 2, 3, 4])
    let win := w.testBit 19
    let r := s.useDescs n (hs ++ if win then [(bitsOf w 20 12, [3])] else [])
    match r.2.2 with
    | some (.fault code det) => r.1.refuseCmd n q c code det
    | some _ => r.1
    | none =>
      let ds := r.2.1
      let s := r.1
      let x := s.queue n q
      let core := s.core n
      let core := (args.zip ds).foldl (fun c p => c.setS (28 + p.1) (BitVec.ofNat 64 p.2.base)) core
      let lim := bitsOf w 36 24
      let core := { core with
        pc := w % 2 ^ 19
        lastRunQ := BitVec.ofNat 2 q
        window := if win then ds.getLast?.map Desc.window else none
        run := some { queue := q, limit := if lim = 0 then none else some (s.tick + lim), ticks := lim, left := none,
                      nextIssue := core.cycle + 1, redirect := none, ended := false, suspended := false,
                      skipBkpt := false, oneShot := false, stop := none } }
      -- the stage of the core has had a RUN in this slot (16 R364)
      let s := { s with gate := { s.gate with idle := Map.set 0 s.gate.idle (n % 256) 0 } }
      let s := (s.setCore n core).issued n q
      let y := s.queue n q
      s.setQueue n q { y with running := some { idx := x.ptr.toNat, op := 1, sig := c.sig } }

/-- COMMAND_FETCH (05 R105): the next command of the list is fetched, at most 8 ahead and not past a RUN, FLAG_WAIT or FENCE that
has not completed. A fault of the fetch halts the queue and names the command. -/
def commandFetch (s : State) (n q : Nat) : State :=
  let x := s.queue n q
  let i := x.ptr.toNat + x.fetched.length
  let stops := x.wait.isSome || x.fence.isSome || x.running.isSome ||
    x.fetched.any fun c => c.op == 1 || c.op == 8 || c.op == 9
  if (x.st ≠ .issuing ∧ x.st ≠ .waitEngine) ∨ 8 ≤ x.fetched.length ∨ x.count.toNat ≤ i ∨ stops ∨ s.coreReset.contains n ∨ s.queueStalled n q ∨ !s.clocked n then s
  else
    let ma := (x.base.toNat / 32 * 32 + 32 * i) % 2 ^ 48
    let r := s.track (.fetch n q) AccRes.isWait fun s => s.readMA (.fetch n q) (s.coreMaster n) ma 32
    match r.2 with
    | .ok bs => r.1.setQueue n q { r.1.queue n q with fetched := x.fetched ++ [BitVec.ofNat 256 (leNat bs)] }
    | .fault code a => r.1.haltQueue n q { cmd := i, code := code, detail := a }
    | .wait => r.1

/-- The cluster a flag is homed in (05 R119): flag f of a partition of C clusters is homed at the (f mod C)th of them. -/
def State.flagHome (s : State) (p f : Nat) : Option Nat :=
  let cs := onesOf 32 (s.part p).clusters.toNat
  cs[f % max 1 cs.length]?

/-- Whether the home of a flag lies in a fenced die (05 R119; 10 R236). -/
def State.homeFenced (s : State) (p f : Nat) : Bool :=
  match s.flagHome p f with
  | some g => s.dieFenced (g / 16)
  | none => false

/-- FLAG_SET (05 R120): the update goes to the flag's home and the command completes there. `fop` is the row's operation. -/
def cmdFlagSet (fop : Nat) (s : State) (n q : Nat) (c : Cmd) : State :=
  let w := wordOf c 1
  if 2 ≤ bitsOf w 12 2 then s.refuseCmd n q c cQueBadCommand 0
  else if bitsOf w 12 2 ≠ fop then s
  else
    match s.partOf n with
    | none => s.refuseCmd n q c cNetPartDenied 0
    | some p =>
      let idx := (s.queue n q).ptr.toNat
      let s := s.launchCmd n q c
      { s with flagUpds := s.flagUpds ++
          [{ part := p, flag := w % 4096, add := fop == 1, value := BitVec.ofNat 32 (w >>> 32), by_ := .queue n q,
             done := some (n, q, idx), wcs := none }] }

/-- Whether two updates leave one master port. -/
def Updater.samePort : Updater → Updater → Bool
  | .queue n _, .queue m _ => n == m
  | .host, .host => true
  | _, _ => false

/-- Whether an update goes from the port of `b` to the home of flag `f` of partition `p`: such signal items keep their order of issue
(10 R223). -/
def State.sameWay (s : State) (b : Updater) (p f : Nat) (u : FlagUpd) : Bool :=
  u.by_.samePort b && s.flagHome u.part u.flag == s.flagHome p f

/-- Whether a wait on a flag value holds (05 R121). -/
def FWait.holds (w : FWait) (v : Word) : Bool := if w.eq then v == w.target else decide (0 ≤ (v - w.target).toInt)

/-- A wait completes: its queue goes on and its signal is sent (05 R121). -/
def State.completeWait (s : State) (n q : Nat) (w : FWait) : State :=
  let s := s.setQueue n q { s.queue n q with wait := none, st := .issuing }
  (s.signal n q w.sig).settle n q

/-- FLAG_WAIT (05 R121, R122): registered at the flag's home, complete at once where its condition holds. It reaches the home after the
earlier updates of its port to that home (R120; 10 R223). -/
def cmdFlagWait (s : State) (n q : Nat) (c : Cmd) : State :=
  let w := wordOf c 1
  let w2 := wordOf c 2
  let t := bitsOf w 16 24
  if t = 0 then s.refuseCmd n q c cQueBadCommand 0
  else
    match s.partOf n with
    | none => s.refuseCmd n q c cNetPartDenied 0
    | some p =>
      let fw : FWait :=
        { idx := (s.queue n q).ptr.toNat, flag := w % 4096, eq := w.testBit 12, target := BitVec.ofNat 32 w2, ticks := t,
          expiry := s.tick + t, sig := c.sig, behind := (s.flagUpds.filter (s.sameWay (.queue n q) p (w % 4096))).length,
          peer := if w2.testBit 43 then some (bitsOf w2 32 9, bitsOf w2 41 2) else none }
      let s := s.issued n q
      if fw.behind = 0 ∧ fw.holds (s.flag p fw.flag).value ∧ !s.homeFenced p fw.flag then s.completeWait n q fw
      else s.setQueue n q { s.queue n q with wait := some fw, st := .waitFlag }

/-- FENCE (05 R102): the queue issues nothing until every earlier command has completed. -/
def cmdFence (s : State) (n q : Nat) (c : Cmd) : State :=
  let idx := (s.queue n q).ptr.toNat
  let s := s.issued n q
  (s.setQueue n q { s.queue n q with
    fence := some { idx := idx, dinv := (wordOf c 1).testBit 0, sig := c.sig }, st := .waitEngine }).settle n q

/-- The queues of a partition whose waits on a flag are registered at its home. -/
def State.waiters (s : State) (p f : Nat) : List (Nat × Nat × FWait) :=
  (Map.keys s.cores).flatMap fun n =>
    if s.partOf n = some p then
      (List.range 4).filterMap fun q =>
        match (s.queue n q).wait with
        | some w => if w.flag = f ∧ w.behind = 0 then some (n, q, w) else none
        | none => none
    else []

/-- A flag updated at its home, and the waits that now hold completed (05 R120, R121). -/
def State.updateFlag (s : State) (p f : Nat) (add : Bool) (v : Word) (by_ : Updater) : State :=
  let old := s.flag p f
  let x : Flag := { value := if add then old.value + v else v, last := by_ }
  let s := { s with flags := Map.set {} s.flags (4096 * p + f) x }
  (s.waiters p f).foldl (fun s w => if w.2.2.holds x.value then s.completeWait w.1 w.2.1 w.2.2 else s) s

/-- What an applied update completes (05 R102, R120): its FLAG_SET, then its queue if nothing else is in flight, or its WCS command. -/
def State.updateDone (s : State) (u : FlagUpd) : State :=
  let s := match u.done with | some (n, q, i) => s.completeCmd n q i | none => s
  let s := match u.by_ with | .queue n q => s.settle n q | _ => s
  match u.wcs with
  | some (sq, cid) => s.complete sq cid 0 0 []
  | none => s

/-- The waits of a port that were behind an update now out of the way: one that was behind no other reaches its home and is evaluated
(05 R120, R121). -/
def State.registerWaits (s : State) (u : FlagUpd) : State :=
  match u.by_ with
  | .queue n _ =>
    (List.range 4).foldl
      (fun s q =>
        match (s.queue n q).wait, s.partOf n with
        | some w, some p =>
          if w.behind = 0 ∨ !s.sameWay (.queue n q) p w.flag u then s
          else
            let w := { w with behind := w.behind - 1 }
            if w.behind = 0 ∧ w.holds (s.flag p w.flag).value ∧ !s.homeFenced p w.flag then s.completeWait n q w
            else s.setQueue n q { s.queue n q with wait := some w }
        | _, _ => s) s
  | _ => s

/-- Updates that satisfy `lost` dropped; the waits behind them are behind what is left. -/
def State.dropUpds (s : State) (lost : FlagUpd → Bool) : State :=
  (s.flagUpds.filter lost).foldl (fun s u => { s with flagUpds := s.flagUpds.erase u }.registerWaits u) s

/-- An update answered with NET_TARGET_RESET without being performed, by a partition in reset (10 R235) or for a home in a fenced die
(R236); what status a FLAG_WRITE then has no rule states. -/
def State.refuseUpd (s : State) (u : FlagUpd) : State :=
  let s := { s with flagUpds := s.flagUpds.erase u }
  State.registerWaits (u := u) (
    match u.wcs, u.done with
      | some (sq, cid), _ => s.completeFree sq cid cNetTargetReset
      | none, some (n, q, i) => s.faultCmd n q i { code := cNetTargetReset }
      | none, none => match u.by_ with | .queue n q => s.settle n q | _ => s)

/-- FLAG_UPDATE (05 R120): the `nth` update on its way to a flag arrives, unless an earlier one of its port to that home has not yet
(10 R223). A partition in reset answers it (10 R235), as a fence does for homes in its die (R236). -/
def flagArrive (s : State) (p f nth : Nat) : State :=
  match (s.flagUpds.filter fun u => u.part = p ∧ u.flag = f)[nth]? with
  | none => s
  | some u =>
    if (s.flagUpds.takeWhile (· ≠ u)).any (s.sameWay u.by_ p f) then s else
    if s.partReset.contains p || s.homeFenced p f then s.refuseUpd u
    else
      ((({ s with flagUpds := s.flagUpds.erase u } : State).updateFlag p f u.add u.value u.by_).updateDone u).registerWaits u

/-- The number of a queue state in CORE_QSTAT (05 R129). -/
def QState.code : QState → Nat
  | .idle => 0 | .issuing => 1 | .waitFlag => 2 | .waitEngine => 3 | .draining => 4 | .halted => 5

/-- QUE_WAIT_TIMEOUT (05 R122, R124): at the expiry boundary the flag is evaluated once more; if the wait does not hold, the queue
halts with a record of the flag, its last updater and the peer. -/
def waitTimeout (s : State) (n q : Nat) : State :=
  match (s.queue n q).wait with
  | none => s
  | some w =>
    if !s.reached w.expiry then s
    else
      let p := (s.partOf n).getD 0
      let fl := s.flag p w.flag
      if w.behind = 0 ∧ w.holds fl.value ∧ !s.homeFenced p w.flag then s.completeWait n q w
      else
        let base : RecF :=
          { cmd := w.idx, code := cQueWaitTimeout, opcode := 8, detail := w.ticks, flagValue := fl.value.toNat, flag := w.flag,
            last := fl.last, target := w.target.toNat }
        let f := match w.peer with
          | none => base
          | some (pc, pq) =>
            let y := s.queue pc pq
            let pf := y.wait.map fun z => (z.flag, (s.flag ((s.partOf pc).getD 0) z.flag).value.toNat)
            { base with
              peer := (pf.map Prod.fst).getD 0 * 2 ^ 14 + y.st.code * 2 ^ 11 + pq * 2 ^ 9 + pc
              peerCmd := y.ptr.toNat
              peerFlagValue := (pf.map Prod.snd).getD 0 }
        s.haltQueue n q f

/-- Whether a queue holds a suspended RUN (05 R130). -/
def State.suspended (s : State) (n q : Nat) : Bool :=
  match (s.core n).run with
  | some r => r.suspended && r.queue == q
  | none => false

/-- The stopped channels of a queue are free again (05 R118). -/
def Core.freeStopped (c : Core) (q : Nat) : Core :=
  { c with dma := Map.drop (fun k => match Map.get none c.dma k with
      | some ch => ch.stopped && ch.queue == q
      | none => false) c.dma }

/-- START (05 R118, R129, R130). -/
def startQ (s : State) (n q : Nat) : State :=
  let x := s.queue n q
  if x.st ≠ .idle ∧ x.st ≠ .halted then s
  else
    let c := if s.suspended n q then (s.core n).dropRun else s.core n
    let c := c.freeStopped q
    let x := { x with ptr := 0, lastFault := 0, st := .issuing, fetched := [], wait := none, fence := none, running := none,
                      record := 0 }
    (s.setCore n (c.setQueue q x)).settle n q

/-- HALT (05 R106, R130): a queue not yet halted stops without a fault; a suspended RUN is discarded. -/
def haltQ (s : State) (n q : Nat) : State :=
  let x := s.queue n q
  if x.st = .halted ∨ x.st = .draining then
    if s.suspended n q then s.setCore n ((s.core n).dropRun) else s
  else
    let s := s.stopQueue n q
    (s.setQueue n q { s.queue n q with lastFault := 0 }).finishJobs

/-- RESUME and RESUME with STEP (05 R130). What issued before the breakpoint and has not been delivered (a step held for a stream line) is
delivered before the bundle issues (`State.toIssue`). -/
def resumeQ (s : State) (n q : Nat) (one : Bool) : State :=
  if !s.suspended n q then s
  else
    let c := s.core n
    let on (r : RunState) : RunState :=
      { r with suspended := false, skipBkpt := true, oneShot := one, limit := r.left.map fun l => s.tick + l, left := none,
               nextIssue := max r.nextIssue c.cycle, stop := none }
    let c := { c with run := c.run.map on }
    s.setCore n (c.setQueue q { c.queue q with st := .issuing })

end Sys2Proof.Machine
end

