-- ==== Sys2Proof/Machine/ChannelOps.lean ====
section
/-! DEFINITION. Launches and holds at a reservoir channel's arbiter, and the switch between memory mode and processor mode
(07 R161 to R164). -/

namespace Sys2Proof.Machine

/-- A launch or pass read. -/
def State.launch (s : State) (n : Nat) : Option Launch := Map.get none s.launches n
/-- A launch replaced. -/
def State.setLaunch (s : State) (n : Nat) (x : Launch) : State := { s with launches := Map.set none s.launches n (some x) }

/-- A pass slot of a partition (09 R217). -/
def State.pass (s : State) (p slot : Nat) : Pass := Map.get {} s.passes (64 * p + slot)
/-- The channel and bank group of a frame (07 R156). -/
def State.frameUnit (s : State) (k f : Nat) : Nat × Nat := (s.rsvCh k (f * 32768), (s.rsvPlace k (f * 32768)).1)
/-- A unit's number in its reservoir: 32 · bank group + channel (08 R178). -/
def unitNo (cb : Nat × Nat) : Nat := 32 * cb.2 + cb.1
/-- The pages of a pass on one unit, in ascending block order (09 R212). -/
def State.unitPages (s : State) (x : Pass) (k c b : Nat) : List PassPage :=
  x.pages.filter fun p => p.k == k && s.frameUnit k p.frame == (c, b)

/-- Occupancy of a unit in a pass read (09 Table ATT-3), its 256 lines a page read no faster than the activation budget lets them be
(08 R196). -/
def passCycles (score : Bool) (pages : Nat) (budget : Nat × Nat) : Nat :=
  let slow (c : Nat) : Nat := max c ((pages * 256 * budget.2 + budget.1 - 1) / budget.1)
  if pages = 0 then 0 else if score then slow (pages * 1120) + 18 else slow (pages * 1056) + 40

/-- The program time of a channel in ns: the longest of its units, pauses counted (08 R195, R196). -/
def Launch.chanNs (l : Launch) (k c : Nat) : Nat :=
  (List.range 8).foldl (fun m b => let u := Map.get {} l.units (256 * k + 8 * c + b); max m (u.cycles + 110 * u.pauses)) 0
/-- P of a channel's program: a program stopped by its budget ran for the budget (08 R195). -/
def State.chanP (s : State) (k c : Nat) (l : Launch) : Nat := min (l.chanNs k c) ((s.rsv k).budgetUs.toNat * 1000)
/-- Whether every unit of a channel has ended; a fault stops them all (08 R197). -/
def Launch.chanEnded (l : Launch) (k c : Nat) : Bool :=
  l.fault.isSome || (List.range 8).all fun b => (Map.get {} l.units (256 * k + 8 * c + b)).ended

/-- The granule writes of a unit that have begun before `stop` ns of the program made, the others left out (08 R184, R195, R197). -/
def State.flushWrites (s : State) (k c b n stop : Nat) : State :=
  match s.launch n with
  | none => s
  | some l =>
    let key := 256 * k + 8 * c + b
    let u := Map.get {} l.units key
    let ws := u.writes.filter fun w => decide (w.start < stop)
    if u.writes = [] then s
    else
      let s := ws.foldl (fun s w => s.unitWrite k c b w.gran w.bytes) s
      let tainted := (ws.filter fun w => w.bytes.isNone).length
      let fl := Flags.all (ws.map GranW.flags)
      let v := s.rsv k
      (s.setRsv k { v with bnkFlags := v.bnkFlags.or fl, tainted := satAdd v.tainted tainted }).setLaunch n
        { l with units := Map.set {} l.units key { u with writes := [], flags := u.flags.or fl }, tainted := l.tainted + tainted
                 flags := l.flags.or fl }

/-- The granule writes of every unit of a launch that have begun before `stop` (none: all of them) made. -/
def State.flushLaunch (s : State) (n : Nat) (stop : Option Nat) : State :=
  match s.launch n with
  | none => s
  | some l =>
    (Map.keys l.units).foldl (fun s key => s.flushWrites (key / 256) (key / 8 % 32) (key % 8) n (stop.getD (2 ^ 48))) s

/-- Every unit of a launch stops with a fault, the first to reach the queue being kept; a granule write that has begun completes, and
channels that have not switched to it are withdrawn from it, their requests behind it performed (08 R195, R197; 07 R162). Program times of
different channels are compared as they stand, and where the stop has no program time every ST issued has begun its writes
(DESIGN CHOICE). -/
def State.stopLaunch (s : State) (n : Nat) (fault : Option (Nat × Nat)) (stop : Option Nat := none) : State :=
  let s := s.flushLaunch n stop
  match s.launch n with
  | none => s
  | some l =>
    let running (k c : Nat) : Bool := (s.chan k c).current == some (.launch n)
    let left := (Map.keys l.left).foldl (fun m k =>
      Map.set 0 m k (BitVec.ofNat 32 (((onesOf 32 (Map.get 0 l.left k).toNat).filter (running k)).foldl (fun x c => x + 2 ^ c) 0)))
      l.left
    let drop (x : Chan) : Chan := { x with ops := x.ops.filter fun e => decide (e.item ≠ .launch n) }
    let endUnit (u : BUnit) : BUnit := { u with ended := true }
    let waits := (Map.keys s.chans).filter fun i => (s.chan (i / 32) (i % 32)).ops.any fun e => decide (e.item = .launch n)
    let s := { s with chans := Map.mapAll {} drop s.chans }.setLaunch n
      { l with fault := l.fault.orElse (fun _ => fault), left := left, units := Map.mapAll {} endUnit l.units }
    waits.foldl (fun s i => s.serve (i / 32) (i % 32)) s

/-- An injected hold's time runs from its switch (17 R387): 1,600 drops make a microsecond. -/
def State.holdFrom (s : State) (n : Nat) : State :=
  let f (i : Inj) : Inj := if i.applied = some n then { i with stop := s.time + 1600 * (i.w2 % 65536) } else i
  { s with wh := { s.wh with injs := s.wh.injs.map f } }

/-- CHANNEL_SWITCH (07 R162): once every request ordered before it has been performed, the launch or hold at the head of the
order takes the channel. Units of a bank program start as R179 of 08
gives; those of a pass read have the occupancy of Table ATT-3. -/
def channelSwitch (s : State) (k c : Nat) : State :=
  let s := s.serve k c
  let ch := s.chan k c
  if ch.current.isSome || ch.proc then s
  else
    match ch.ops with
    | [] => s
    | e :: rest =>
     match e.item with
     | .launch n =>
      match s.launch n with
      | none => s.setChan k c { ch with ops := rest }
      | some l =>
        let reg (b r : Nat) : Nat :=
          if r = 1 then l.arg0.toNat else if r = 2 then l.arg1.toNat else if r = 3 then c else if r = 4 then b else k
        let busy (score : Bool) (p slot b : Nat) : BUnit :=
          { cycles := passCycles score (s.unitPages (s.pass p slot) k c b).length (s.actBudget k) }
        let unit (b : Nat) : BUnit :=
          match l.kind with
          | .bank => (List.range 5).foldl (fun u i => u.setReg (i + 1) (reg b (i + 1))) {}
          | .score p slot => busy true p slot b
          | .apply p slot => busy false p slot b
        let us := (List.range 8).foldl (fun m b => Map.set {} m (256 * k + 8 * c + b) (unit b)) l.units
        let s := s.setLaunch n { l with units := us }
        s.setChan k c { ch with ops := rest, current := some (.launch n), proc := true, runNs := 0, runPauses := 0,
                                runPart := BitVec.ofNat 5 l.part }
     | .hold n => (s.setChan k c { ch with ops := rest, current := some (.hold n), proc := true }).holdFrom n
     | .req _ => s

/-- A channel back in memory mode: its held requests are performed in order (07 R164). -/
def State.memoryMode (s : State) (k c : Nat) : State :=
  (s.setChan k c { s.chan k c with current := none, proc := false }).serve k c

end Sys2Proof.Machine
end

