-- ==== Sys2Proof/Machine/BankCmds.lean ====
section
/-! DEFINITION. The BANK command from issue to completion (08 R189 to R198). -/

namespace Sys2Proof.Machine

/-- The walker and launch engine of a reservoir as a master for a partition (10 Table NET-2). -/
def rsvMaster (k : Nat) (part : Option Nat) : Master := { port := 32 + k, part := part, core := none }

/-- The detail word of a bank fault (08 R194): reservoir, channel, bank group, instruction index. -/
def bankDetail (k c b i : Nat) : Nat := k * 2 ^ 29 + c * 2 ^ 24 + b * 2 ^ 21 + i % 512

/-- BANK commands in a reservoir's staging (08 R192). -/
def State.staged (s : State) (k : Nat) : Nat :=
  ((Map.vals s.launches).filter fun o => match o with
    | some l => l.kind == .bank && l.rsvMask.toNat.testBit k && !l.ordered.toNat.testBit k && l.fault.isNone
    | none => false).length

/-- Whether a reservoir is fused off (05 R125; 14 R316): the bad-element list of the fuses names it, class 0x0F. -/
def State.rsvFused (s : State) (k : Nat) : Bool := s.fuses.bad.any fun e => e.1.toNat == 0x0F && e.2.toNat == k

/-- The first (reservoir, channel) of a BANK command that fails a test. -/
def firstChannel (rm cm : Nat) (bad : Nat → Nat → Bool) : Option (Nat × Nat) :=
  (onesOf 8 rm).findSome? fun k => ((onesOf 32 cm).find? (bad k)).map fun c => (k, c)

/-- BANK at issue (08 R191, R192): checked in the order of Table BNK-6, then accepted with its image read once. -/
def cmdBank (s : State) (n q : Nat) (c : Cmd) : State :=
  let w1 := wordOf c 1
  let w2 := wordOf c 2
  let w3 := wordOf c 3
  let cm := w1 >>> 32
  let rm := bitsOf w1 24 8
  let sma := w2 % 2 ^ 48
  let vecEn := w2.testBit 63
  let lead := (onesOf 8 rm).headD 0
  if cm = 0 ∨ rm = 0 ∨ sma % 64 ≠ 0 then s.refuseCmd n q c cQueBadCommand 0
  else if (onesOf 8 rm).any s.rsvFused || !s.licCompute then
    s.refuseCmd n q c cQueEngineAbsent
      (match (onesOf 8 rm).find? s.rsvFused with | some k => Config.engineDetail k false | none => Config.engineDetail lead true).toNat
  else if !s.gateOpen n ∨ (onesOf 8 rm).any fun k => decide (16 ≤ s.staged k) then s.waitEngine n q
  else
    match s.partOf n with
    | none => s.refuseCmd n q c cRsvChannelDenied 0
    | some p =>
      let hs := (if vecEn then [(bitsOf w1 12 12, [0])] else []) ++ [(bitsOf w1 0 12, [0])]
      let r := s.useDescs n hs
      match r.2.2 with
      | some (.fault code det) => r.1.refuseCmd n q c code det
      | some _ => r.1
      | none =>
        let s := r.1
        let prog := r.2.1.getLast?.getD 0
        let vec := r.2.1.headD 0
        let badVec := vecEn && (vec.ndim != 1 || vec.fmt != some .l8 || decide (131072 < vec.ext 0))
        let badProg := prog.ndim != 1 || prog.fmt != some .int8 || prog.ext 0 % 8 != 0 || decide (4096 < prog.ext 0)
        if badVec then s.refuseCmd n q c cQueDescShape (bitsOf w1 12 12)
        else if badProg then s.refuseCmd n q c cQueDescShape (bitsOf w1 0 12)
        else
          match firstChannel rm cm (fun k ch => !(s.chsetOf k p).testBit ch),
                firstChannel rm cm (fun k ch => (s.chan k ch).st != .active || !(s.activeCh k).testBit ch) with
          | some x, _ => s.refuseCmd n q c cRsvChannelDenied (bankDetail x.1 x.2 0 0)
          | none, some x => s.refuseCmd n q c cRsvChannelRetired (bankDetail x.1 x.2 0 0)
          | none, none =>
            let im := s.track (.bankImage n q) AccRes.isWait fun s => s.readMA (.bankImage n q) (rsvMaster lead (some p)) prog.base (prog.ext 0)
            match im.2 with
            | .wait => im.1
            | .fault code _ =>
              -- the fetch of an accepted command: it faults with that fetch's code (08 R192)
              let idx := (im.1.queue n q).ptr.toNat
              (im.1.launchCmd n q c).faultCmd n q idx { code := code }
            | .ok bs =>
              let img := (List.range (bs.length / 8)).map fun i => BitVec.ofNat 64 (leNat ((bs.drop (8 * i)).take 8))
              match imageBad img with
              | some i => im.1.refuseCmd n q c cRsvBankIllegal (bankDetail 0 0 0 i)
              | none =>
                let s := im.1
                let idx := (s.queue n q).ptr.toNat
                let l : Launch :=
                  { kind := .bank, core := n, queue := q, idx := idx, part := p, image := img, chMask := BitVec.ofNat 32 cm,
                    rsvMask := BitVec.ofNat 8 rm, statusMA := sma, arg0 := BitVec.ofNat 32 w3,
                    arg1 := BitVec.ofNat 32 (w3 >>> 32), vec := if vecEn then some (vec.base, vec.ext 0) else none, vecs := [],
                    ordered := 0, left := [], units := [], fault := none, runNs := 0, tainted := 0, pauses := 0, flags := {} }
                let s := s.launchCmd n q c
                { s with launchNo := s.launchNo + 1 }.setLaunch s.launchNo l

/-- The vector as reservoir `k`'s own fetch reads it (08 R192): the launch with its bytes, a fault, or a wait. -/
def State.fetchVec (s : State) (k n : Nat) (l : Launch) : State × AccRes :=
  match l.vec with
  | none => (s, .ok [])
  | some (ma, len) =>
    let r := s.track (.bankVec k n) AccRes.isWait fun s => s.readMA (.bankVec k n) (rsvMaster k (some l.part)) ma len
    match r.2 with
    | .ok bs => (r.1.setLaunch n { l with vecs := l.vecs ++ [(k, bs)] }, .ok bs)
    | o => (r.1, o)

/-- BANK_LAUNCH_ORDER (08 R192): a reservoir's staging ends with its fetch of the vector, and the launch is ordered at each named
channel's arbiter. A fetch that faults ends the launch everywhere; a channel that has begun to retire accepts no launch (07 R161). -/
def launchOrder (s : State) (k n : Nat) : State :=
  match s.launch n with
  | none => s
  | some l =>
    if l.kind != .bank || !l.rsvMask.toNat.testBit k || l.ordered.toNat.testBit k || l.fault.isSome then s
    else
     let r := s.fetchVec k n l
     match r.2, r.1.launch n with
     | .fault code _, _ => r.1.stopLaunch n (some (code, bankDetail k 0 0 0))
     | .wait, _ => r.1
     | _, none => r.1
     | .ok _, some l =>
      let s := r.1
      let cs := onesOf 32 l.chMask.toNat
      match cs.find? fun c => (s.chan k c).st != .active with
      | some c => s.stopLaunch n (some (cRsvChannelRetired, bankDetail k c 0 0))
      | none =>
        let s := cs.foldl (fun s c => s.order k c (64 + l.part) (.launch n)) s
        let v := s.rsv k
        (s.setRsv k { v with launches := v.launches + 1 }).setLaunch n
          { l with ordered := l.ordered ||| BitVec.ofNat 8 (2 ^ k), left := Map.set 0 l.left k l.chMask }

/-- What an instruction of a unit did, recorded in its launch and its reservoir (08 R186, R194, R198). -/
def BOut.done (o : BOut) (k c b n : Nat) (l : Launch) : State :=
  let v := o.s.rsv k
  (o.s.setRsv k { v with bnkFlags := v.bnkFlags.or o.u.flags, tainted := satAdd v.tainted o.tainted }).setLaunch n
    { l with units := Map.set {} l.units (256 * k + 8 * c + b) o.u, tainted := l.tainted + o.tainted, flags := l.flags.or o.u.flags }

/-- The granule writes of a unit's ST made before its next instruction issues (08 R187). -/
def State.pastWrites (s : State) (k c b : Nat) : State :=
  match (s.chan k c).current with
  | some (.launch n) => s.flushWrites k c b n (2 ^ 48)
  | _ => s

/-- One instruction of the program that runs on a unit, if its operation is `op` (08 R187); an instruction that would begin at the
budget's end does not (R195). -/
def bankInstr (op : Nat) (s0 : State) (k c b : Nat) : State :=
  let s := s0.pastWrites k c b
  match (s.chan k c).current with
  | some (.launch n) =>
    match s.launch n with
    | none => s
    | some l =>
      let key := 256 * k + 8 * c + b
      let u := Map.get {} l.units key
      let budget := (s.rsv k).budgetUs.toNat * 1000
      let now := u.cycles + 110 * u.pauses
      match l.image[u.pc]? with
      | none => s
      | some w =>
        if l.kind != .bank || u.ended || l.fault.isSome || bOp w != op || decide (budget < now) || (op != 6 && now == budget) then s0
        else
          let vec := ((l.vecs.find? fun v => v.1 = k).map Prod.snd).getD []
          let o := bStep s u vec l.image k c b budget w
          let s := o.done k c b n l
          if o.range then s.stopLaunch n (some (cRsvBankRange, bankDetail k c b u.pc)) (some now) else s
  | _ => s

/-- RSV_BANK_BUDGET (08 R195): a program whose time on a channel has reached the budget is stopped everywhere. -/
def bankBudget (s : State) (k c : Nat) : State :=
  match (s.chan k c).current with
  | some (.launch n) =>
    match s.launch n with
    | none => s
    | some l =>
      if l.chanEnded k c || decide (l.chanNs k c < (s.rsv k).budgetUs.toNat * 1000) then s
      else
        let v := s.rsv k
        (s.setRsv k { v with budgetStops := satAdd v.budgetStops 1 }).stopLaunch n
          (some (cRsvBankBudget, bankDetail k c 0 0)) (some ((s.rsv k).budgetUs.toNat * 1000))
  | _ => s

/-- A channel whose units have all ended leaves its launch and returns to memory mode (07 R164; 08 R193, R198). -/
def State.endChannel (s : State) (k c n : Nat) (l : Launch) : State :=
  let p := s.chanP k c l
  let ch := s.chan k c
  let s := s.setLaunch n { l with
    runNs := max l.runNs p
    pauses := l.pauses + ch.runPauses.toNat
    left := Map.set 0 l.left k (Map.get 0 l.left k &&& ~~~(BitVec.ofNat 32 (2 ^ c))) }
  (s.setChan k c { ch with runNs := BitVec.ofNat 32 p }).memoryMode k c

/-- The words of a status record (08 R194). -/
def statusWords (l : Launch) : List Nat :=
  let f := l.flags
  [(l.runNs % 2 ^ 32) * 2 ^ 32 + (l.fault.map Prod.fst).getD 0,
   (l.tainted % 2 ^ 32) * 2 ^ 32 + min l.pauses 65535 * 2 ^ 16 + (if f.sat then 4 else 0) + (if f.inv then 2 else 0) +
     (if f.ovf then 1 else 0),
   (l.fault.map Prod.snd).getD 0, 0, 0, 0, 0, 0]

/-- BANK_COMPLETE (08 R193, R194, R197): every channel back in memory mode, the status record written, the command completes or
faults. -/
def bankComplete (s : State) (n : Nat) : State :=
  match s.launch n with
  | none => s
  | some l =>
    if l.kind != .bank || !(l.left == []) || !(l.ordered == l.rsvMask || l.fault.isSome) then s
    else
      let m := rsvMaster ((onesOf 8 l.rsvMask.toNat).headD 0) (some l.part)
      let r := if l.statusMA = 0 then (s, .ok []) else
        s.track (.bankStatus n) AccRes.isWait fun s => s.writeMA (.bankStatus n) m l.statusMA ((statusWords l).flatMap (leBytes 8))
      match r.2 with
      | .wait => r.1
      | o =>
        let s := { r.1 with launches := Map.set none r.1.launches n none }
        let f := match l.fault, o with
          | some f, _ => some f
          | none, .fault code ma => some (code, ma)
          | none, _ => none
        match f with
        | some f => s.faultCmd l.core l.queue l.idx { code := f.1, detail := f.2 }
        | none => s.completeCmd l.core l.queue l.idx

end Sys2Proof.Machine
end

