-- ==== Sys2Proof/Machine/AttOps.lean ====
section
/-! DEFINITION. Attention: sequence contexts, page tables, pools, reference and pin counts (09 R199 to R211), and the arithmetic of
the two reads of a pass (R212 to R215). -/

namespace Sys2Proof.Machine

/-! ### Frames and pools -/

/-- A sequence context (09 R202). -/
def State.seqAt (s : State) (q : Nat) : SeqCtx := Map.get {} s.seqs q
/-! What the walker area of a reservoir holds, as bytes (09 R202 to R204). The rules give a record's and a table's layout; where they lie is
DESIGN CHOICE: a context's record stands in the 64 bytes before its table, the table in the first room behind the score frames (4 slots
for each pass slot) and the counts, in frames of its partition's channels; the counts of a frame stand in the area frame of its own channel
and bank group. -/

/-- The first byte of frame slot `slot` of a reservoir, as a per-stack offset (07 R156). -/
def State.slotOff (s : State) (k slot : Nat) : Nat := slot * (8 * popCount 32 (s.activeCh k)) * 32768
/-- The slots of the area before its tables: score frames of 64 pass slots, and counts. -/
def areaHead : Nat := 259
/-- Bytes a walker writes in its area, with valid check symbols. -/
def State.areaPut (s : State) (key : Nat) (bs : List Byte) : State :=
  { s.setRaw key bs with cw := Map.drop (fun i => decide (key / 64 ≤ i) && decide (i * 64 < key + bs.length)) s.cw }
/-- Bytes of an area zeroed. -/
def State.areaZero (s : State) (key n : Nat) : State :=
  { s with mem := Map.drop (fun a => decide (key ≤ a) && decide (a < key + n)) s.mem
           cw := Map.drop (fun i => decide (key / 64 ≤ i) && decide (i * 64 < key + n)) s.cw }

/-- The bytes of a context record (09 R202). -/
def SeqCtx.record (x : SeqCtx) : List Byte :=
  leBytes 8 ((if x.isOpen then 2 ^ 62 else 0) + x.part.toNat * 2 ^ 57 + x.layers.toNat * 2 ^ 48 + x.toff.toNat * 2 ^ 40 +
      x.openPasses.toNat * 2 ^ 32 + x.len.toNat) ++
    leBytes 8 (x.cap.toNat * 2 ^ 32) ++ leBytes 8 x.tableMA.toNat ++ List.replicate 40 0
/-- The address of a context's record, if it has a table. -/
def SeqCtx.recordAt (x : SeqCtx) : Option Nat := if 2 ^ 40 + 64 ≤ x.tableMA.toNat then some (x.tableMA.toNat - 64) else none
/-- Bytes of a context's record and table (09 R202, R203). -/
def SeqCtx.size (x : SeqCtx) : Nat := 64 + 4 * x.layers.toNat * x.cap.toNat

/-- A sequence context replaced, its record with it; what one that is closed had is zeroed (09 R202). -/
def State.setSeq (s : State) (q : Nat) (x : SeqCtx) : State :=
  let old := s.seqAt q
  let s := match old.recordAt with
    | some a => if x.tableMA = old.tableMA then s else s.areaZero a old.size
    | none => s
  let s := match x.recordAt with | some a => s.areaPut a x.record | none => s
  { s with seqs := Map.set {} s.seqs q x }
/-- A pass slot replaced. -/
def State.setPass (s : State) (p slot : Nat) (x : Pass) : State := { s with passes := Map.set {} s.passes (64 * p + slot) x }

/-- The pool key of frame `f` of reservoir `k`. -/
def frameKey (k f : Nat) : Nat := k * 2 ^ 22 + f
/-- A pooled frame. -/
def State.frame (s : State) (k f : Nat) : Option PFrame := Map.get none s.pool (frameKey k f)
/-- The frame slot of a frame (07 R156). -/
def State.frameSlot (s : State) (k f : Nat) : Nat := (s.rsvPlace k (f * 32768)).2.1
/-- Whether a frame lies in the walker area (09 R204). -/
def State.inArea (s : State) (k f : Nat) : Bool :=
  s.slotInArea k (s.frameSlot k f)

/-- Where the 8 bytes of a frame's counts lie in the walker area, none where the area has no slot for them (09 R204, R210). -/
def State.countAt (s : State) (k f : Nat) : Option Nat :=
  let v := s.rsv k
  let place := s.rsvPlace k (f * 32768)
  let slot := v.slotBase.toNat + 256 + place.2.1 / 4096
  if slot < v.slotBase.toNat + v.slotCount.toNat then
    some (2 ^ 40 + k * 2 ^ 37 + s.rsvOff k (s.rsvCh k (f * 32768)) place.1 slot 0 + 8 * (place.2.1 % 4096))
  else none
/-- A frame put into a pool, changed, or taken out, with its counts in the walker area (09 R204, R210): VALID in bit 63, pins from bit 32,
references below. -/
def State.setFrame (s : State) (k f : Nat) (x : Option PFrame) : State :=
  let w := match x with | some e => 2 ^ 63 + e.pins % 2 ^ 16 * 2 ^ 32 + e.refs % 2 ^ 32 | none => 0
  let s := match s.countAt k f with | some a => s.areaPut a (leBytes 8 w) | none => s
  { s with pool := Map.set none s.pool (frameKey k f) x }
/-- A frame's counts changed (09 R210). -/
def State.count (s : State) (k f : Nat) (g : PFrame → PFrame) : State := s.setFrame k f ((s.frame k f).map g)
/-- A reference dropped. -/
def PFrame.deref (x : PFrame) : PFrame := { x with refs := x.refs - 1 }
/-- A reference taken. -/
def PFrame.ref (x : PFrame) : PFrame := { x with refs := x.refs + 1 }
/-- A pin taken. -/
def PFrame.pin (x : PFrame) : PFrame := { x with pins := x.pins + 1 }
/-- A pin released. -/
def PFrame.unpin (x : PFrame) : PFrame := { x with pins := x.pins - 1 }

/-- The free frames of a partition's pool in a reservoir (09 R201, R210). -/
def State.freeFrames (s : State) (p k : Nat) : List Nat :=
  s.pool.filterMap fun e =>
    match e.2 with
    | some x => if e.1 / 2 ^ 22 = k ∧ x.part = p ∧ x.refs = 0 ∧ x.pins = 0 then some (e.1 % 2 ^ 22) else none
    | none => none

/-- A page allocated in a stripe (09 R201): from the bank unit next in rotation after the last with a free frame; which frame of
that unit is free. It takes a reference count of 1. -/
def State.alloc (s : State) (p k : Nat) : Option (State × Nat) :=
  let last := Map.get 0 (s.part p).lastUnit k
  let free := s.freeFrames p k
  let unit := ((List.range 256).map fun i => (last + i) % 256).find? fun u => free.any fun f => unitNo (s.frameUnit k f) == u
  match unit with
  | none => none
  | some u =>
    let fs := free.filter fun f => unitNo (s.frameUnit k f) == u
    match fs[(Config.freeWord s.free 0).toNat % max 1 fs.length]? with
    | none => none
    | some f =>
      let pt := s.part p
      let s := { s with parts := Map.set {} s.parts p { pt with lastUnit := Map.set 0 pt.lastUnit k (u + 1) } }
      some ((s.count k f PFrame.ref).draw, f)

/-! ### Page tables -/

/-- The entry of a layer and block (09 R203). -/
def SeqCtx.entry (x : SeqCtx) (l b : Nat) : Nat := (Map.get 0 x.table (l * x.cap.toNat + b)).toNat
/-- The frame an entry names, if it is valid. -/
def SeqCtx.page (x : SeqCtx) (l b : Nat) : Option Nat := if (x.entry l b).testBit 31 then some (x.entry l b % 2 ^ 22) else none
/-- An entry written, or cleared. -/
def SeqCtx.setPage (x : SeqCtx) (l b : Nat) (f : Option Nat) : SeqCtx :=
  { x with table := Map.set 0 x.table (l * x.cap.toNat + b) (match f with | some f => BitVec.ofNat 32 (2 ^ 31 + f) | none => 0) }
/-- An entry of a sequence's table written, in the context and in the area (09 R203). -/
def State.setEntry (s : State) (q l b : Nat) (f : Option Nat) : State :=
  let x := (s.seqAt q).setPage l b f
  let s := if x.recordAt.isSome then s.areaPut (x.tableMA.toNat + 4 * (l * x.cap.toNat + b)) (leBytes 4 (x.entry l b)) else s
  s.setSeq q x

/-- Whether `n` bytes at per-stack offset `x` lie in frames of a partition's channels (09 R204). -/
def State.areaOwned (s : State) (p k x n : Nat) : Bool :=
  (pieces 32768 (n / 32768 + 2) x n).all fun c => (s.chsetOf k p).testBit (s.rsvCh k c.1)
/-- Room of `n` bytes for a partition in the walker area of its reservoir from offset `x` on, below `stop`; `fuel` bounds the places tried. -/
def State.findRoom (s : State) (p k n stop : Nat) : Nat → Nat → Option Nat
  | 0, _ => none
  | fuel + 1, x =>
    if stop < x + n then none
    else
      let hit := s.seqs.findSome? fun e =>
        match e.2.recordAt with
        | some a =>
          let o := a - (2 ^ 40 + k * 2 ^ 37)
          if e.1 % 8 = k ∧ e.2.isOpen ∧ o < x + n ∧ x < o + e.2.size then some (o + e.2.size) else none
        | none => none
      match hit with
      | some y => s.findRoom p k n stop fuel ((y + 63) / 64 * 64)
      | none => if s.areaOwned p k x n then some x else s.findRoom p k n stop fuel ((x / 32768 + 1) * 32768)
/-- The address for a table of `n` bytes of partition `p` at home `k` (09 R203, R204). -/
def State.tableRoom (s : State) (p k n : Nat) : Option Nat :=
  let v := s.rsv k
  let stop := s.slotOff k (v.slotBase.toNat + v.slotCount.toNat)
  let first := s.slotOff k (v.slotBase.toNat + areaHead)
  (s.findRoom p k (64 + n) stop (stop / 32768 + s.seqs.length + 1) first).map fun x => 2 ^ 40 + k * 2 ^ 37 + x + 64

/-- Blocks that hold `n` tokens. -/
def blocksOf (n : Nat) : Nat := (n + 63) / 64

/-- The entries of blocks `from_` to `to_ - 1` of every layer dropped (09 R209, R210). -/
def State.dropBlocks (s : State) (q from_ to_ : Nat) : State :=
  let x := s.seqAt q
  let lb := (List.range x.layers.toNat).flatMap fun l => (List.range (to_ - from_)).map fun i => (l, from_ + i)
  lb.foldl
    (fun s p =>
      let x := s.seqAt q
      match x.page p.1 p.2 with
      | some f => (s.count (p.2 % 8) f PFrame.deref).setEntry q p.1 p.2 none
      | none => s) s

/-- A page copied whole by its stripe walker, as requests of the access of `w` (09 R209; 17 Table ERR-3): a granule that cannot be read is
written as poison, and a request that ends in RSV_CHANNEL_BUSY is made again. Whether all of it is done. -/
def State.copyPage (s : State) (w : Who) (p k fo fn : Nat) : State × Bool :=
  let m := rsvMaster k (some p)
  let at_ (f g : Nat) : Nat := 2 ^ 40 + k * 2 ^ 37 + f * 32768 + 512 * g
  (List.range 64).foldl
    (fun (acc : State × Bool) g =>
      let r := acc.1.access w m false (at_ fo g) 512 [] [] true
      match r.2 with
      | .wait => (r.1, false)
      | .ok bs =>
        let x := r.1.access w m true (at_ fn g) 512 bs [] true
        (x.1, acc.2 && !x.2.isWait)
      | .fault _ _ =>
        let x := r.1.access w m true (at_ fn g) 512 (List.replicate 512 0) ((List.range 8).map fun j => at_ fn g + 64 * j) true
        (x.1, acc.2 && !x.2.isWait))
    (s, true)

/-- What an APPEND has to make private (09 R209): every layer and block the new tokens fall in that has no page or a shared one, each with
the page it has. -/
def State.appendBlocks (s : State) (q from_ to_ : Nat) : List (Nat × Nat × Option Nat) :=
  let x := s.seqAt q
  ((List.range x.layers.toNat).flatMap fun l => (List.range (to_ - from_)).map fun i => (l, from_ + i)).filterMap fun e =>
    match x.page e.1 e.2 with
    | none => some (e.1, e.2, none)
    | some f => match s.frame (e.2 % 8) f with | some y => if 1 < y.refs then some (e.1, e.2, some f) else none | none => none

/-- A fresh page for each of them reserved (09 R201, R209); `fo + 1` is the page to copy, 0 for none. -/
def State.reserve (s : State) (p : Nat) : List (Nat × Nat × Option Nat) → Option (State × List (Nat × Nat × Nat × Nat))
  | [] => some (s, [])
  | e :: es =>
    (s.alloc p (e.2.1 % 8)).bind fun a => (a.1.reserve p es).map fun r =>
      (r.1, (e.1, e.2.1, (match e.2.2 with | some f => f + 1 | none => 0), a.2) :: r.2)

/-- The pages of a plan copied, as an access of the command of a queue: whether all are done. -/
def State.copyPlan (s : State) (w : Who) (p : Nat) (plan : List (Nat × Nat × Nat × Nat)) : State × Bool :=
  s.track w (fun b => !b) fun s =>
    (plan.filter fun e => e.2.2.1 ≠ 0).foldl
      (fun (acc : State × Bool) e => let r := acc.1.copyPage w p (e.2.1 % 8) (e.2.2.1 - 1) e.2.2.2; (r.1, acc.2 && r.2)) (s, true)

/-- The entries of a plan rewritten to the new pages; each old page's count falls by one (09 R209). -/
def State.enterPlan (s : State) (q : Nat) (plan : List (Nat × Nat × Nat × Nat)) : State :=
  plan.foldl
    (fun s e =>
      let k := e.2.1 % 8
      let s := if e.2.2.1 = 0 then s else
        let r := s.rsv k
        (s.setRsv k { r with cow := satAdd r.cow 1 }).count k (e.2.2.1 - 1) PFrame.deref
      s.setEntry q e.1 e.2.1 (some e.2.2.2)) s

/-- The pages of a plan given back. -/
def State.dropPlan (s : State) (plan : List (Nat × Nat × Nat × Nat)) : State :=
  plan.foldl (fun s e => s.count (e.2.1 % 8) e.2.2.2 PFrame.deref) s

/-- New pages an APPEND needs in a stripe (09 R209). -/
def State.appendNeeds (s : State) (q from_ to_ k : Nat) : Nat :=
  let x := s.seqAt q
  ((List.range x.layers.toNat).flatMap fun l => (List.range (to_ - from_)).filter fun i =>
    let b := from_ + i
    b % 8 == k && (match x.page l b with
      | none => true
      | some f => match s.frame k f with | some e => decide (1 < e.refs) | none => false)).length

/-! ### The reads of a pass -/

/-- The records of a page's tokens that lie in the pass: token, its 512 codes, and of each whether its codeword was bad. -/
def State.pageTokens (s : State) (x : Pass) (k c b : Nat) (pg : PassPage) : State × List (Nat × List Nat × List Bool) :=
  (List.range 64).foldl
    (fun acc t =>
      let tok := 64 * pg.block + t
      if tok < x.first ∨ x.len ≤ tok then acc
      else
        let r := acc.1.unitRead k c b ((acc.1.frameSlot k pg.frame) * 32768 + 512 * t) 512
        (r.1, acc.2 ++ [(t, r.2.map Prod.fst, r.2.map Prod.snd)]))
    (s, [])

/-- A score: a dot product of 512 products as one group, written as FP16 (09 R212; 02 R39, R40). -/
def scoreOf (q c : List Nat) (tq tc : Int) : Nat × Flags :=
  let g := accGroup ((List.zipWith (fun a b => termMul (l8Term a tq) (l8Term b tc)) q c).filterMap id)
  let r := (match g with | some a => a | none => {}).out .fp16 0 0 0
  (r.1, { r.2 with inv := r.2.inv || q.contains 0x80 || c.contains 0x80 })

/-- The granule and byte of a score row (09 R212): page `j` of a unit in a slot, head `h`. -/
def State.scoreRow (s : State) (k slot j h : Nat) : Nat :=
  ((s.rsv k).slotBase.toNat + 4 * slot + j / 8) * 32768 + 4096 * (j % 8) + 128 * h

/-- Rows of FP16 scores stored as granules, four heads each, poison where a row of the granule is tainted (09 R212, R218). Bytes of
a granule past the last head are free. -/
def State.putScores (s : State) (k c b slot j : Nat) (rows : List (List Nat)) (bad : Bool) : State :=
  (List.range ((rows.length + 3) / 4)).foldl
    (fun s g =>
      let bytes := ((rows.drop (4 * g)).take 4).flatMap fun r => r.flatMap (leBytes 2)
      let fill := (List.range (512 - bytes.length)).map (Config.freeByte s.free)
      (s.unitWrite k c b (s.scoreRow k slot j (4 * g) / 512) (if bad then none else some (bytes ++ fill))).draw) s

/-- Codes summed as EXPL sums them, as FP32 (09 R212; 08 R185). -/
def sumCodes (cs : List Nat) : Nat × Flags :=
  let a := (List.range ((cs.length + 1023) / 1024)).foldl
    (fun (a : Acc × Bool) j =>
      match accGroup (((cs.drop (1024 * j)).take 1024).filterMap fun c => l8Term c 0) with
      | some g => let r := a.1.merge g; (r.1, a.2 || r.2)
      | none => a) ({}, false)
  let o := a.1.out .fp32 0 0 0
  (o.1, { o.2 with ovf := o.2.ovf || a.2, inv := o.2.inv || cs.contains 0x80 })

/-- The score read of one unit (09 R212, R218): rows stored, the unit's maximum and sum for each head, flags, and the first
poisoned block. -/
def State.scoreUnit (s : State) (x : Pass) (slot k c b : Nat) (tq tc : Int) (queries : List Byte) :
    State × UnitSum × Flags × Option Nat :=
  let qs := (List.range x.heads).map fun h => ((queries.drop (512 * h)).take 512).map BitVec.toNat
  let r := ((s.unitPages x k c b).zipIdx).foldl
    (fun (acc : State × List (List (List Nat)) × Flags × Option Nat) pj =>
      let t := acc.1.pageTokens x k c b pj.1
      let cells := qs.map fun q => (List.range 64).map fun i =>
        match t.2.find? fun e => e.1 = i with
        | some e => scoreOf q e.2.1 tq tc
        | none => (0xFC00, Flags.none)
      let bad := t.2.any fun e => e.2.2.any id
      let s := t.1.putScores k c b slot pj.2 (cells.map fun r => r.map Prod.fst) bad
      (s, acc.2.1 ++ [cells.map fun r => r.map Prod.fst], acc.2.2.1.or (Flags.all (cells.map fun r => Flags.all (r.map Prod.snd))),
       if bad then acc.2.2.2.orElse fun _ => some pj.1.block else acc.2.2.2))
    (s, [], .none, none)
  let heads := (List.range x.heads).map fun h =>
    let sc := r.2.1.flatMap fun pg => pg.getD h []
    let m := (sc.foldl maxSkip none).getD 0xFC00
    let codes := (numbered 0 sc).map fun p => expCode p.2 m 0 0 r.1.free (65536 * h + p.1)
    let sum := sumCodes (codes.map Prod.fst)
    ((m, sum.1, r.2.2.2.isSome),
     (Flags.all (codes.map Prod.snd)).or { sum.2 with inv := sum.2.inv || sc.any fun v => (fpVal .fp16 v).isNaN })
  (r.1.draw, { k := k, unit := unitNo (c, b), heads := heads.map Prod.fst }, r.2.2.1.or (Flags.all (heads.map Prod.snd)), r.2.2.2)

/-- A token of the second read as one head uses it: its codes, its weight, and of each code whether the product is tainted. -/
abbrev ApplyTok := List Nat × Nat × List Bool

/-- The second read of one unit (09 R214, R218; 08 R186): for each head 512 sums in FP32, each with whether it is tainted. `pairs` are
the M and b of each head. A tainted row of another head of the page may share a segment of the vector buffer with this head's weights:
whether it does is free. -/
def State.applyUnit (s : State) (x : Pass) (slot k c b : Nat) (tc : Int) (pairs : List Nat) :
    State × UnitPart × Flags × Option Nat :=
  let r := ((s.unitPages x k c b).zipIdx).foldl
    (fun (acc : State × List (List ApplyTok) × Flags × Option Nat) pj =>
      let t := acc.1.pageTokens x k c b pj.1
      let rows := (List.range x.heads).foldl
        (fun (a : State × List (List (Nat × Bool))) h =>
          let u := a.1.unitRead k c b (a.1.scoreRow k slot pj.2 h) 128
          (u.1, a.2 ++ [fp16s u.2])) (t.1, [])
      let rowBad := rows.2.any fun r => r.any Prod.snd
      let per := (List.range x.heads).map fun h =>
        let pr := pairs.getD h 0
        let row := rows.2.getD h []
        t.2.map fun e =>
          let v := row.getD e.1 (0, false)
          let w := expCode v.1 (pr % 65536) (signedOf 16 (pr / 65536)) 0 rows.1.free (64 * h + e.1)
          let wBad := v.2 || (rowBad && (Config.freeWord rows.1.free (4096 + h)).getLsbD 0)
          let tok : ApplyTok := (e.2.1, w.1, e.2.2.map fun y => y || wBad)
          (tok, w.2)
      let bad := t.2.any (fun e => e.2.2.any id) || rowBad
      (rows.1.draw, acc.2.1 ++ per.map (fun l => l.map Prod.fst), acc.2.2.1.or (Flags.all (per.flatMap fun l => l.map Prod.snd)),
       if bad then acc.2.2.2.orElse fun _ => some pj.1.block else acc.2.2.2))
    (s, [], .none, none)
  let heads := (List.range x.heads).map fun h =>
    let recs := ((numbered 0 r.2.1).filter fun p => p.1 % max 1 x.heads = h).flatMap fun p => p.2
    let sums := (List.range 512).map fun i =>
      let a := recs.foldl
        (fun (a : Acc × Bool) e =>
          match accGroup ([termMul (l8Term e.2.1 0) (l8Term (e.1.getD i 0) tc)].filterMap id) with
          | some g => let r := a.1.merge g; (r.1, a.2 || r.2)
          | none => a) ({}, false)
      let o := a.1.out .fp32 0 0 0
      ((o.1, recs.any fun e => e.2.2.getD i false), { o.2 with ovf := o.2.ovf || a.2 })
    let inv := recs.any fun e => e.2.1 == 0x80 || e.1.contains 0x80
    (sums.map Prod.fst, (Flags.all (sums.map Prod.snd)).or { inv := inv })
  (r.1, { k := k, unit := unitNo (c, b), heads := heads.map Prod.fst }, r.2.2.1.or (Flags.all (heads.map Prod.snd)), r.2.2.2)

/-- Unit results of a stripe in ascending unit order. -/
def insertUnit (x : UnitSum) : List UnitSum → List UnitSum
  | [] => [x]
  | y :: ys => if x.unit ≤ y.unit then x :: y :: ys else y :: insertUnit x ys
/-- Unit results of a stripe in ascending unit order. -/
def insertPart (x : UnitPart) : List UnitPart → List UnitPart
  | [] => [x]
  | y :: ys => if x.unit ≤ y.unit then x :: y :: ys else y :: insertPart x ys

/-- The stripe's pair for a head (09 R212): the maximum, and the sum scaled to it in FP32 in ascending unit order; NaN where a
unit was tainted (R218); minus infinity and 0 with no pages. -/
def stripePair (us : List UnitSum) (h draw : Nat) : Nat × Nat :=
  let hs := us.map fun u => u.heads.getD h (0xFC00, 0, false)
  if hs.any fun e => e.2.2 then (Fmt.canonNaN .fp32, Fmt.canonNaN .fp32)
  else
    let m16 := ((hs.map Prod.fst).foldl maxSkip none).getD 0xFC00
    let wide (c : Nat) : Nat := (toFp .fp32 .rne false 0 (fpVal .fp16 c)).1
    let m := wide m16
    let l := (numbered 0 hs).foldl
      (fun acc p =>
        if p.2.2.1 = 0 then acc
        else
          let d := (fpAdd .fp32 (wide p.2.1) (fpNeg .fp32 m)).1
          let e := (sfuLane .exp draw (256 * h + p.1) d 0).1
          (fpAdd .fp32 acc (fpMul .fp32 p.2.2.1 e).1).1) 0
    (m, l)

/-- The stripe's partial for a head (09 R214): the units' sums added in FP32 in ascending unit order, NaN where tainted. -/
def stripePartial (us : List UnitPart) (h : Nat) : List Nat :=
  let hs := us.map fun u => u.heads.getD h []
  (List.range 512).map fun i =>
    let vs := hs.map fun e => e.getD i (0, false)
    if vs.any Prod.snd then Fmt.canonNaN .fp32 else vs.foldl (fun acc e => (fpAdd .fp32 acc e.1).1) 0


end Sys2Proof.Machine
end

