-- ==== Sys2Proof/Machine/AttCmds.lean ====
section
/-! DEFINITION. The ATT command: acceptance at the home walker, the order of each sequence, the checks of Table ATT-2, the edits, and
a pass from its SCORE to its close (09 R205 to R218). -/

namespace Sys2Proof.Machine

/-! ### Fields -/

/-- AOP (09 R205). -/
def Cmd.aop (c : Cmd) : Nat := bitsOf (wordOf c 1) 60 4
/-- LAYER. -/
def Cmd.layer (c : Cmd) : Nat := bitsOf (wordOf c 1) 52 8
/-- SEQ. -/
def Cmd.seq (c : Cmd) : Nat := bitsOf (wordOf c 1) 36 16
/-- PASS. -/
def Cmd.slot (c : Cmd) : Nat := bitsOf (wordOf c 1) 30 6
/-- N. -/
def Cmd.n (c : Cmd) : Nat := wordOf c 2 >>> 32
/-- ARG. -/
def Cmd.arg (c : Cmd) : Nat := wordOf c 2 % 2 ^ 32
/-- ARG2. -/
def Cmd.arg2 (c : Cmd) : Nat := wordOf c 3

/-- Whether a body is legal before any context is looked at (09 R205): AOP in Table ATT-1, no zero LAYERS, CAP or count where the
operation needs one, CAP at most 65,536. -/
def attLegal (c : Cmd) : Bool :=
  match c.aop with
  | 1 | 4 | 5 => c.n != 0
  | 2 => c.arg % 256 != 0 && c.n != 0 && decide (c.n ≤ 65536)
  | 3 | 6 | 8 | 9 | 10 => true
  | _ => false

/-- The sequences in whose orders a command stands (09 R207). -/
def attSeqs (c : Cmd) : List Nat :=
  match c.aop with
  | 1 | 9 | 10 => []
  | 5 => [c.seq, c.arg2 % 65536]
  | _ => [c.seq]

/-- The sequences in whose orders an item stands: a command's, or those a paged translation names (09 R207). -/
def AttItem.seqs (i : AttItem) : List Nat :=
  match i.trans with
  | some t => t.2
  | none => attSeqs i.cmd

/-- The home walker of a command of partition `p` (09 R202): of its sequence, of its pass's sequence, or the pool's reservoir. -/
def State.attHome (s : State) (p : Nat) (c : Cmd) : Nat :=
  match c.aop with
  | 1 => c.arg % 8
  | 9 | 10 => (s.pass p c.slot).seq % 8
  | _ => c.seq % 8

/-- Commands of a partition a home walker has accepted and not completed (09 R206). -/
def State.attHeld (s : State) (p home : Nat) : Nat :=
  (s.att.filter fun i => i.trans == none && i.part == p && s.attHome p i.cmd == home).length +
    (s.passes.filter fun e => e.1 / 64 == p && e.2.cmd.isSome && e.2.seq % 8 == home).length

/-! ### Acceptance -/

/-- The number of heads of a query descriptor, if its shape is that of 09 R212. -/
def queryHeads (d : Desc) : Option Nat :=
  if d.ndim = 1 ∧ d.fmt = some .l8 ∧ d.ext 0 % 512 = 0 ∧ d.ext 0 / 512 ≤ 32 then some (d.ext 0 / 512) else none

/-- The handle of the first descriptor of a SCORE whose shape is wrong (09 R212). -/
def scoreShape (c : Cmd) (ha hb : Desc) : Option Nat :=
  match queryHeads ha with
  | none => some (bitsOf (wordOf c 1) 0 12)
  | some h =>
    if hb.ndim = 2 ∧ hb.fmt = some .fp32 ∧ hb.ext 0 = 2 * h ∧ hb.ext 1 = 8 then none else some (bitsOf (wordOf c 1) 12 12)

/-- The handle of the first descriptor of an APPLY whose shape is wrong for a pass of `h` heads (09 R213, R214). -/
def applyShape (c : Cmd) (h : Nat) (ha hb : Desc) : Option Nat :=
  if ¬(ha.ndim = 1 ∧ ha.fmt = some .fp32 ∧ ha.ext 0 = h) then some (bitsOf (wordOf c 1) 0 12)
  else if hb.ndim = 3 ∧ (hb.fmt = some .fp32 ∨ hb.fmt = some .fp16) ∧ hb.ext 0 = 512 ∧ hb.ext 1 = h ∧ hb.ext 2 = 8 then none
  else some (bitsOf (wordOf c 1) 12 12)

/-- An ATT command at issue (05 R104, R108, R125; 09 R205, R206): an illegal body halts the queue whichever row meets it; SCORE and
APPLY need the licence and every stripe's reservoir, and read their descriptors; a home walker with 64 commands of the partition holds the queue. -/
def cmdAtt (aop : Nat) (s : State) (n q : Nat) (c : Cmd) : State :=
  if !attLegal c then s.refuseCmd n q c cQueBadCommand 0
  else if c.aop ≠ aop then s
  else
    let reads := aop == 8 || aop == 9
    if reads && (!s.licCompute || (List.range 8).any s.rsvFused) then
      s.refuseCmd n q c cQueEngineAbsent
        (match (List.range 8).find? s.rsvFused with | some k => Config.engineDetail k false | none => Config.engineDetail (c.seq % 8) true).toNat
    else if !s.gateOpen n then s.waitEngine n q
    else
      match s.partOf n with
      | none => s.refuseCmd n q c cNetPartDenied 0
      | some p =>
        if 64 ≤ s.attHeld p (s.attHome p c) then s.waitEngine n q
        else
          let hs := if reads then [(bitsOf (wordOf c 1) 0 12, [0]), (bitsOf (wordOf c 1) 12 12, [0])] else []
          let r := s.useDescs n hs
          match r.2.2 with
          | some (.fault code det) => r.1.refuseCmd n q c code det
          | some _ => r.1
          | none =>
            let s := r.1
            let item : AttItem :=
              { core := n, queue := q, idx := (s.queue n q).ptr.toNat, part := p, cmd := c,
                ha := r.2.1.getD 0 0, hb := r.2.1.getD 1 0 }
            let s := s.launchCmd n q c
            { s with att := s.att ++ [item] }

/-! ### The end of a pass -/

/-- The launch of a pass read in a stripe. -/
def State.passLaunch (s : State) (p slot k : Nat) : Option (Nat × Launch) :=
  s.launches.findSome? fun e => match e.2 with
    | some l => if (l.kind = .score p slot ∨ l.kind = .apply p slot) ∧ l.rsvMask.toNat.testBit k then some (e.1, l) else none
    | none => none

/-- A launch whose channels are all back in memory mode is forgotten. -/
def State.dropIfDone (s : State) (n : Nat) : State :=
  match s.launch n with
  | some l => if l.left = [] then { s with launches := Map.set none s.launches n none } else s
  | none => s

/-- Every launch of a pass stops (08 R197; 09 R217). -/
def State.stopPass (s : State) (p slot code : Nat) : State :=
  (Map.keys s.launches).foldl
    (fun s n => match s.launch n with
      | some l => if l.kind = .score p slot ∨ l.kind = .apply p slot then (s.stopLaunch n (some (code, 0))).dropIfDone n else s
      | none => s) s

/-- A pass closes: its pins are released, OPEN_PASSES falls, the slot takes its new state (09 R210, R217). -/
def State.closePass (s : State) (p slot : Nat) (st : PassSt) : State :=
  let x := s.pass p slot
  let s := s.dropAccs fun w => match w with | .pass a b _ | .passOut a b _ => a == p && b == slot | _ => false
  let s := x.pages.foldl (fun s g => s.count g.k g.frame PFrame.unpin) s
  let c := s.seqAt x.seq
  let s := if c.openPasses = 0 then s else s.setSeq x.seq { c with openPasses := c.openPasses - 1 }
  s.setPass p slot { st := st, seq := if st = .free then 0 else x.seq }

/-- A SCORE or APPLY in progress faults and its pass closes (09 R218). -/
def State.failPass (s : State) (p slot code detail : Nat) (st : PassSt := .free) : State :=
  let x := s.pass p slot
  let s := (s.stopPass p slot code).closePass p slot st
  match x.cmd with
  | some (n, q, i) => s.faultCmd n q i { code := code, detail := detail }
  | none => s

/-! ### The operations at the head of their order -/

/-- What performing a command at the head of its order comes to: it waits, or is under way. -/
inductive AttOut where
  | wait
  | going (s : State)
  | fault (code detail : Nat)
  | done (s : State)
  | opened (s : State)
  deriving DecidableEq, Repr

/-- Whether a context lies in a partition's range (09 R202). -/
def State.seqMine (s : State) (p q : Nat) : Bool :=
  let x := s.part p
  decide (x.seqBase.toNat ≤ q) && decide (q < x.seqBase.toNat + x.seqCount.toNat)

/-- POOL_ADD (09 R201, R206): frames outside the channel set are skipped; one already pooled, in the walker area or unpopulated
refuses the command. -/
def attPoolAdd (s : State) (p : Nat) (c : Cmd) : AttOut :=
  let k := c.arg % 8
  let first := c.arg2 % 2 ^ 22
  if s.rsvSize k < (first + c.n) * 32768 then .fault cAttPoolDenied 0
  else
    let fs := ((List.range c.n).map fun i => first + i).filter fun f => (s.chsetOf k p).testBit (s.rsvCh k (f * 32768))
    if fs.any fun f => (s.frame k f).isSome || s.inArea k f then .fault cAttPoolDenied 0
    else .done (fs.foldl (fun s f => s.setFrame k f (some { part := p, refs := 0, pins := 0 })) s)

/-- An edit that passed its checks waits while a pass is open on its sequence (09 R206, R208). -/
def attEdit (x : SeqCtx) (o : AttOut) : AttOut := if x.openPasses = 0 then o else .wait

/-- SEQ_OPEN (09 R202, R204): its invalid table is zeroed in the area. -/
def attOpen (s : State) (p : Nat) (c : Cmd) : AttOut :=
  let x := s.seqAt c.seq
  if !s.seqMine p c.seq then .fault cAttSeqDenied 0
  else if x.isOpen then .fault cAttSeqState 0
  else
    let n := 4 * (c.arg % 256) * c.n
    match s.tableRoom p (c.seq % 8) n with
    | none => .fault cAttAreaFull 0
    | some a => attEdit x (.done ((s.areaZero a n).setSeq c.seq
      { isOpen := true, part := BitVec.ofNat 5 p, layers := BitVec.ofNat 8 c.arg, toff := BitVec.ofNat 8 (c.arg / 256),
        openPasses := 0, len := 0, cap := BitVec.ofNat 17 c.n, tableMA := BitVec.ofNat 48 a, table := [] }))

/-- The checks every operation on an open context shares: its range, then its state. -/
def attOnOpen (s : State) (p : Nat) (c : Cmd) (f : SeqCtx → AttOut) : AttOut :=
  let x := s.seqAt c.seq
  if !s.seqMine p c.seq then .fault cAttSeqDenied 0
  else if !x.isOpen then .fault cAttSeqState 0
  else f x

/-- SEQ_CLOSE (09 R209). -/
def attClose (s : State) (p : Nat) (c : Cmd) : AttOut :=
  attOnOpen s p c fun x => attEdit x (.done ((s.dropBlocks c.seq 0 (blocksOf x.len.toNat)).setSeq c.seq {}))

/-- The copies of an APPEND's plan, and once all are done its entries and its LEN (09 R209). -/
def attCopy (s : State) (i : AttItem) (plan : List (Nat × Nat × Nat × Nat)) : AttOut :=
  let q := i.cmd.seq
  let r := s.copyPlan (.attCopy q) i.part plan
  if r.2 then
    let s := r.1.enterPlan q plan
    let x := s.seqAt q
    .done (s.setSeq q { x with len := BitVec.ofNat 32 (x.len.toNat + i.cmd.n) })
  else .going { r.1 with att := r.1.att.map fun j => if j = i then { i with plan := some plan } else j }

/-- APPEND (09 R209): all or nothing, every frame reserved before an entry changes. A context that a reset closes meanwhile (R220) is not
open any more. -/
def attAppend (s : State) (i : AttItem) : AttOut :=
  let c := i.cmd
  match i.plan with
  | some plan => if (s.seqAt c.seq).isOpen then attCopy s i plan else .fault cAttSeqState 0
  | none =>
    attOnOpen s i.part c fun x =>
      let len := x.len.toNat
      if 64 * x.cap.toNat < len + c.n then .fault cAttSeqFull 0
      else
        let b0 := len / 64
        let b1 := blocksOf (len + c.n)
        if (List.range 8).any fun k => decide ((s.freeFrames i.part k).length < s.appendNeeds c.seq b0 b1 k) then .fault cAttPoolEmpty 0
        else
          match s.reserve i.part (s.appendBlocks c.seq b0 b1) with
          | none => .fault cAttPoolEmpty 0
          | some (t, plan) => attEdit x (attCopy t i plan)

/-- SHARE (09 R209). -/
def attShare (s : State) (p : Nat) (c : Cmd) : AttOut :=
  let src := c.arg2 % 65536
  attOnOpen s p c fun x =>
    let y := s.seqAt src
    if !s.seqMine p src then .fault cAttSeqDenied 0
    else if !y.isOpen ∨ x.len ≠ 0 ∨ x.layers ≠ y.layers ∨ x.toff ≠ y.toff ∨ y.len.toNat < c.n then .fault cAttSeqState 0
    else if 64 * x.cap.toNat < c.n then .fault cAttSeqFull 0
    else
      let lb := (List.range x.layers.toNat).flatMap fun l => (List.range (blocksOf c.n)).map fun b => (l, b)
      let pages := lb.filterMap fun e => (y.page e.1 e.2).map fun f => (e.1, e.2, f)
      if pages.any fun e => match s.frame (e.2.1 % 8) e.2.2 with | some g => decide (65535 ≤ g.refs) | none => false then
        .fault cAttRefOverflow 0
      else
        let s := pages.foldl (fun s e => (s.count (e.2.1 % 8) e.2.2 PFrame.ref).setEntry c.seq e.1 e.2.1 (some e.2.2)) s
        attEdit x (.done (s.setSeq c.seq { s.seqAt c.seq with len := BitVec.ofNat 32 c.n }))

/-- TRUNCATE (09 R209). -/
def attTruncate (s : State) (p : Nat) (c : Cmd) : AttOut :=
  attOnOpen s p c fun x =>
    if x.len.toNat < c.n then .fault cAttSeqState 0
    else
      let s := s.dropBlocks c.seq (blocksOf c.n) (blocksOf x.len.toNat)
      attEdit x (.done (s.setSeq c.seq { s.seqAt c.seq with len := BitVec.ofNat 32 c.n }))

/-- SCORE at the head of its order (09 R206, R208, R212, R217): the pass opens, its pages are pinned. -/
def attScore (s : State) (i : AttItem) : AttOut :=
  let c := i.cmd
  let p := i.part
  attOnOpen s p c fun x =>
    let slot := c.slot
    let y := s.pass p slot
    if x.layers.toNat ≤ c.layer then .fault cQueBadCommand 0
    else if x.len.toNat < c.arg then .fault cAttSeqState 0
    else if (s.part p).passSlots.toNat ≤ slot then .fault cQueBadCommand 0
    else if y.st = .opened then .fault cAttPassBusy 0
    else
      match scoreShape c i.ha i.hb with
      | some h => .fault cQueDescShape h
      | none =>
        let bs := (List.range (blocksOf x.len.toNat)).filter fun b => decide (c.arg < 64 * b + 64)
        let pages := bs.filterMap fun b => (x.page c.layer b).map fun f => ({ block := b, k := b % 8, frame := f } : PassPage)
        let z : Pass :=
          { st := .opened, owner := some (i.core, i.queue), seq := c.seq, layer := c.layer, first := c.arg, len := x.len.toNat, tick := s.tick,
            heads := (queryHeads i.ha).getD 0, pages := if c.arg < x.len.toNat then pages else [], read := 1,
            cmd := some (i.core, i.queue, i.idx), ha := i.ha, hb := i.hb }
        let full := z.pages.any fun g => decide (32 < (s.unitPages z g.k (s.frameUnit g.k g.frame).1 (s.frameUnit g.k g.frame).2).length)
        if full then .fault cAttPassTooLong 0
        else
          let s := z.pages.foldl (fun s g => s.count g.k g.frame PFrame.pin) s
          let s := s.setSeq c.seq { x with openPasses := x.openPasses + 1 }
          let v := s.rsv (c.seq % 8)
          .opened ((s.setRsv (c.seq % 8) { v with passes := v.passes + 1 }).setPass p slot z)

/-- APPLY (09 R206, R216): refused on a slot that is free or expired, it waits until the SCORE of its pass has completed. -/
def attApply (s : State) (i : AttItem) : AttOut :=
  let slot := i.cmd.slot
  let y := s.pass i.part slot
  if (s.part i.part).passSlots.toNat ≤ slot then .fault cQueBadCommand 0
  else
    match y.st with
    | .free => .fault cAttPassState 0
    | .expired => .fault cAttPassExpired 0
    | .opened =>
      match applyShape i.cmd y.heads i.ha i.hb with
      | some h => .fault cQueDescShape h
      | none =>
        if y.read = 3 then .fault cAttPassState 0
        else if y.read ≠ 2 then .wait
        else .opened (s.setPass i.part slot { y with read := 3, cmd := some (i.core, i.queue, i.idx), ha := i.ha, hb := i.hb,
                                                     launched := 0, done := 0, poison := none })

/-- ABORT (09 R217): an open pass closes, a read in progress on it stopping; an expired slot turns free at once. -/
def attAbort (s : State) (i : AttItem) : AttOut :=
  let slot := i.cmd.slot
  if (s.part i.part).passSlots.toNat ≤ slot then .fault cQueBadCommand 0
  else
    match (s.pass i.part slot).st with
    | .free => .fault cAttPassState 0
    | .expired => .done (s.setPass i.part slot {})
    | .opened => .done (s.failPass i.part slot cAttPassState 0)

/-- An accepted command performed. -/
def attPerform (s : State) (i : AttItem) : AttOut :=
  match i.cmd.aop with
  | 1 => attPoolAdd s i.part i.cmd
  | 2 => attOpen s i.part i.cmd
  | 3 => attClose s i.part i.cmd
  | 4 => attAppend s i
  | 5 => attShare s i.part i.cmd
  | 6 => attTruncate s i.part i.cmd
  | 8 => attScore s i
  | 9 => attApply s i
  | _ => attAbort s i

/-- Whether an item stands at the head of every order it is in (09 R207). -/
def attAtHead (l : List AttItem) (i : AttItem) : Bool :=
  (l.takeWhile fun j => decide (j ≠ i)).all fun j => j.seqs.all fun q => !i.seqs.contains q

/-- An item taken out of the orders without having been performed: pages it has reserved are given back. -/
def State.dropAtt (s : State) (i : AttItem) : State :=
  match i.plan with
  | none => { s with att := s.att.erase i }
  | some plan => (({ s with att := s.att.erase i } : State).dropPlan plan).dropAcc (.attCopy i.cmd.seq)

/-- The first of some items that comes to its end, what is under way on those before it being kept (09 R207, R209): the state with it taken
out, and its completion or fault made. -/
def attFirst (s : State) (n q : Nat) : List AttItem → State
  | [] => s
  | i :: is =>
    match attPerform s i with
    | .wait => attFirst s n q is
    | .going s => attFirst s n q is
    | .fault code det => (s.dropAtt i).faultCmd n q i.idx { code := code, detail := det }
    | .done s => ({ s with att := s.att.erase i } : State).completeCmd n q i.idx
    | .opened s => { s with att := s.att.erase i }

/-- A row of Table ATT-1 (09 R205 to R218). `accept` is the home walker accepting the command at the head of a queue; else the
first accepted command of that queue and operation that is at the head of its order and need not wait is checked and performed. -/
def attRow (aop : Nat) (s : State) (n q : Nat) (accept : Bool) : State :=
  if accept then s.withHead n q 4 (cmdAtt aop · n q ·)
  else
    attFirst s n q (s.att.filter fun i =>
      i.core == n && i.queue == q && i.trans == none && i.cmd.aop == aop && attAtHead s.att i)

/-! ### The reads -/

/-- PASS_LAUNCH_ORDER (09 R212, R214, R216): a stripe fetches the queries or pairs once and orders the read's launch on every
channel that holds a page of the pass. -/
def passLaunchOrder (s : State) (p slot k : Nat) : State :=
  let x := s.pass p slot
  if x.st ≠ .opened ∨ (x.read ≠ 1 ∧ x.read ≠ 3) ∨ x.launched.toNat.testBit k then s
  else
    let score := x.read == 1
    let r := s.track (.pass p slot k) AccRes.isWait fun s =>
      s.readMA (.pass p slot k) (rsvMaster k (some p)) x.ha.base (if score then 512 * x.heads else 4 * x.heads)
    match r.2 with
    | .wait => r.1
    | .fault code ma => r.1.failPass p slot code ma
    | .ok bs =>
      let s := r.1
      let x := { x with launched := x.launched ||| BitVec.ofNat 8 (2 ^ k) }
      let cs := (onesOf 32 (s.activeCh k)).filter fun c => x.pages.any fun g => g.k == k && (s.frameUnit k g.frame).1 == c
      if cs = [] then s.setPass p slot x
      else
        match cs.find? fun c => (s.chan k c).st != .active with
        | some _ => s.failPass p slot cRsvChannelRetired 0
        | none =>
          let mask : Word := BitVec.ofNat 32 (cs.foldl (fun m c => m + 2 ^ c) 0)
          let cmd := x.cmd.getD (0, 0, 0)
          let l : Launch :=
            { kind := if score then .score p slot else .apply p slot, core := cmd.1, queue := cmd.2.1, idx := cmd.2.2, part := p,
              image := [], chMask := mask, rsvMask := BitVec.ofNat 8 (2 ^ k), statusMA := 0, arg0 := 0, arg1 := 0,
              vecs := [(k, bs)], ordered := BitVec.ofNat 8 (2 ^ k), left := [(k, mask)], units := [], fault := none, runNs := 0,
              tainted := 0, pauses := 0, flags := {} }
          let n := s.launchNo
          let s := cs.foldl (fun s c => s.order k c (64 + p) (.launch n)) s
          let v := s.rsv k
          (({ s with launchNo := n + 1 }.setRsv k { v with launches := v.launches + 1 }).setLaunch n l).setPass p slot x

/-- The work of a pass read on one unit, its results kept for the stripe (09 R212, R214, R218). -/
def State.passUnit (s : State) (p slot k c b : Nat) (bs : List Byte) : State :=
  let x := s.pass p slot
  if s.unitPages x k c b = [] then s
  else
    let tc := signedOf 8 (s.seqAt x.seq).toff.toNat
    let note (x : Pass) (bad : Option Nat) : Option Nat := x.poison.orElse fun _ => bad.map fun blk => k + blk * 2 ^ 16
    let raise (s : State) (f : Flags) : State := let v := s.rsv k; s.setRsv k { v with bnkFlags := v.bnkFlags.or f }
    if x.read = 1 then
      let r := s.scoreUnit x slot k c b x.ha.toff tc bs
      (raise r.1 r.2.2.1).setPass p slot { x with sums := insertUnit r.2.1 x.sums, poison := note x r.2.2.2 }
    else
      let pairs := (List.range x.heads).map fun h => leNat ((bs.drop (4 * h)).take 4)
      let r := s.applyUnit x slot k c b tc pairs
      (raise r.1 r.2.2.1).setPass p slot { x with parts := insertPart r.2.1 x.parts, poison := note x r.2.2.2 }

/-- CHANNEL_PROGRAM_END (07 R164; 08 R193, R198; 09 R216): all units of a channel have ended, and it returns to memory mode. A unit
of a pass read ends with its occupancy, within the budget; its work is done by then. -/
def channelProgramEnd (s : State) (k c : Nat) : State :=
  match (s.chan k c).current with
  | some (.launch n) =>
    match s.launch n with
    | none => s
    | some l =>
      let late := decide ((s.rsv k).budgetUs.toNat * 1000 < l.chanNs k c)
      let ended (s : State) (l : Launch) : State := s.endChannel k c n l
      let pass (p slot : Nat) : State :=
        match l.fault with
        | some f =>
          let s := ended s l
          let gone := match s.launch n with | some l => l.left == [] | none => false
          let s := s.dropIfDone n
          if gone && (s.pass p slot).st == .opened && (s.pass p slot).cmd == some (l.core, l.queue, l.idx) then
            s.failPass p slot f.1 f.2
          else s
        | none =>
          if late then s
          else
            let bs := ((l.vecs.find? fun v => v.1 = k).map Prod.snd).getD []
            ended ((List.range 8).foldl (fun s b => s.passUnit p slot k c b bs) s) l
      match l.kind with
      | .bank => if l.chanEnded k c then ended s l else s
      | .score p slot => pass p slot
      | .apply p slot => pass p slot
  | _ => s

/-- The writes of a stripe's outputs (09 R212, R214): addresses and bytes. -/
def passOutputs (s : State) (x : Pass) (k : Nat) : List (Nat × List Byte) × Flags :=
  let at_ (o : Int) : Nat := ((x.hb.base : Int) + o).toNat
  if x.read = 1 then
    let us := x.sums.filter fun u => u.k = k
    ([(at_ (k * x.hb.stride 1), (List.range x.heads).flatMap fun h =>
        let p := stripePair us h s.free
        let m := if us = [] then 0xFF800000 else p.1
        leBytes 4 m ++ leBytes 4 (if us = [] then 0 else p.2))], .none)
  else
    let us := x.parts.filter fun u => u.k = k
    let rows := (List.range x.heads).map fun h =>
      let v := stripePartial us h
      let f16 := x.hb.fmt == some .fp16
      let cs := v.map fun w => if f16 then toFp .fp16 .rne false 0 (fpVal .fp32 w) else (w, Flags.none)
      ((at_ (h * x.hb.stride 1 + k * x.hb.stride 2), cs.flatMap fun e => leBytes (if f16 then 2 else 4) e.1), Flags.all (cs.map Prod.snd))
    (rows.map Prod.fst, Flags.all (rows.map Prod.snd))

/-- The outcome of two accesses of one command: a wait before a fault, and of two faults the first. -/
def AccRes.both : AccRes → AccRes → AccRes
  | .wait, _ | _, .wait => .wait
  | .ok _, o => o
  | o, _ => o

/-- Every write of a list, as requests of one access. -/
def State.writeAll (s : State) (w : Who) (m : Master) (ws : List (Nat × List Byte)) : State × AccRes :=
  ws.foldl (fun (acc : State × AccRes) x => let r := acc.1.writeMA w m x.1 x.2; (r.1, acc.2.both r.2)) (s, .ok [])

/-- PASS_READ_END (09 R212, R214, R216, R218): the stripe's launch has ended; its outputs are written. After the last stripe the
SCORE completes, or the pass closes and the APPLY completes; poison faults the command once every output is written. -/
def passReadEnd (s : State) (p slot k : Nat) : State :=
  let x := s.pass p slot
  let going : Bool := match s.passLaunch p slot k with
    | some (_, l) => !(l.left == []) || l.fault.isSome
    | none => false
  if x.st ≠ .opened ∨ (x.read ≠ 1 ∧ x.read ≠ 3) ∨ !x.launched.toNat.testBit k ∨ x.done.toNat.testBit k = true ∨ going = true then s
  else
    let o := passOutputs s x k
    let r := s.track (.passOut p slot k) AccRes.isWait fun s => s.writeAll (.passOut p slot k) (rsvMaster k (some p)) o.1
    match r.2 with
    | .wait => r.1
    | .fault code ma => r.1.failPass p slot code ma
    | .ok _ =>
      let s := match r.1.passLaunch p slot k with | some (n, _) => r.1.dropIfDone n | none => r.1
      let v := s.rsv k
      let s := (s.setRsv k { v with bnkFlags := v.bnkFlags.or o.2 }).draw
      let x := { x with done := x.done ||| BitVec.ofNat 8 (2 ^ k) }
      let s := s.setPass p slot x
      if x.done.toNat ≠ 255 then s
      else
        match x.poison, x.cmd with
        | some d, _ => s.failPass p slot cAttPagePoisoned (d + x.layer * 2 ^ 8)
        | none, some (n, q, i) =>
          if x.read = 1 then (s.setPass p slot { x with read := 2, cmd := none, launched := 0, done := 0 }).completeCmd n q i
          else (s.closePass p slot .free).completeCmd n q i
        | none, none => s

/-- ATT_PASS_EXPIRED (09 R217): a pass still open LIMIT_TICKS after it opened. -/
def passExpired (s : State) (p slot : Nat) : State :=
  let x := s.pass p slot
  let home := x.seq % 8
  if x.st ≠ .opened ∨ !s.reached (x.tick + max 1 (s.rsv home).passLimit.toNat) then s
  else
    let v := s.rsv home
    let s := s.setRsv home { v with expired := satAdd v.expired 1 }
    let s := s.failPass p slot cAttPassExpired 0 .expired
    s.postEv (5 + home) cAttPassExpired (some p) [slot + x.seq * 2 ^ 16, 0, 0, 0]

end Sys2Proof.Machine
end

