-- ==== Sys2Proof/Machine/AttRows.lean ====
section
/-! DEFINITION. The commands of attention (09): one meaning for each row. -/

namespace Sys2Proof.Machine

/-- POOL_ADD (09 R201). -/
def execPoolAdd (core : CoreId) (q : QueueId) (accept : Bool) (s : State) : Host.Outcome State Fault Refusal :=
  .next (attRow 1 s core.toNat q.toNat accept)

/-- SEQ_OPEN (09 R202). -/
def execSeqOpen (core : CoreId) (q : QueueId) (accept : Bool) (s : State) : Host.Outcome State Fault Refusal :=
  .next (attRow 2 s core.toNat q.toNat accept)

/-- SEQ_CLOSE (09 R209). -/
def execSeqClose (core : CoreId) (q : QueueId) (accept : Bool) (s : State) : Host.Outcome State Fault Refusal :=
  .next (attRow 3 s core.toNat q.toNat accept)

/-- APPEND (09 R209). -/
def execAppend (core : CoreId) (q : QueueId) (accept : Bool) (s : State) : Host.Outcome State Fault Refusal :=
  .next (attRow 4 s core.toNat q.toNat accept)

/-- SHARE (09 R209). -/
def execShare (core : CoreId) (q : QueueId) (accept : Bool) (s : State) : Host.Outcome State Fault Refusal :=
  .next (attRow 5 s core.toNat q.toNat accept)

/-- TRUNCATE (09 R209). -/
def execTruncate (core : CoreId) (q : QueueId) (accept : Bool) (s : State) : Host.Outcome State Fault Refusal :=
  .next (attRow 6 s core.toNat q.toNat accept)

/-- SCORE (09 R212). -/
def execScore (core : CoreId) (q : QueueId) (accept : Bool) (s : State) : Host.Outcome State Fault Refusal :=
  .next (attRow 8 s core.toNat q.toNat accept)

/-- APPLY (09 R214). -/
def execApply (core : CoreId) (q : QueueId) (accept : Bool) (s : State) : Host.Outcome State Fault Refusal :=
  .next (attRow 9 s core.toNat q.toNat accept)

/-- ABORT (09 R217). -/
def execAbortPass (core : CoreId) (q : QueueId) (accept : Bool) (s : State) : Host.Outcome State Fault Refusal :=
  .next (attRow 10 s core.toNat q.toNat accept)

/-- PASS_LAUNCH_ORDER (09 R216). -/
def execPassLaunchOrder (part : BitVec 5) (slot : BitVec 6) (stripe : BitVec 3) (s : State) : Host.Outcome State Fault Refusal :=
  .next (passLaunchOrder s part.toNat slot.toNat stripe.toNat)

/-- PASS_READ_END (09 R216). -/
def execPassReadEnd (part : BitVec 5) (slot : BitVec 6) (stripe : BitVec 3) (s : State) : Host.Outcome State Fault Refusal :=
  .next (passReadEnd s part.toNat slot.toNat stripe.toNat)

/-- ATT_PASS_EXPIRED (09 R217). -/
def execAttPassExpired (part : BitVec 5) (slot : BitVec 6) (s : State) : Host.Outcome State Fault Refusal :=
  .next (passExpired s part.toNat slot.toNat)

end Sys2Proof.Machine
end

