-- ==== Sys2Proof/Machine/BankRows.lean ====
section
/-! DEFINITION. The commands of the reservoirs' bank programs (07, 08): one meaning for each row. A unit's instruction row issues the next
instruction of the program the unit runs, where it is that instruction. -/

namespace Sys2Proof.Machine

/-- BANK (08 R191). -/
def execBank (core : CoreId) (q : QueueId) (s : State) : Host.Outcome State Fault Refusal :=
  .next (s.withHead core.toNat q.toNat 3 fun s c => cmdBank s core.toNat q.toNat c)

/-- BANK_LAUNCH_ORDER (08 R192). -/
def execBankLaunchOrder (rsv : BitVec 3) (n : Nat) (s : State) : Host.Outcome State Fault Refusal :=
  .next (launchOrder s rsv.toNat n)

/-- CHANNEL_SWITCH (07 R162). -/
def execChannelSwitch (rsv : BitVec 3) (ch : BitVec 5) (s : State) : Host.Outcome State Fault Refusal :=
  .next (channelSwitch s rsv.toNat ch.toNat)

/-- BNK_MOVI (08 R181). -/
def execBnkMovi (rsv : BitVec 3) (ch : BitVec 5) (bg : BitVec 3) (s : State) : Host.Outcome State Fault Refusal :=
  .next (bankInstr 1 s rsv.toNat ch.toNat bg.toNat)

/-- BNK_ADDI (08 R181). -/
def execBnkAddi (rsv : BitVec 3) (ch : BitVec 5) (bg : BitVec 3) (s : State) : Host.Outcome State Fault Refusal :=
  .next (bankInstr 2 s rsv.toNat ch.toNat bg.toNat)

/-- BNK_ADD (08 R181). -/
def execBnkAdd (rsv : BitVec 3) (ch : BitVec 5) (bg : BitVec 3) (s : State) : Host.Outcome State Fault Refusal :=
  .next (bankInstr 3 s rsv.toNat ch.toNat bg.toNat)

/-- BNK_SUB (08 R181). -/
def execBnkSub (rsv : BitVec 3) (ch : BitVec 5) (bg : BitVec 3) (s : State) : Host.Outcome State Fault Refusal :=
  .next (bankInstr 4 s rsv.toNat ch.toNat bg.toNat)

/-- BNK_LOOP (08 R181). -/
def execBnkLoop (rsv : BitVec 3) (ch : BitVec 5) (bg : BitVec 3) (s : State) : Host.Outcome State Fault Refusal :=
  .next (bankInstr 5 s rsv.toNat ch.toNat bg.toNat)

/-- BNK_END (08 R187). -/
def execBnkEnd (rsv : BitVec 3) (ch : BitVec 5) (bg : BitVec 3) (s : State) : Host.Outcome State Fault Refusal :=
  .next (bankInstr 6 s rsv.toNat ch.toNat bg.toNat)

/-- BNK_CLR (08 R181). -/
def execBnkClr (rsv : BitVec 3) (ch : BitVec 5) (bg : BitVec 3) (s : State) : Host.Outcome State Fault Refusal :=
  .next (bankInstr 8 s rsv.toNat ch.toNat bg.toNat)

/-- BNK_MAC (08 R182). -/
def execBnkMac (rsv : BitVec 3) (ch : BitVec 5) (bg : BitVec 3) (s : State) : Host.Outcome State Fault Refusal :=
  .next (bankInstr 16 s rsv.toNat ch.toNat bg.toNat)

/-- BNK_MACT (08 R182). -/
def execBnkMact (rsv : BitVec 3) (ch : BitVec 5) (bg : BitVec 3) (s : State) : Host.Outcome State Fault Refusal :=
  .next (bankInstr 17 s rsv.toNat ch.toNat bg.toNat)

/-- BNK_SMAX (08 R183). -/
def execBnkSmax (rsv : BitVec 3) (ch : BitVec 5) (bg : BitVec 3) (s : State) : Host.Outcome State Fault Refusal :=
  .next (bankInstr 18 s rsv.toNat ch.toNat bg.toNat)

/-- BNK_EXPL (08 R183). -/
def execBnkExpl (rsv : BitVec 3) (ch : BitVec 5) (bg : BitVec 3) (s : State) : Host.Outcome State Fault Refusal :=
  .next (bankInstr 19 s rsv.toNat ch.toNat bg.toNat)

/-- BNK_ST (08 R184). -/
def execBnkSt (rsv : BitVec 3) (ch : BitVec 5) (bg : BitVec 3) (s : State) : Host.Outcome State Fault Refusal :=
  .next (bankInstr 24 s rsv.toNat ch.toNat bg.toNat)

/-- BNK_LVB (08 R184). -/
def execBnkLvb (rsv : BitVec 3) (ch : BitVec 5) (bg : BitVec 3) (s : State) : Host.Outcome State Fault Refusal :=
  .next (bankInstr 25 s rsv.toNat ch.toNat bg.toNat)

/-- RSV_BANK_BUDGET (08 R195). -/
def execRsvBankBudget (rsv : BitVec 3) (ch : BitVec 5) (s : State) : Host.Outcome State Fault Refusal :=
  .next (bankBudget s rsv.toNat ch.toNat)

/-- CHANNEL_PROGRAM_END (07 R164). -/
def execChannelProgramEnd (rsv : BitVec 3) (ch : BitVec 5) (s : State) : Host.Outcome State Fault Refusal :=
  .next (channelProgramEnd s rsv.toNat ch.toNat)

/-- BANK_COMPLETE (08 R193). -/
def execBankComplete (n : Nat) (s : State) : Host.Outcome State Fault Refusal :=
  .next (bankComplete s n)

end Sys2Proof.Machine
end

