-- ==== Sys2Proof/Machine/Dma.lean ====
section
/-! DEFINITION. The DMA engine of a core: the four modes, their checks, the movement of data, paged translation and completion
(05 R102, R104, R112 to R118; 09 R211). -/

namespace Sys2Proof.Machine

/-! ### Rows of elements -/

/-- Rows per outermost index: the product of the extents between dimension 0 and the outermost (05 R112). -/
def Desc.inner (d : Desc) : Nat := ((List.range (d.ndim - 2)).map fun i => d.ext (i + 1)).foldl (· * ·) 1

/-- The byte offset of row `r` from the base: its indices in dimensions 1 upward, dimension 1 fastest, by the strides
(05 R112). -/
def Desc.rowOff (d : Desc) (r : Nat) : Int :=
  ((List.range (d.ndim - 1)).foldl
    (fun (a : Int × Nat) i => (a.1 + ((a.2 % d.ext (i + 1) : Nat) : Int) * d.stride (i + 1), a.2 / d.ext (i + 1))) (0, r)).1

/-- Where a row of a plain tensor lies: the address of its element 0 and of its first block byte (05 R112). -/
def Desc.rowAt (d : Desc) (adj : Int) (r : Nat) : Int × Nat :=
  ((d.base : Int) + adj + d.rowOff r, d.plane + r * (d.ext 0 / 32))

/-- An address held to the 48 bits of the module's address space. -/
def ma48 (x : Int) : Nat := wrapTo 48 x

/-- What reading or writing a row comes to. -/
inductive RowRes where
  | ok (codes blocks : List Nat)
  | fault (code ma : Nat)
  | wait
  deriving DecidableEq, Repr

/-- Elements `x0` to `x0 + n - 1` of a row read as codes, with the block bytes they need (05 R112; 02 R30). -/
def State.readRow (s : State) (m : Master) (f : Fmt) (at_ : Int × Nat) (x0 n : Nat) (w : Who) : State × RowRes :=
  let lo := x0 * f.bits / 8
  let hi := ((x0 + n) * f.bits + 7) / 8
  let r := s.readMA w m (ma48 (at_.1 + lo)) (hi - lo)
  match r.2 with
  | .fault c a => (r.1, .fault c a)
  | .wait => (r.1, .wait)
  | .ok bs =>
    let x := leNat bs
    let codes := (List.range n).map fun i => (x >>> ((x0 + i) * f.bits - 8 * lo)) % 2 ^ f.bits
    if f.isBlock then
      let b0 := x0 / 32
      let p := r.1.readMA w m (ma48 ((at_.2 + b0 : Nat) : Int)) ((x0 + n + 31) / 32 - b0)
      match p.2 with
      | .fault c a => (p.1, .fault c a)
      | .wait => (p.1, .wait)
      | .ok ps => (p.1, .ok codes (ps.map BitVec.toNat))
    else (r.1, .ok codes [])

/-- Elements from `x0` on written as codes with their block bytes. A byte of which only one nibble is written keeps the other. -/
def State.writeRow (s : State) (m : Master) (f : Fmt) (at_ : Int × Nat) (x0 : Nat) (codes blocks : List Nat) (who : Who) :
    State × RowRes :=
  let n := codes.length
  let lo := x0 * f.bits / 8
  let hi := ((x0 + n) * f.bits + 7) / 8
  let ma := ma48 (at_.1 + lo)
  let headCut := decide (f.bits = 4) && x0 % 2 == 1
  let tailCut := decide (f.bits = 4) && (x0 + n) % 2 == 1
  let keep (s : State) (a : Nat) : State × AccRes := s.readMA who m a 1
  let h := if headCut then keep s ma else (s, .ok [0])
  let t := if tailCut then keep h.1 (ma48 (at_.1 + hi - 1)) else (h.1, .ok [0])
  match h.2, t.2 with
  | .ok hb, .ok tb =>
    let first := if headCut then (leNat hb) % 16 else 0
    let last := if tailCut then (leNat tb) / 16 * 16 else 0
    let x := codes.foldr (fun c acc => c % 2 ^ f.bits + 2 ^ f.bits * acc) 0
    let x := (if headCut then first + 16 * x else x) + last * 256 ^ (hi - lo - 1)
    let w := t.1.writeMA who m ma (leBytes (hi - lo) x)
    match w.2 with
    | .fault c a => (w.1, .fault c a)
    | .wait => (w.1, .wait)
    | .ok _ =>
      if f.isBlock then
        let p := w.1.writeMA who m (ma48 ((at_.2 + x0 / 32 : Nat) : Int)) (blocks.map (BitVec.ofNat 8))
        match p.2 with
        | .fault c a => (p.1, .fault c a)
        | .wait => (p.1, .wait)
        | .ok _ => (p.1, .ok [] [])
      else (w.1, .ok [] [])
  | .fault c a, _ => (t.1, .fault c a)
  | _, .fault c a => (t.1, .fault c a)
  | _, _ => (t.1, .wait)

/-! ### The command's fields -/

/-- MODE. -/
def Cmd.dmode (c : Cmd) : Nat := bitsOf (wordOf c 1) 24 4
/-- RND. -/
def Cmd.drnd (c : Cmd) : Rnd := match bitsOf (wordOf c 1) 28 2 with | 1 => .rtz | 2 => .stoch | _ => .rne
/-- SAT. -/
def Cmd.dsat (c : Cmd) : Bool := (wordOf c 1).testBit 30
/-- OUTER_COUNT. -/
def Cmd.ocount (c : Cmd) : Nat := wordOf c 2 % 2 ^ 32
/-- SRC_ADJ. -/
def Cmd.sadj (c : Cmd) : Int := signedOf 32 (wordOf c 2 >>> 32)
/-- DST_ADJ. -/
def Cmd.dadj (c : Cmd) : Int := signedOf 32 (wordOf c 3)
/-- FILL. -/
def Cmd.fillv (c : Cmd) : Nat := wordOf c 3 >>> 32
/-- The source handle. -/
def Cmd.dsrc (c : Cmd) : Nat := bitsOf (wordOf c 1) 0 12
/-- The destination handle. -/
def Cmd.ddst (c : Cmd) : Nat := bitsOf (wordOf c 1) 12 12

/-- The format of a checked descriptor. -/
def Desc.fm (d : Desc) : Fmt := d.fmt.getD .int8
/-- Whether a descriptor has a plane. -/
def Desc.hasPlane (d : Desc) : Bool := d.fm.isBlock
/-- The outermost dimension. -/
def Desc.outer (d : Desc) : Nat := d.ndim - 1
/-- The outer range's end for a destination (05 R114). -/
def Cmd.oend (c : Cmd) (ext : Nat) : Nat := if c.ocount = 0 then ext else c.ostart + c.ocount

/-- Whether a range splits a block of a descriptor (05 R114). -/
def splits (c : Cmd) (d : Desc) : Bool :=
  d.hasPlane && d.ndim == 1 && (c.ostart % 32 != 0 || (c.ocount % 32 != 0 && c.oend (d.ext 0) != d.ext 0))

/-- Whether a paged descriptor has the shape R211 of 09 asks for. -/
def Desc.pagedOk (d : Desc) : Bool := d.kind != 4 || (d.fm == .l8 && d.ndim == 2 && decide (d.ext 0 ≤ 512))

/-- The handle whose shape the mode does not accept, if any (05 R114, Tables QUE-3 and QUE-4). -/
def dmaShape (c : Cmd) (src dst : Desc) : Option Nat :=
  let fill := c.dmode == 3
  let outer := dst.ext dst.outer
  if !fill && (!src.pagedOk || (c.sadj != 0 && src.hasPlane)) then some c.dsrc
  else if !dst.pagedOk || (c.dadj != 0 && dst.hasPlane) then some c.ddst
  else if outer ≤ c.ostart ∨ outer < c.oend outer then some c.ddst
  else if splits c dst then some c.ddst
  else if !fill && c.dmode != 2 && splits c src then some c.dsrc
  else
    match c.dmode with
    | 0 => if src.exts = dst.exts then none else some c.ddst
    | 1 => if src.ndim = 2 ∧ src.exts = dst.exts then none else some c.ddst
    | 2 =>
      let w := src.window
      if dst.ndim = 2 ∧ dst.ext 0 = w.kw * (if w.twoD then w.kh else 1) * w.chans ∧ (!w.twoD ∨ dst.ext 1 % w.outW = 0) then none
      else some c.ddst
    | _ => none

/-- The sequences a DMA command names in paged descriptors. -/
def dmaSeqs (src dst : Desc) : List Nat := (if src.kind = 4 then [src.seq] else []) ++ (if dst.kind = 4 then [dst.seq] else [])

/-- A channel of a core. -/
def Core.dmaCh (c : Core) (i : Nat) : Option DmaCh := Map.get none c.dma i
/-- A channel replaced. -/
def State.setDma (s : State) (n i : Nat) (x : Option DmaCh) : State :=
  let c := s.core n
  s.setCore n { c with dma := Map.set none c.dma i x }

/-! ### Movement -/

/-- Whether an item is a paged translation of a channel (09 R207). -/
def AttItem.transOf (a : AttItem) (n i : Nat) : Bool := a.core == n && (match a.trans with | some t => t.1 == i | none => false)
/-- The translation of a channel's next block comes to the home arbiter, if it has a paged side (09 R207, R211). One block's comes once the
block before it has been moved (DESIGN CHOICE: no rule says how early the engine asks). -/
def State.askPage (s : State) (n i : Nat) (x : DmaCh) : State :=
  if dmaSeqs x.src x.dst = [] ∨ x.stop ≤ x.next then s
  else { s with att := s.att ++ [{ core := n, queue := x.queue, idx := x.idx, part := (s.partOf n).getD 0, cmd := x.cmd, ha := x.src, hb := x.dst,
                                   trans := some (i, dmaSeqs x.src x.dst) }] }

/-- A channel stops on a fault and its queue halts at once (05 R118). -/
def State.dmaStop (s : State) (n i : Nat) (x : DmaCh) (code detail : Nat) : State :=
  let mine (a : HeldAcc) : Bool := match a.who with | .dma m j _ => m == n && j == i | _ => false
  let done := (s.accs.filter fun a => mine a && a.fin).length
  ({ s with accs := s.accs.filter fun a => !mine a, att := s.att.filter fun a => !a.transOf n i }.setDma n i
    (some { x with stopped := true, next := x.next + done, page := none })).faultCmd n x.queue x.idx { code := code, detail := detail }

/-- Codes of a source row as codes of the destination (05 R114: converted where the formats differ), its flags sticky in the
core. -/
def State.convRow (s : State) (n : Nat) (x : DmaCh) (vals : List XV) : State × List Nat × List Nat :=
  let r := convList x.dst.fm x.dst.toff x.cmd.drnd x.cmd.dsat s.free ((s.core n).rngBits n 2) vals
  let c := (s.core n).converted 2
  ((s.setCore n { c with sticky := c.sticky.or r.2.2 }).draw, r.1, r.2.1)

/-- The values of codes of a descriptor. -/
def Desc.vals (d : Desc) (x0 : Nat) (codes blocks : List Nat) : List XV :=
  (numbered x0 codes).map fun p => elemVal d.fm d.toff (blocks.getD (p.1 / 32 - x0 / 32) 0) p.2

/-- A row as it is to be written: the source's own codes where the formats are equal, else converted. -/
def State.asDst (s : State) (n : Nat) (x : DmaCh) (x0 : Nat) (codes blocks : List Nat) : State × List Nat × List Nat :=
  if x.src.fm = x.dst.fm then (s, codes, blocks) else s.convRow n x (x.src.vals x0 codes blocks)

/-- The input position of a window for one output position and tap, none where the padding lies (03 R57). -/
def Window.position (w : Window) (p tap : Nat) : Option (Nat × Nat) :=
  let pw : Int := if w.twoD then (p % w.outW : Nat) else (p : Nat)
  let ph : Int := if w.twoD then (p / w.outW : Nat) else 0
  let tw : Int := if w.twoD then (tap % w.kw : Nat) else (tap : Nat)
  let th : Int := if w.twoD then (tap / w.kw : Nat) else 0
  let qw := pw * w.sw + tw * w.dw - w.pw
  let qh := ph * w.sh + th * w.dh - w.ph
  if qw < 0 ∨ (w.inW : Int) ≤ qw ∨ (w.twoD ∧ (qh < 0 ∨ (w.inH : Int) ≤ qh)) then none
  else some (qw.toNat, if w.twoD then qh.toNat else 0)

/-- One row of a GATHER's expanded form: every tap's channels, zero in the padding (05 R116). -/
def State.gatherRow (s : State) (m : Master) (x : DmaCh) (p : Nat) (who : Who) : State × RowRes :=
  let w := x.src.window
  let taps := w.kw * (if w.twoD then w.kh else 1)
  (List.range taps).foldl
    (fun acc tap =>
      match acc.2 with
      | .ok cs bs =>
        match w.position p tap with
        | none => (acc.1, .ok (cs ++ List.replicate w.chans 0) (bs ++ List.replicate (w.chans / 32) 0))
        | some q =>
          let row := q.1 + q.2 * w.inW
          let r := acc.1.readRow m x.src.fm
            ((x.src.base : Int) + x.cmd.sadj + q.1 * w.pitchW + q.2 * w.pitchH, x.src.plane + row * (w.chans / 32)) 0 w.chans who
          match r.2 with
          | .ok c b => (r.1, .ok (cs ++ c) (bs ++ b))
          | o => (r.1, o)
      | _ => acc)
    (s, .ok [] [])

/-- A column written into a cascade region, one unit and one plane byte for each step (05 R115). -/
def State.writeCascade (s : State) (m : Master) (x : DmaCh) (col : Nat) (codes blocks : List Nat) (who : Who) :
    State × RowRes :=
  let d := x.dst
  let b := d.kind == 2
  let kf := d.kf
  let w := kf * d.fm.bits / 8
  let p := if b then 8 else 1
  let t := if b then col / 64 else col / 8
  let k := if b then (col / 8) % 8 else 0
  let i := col % 8
  (List.range d.steps).foldl
    (fun acc jj =>
      match acc.2 with
      | .ok _ _ =>
        let j := t * d.steps + jj
        let line := j + i + k
        let place := 8 * k + (i + k) % 8
        let x0 := ((codes.drop (jj * kf)).take kf).foldr (fun c a => c % 2 ^ d.fm.bits + 2 ^ d.fm.bits * a) 0
        let wr := acc.1.writeMA who m (ma48 ((d.base : Int) + x.cmd.dadj + ((line * (8 * p * w) + place * w : Nat) : Int))) (leBytes w x0)
        match wr.2 with
        | .fault c a => (wr.1, .fault c a)
        | .wait => (wr.1, .wait)
        | .ok _ =>
          if d.hasPlane then
            let pl := wr.1.writeMA who m (ma48 ((d.plane + line * (8 * p) + place : Nat) : Int))
              [BitVec.ofNat 8 (blocks.getD (jj * kf / 32) 0)]
            match pl.2 with
            | .fault c a => (pl.1, .fault c a)
            | .wait => (pl.1, .wait)
            | .ok _ => (pl.1, .ok [] [])
          else (wr.1, .ok [] [])
      | _ => acc)
    (s, .ok [] [])

/-- Whether the access of `w` made its next request when it was last gone through: what it did before that is done. -/
def State.accMade (s : State) (w : Who) : Bool := match s.accOf w with | some a => decide (a.pos < a.reqs.length) | none => false

/-- One row moved: `r` numbers it over dimensions 1 upward; `srcAt` and `dstAt` are where it lies. -/
def State.moveRow (s : State) (n : Nat) (x : DmaCh) (r x0 len : Nat) (srcAt dstAt : Int × Nat) (w : Who) : State × RowRes :=
  let m := s.coreMaster n
  let rd : State × RowRes :=
    match x.cmd.dmode with
    | 2 => s.gatherRow m x r w
    | 3 => (s, .ok [] [])
    | _ => s.readRow m x.src.fm srcAt x0 len w
  match rd.2 with
  | .ok cs bs =>
    let c := if x.cmd.dmode = 3 then rd.1.convRow n x (List.replicate len (fpVal .fp32 x.cmd.fillv)) else rd.1.asDst n x x0 cs bs
    let o := if rd.1.accMade w then (rd.1, c.2) else c
    if x.cmd.dmode = 1 then o.1.writeCascade m x r o.2.1 o.2.2 w else o.1.writeRow m x.dst.fm dstAt x0 o.2.1 o.2.2 w
  | o => (rd.1, o)

/-- The rows of one outermost index moved; dimension 0 as the outermost moves the whole range (05 R114). -/
def State.moveOuter (s : State) (n : Nat) (x : DmaCh) (o : Nat) (w : Who) : State × RowRes :=
  let d := x.dst
  if d.ndim = 1 then s.moveRow n x 0 x.next (x.stop - x.next) (x.src.rowAt x.cmd.sadj 0) (d.rowAt x.cmd.dadj 0) w
  else
    (List.range d.inner).foldl
      (fun acc i =>
        match acc.2 with
        | .ok _ _ =>
          let r := o * d.inner + i
          acc.1.moveRow n x r 0 (d.ext 0) (x.src.rowAt x.cmd.sadj r) (d.rowAt x.cmd.dadj r) w
        | _ => acc)
      (s, .ok [] [])

/-- Whether a row has to wait. -/
def RowRes.isWait : RowRes → Bool
  | .wait => true
  | _ => false

/-- One outer index moved, as an access of its own where some part of it has to wait (10 R409). -/
def State.dmaRow (s : State) (n i : Nat) (x : DmaCh) (o : Nat) : State × RowRes :=
  s.track (.dma n i o) RowRes.isWait fun s => s.moveOuter n x o (.dma n i o)

/-- Outer indices from `o` on, `k` of them, behind one that waits: what can be moved is, and their requests wait beside it. -/
def State.dmaAhead (s : State) (n i : Nat) (x : DmaCh) : Nat → Nat → State
  | _, 0 => s
  | o, k + 1 =>
    if s.accFin (.dma n i o) then s.dmaAhead n i x (o + 1) k
    else
      let r := s.dmaRow n i x o
      match r.2 with
      | .ok _ _ => (r.1.finAcc (.dma n i o)).dmaAhead n i x (o + 1) k
      | .fault code ma => r.1.dmaStop n i x code ma
      | .wait => r.1.dmaAhead n i x (o + 1) k

/-- A channel moves data as far as the memory lets it (05 R114, R118); `fuel` bounds the outer indices. -/
def State.dmaRun (s : State) (n i : Nat) : Nat → State
  | 0 => s
  | fuel + 1 =>
    match (s.core n).dmaCh i with
    | none => s
    | some x =>
      if x.stopped || decide (x.stop ≤ x.next) || dmaSeqs x.src x.dst != [] then s
      else if s.accFin (.dma n i x.next) then
        ((s.dropAcc (.dma n i x.next)).setDma n i (some { x with next := x.next + 1 })).dmaRun n i fuel
      else
        let r := s.dmaRow n i x x.next
        match r.2 with
        | .ok _ _ => (r.1.setDma n i (some { x with next := if x.dst.ndim = 1 then x.stop else x.next + 1 })).dmaRun n i fuel
        | .fault code ma => r.1.dmaStop n i x code ma
        | .wait => if x.dst.ndim = 1 then r.1 else r.1.dmaAhead n i x (x.next + 1) (x.stop - x.next - 1)

/-! ### Commands -/

/-- The lowest-numbered free channel (05 R118). -/
def Core.freeCh (c : Core) : Option Nat := (List.range 16).find? fun i => (c.dmaCh i).isNone
/-- Channels a queue holds (05 R104). -/
def Core.heldCh (c : Core) (q : Nat) : Nat :=
  ((List.range 16).filter fun i => match c.dmaCh i with | some x => x.queue == q | none => false).length

/-- The kinds of descriptor a mode takes (05 Table QUE-4). -/
def dmaKinds (mode : Nat) : List Nat × List Nat :=
  if mode = 0 then ([0, 4], [0, 4]) else if mode = 1 then ([0], [1, 2]) else if mode = 2 then ([3], [0]) else ([], [0])

/-- A DMA command at issue (05 R104, R108, R113, R114, R118; 09 R202; 16 R364). An illegal body halts the queue whichever row meets
it. -/
def cmdDma (mode : Nat) (s : State) (n q : Nat) (c : Cmd) : State :=
  if 4 ≤ c.dmode ∨ bitsOf (wordOf c 1) 28 2 = 3 then s.refuseCmd n q c cQueBadCommand 0
  else if c.dmode ≠ mode then s
  else if !s.gateOpen n then s.waitEngine n q
  else
    match (s.core n).freeCh with
    | none => s.waitEngine n q
    | some i =>
      if 8 ≤ (s.core n).heldCh q then s.waitEngine n q
      else
        let ks := dmaKinds mode
        let r := s.useDescs n ((if mode = 3 then [] else [(c.dsrc, ks.1)]) ++ [(c.ddst, ks.2)])
        match r.2.2 with
        | some (.fault code det) => r.1.refuseCmd n q c code det
        | some _ => r.1
        | none =>
          let s := r.1
          let dst := r.2.1.getLastD 0
          let src := if mode = 3 then dst else r.2.1.headD 0
          match dmaShape c src dst with
          | some h => s.refuseCmd n q c cQueDescShape h
          | none =>
            let mine (v : Nat) : Bool := match s.partOf n with | some p => s.seqMine p v | none => false
            if (dmaSeqs src dst).any fun v => !mine v then s.refuseCmd n q c cAttSeqDenied 0
            else
              let stop := c.oend (dst.ext dst.outer)
              let x : DmaCh :=
                { queue := q, idx := (s.queue n q).ptr.toNat, cmd := c, src := src, dst := dst, next := c.ostart, stop := stop,
                  stopped := false }
              (((s.launchCmd n q c).setDma n i (some x)).askPage n i x).dmaRun n i (stop - c.ostart + 1)

/-- DMA_COMPLETE (05 R102, R107): a channel whose every destination write is visible completes its command. Data that had to wait
move first. The engine's clock is withheld with its core's (03 R67). -/
def dmaComplete (s : State) (n i : Nat) : State :=
  if !s.clocked n then s else
  let left := match (s.core n).dmaCh i with | some x => x.stop - x.next | none => 0
  let s := s.dmaRun n i (left + 1)
  match (s.core n).dmaCh i with
  | none => s
  | some x => if x.stopped || decide (x.next < x.stop) then s else (s.setDma n i none).completeCmd n x.queue x.idx

/-- The frame of a paged token's page, or the fault of its translation (09 R211). -/
def State.translate (s : State) (d : Desc) (adj : Int) (x1 len : Nat) (wr : Bool) : Except Nat (Nat × Nat) :=
  let t := (((d.base % 2 ^ 32 : Nat) : Int) + adj + x1).toNat
  let x := s.seqAt d.seq
  if !x.isOpen ∨ x.len.toNat < t + len ∨ x.layers.toNat ≤ d.layer then .error cAttBeyondLen
  else
    match x.page d.layer (t / 64) with
    | none => .error cAttBeyondLen
    | some f =>
      match s.frame (t / 64 % 8) f with
      | some e => if wr && decide (1 < e.refs) then .error cAttPageShared else .ok (t / 64 % 8, f)
      | none => .ok (t / 64 % 8, f)

/-- Where the record of a paged token lies. -/
def recordAt (kf : Nat × Nat) (t : Nat) : Int × Nat :=
  (((2 ^ 40 + kf.1 * 2 ^ 37 + kf.2 * 32768 + 512 * (t % 64) : Nat) : Int), 0)

/-- Tokens left in the block of token BASE + x1 of a paged side; unbounded for a plain side. -/
def blockLeft (d : Desc) (adj : Int) (x1 n : Nat) : Nat :=
  if d.kind = 4 then min n (64 - (((d.base % 2 ^ 32 : Nat) : Int) + adj + x1).toNat % 64) else n

/-- The token of a paged side: BASE plus the adjustment plus the index (09 R211). -/
def tokenOf (d : Desc) (adj : Int) (x1 : Nat) : Nat := (((d.base % 2 ^ 32 : Nat) : Int) + adj + x1).toNat

/-- Where token `x1` of a side lies: its record in the frame of its page, or its row of a plain tensor. -/
def sideAt (d : Desc) (adj : Int) (kf : Nat × Nat) (x1 : Nat) : Int × Nat :=
  if d.kind = 4 then recordAt kf (tokenOf d adj x1) else d.rowAt adj x1

/-- The tokens of a block moved in order, up to the first that has to wait or faults: how many moved, and what the last came to. -/
def State.moveTokens (s : State) (n i : Nat) (x : DmaCh) (fs fd : Nat × Nat) (len : Nat) : State × Nat × RowRes :=
  (List.range len).foldl
    (fun (acc : State × Nat × RowRes) j =>
      match acc.2.2 with
      | .ok _ _ =>
        let x1 := x.next + j
        let m := acc.1.track (.dma n i x1) RowRes.isWait fun s =>
          s.moveRow n x x1 0 (x.dst.ext 0) (sideAt x.src x.cmd.sadj fs x1) (sideAt x.dst x.cmd.dadj fd x1) (.dma n i x1)
        match m.2 with
        | .ok _ _ => (m.1, j + 1, m.2)
        | o => (m.1, acc.2.1, o)
      | _ => acc)
    (s, 0, .ok [] [])

/-- The translation of a channel's next block at the head of its orders (09 R207, R211): the frames of both sides, or the fault that stops
the channel. -/
def State.servePage (s : State) (n i : Nat) (x : DmaCh) : State :=
  match s.att.find? fun a => a.transOf n i && attAtHead s.att a with
  | none => s
  | some a =>
    let s := { s with att := s.att.erase a }
    let len := blockLeft x.dst x.cmd.dadj x.next (blockLeft x.src x.cmd.sadj x.next (x.stop - x.next))
    let side (d : Desc) (adj : Int) (wr : Bool) : Except Nat (Nat × Nat) :=
      if d.kind = 4 then s.translate d adj x.next len wr else .ok (0, 0)
    match side x.src x.cmd.sadj false, side x.dst x.cmd.dadj true with
    | .error e, _ => s.dmaStop n i x e (tokenOf x.src x.cmd.sadj x.next)
    | _, .error e => s.dmaStop n i x e (tokenOf x.dst x.cmd.dadj x.next)
    | .ok fs, .ok fd => s.setDma n i (some { x with page := some (fs, fd, x.next + len) })

/-- The tokens of the block in progress moved; behind the last of them the next block's translation is asked for (09 R211). -/
def State.movePage (s : State) (n i : Nat) (x : DmaCh) : State :=
  match x.page with
  | none => s
  | some (fs, fd, stop) =>
    let r := s.moveTokens n i x fs fd (stop - x.next)
    let y := { x with next := x.next + r.2.1, page := if x.next + r.2.1 < stop then x.page else none }
    match r.2.2 with
    | .fault code ma => r.1.dmaStop n i y code ma
    | _ => if y.page.isSome then r.1.setDma n i (some y) else (r.1.setDma n i (some y)).askPage n i y

/-- PAGED_TRANSLATION (09 R207, R211): the frame of the next block of a channel's paged side is obtained in the order of its
sequence, and the tokens of that block move. -/
def pagedTranslation (s : State) (n i : Nat) : State :=
  match (s.core n).dmaCh i with
  | none => s
  | some x =>
    if dmaSeqs x.src x.dst = [] || !s.clocked n || x.stopped || decide (x.stop ≤ x.next) then s
    else
      let s := if x.page.isSome then s else s.servePage n i x
      match (s.core n).dmaCh i with
      | some y => if y.stopped then s else s.movePage n i y
      | none => s

end Sys2Proof.Machine
end

