-- ==== Sys2Proof/Machine/MemReqs.lean ====
section
/-! DEFINITION. The rows of memory requests, the calibration windows, pin repair, retirement and evacuation, refresh and the skimmer (06 R134, R140 to R149; 07 R162 to R174; 10 R230). -/

namespace Sys2Proof.Machine

/-! ### Requests -/

/-- The partition stamped on a request of a port (10 R233): a cluster's own, none for the hub and the wellhead. -/
def State.stamp (s : State) (port part : Nat) : Option Nat :=
  if port < 32 then (Map.get none s.clusterPart port).map BitVec.toNat else if port = 62 ∨ port = 63 then none else some part

/-- A master of a row: its port and partition; `own` where it is the core that owns the memory. -/
def State.rowMaster (s : State) (port part core : Nat) (own : Bool) : Master :=
  { port := if own then s.clusterOf core else port, part := if own then s.partOf core else s.stamp port part,
    core := if own then some core else none }

/-- Requests that a sub-channel held or kept waiting come to it again in their order. -/
def State.again (s : State) (rs : List ReqPart) : State := rs.foldl State.arrive s

/-- CST_READ and CST_WRITE (06 R134, R139, R145, R149). -/
def cstAccess (s : State) (port part core : Nat) (own wr : Bool) (off len : Nat) (data : List Byte) : State :=
  if 2 ^ 30 ≤ off then s
  else s.submit (s.rowMaster port part core own) (.port port) false wr (core * 2 ^ 30 + off) (if wr then data.length else min len 1024) data

/-- Accesses of which a request has ended in a fault taken up by their masters: a DMA channel stops, a queue that fetches halts (05 R105,
R118). -/
def State.resume (s : State) : State :=
  let bad (a : HeldAcc) : Bool := a.reqs.any fun r => match r.res with | some (c, _, _) => c != 0 | none => false
  (s.accs.filter bad).foldl
    (fun s a => match a.who with
      | .dma n i _ =>
        (match (s.core n).dmaCh i with
          | some x => if dmaSeqs x.src x.dst = [] then s.dmaRun n i (x.stop - x.next + 1) else pagedTranslation s n i
          | none => s)
      | .fetch n q => commandFetch s n q
      | _ => s) s

/-- MEM_CST_WRITE_HOT (06 R149): the first held write whose limit has passed is not performed while the hold is in force; what it kept
waiting comes again. -/
def writeHot (s : State) (n l : Nat) : State :=
  let sub := s.sub n l
  let lim := max 1 (s.cist n).wholdLimit.toNat
  match sub.held.find? fun r => r.wr && s.reached (r.arrivedTick s.tick + lim) with
  | none => s
  | some r =>
    let t := s.setSub n l { sub with held := [] }
    if sub.whold then ((t.refusePart cMemCstWriteHot 0 r).again (sub.held.erase r)).resume else t.again sub.held

/-- A write hold released: what it held is performed in arrival order (06 R149). -/
def State.releaseHold (s : State) (n l : Nat) : State :=
  let sub := s.sub n l
  (s.setSub n l { sub with whold := false, held := [] }).again sub.held

/-- RSV_REQUEST (07 R162, R163; 10 R231). -/
def rsvRequest (s : State) (port part k : Nat) (wr : Bool) (x len : Nat) (data : List Byte) : State :=
  s.submit (s.rowMaster port part 0 false) (.port port) false wr (2 ^ 40 + k * 2 ^ 37 + x % 2 ^ 37) (if wr then data.length else min len 4096) data

/-- HOLD_TIMEOUT (07 R163): the first request of the hold queue whose wait has reached 100 µs is removed. -/
def holdTimeout (s : State) (k c : Nat) : State :=
  let ch := s.chan k c
  let late (e : ArbEntry) : Option ReqPart := match e.item with | .req r => if s.holdLate r then some r else none | _ => none
  match ch.ops.findSome? fun e => (late e).map fun r => (e, r) with
  | some (e, r) => (((s.setChan k c { ch with ops := ch.ops.erase e }).channelBusy k 2 r).serve k c).resume
  | none => s

/-! ### Repair findings, retirement -/

/-- The profile generation rises and the change is posted (17 R381). -/
def State.profileChanged (s : State) (src cause d1 d2 d3 : Nat) : State :=
  let g := s.profGen + 1
  { s with profGen := g }.postEv src cBupProfileChanged none [g.toNat + cause * 2 ^ 32, d1, d2, d3]

/-- The element of a sub-channel (15 Table BUP-7). -/
def State.subElem (s : State) (n l : Nat) : Nat := (s.core n).site.toNat * 2 ^ 22 + l * 2 ^ 20
/-- The element of a reservoir channel. -/
def chanElem (k c : Nat) : Nat := k * 2 ^ 29 + c * 2 ^ 24

/-- A parameter's value; `d` its default (14 R318). -/
def State.param (s : State) (key part d : Nat) : Nat := ((Map.get none s.params (key + part * 2 ^ 32)).map BitVec.toNat).getD d

/-- The reservoir and offset a module address names in the reservoir windows. -/
def State.rsvAt (s : State) (ma : Nat) : Option (Nat × Nat) := match s.resolve ma with | .rsv k x => some (k, x) | _ => none

/-- Whether a target of CST_EVAC_TARGET is valid for a partition (06 R146). -/
def State.cstTargetOk (s : State) (p w : Nat) : Bool :=
  if w.testBit 63 then
    let k := bitsOf w 40 3
    let c := bitsOf w 32 5
    (s.chsetOf k p).testBit c && (s.chan k c).st == .active && (s.activeCh k).testBit c && decide (bitsOf w 0 17 ≤ 90112)
  else
    let ma := w % 2 ^ 48
    ma != 0 && ma % 512 == 0 && (List.range 524288).all fun g => match s.rsvAt (ma + 512 * g) with
      | some (k, x) => (s.chsetOf k p).testBit (s.rsvCh k x)
      | none => false

/-- The address of burst `b` in a target of CST_EVAC_TARGET (06 R146). -/
def State.cstTargetMA (s : State) (w b : Nat) : Nat :=
  if w.testBit 63 then
    let k := bitsOf w 40 3
    let j := bitsOf w 0 17 + b / 32
    2 ^ 40 + k * 2 ^ 37 + s.rsvOff k (bitsOf w 32 5) (j % 8) (j / 8) 0 + b % 32 * 1024
  else w % 2 ^ 48 + b * 1024

/-- Whether a target of RSV_EVAC_TARGET is valid for channel c of reservoir k (07 R171). -/
def State.rsvTargetOk (s : State) (p k c w : Nat) : Bool :=
  if w.testBit 63 then
    let k' := bitsOf w 40 3
    let c' := bitsOf w 32 5
    (s.chsetOf k' p).testBit c' && (s.chan k' c').st == .active && (s.activeCh k').testBit c' && (k', c') != (k, c) && bitsOf w 0 17 == 0
  else
    let ma := w % 2 ^ 48
    let inter := decide (2 ^ 41 ≤ ma)
    ma != 0 && ma % 32768 == 0 && (List.range 98304).all fun i => match s.rsvAt (ma + 32768 * i) with
      | some (k', x) => (s.chsetOf k' p).testBit (s.rsvCh k' x) && (k', s.rsvCh k' x) != (k, c) && (inter || k' != k)
      | none => false

/-- The address of a channel's i-th frame in a target of RSV_EVAC_TARGET (07 R171). -/
def State.rsvTargetMA (s : State) (w i : Nat) : Nat :=
  if w.testBit 63 then
    let k := bitsOf w 40 3
    2 ^ 40 + k * 2 ^ 37 + s.rsvOff k (bitsOf w 32 5) (i % 8) (i / 8) 0
  else w % 2 ^ 48 + 32768 * i

/-- The nominated target of an element, if it is valid (06 R146; 07 R171). -/
def State.nominated (s : State) (e : Evac) : Option DWord :=
  let w (key p : Nat) : Nat := s.param key p 0
  if e.cist then (s.partOf e.owner).bind fun p => if s.cstTargetOk p (w 1 p) then some (BitVec.ofNat 64 (w 1 p)) else none
  else (s.chanPart e.owner e.ch).bind fun p =>
    if s.rsvTargetOk p e.owner e.ch (w 2 p) then some (BitVec.ofNat 64 (w 2 p)) else none

/-- Evacuations that wait take a target that has become valid (06 R146; 07 R171); one that runs keeps its own (14 R318). -/
def State.takeTargets (s : State) : State :=
  { s with evacs := s.evacs.map fun e => match e.target with | some _ => e | none => { e with target := s.nominated e } }

/-- A core site retires when its cistern has lost its last layer, and its cluster is held out (15 R339). -/
def State.holdOut (s : State) (n : Nat) : State :=
  let g := s.clusterOf n
  let s := s.repair 14 0x05 ((s.core n).site.toNat * 2 ^ 22) 4 0 (s.partOf n)
  if s.heldOut.contains g then s
  else { s with heldOut := s.heldOut ++ [g] }.profileChanged 14 5 (0x06 * 2 ^ 32 + g * 2 ^ 27) 0 0

/-- A sub-channel retired: its layer leaves PRESENT and the change is posted, with the units poisoned and whether it was
evacuated (06 R146, R147; 17 R381). -/
def State.subRetired (s : State) (n l poisoned : Nat) (evac : Bool) : State :=
  let c := s.cist n
  let act := onesOf 4 c.active.toNat
  let s := s.setCist n { c with present := c.present &&& ~~~(BitVec.ofNat 4 (2 ^ l)) }
  let s := s.setSub n l { s.sub n l with st := .retired }
  let s := s.profileChanged 14 1 (0x03 * 2 ^ 32 + s.subElem n l)
    (poisoned * 2 ^ 32 + act.length * 2 ^ 8 + if evac then 1 else 0) (act.idxOf l * 1024)
  if (s.cist n).present = 0 then s.holdOut n else s

/-- A channel retired (07 R171, R172; 17 R381): it leaves PRESENT; CAP of its stack is lowered in proportion (10 R228). -/
def State.chanRetired (s : State) (k c poisoned : Nat) (evac : Bool) : State :=
  let act := onesOf 32 (s.activeCh k)
  let s := { s with rsvPresent := Map.set (0xFFFFFFFF#32) s.rsvPresent k (BitVec.ofNat 32 (s.present k) &&& ~~~(BitVec.ofNat 32 (2 ^ c))) }
  let s := s.setChan k c { s.chan k c with st := .retired }
  let s := { s with sluCap := Map.set none s.sluCap k (some (BitVec.ofNat 20 (896 * popCount 32 (s.present k)))) }
  s.profileChanged 14 2 (0x09 * 2 ^ 32 + chanElem k c) (poisoned * 2 ^ 32 + 32 * act.length * 2 ^ 8 + if evac then 1 else 0)
    (s.rsvOff k c 0 0 0)

/-- A sub-channel begins to retire (06 R145, R146). -/
def State.retireSub (s : State) (n l : Nat) : State :=
  if (s.sub n l).st ≠ .active then s
  else
    let s := s.setSub n l { s.sub n l with st := .retiring }
    let s := s.repair 14 0x03 (s.subElem n l) 4 0 (s.partOf n)
    ({ s with evacs := s.evacs ++ [({ cist := true, owner := n, ch := l, since := s.time, target := none } : Evac)] } : State).takeTargets

/-- A channel begins to retire; one in no partition's set retires without evacuation (07 R171). -/
def State.retireChan (s : State) (k c : Nat) : State :=
  if (s.chan k c).st ≠ .active then s
  else
    let s := s.setChan k c { s.chan k c with st := .retiring }
    let s := s.repair 14 0x09 (chanElem k c) 4 0 (s.chanPart k c)
    match s.chanPart k c with
    | none => s.chanRetired k c 0 false
    | some _ => ({ s with evacs := s.evacs ++ [({ cist := false, owner := k, ch := c, since := s.time, target := none } : Evac)] } : State).takeTargets

/-- Group and pin of a pin index below 1,152 (06 R137). -/
def pinGroup (p : Nat) : Nat × Nat := if p < 1024 then (p / 64, p % 64) else ((p - 1024) / 8, 64 + (p - 1024) % 8)
/-- The pin set a pin element belongs to, and its number there (15 Table BUP-7): cistern pins are class 1, reservoir pins class 7. -/
def pinSet (cls e : Nat) : Nat := if cls = 1 then e / 2 ^ 20 else e / 2 ^ 23
/-- The number of a pin in its set. -/
def pinOf (cls e : Nat) : Nat := if cls = 1 then e % 2 ^ 11 else e % 2 ^ 7
/-- The spare pins left to a pin element, in ascending order: 24 of a sub-channel, 2 of a channel, without those that serve another pin and
those found bad themselves (06 R143; 07 R169). -/
def State.sparesLeft (s : State) (cls e : Nat) : List Nat :=
  let mine (x : RepEnt) : Bool := x.cls.toNat == cls && pinSet cls x.elem.toNat == pinSet cls e && x.elem.toNat != e
  ((List.range (if cls = 1 then 24 else 2)).map fun j => (if cls = 1 then 1152 else 72) + j).filter fun j =>
    !(s.repairs.any fun x => mine x && (pinOf cls x.elem.toNat == j || (x.st.toNat == 1 && x.action.toNat == j)))
/-- The pin that spare `j` of the set of `e` serves. -/
def State.sparedBy (s : State) (cls e j : Nat) : Option Nat :=
  (s.repairs.find? fun x => x.cls.toNat == cls && pinSet cls x.elem.toNat == pinSet cls e && x.st.toNat == 1 && x.action.toNat == j).map
    fun x => pinOf cls x.elem.toNat
/-- Whether an element's entry stands in a state. -/
def State.entryIs (s : State) (cls e st : Nat) : Bool := s.repairs.any fun x => x.cls.toNat == cls && x.elem.toNat == e && x.st.toNat == st

/-- Whether the spare path of a stack is itself beyond repair (07 R169). -/
def State.pathBad (s : State) (k : Nat) : Bool :=
  s.repairs.any fun x => x.cls.toNat == 7 && x.elem.toNat / 2 ^ 23 == k * 2 ^ 6 + 32 && decide (x.elem.toNat % 2 ^ 7 < 72) && x.st.toNat == 4
/-- Whether the spare path can still take a channel (07 R169). -/
def State.pathFree (s : State) (k : Nat) : Bool := !(Map.get {} s.rsvs k).spareUsed && !s.pathBad k

/-- A dead pin of a sub-channel repaired in stages (06 R143): a spare waits for the next window, else an erasure, else the
sub-channel retires, its group decoding with two erasures (R145). -/
def State.deadPin (s : State) (n l g p : Nat) : State :=
  let x := s.sub n l
  let elem := s.cistPinElem n l (cistPin g p)
  let drop := x.prov.filter fun e => e != (g, p)
  if x.dead.length < (s.sparesLeft 1 elem).length then
    (s.setSub n l { x with prov := drop ++ [(g, p)], dead := x.dead ++ [(g, p)] }).repair 14 0x01 elem 5 0 (s.partOf n)
  else if Map.get 0 x.erase g = 0 then
    (s.setSub n l { x with prov := drop, erase := Map.set 0 x.erase g (p + 1) }).repair 14 0x01 elem 2 0 (s.partOf n)
  else ((s.setSub n l { x with prov := drop ++ [(g, p)] }).repair 14 0x01 elem 4 0 (s.partOf n)).retireSub n l

/-- A dead pin of a reservoir channel repaired in stages (07 R169); a spare pin and the spare path wait for the next window. -/
def State.deadRsvPin (s : State) (k c p : Nat) : State :=
  let x := s.chan k c
  let elem := rsvPinElem k (s.pinPath k c) p
  let drop := x.prov.filter fun e => e != p
  let wait := (s.setChan k c { x with prov := drop ++ [p], dead := x.dead ++ [p] }).repair 14 0x07 elem 5 0 (s.chanPart k c)
  if x.dead.length < (s.sparesLeft 7 elem).length then wait
  else if x.erase.isNone then
    (s.setChan k c { x with prov := drop, erase := some p }).repair 14 0x07 elem 2 0 (s.chanPart k c)
  else if s.pathFree k then wait
  else ((s.setChan k c { x with prov := drop ++ [p] }).repair 14 0x07 elem 4 0 (s.chanPart k c)).retireChan k c

/-! ### Calibration windows -/

/-- The tick a block whose counter copy is ahead of the hub's by the skew of 4 drops is in (11 R240). -/
def State.nearTick (s : State) : Nat := (s.pos + 4) / 1024 % 2 ^ 48
/-- Whether the counter is at the boundary of a tick, for a block that acts at it: within the skew of its copy and a cycle of its clock
(11 R240). -/
def State.atBoundary (s : State) : Bool := decide ((s.pos + 4) % 1024 ≤ 10)
/-- Whether the tick lies in a window that begins where t mod `period` is `start`, `len` ticks long (11 Table CLP-2). -/
def State.inWindow (s : State) (period start len : Nat) : Bool := decide ((s.nearTick + period - start % period) % period < len)
/-- Whether such a window begins now (11 R250). -/
def State.opensWindow (s : State) (period start : Nat) : Bool := s.inWindow period start 1 && s.atBoundary

/-- A pin found dead before a sub-channel's window: a spare takes its place in it, if one is left (06 R141, R143). -/
def State.switchSpare (s : State) (n l : Nat) (e : Nat × Nat) : State :=
  let y := s.sub n l
  let elem := s.cistPinElem n l (cistPin e.1 e.2)
  match s.sparesLeft 1 elem with
  | [] => (s.setSub n l { y with dead := y.dead.erase e }).deadPin n l e.1 e.2
  | j :: _ =>
    (s.setSub n l { y with spares := y.spares + 1, dead := y.dead.erase e, prov := y.prov.erase e,
                           run := Map.drop (fun k => k == 72 * e.1 + e.2) y.run }).repair 14 0x01 elem 1 j (s.partOf n)

/-- A spare pin that fails to train: it is declared dead, out of use from then on (state 4), and the pin it served is dead again
(06 R142). -/
def State.deadSpare (s : State) (n l j : Nat) : State :=
  let elem := s.cistPinElem n l j
  if s.entryIs 1 elem 4 then s
  else
    let served := s.sparedBy 1 elem j
    let s := s.repair 14 0x01 elem 4 0 (s.partOf n)
    match served with
    | none => s
    | some p =>
      let x := s.sub n l
      (s.setSub n l { x with spares := x.spares - 1 }).deadPin n l (pinGroup p).1 (pinGroup p).2

/-- CST_CAL_WINDOW (06 R140 to R143): the window opens; spares are switched in for pins found dead before; `fails` are the pins that
fail to train. -/
def cstWindow (s : State) (n l : Nat) (fails : List Nat) : State :=
  let x := s.sub n l
  if !s.opensWindow 4096 (1024 * l + 2 * n) || x.window || x.st == .retired || !decide (n < s.nCores) then s
  else
    let s := s.setSub n l { x with window := true }
    let s := x.dead.foldl (fun s e => s.switchSpare n l e) s
    let used (e : Nat × Nat) : Bool := !x.dead.contains e && !s.entryIs 1 (s.cistPinElem n l (cistPin e.1 e.2)) 1
    let bad := ((fails.filter fun p => decide (p < 1152)).eraseDups.map pinGroup).filter used
    -- provisional erasures that train are cleared
    let s := (x.prov.filter fun e => !x.dead.contains e && !bad.contains e).foldl
      (fun s e =>
        let y := s.sub n l
        (s.setSub n l { y with prov := y.prov.erase e, run := Map.drop (fun k => k == 72 * e.1 + e.2) y.run }).repair 14 0x01
          (s.cistPinElem n l (cistPin e.1 e.2)) 0 0 (s.partOf n)) s
    let s := (bad.filter fun e => Map.get 0 x.erase e.1 != e.2 + 1).foldl (fun s e => s.deadPin n l e.1 e.2) s
    (fails.filter fun p => decide (1152 ≤ p) && decide (p < 1176)).eraseDups.foldl (fun s j => s.deadSpare n l j) s

/-- A pin found dead before a channel's window: a spare pin or the spare path takes its place in it, else the channel retires
(07 R169). -/
def State.switchRsvSpare (s : State) (k c p : Nat) : State :=
  let y := s.chan k c
  let elem := rsvPinElem k (s.pinPath k c) p
  if !y.dead.contains p then s
  else
    match s.sparesLeft 7 elem with
    | j :: _ =>
      (s.setChan k c { y with spares := y.spares + 1, dead := y.dead.erase p, prov := y.prov.erase p,
                              run := Map.drop (fun j => j == p) y.run }).repair 14 0x07 elem 1 j (s.chanPart k c)
    | [] =>
      if y.erase.isNone then (s.setChan k c { y with dead := y.dead.erase p }).deadRsvPin k c p
      else if s.pathFree k then
        let v := s.rsv k
        let s := s.setRsv k { v with spareUsed := true, spareFor := BitVec.ofNat 5 c }
        (s.setChan k c { y with spares := 0, dead := [], prov := [], erase := none, run := [] }).repair 14 0x0A (chanElem k c) 1 0
          (s.chanPart k c)
      else s.retireChan k c

/-- A spare pin of a channel that fails to train, likewise (07 R169). -/
def State.deadRsvSpare (s : State) (k c j : Nat) : State :=
  let elem := rsvPinElem k (s.pinPath k c) j
  if s.entryIs 7 elem 4 then s
  else
    let served := s.sparedBy 7 elem j
    let s := s.repair 14 0x07 elem 4 0 (s.chanPart k c)
    match served with
    | none => s
    | some p =>
      let x := s.chan k c
      (s.setChan k c { x with spares := x.spares - 1 }).deadRsvPin k c p

/-- RSV_CAL_WINDOW (07 R168, R169). -/
def rsvWindow (s : State) (k c : Nat) (fails : List Nat) : State :=
  let x := s.chan k c
  if !s.opensWindow 4096 (16 * (32 * k + c)) || x.window || x.st == .retired then s
  else
    let s := s.setChan k c { x with window := true }
    let s := x.dead.foldl (fun s p => s.switchRsvSpare k c p) s
    let y := s.chan k c
    let used (p : Nat) : Bool := !x.dead.contains p && !s.entryIs 7 (rsvPinElem k (s.pinPath k c) p) 1
    let bad := (fails.filter fun p => decide (p < 72)).eraseDups.filter used
    let s := (y.prov.filter fun p => !y.dead.contains p && !bad.contains p).foldl
      (fun s p =>
        let z := s.chan k c
        (s.setChan k c { z with prov := z.prov.erase p, run := Map.drop (fun j => j == p) z.run }).repair 14 0x07
          (rsvPinElem k (s.pinPath k c) p) 0 0 (s.chanPart k c)) s
    let s := (bad.filter fun p => y.erase != some p).foldl (fun s p => s.deadRsvPin k c p) s
    (fails.filter fun p => decide (72 ≤ p) && decide (p < 74)).eraseDups.foldl (fun s j => s.deadRsvSpare k c j) s

/-- What waited at a bridge crossing for the end of its window goes on (10 R227). -/
def State.overBridge (s : State) (i : BrItem) : State :=
  match i with
  | .go h => s.cross h
  | .back p code ma sub data => s.partDone p code ma sub data

/-- CALIBRATION_WINDOW_END (06 R141; 07 R168; 10 R227): once its ticks have passed a window closes, and what waited is performed in
arrival order. Refreshes owed to it are made up (06 R141). -/
def windowEnd (s : State) (w : WinId) : State :=
  match w with
  | .cist n l =>
    let x := s.sub n.toNat l.toNat
    if !x.window || s.inWindow 4096 (1024 * l.toNat + 2 * n.toNat) 2 then s
    else (s.setSub n.toNat l.toNat
      { x with window := false, waiting := [], refreshes := x.refreshes + x.owed, owed := 0 }).again x.waiting
  | .rsv k c =>
    let x := s.chan k.toNat c.toNat
    if !x.window || s.inWindow 4096 (16 * (32 * k.toNat + c.toNat)) 2 then s
    else (s.setChan k.toNat c.toNat { x with window := false }).serve k.toNat c.toNat
  | .bridge d =>
    if s.inWindow 65536 (32768 + 2 * d.toNat) 1 then s
    else
      let out := (s.brWait.filter fun i => i.1 = d.toNat).map Prod.snd
      out.foldl State.overBridge
        { s with brWindow := s.brWindow &&& ~~~(BitVec.ofNat 2 (2 ^ d.toNat)), brWait := s.brWait.filter fun i => i.1 ≠ d.toNat }

/-! ### Refresh -/

/-- CST_REFRESH (06 R141, R148): one bank refreshed; inside a window the refresh is owed. -/
def cstRefresh (s : State) (n l : Nat) : State :=
  let x := s.sub n l
  s.setSub n l (if x.window then { x with owed := x.owed + 1 } else { x with refreshes := x.refreshes + 1 })

/-- RSV_REFRESH (07 R173; 08 R196): a bank group refreshed; in processor mode its unit pauses. -/
def rsvRefresh (s : State) (k c b : Nat) : State :=
  let ch := s.chan k c
  let ch := { ch with refreshes := ch.refreshes + 1 }
  match ch.current with
  | some (.launch n) =>
    match s.launch n with
    | none => s.setChan k c ch
    | some l =>
      let key := 256 * k + 8 * c + b
      let u : BUnit := Map.get {} l.units key
      if u.ended || l.fault.isSome then s.setChan k c ch
      else (s.setChan k c { ch with runPauses := satAdd ch.runPauses 1 }).setLaunch n
        { l with units := Map.set {} l.units key { u with pauses := u.pauses + 1 } }
  | _ => s.setChan k c ch

/-! ### Evacuation -/

/-- An access of the wellhead that faulted is posted with its own code and layout A (17 Table ERR-3). -/
def State.whFault (s : State) (code ma : Nat) : State := s.postEv 14 code none [ma + 63 * 2 ^ 48, 0, 0, 0]

/-- The bursts of a sub-channel, the granules of a channel (06 R146; 07 R171). -/
def Evac.total (e : Evac) : Nat := if e.cist then 262144 else 98304 * 64
/-- The access of the wellhead an evacuation makes. -/
def Evac.who (e : Evac) : Who := .evac e.cist e.owner e.ch
/-- Whether two entries are of one element. -/
def Evac.same (a b : Evac) : Bool := a.cist == b.cist && a.owner == b.owner && a.ch == b.ch
/-- An evacuation's progress. -/
def State.setEvac (s : State) (e : Evac) : State := { s with evacs := s.evacs.map fun x => if x.same e then e else x }

/-- A granule written at its place in the target, `none` for a codeword of poison. -/
def State.evacPut (s : State) (w : Who) (ma : Nat) (cws : List (Option (List Byte))) : State × AccRes :=
  s.access w whMaster true ma 512 (cws.flatMap fun c => c.getD (List.replicate 64 0))
    ((cws.zipIdx.filter fun c => c.1.isNone).map fun c => ma + 64 * c.2) true

/-- One burst of a sub-channel read over the standpipe, decoded with the known erasures of each codeword's group, and written as two granules (06 R146): what its requests came to, and the
codewords written as poison. -/
def State.evacBurst (s : State) (e : Evac) (w : Nat) : State × List AccRes × Nat :=
  let act := onesOf 4 (s.cist e.owner).active.toNat
  let key := (Tgt.cist e.owner ((act.length * e.pos + act.idxOf e.ch) * 1024)).key
  let sub := s.sub e.owner e.ch
  let era (j : Nat) : List Nat := sub.erasures (s.cistLoc e.owner ((act.length * e.pos + act.idxOf e.ch) * 1024 + 64 * j)).2
  let cws := (List.range 16).map fun j => match (s.decodeCw (key + 64 * j) (era j) true []).1 with | .data bs => some bs | _ => none
  let a := s.evacPut e.who (s.cstTargetMA w e.pos) (cws.take 8)
  let b := a.1.evacPut e.who (s.cstTargetMA w e.pos + 512) (cws.drop 8)
  (b.1, [a.2, b.2], (cws.filter Option.isNone).length)

/-- One granule of a channel read and written (07 R171): one that holds a codeword the read reports is written as poison. -/
def State.evacGranule (s : State) (e : Evac) (w : Nat) : State × List AccRes × Nat :=
  let i := e.pos / 64
  let g := e.pos % 64
  let a := s.access e.who whMaster false (2 ^ 40 + e.owner * 2 ^ 37 + s.rsvOff e.owner e.ch (i % 8) (i / 8) g) 512 [] [] true
  match a.2 with
  | .wait => (a.1, [.wait], 0)
  | .ok bs =>
    let b := a.1.evacPut e.who (s.rsvTargetMA w i + 512 * g) ((List.range 8).map fun j => some ((bs.drop (64 * j)).take 64))
    (b.1, [b.2], 0)
  | .fault c ma =>
    let b := a.1.evacPut e.who (s.rsvTargetMA w i + 512 * g) (List.replicate 8 none)
    (b.1, (if c = cMemUncorrectable ∨ c = cMemPoison then [] else [.fault c ma]) ++ [b.2], 1)

/-- An evacuation as far as its accesses let it: a burst or granule at a time; `fuel` bounds them. A fault other than RSV_CHANNEL_BUSY is
posted (17 Table ERR-3). Whether all is copied. -/
def State.evacRun (s : State) (e : Evac) (w : Nat) : Nat → State × Evac × Bool
  | 0 => (s, e, true)
  | fuel + 1 =>
    let r := s.track e.who (fun r : List AccRes × Nat => r.1.any AccRes.isWait)
      fun s => if e.cist then s.evacBurst e w else s.evacGranule e w
    if r.2.1.any AccRes.isWait then (r.1, e, false)
    else
      let s := r.2.1.foldl (fun s o => match o with | .fault c ma => s.whFault c ma | _ => s) r.1.draw
      s.evacRun { e with pos := e.pos + 1, poisoned := e.poisoned + r.2.2 } w fuel

/-- The evacuation of an element that may run now: the first of its compute die's sub-channels (06 R147), or a channel's own. -/
def State.evacOf (s : State) (cist : Bool) (o c : Nat) : Option Evac :=
  if cist then (s.evacs.find? fun e => e.cist && s.dieOf e.owner == s.dieOf o).filter fun e => e.owner == o && e.ch == c
  else s.evacs.find? fun e => !e.cist && e.owner == o && e.ch == c

/-- An evacuation that has its target carried on; `done` is what its end does, with the units poisoned. -/
def State.evacuate (s : State) (cist : Bool) (o c : Nat) (done : State → Nat → State) : State :=
  match s.evacOf cist o c with
  | none => s
  | some e =>
    match e.target with
    | none => s
    | some w =>
      let r := s.evacRun e w.toNat (e.total - e.pos)
      if r.2.2 then done { r.1 with evacs := r.1.evacs.filter fun x => !x.same e } r.2.1.poisoned else r.1.setEvac r.2.1

/-- CST_EVACUATION_DONE (06 R146, R147): the copy goes on as far as its writes are let in, and at its end the sub-channel is
retired. -/
def cstEvacDone (s : State) (n l : Nat) : State := s.evacuate true n l fun s p => s.subRetired n l p true

/-- RSV_EVACUATION_DONE (07 R171). -/
def rsvEvacDone (s : State) (k c : Nat) : State := s.evacuate false k c fun s p => s.chanRetired k c p true

/-- EVAC_TARGET_TIMEOUT (06 R146; 07 R171): no valid target for a second. -/
def evacTimeout (s : State) (cist : Bool) (o c : Nat) : State :=
  match s.evacOf cist o c with
  | none => s
  | some e =>
    if e.target.isSome || decide (s.time < e.since + 1600000000) then s
    else
      let s := { s with evacs := s.evacs.erase e }
      if cist then s.subRetired o c 0 false else s.chanRetired o c 0 false

/-! ### The skimmer -/

/-- Granules of a channel. -/
def skimGranules : Nat := 6291456

/-- SKIM_READ (07 R174): in memory mode the next granule of the channel is read, corrections written back and uncorrectable
codewords written as poison where POISON is set; in processor mode the channel falls behind. `extra` marks a catch-up read. -/
def skimRead (s : State) (k c : Nat) (extra : Bool) : State :=
  let v := s.rsv k
  let ch := s.chan k c
  let bit : Word := BitVec.ofNat 32 (2 ^ c)
  if !v.skimEnable || ch.st == .retired || (extra && ch.skimDue == 0) then s
  else if ch.proc then
    if extra then s
    else (s.setChan k c { ch with skimDue := ch.skimDue + 1 }).setRsv k { v with skimBehind := v.skimBehind ||| bit }
  else
    let g := ch.skimPos % skimGranules
    let x := s.rsvOff k c (g / 64 % 8) (g / 512) (g % 64)
    let s := (List.range 8).foldl
      (fun s j =>
        let key := (Tgt.rsv k x).key + 64 * j
        let v := s.rsv k
        let o := s.baseCw k c key
        match o.2.1 with
        | .data bs => if o.2.2 = 0 then o.1 else (o.1.putCw key bs).setRsv k { v with skimCorrected := satAdd v.skimCorrected 1 }
        | .poison => o.1
        | .uncorr =>
          let s := if v.skimPoison then o.1.putPoison key else o.1
          let s := s.setRsv k { v with skimUncorr := satAdd v.skimUncorr 1,
                                       skimPoisoned := satAdd v.skimPoisoned (if v.skimPoison then 1 else 0) }
          s.postEv (5 + k) cMemUncorrectable none [key + (32 + k) * 2 ^ 48, 0, 0, 0]) s
    let ch := s.chan k c
    let due := if extra then ch.skimDue - 1 else ch.skimDue
    let lap (s : State) : Nat := (onesOf 32 (s.present k)).foldl (fun m c => min m ((s.chan k c).skimPos / skimGranules))
      (ch.skimPos / skimGranules + 1)
    let before := lap s
    let s := s.setChan k c { ch with skimPos := ch.skimPos + 1, skimDue := due }
    let v := s.rsv k
    s.setRsv k { v with skimBehind := if due = 0 then v.skimBehind &&& ~~~bit else v.skimBehind,
                        skimPasses := if before < lap s then v.skimPasses + 1 else v.skimPasses }

end Sys2Proof.Machine
end

