-- ==== Sys2Proof/Machine/NetOps.lean ====
section
/-! DEFINITION. The network: epochs of the sluices, starved requests, the die-to-die bridge and its windows (10 R225 to R231). -/

namespace Sys2Proof.Machine

/-! ### Sluices -/

/-- Whether a held request counts against an account (10 R228). -/
def HeldReq.counts (h : HeldReq) (m t : Nat) : Bool := h.needs.any fun n => n.1 = (m, t)
/-- A held request at a new epoch of target t: epochs in a row in which its master's allowance there was zero (10 R230). -/
def State.starve (s : State) (t : Nat) (h : HeldReq) : HeldReq :=
  match h.needs.find? fun n => n.1.2 = t with
  | none => h
  | some n => { h with starved := Map.set 0 h.starved t (if (s.acct t n.1.1).latest = 0 then Map.get 0 h.starved t + 1 else 0) }

/-- SLUICE_EPOCH (10 R229, R230): target t computes every master's allowance and the sluices issue what now fits. -/
def sluiceEpoch (s : State) (t : Nat) : State :=
  let held (m : Nat) : Bool := s.sluHeld.any fun h => h.counts m t
  let s' := (List.range 64).foldl (fun a m =>
    let x := s.acct t m
    if x = {} && !held m then a else a.setAcct t m (x.renew (s.allowance t m) (held m))) s
  ({ s' with sluHeld := s'.sluHeld.map (s'.starve t) } : State).issueHeld.resume

/-- SLUICE_STARVED (10 R230): the first request of a master held for target t through 1,024 epochs of zero allowance. -/
def sluiceStarved (s : State) (m t : Nat) : State :=
  match s.sluHeld.find? fun h => h.counts m t && decide (1024 ≤ Map.get 0 h.starved t) with
  | none => s
  | some h => (({ s with sluHeld := s.sluHeld.erase h } : State).refuseHeld h 3).issueHeld.resume

/-- CLR_MAX (10 R237). -/
def clrMax (s : State) (m c : Nat) : State :=
  let k := 5 * m + c
  if 5 ≤ c then s else { s with sluLat := Map.set {} s.sluLat k { Map.get {} s.sluLat k with maxNs := 0 } }

/-! ### The bridge -/

/-- A bundle of the direction out of die d. -/
def State.bundle (s : State) (d b : Nat) : Bundle := Map.get {} s.bundles (64 * d + b)
/-- A bundle replaced. -/
def State.setBundle (s : State) (d b : Nat) (x : Bundle) : State := { s with bundles := Map.set {} s.bundles (64 * d + b) x }
/-- The element of a bridge bundle, and of a lane (15 Table BUP-7). -/
def bundleElem (d b : Nat) : Nat := d * 2 ^ 31 + b * 2 ^ 25
/-- Halves of full width a bundle carries. -/
def Bundle.width (x : Bundle) : Nat := if x.st = 0 then 2 else if x.st = 1 then 1 else 0

/-- The CAP of a bridge direction in proportion to what is left of its width (10 R226, R228). -/
def State.bridgeCap (s : State) (d : Nat) : State :=
  let w := ((List.range 64).map fun b => (s.bundle d b).width).sum
  { s with sluCap := Map.set none s.sluCap (8 + d) (some (BitVec.ofNat 20 (114688 * w / 128))) }

/-- A bundle narrowed or disabled: recorded, its CAP lowered, the profile change posted (10 R226; 17 R380, R381). -/
def State.narrowBundle (s : State) (d b : Nat) (st : BitVec 2) : State :=
  let s := s.setBundle d b { s.bundle d b with st := st }
  let s := s.repair (3 + (1 - d)) 0x0C (bundleElem d b) (if st = 1 then 3 else 4) 0 none
  (s.bridgeCap d).profileChanged 14 3 (0x0C * 2 ^ 32 + bundleElem d b) 0 0

/-- A lane declared failing (10 R226). -/
def State.bundleLane (s : State) (d b lane : Nat) : State :=
  let x := s.bundle d b
  if x.bad.contains lane || decide (68 ≤ lane) then s
  else (s.setBundle d b { x with bad := x.bad ++ [lane], failing := x.failing ++ [lane] }).repair (3 + (1 - d)) 0x0B
    (bundleElem d b + lane) 5 0 none

/-- Flits that came early delivered as far as the order allows; `fuel` bounds them. -/
def BrRow.drain (r : BrRow) : Nat → BrRow
  | 0 => r
  | fuel + 1 =>
    match Map.get none r.early r.next with
    | none => r
    | some f => BrRow.drain { r with next := r.next + 1, early := Map.set none r.early r.next none, out := r.out ++ [f] } fuel

/-- The order in which the sending end deals a row's flits (10 R225): its working bundles in rotation, a half-width one every second turn.
Two turns make a period; which bundle begins is DESIGN CHOICE. -/
def State.dealOrder (s : State) (d row : Nat) : List Nat :=
  let bs := ((List.range 16).map fun i => 16 * row + i).filter fun b => (s.bundle d b).st != 2
  bs ++ bs.filter fun b => (s.bundle d b).st == 0

/-- A flit sent over a bundle: the sender keeps the last 64 of each bundle for replay (10 R225). -/
def BrRow.send (r : BrRow) (b n : Nat) : BrRow :=
  if r.sent.contains (n, b) then r
  else
    let mine := r.sent.filter fun e => e.2 = b
    let kept := if 64 ≤ mine.length then r.sent.erase (mine.headD (0, 0)) else r.sent
    { r with dealt := r.dealt + 1, sent := kept ++ [(n, b)] }

/-- Flits sent again on the row's other bundles, in rotation (10 R226). -/
def BrRow.sendAgain (r : BrRow) (order ns : List Nat) : BrRow :=
  if order = [] then r
  else ns.foldl (fun r n => let b := order.getD (r.dealt % order.length) 0; { r.send b n with resent := r.resent ++ [(n, b)] }) r

/-- A bundle whose flit n failed its sixteenth replay is disabled; that flit and those behind it are sent again (10 R226). -/
def State.failBundle (s : State) (d b n : Nat) : State :=
  let s := s.narrowBundle d b 2
  let row := 4 * d + b / 16
  let r : BrRow := Map.get {} s.brRows row
  let lost := (r.sent.filter fun e => e.2 = b ∧ n ≤ e.1 ∧ r.next ≤ e.1 ∧ (Map.get none r.early e.1).isNone).map Prod.fst
  let r := { r with asked := r.asked.filter fun a => a.1 ≠ b, sent := r.sent.filter fun e => e.2 ≠ b }
  { s with brRows := Map.set {} s.brRows row (r.sendAgain (s.dealOrder d (b / 16)) lost) }

/-- FLIT_RECEIVE (10 R225, R226): flit `n` of a row comes over bundle b of the direction out of die d. A failed CRC asks for a
replay, the sixteenth replay of a flit that fails disables the bundle; `errs` are the lanes that show parity errors. -/
def flitReceive (s : State) (d b n : Nat) (crcOk : Bool) (flit : BitVec 512) (errs : List Nat) : State :=
  let x := s.bundle d b
  if x.st = 2 ∨ s.brWindow.toNat.testBit d then s
  else
    let parity := errs.foldl (fun m l => Map.set 0 m l (Map.get 0 m l + 1)) x.parity
    let s := s.setBundle d b { x with parity := parity }
    let s := (errs.eraseDups.filter fun l => decide (16 ≤ Map.get 0 parity l)).foldl (fun s l => s.bundleLane d b l) s
    let x := s.bundle d b
    let row := 4 * d + b / 16
    let r : BrRow := (Map.get {} s.brRows row).send b n
    if !crcOk || x.inject != 0 then
      let x := { x with inject := x.inject - 1, replays := satAdd x.replays 1 }
      let asked := r.asked ++ [(b, n)]
      let s := { s.setBundle d b x with brRows := Map.set {} s.brRows row { r with asked := asked } }
      -- the first failure asks for the first replay
      if 17 ≤ (asked.filter fun a => a == (b, n)).length then s.failBundle d b n else s
    else
      let r := { r with asked := r.asked.filter fun a => a.2 != n, resent := r.resent.filter fun a => a.1 != n }
      let r := if n < r.next then r else { r with early := Map.set none r.early n (some flit) }
      { s with brRows := Map.set {} s.brRows row (r.drain (r.early.length + 1)) }

/-- BRIDGE_CAL_WINDOW (10 R226, R227): spares, narrowing and disabling take effect for the lanes declared before; `fails` are the
(bundle, lane) pairs that fail deskew. -/
def bridgeWindow (s : State) (d : Nat) (fails : List (Nat × Nat)) : State :=
  if !s.opensWindow 65536 (32768 + 2 * d) || s.brWindow.toNat.testBit d then s
  else
    let s := { s with brWindow := s.brWindow ||| BitVec.ofNat 2 (2 ^ d) }
    let s := (List.range 64).foldl
      (fun s b =>
        let x := s.bundle d b
        x.failing.foldl
          (fun s lane =>
            let y := s.bundle d b
            let y := { y with failing := y.failing.erase lane }
            if y.st = 2 then s.setBundle d b y
            else if y.spares.toNat < 4 then
              (s.setBundle d b { y with spares := y.spares + 1 }).repair (3 + (1 - d)) 0x0B (bundleElem d b + lane) 1 (64 + y.spares.toNat) none
            else
              let s := s.setBundle d b y
              if 68 - y.bad.length < 32 then s.narrowBundle d b 2 else if y.st = 0 then s.narrowBundle d b 1 else s) s) s
    (fails.filter fun f => decide (f.1 < 64)).foldl (fun s f => s.bundleLane d f.1 f.2) s

end Sys2Proof.Machine
end

