-- ==== Sys2Proof/Machine/LinkOps.lean ====
section
/-! DEFINITION. Moarex ports, stream contexts, admission, the flow of cells at both ends, and what ends a stream
(12 R253 to R277). -/

namespace Sys2Proof.Machine

/-! ### Ports and contexts -/

/-- A port. -/
def State.lport (s : State) (p : Nat) : Port := Map.get {} s.ports p
/-- A port replaced. -/
def State.setPort (s : State) (p : Nat) (x : Port) : State := { s with ports := Map.set {} s.ports p x }
/-- The transmit stream of a context. -/
def State.tx (s : State) (c : Nat) : Option TxStream := Map.get none s.txs c
/-- A transmit stream replaced. -/
def State.setTx (s : State) (c : Nat) (x : Option TxStream) : State := { s with txs := Map.set none s.txs c x }
/-- The receive stream of a context. -/
def State.rx (s : State) (c : Nat) : Option RxStream := Map.get none s.rxs c
/-- A receive stream replaced. -/
def State.setRx (s : State) (c : Nat) (x : Option RxStream) : State := { s with rxs := Map.set none s.rxs c x }
/-- The compute die of a port (12 R253). -/
def portHome (p : Nat) : Nat := p / 10
/-- Ports LINK_PORTS grants (12 R253; 14 R324). -/
def State.linkPorts (s : State) : Nat := [0, 4, 10, 20].getD s.licPorts.toNat 0
/-- Whether a port is fused off (12 R253; 14 R314). -/
def State.portFused (s : State) (p : Nat) : Bool :=
  s.fuses.portOff.toNat.testBit p || (s.fuses.gradeB && [8, 9, 18, 19].contains p)
/-- Whether a port lies within LINK_PORTS (12 R253). -/
def State.portLicensed (s : State) (p : Nat) : Bool := decide (p % 10 < s.linkPorts / 2)
/-- Whether a port is enabled (12 R253). -/
def State.portOn (s : State) (p : Nat) : Bool := decide (p < 20) && !s.portFused p && s.portLicensed p
/-- The link index of an enabled port: the enabled ports counted in ascending number from 0 (12 R253). -/
def State.linkIndex (s : State) (p : Nat) : Nat := ((List.range p).filter s.portOn).length
/-- Cells per tick at a width (12 Table LNK-1). -/
def linkCells (w : Nat) : Nat := if w = 20 then 576 else if w = 16 then 456 else if w = 10 then 264 else 0
/-- The current C of a port; one that is not UP has no width and counts at full width. -/
def Port.capacity (x : Port) : Nat := if x.txWidth = 0 then 576 else linkCells x.txWidth
/-- The width a number of good lanes gives (12 R256, R257). -/
def widthOf (good : Nat) : Nat := if 20 ≤ good then 20 else if 16 ≤ good then 16 else if 10 ≤ good then 10 else 0
/-- The port as a master for a partition (12 R269, R273). -/
def linkMaster (p : Nat) (part : Option Nat) : Master := { port := 42 + p, part := part, core := none }
/-- The turn number (11 R242). -/
def State.turn (s : State) : Nat := s.tick / 65536
/-- The transmit streams of a port with their contexts. -/
def State.txOn (s : State) (p : Nat) : List (Nat × TxStream) :=
  s.txs.filterMap fun e => e.2.bind fun x => if x.port = p then some (e.1, x) else none
/-- The receive contexts of a port. -/
def State.rxOn (s : State) (p : Nat) : List (Nat × RxStream) :=
  s.rxs.filterMap fun e => e.2.bind fun x => if x.port = p then some (e.1, x) else none

/-- Something leaves a port; while an injected silence lasts its CRC fails at the peer (17 R387). -/
def State.linkSend (s : State) (p : Nat) (what : LinkOut) : State :=
  let silent := match (s.lport p).silentTo with | some t => !s.reached t | none => false
  { s with linkOut := s.linkOut ++ [{ port := p, tick := s.tick, bad := silent, what := what }] }
/-- A control message goes out under the port's next number, in the headers of two consecutive frames (12 R261); `cmd` is the WCS command
that waits for that. -/
def State.sendMsg (s : State) (p : Nat) (m : LinkMsg) (cmd : Option (Nat × Nat) := none) : State :=
  let x := s.lport p
  s.setPort p { x with msgNo := x.msgNo + 1, outbox := x.outbox ++ [{ num := x.msgNo, msg := m, cmd := cmd }] }

/-- A context freed (12 R264); STREAM_CANCELs that named it complete (13 R297). -/
def State.freeCtx (s : State) (c : Nat) : State :=
  let s := ((s.setTx c none).setRx c none).dropAccs fun w => match w with | .linkTx k | .linkRx k => k == c | _ => false
  let done := s.host.cancels.filter fun k => k.1 = c
  let s := { s with host := { s.host with cancels := s.host.cancels.filter fun k => k.1 != c } }
  done.foldl (fun s k => s.complete k.2.1 k.2.2 0 0 []) s

/-- A transmit stream ends with a fault of its SEND, unless a reset abandoned the command. -/
def State.txFault (s : State) (c : Nat) (x : TxStream) (code detail : Nat) : State :=
  let s := s.freeCtx c
  if x.dead then s else s.faultCmd x.core x.queue x.idx { code := code, detail := detail }
/-- A receive stream ends with a fault of its RECV, unless a reset abandoned the command. -/
def State.rxFault (s : State) (c : Nat) (x : RxStream) (code detail : Nat) : State :=
  let s := s.freeCtx c
  if x.dead then s else s.faultCmd x.core x.queue x.idx { code := code, detail := detail }

/-- BROKEN counted (12 R280). -/
def State.countBroken (s : State) (p : Nat) : State :=
  let x := s.lport p
  s.setPort p { x with broken := satAdd x.broken 1 }
/-- CANCELLED counted. -/
def State.countCancelled (s : State) (p : Nat) : State :=
  let x := s.lport p
  s.setPort p { x with cancelled := satAdd x.cancelled 1 }
/-- STALE counted. -/
def State.countStale (s : State) (p : Nat) : State :=
  let x := s.lport p
  s.setPort p { x with stale := satAdd x.stale 1 }

/-- The receiver closes a stream (12 R272, R273; 17 Table ERR-3): the partial burst is discarded, the RECV faults, STREAM_RESET is
sent. -/
def State.closeRx (s : State) (c : Nat) (x : RxStream) (code detail cause : Nat) : State :=
  ((s.countBroken x.port).sendMsg x.port (.streamReset (BitVec.ofNat 15 x.sctx) x.epoch cause)).rxFault c x code detail
/-- The cause of a STREAM_RESET whose number no rule gives: a free value. -/
def State.resetCause (s : State) : Nat := (Config.freeWord s.free 0).toNat

/-! ### Commands (R264 to R268) -/

/-- Bytes of the stream a descriptor names (12 R265). -/
def Desc.streamBytes (d : Desc) : Nat := (d.exts.foldl (· * ·) 1 * d.fm.bits + 7) / 8
/-- Whether a stream's descriptor has a plane. -/
def planeFault (h : Nat) (d : Desc) : Option (Nat × Nat) := if d.hasPlane then some (cQueDescFormat, h) else none

/-- How far ahead of the counter a position lies, in drops (11 R241). -/
def State.ahead (s : State) (pos : Nat) : Int := signedOf 58 (pos + 2 ^ 58 - s.pos % 2 ^ 58)
/-- How far ahead of the counter a tick lies (11 R241). -/
def State.ticksAhead (s : State) (t : Nat) : Int := signedOf 48 (t % 2 ^ 48 + 2 ^ 48 - s.tick)
/-- The tick a stream starts at and the tick it is expected to end at, counted from now (12 R268). -/
def State.span (s : State) (x : TxStream) : Int × Int :=
  let t := s.ticksAhead x.startTick
  (t, max (t + ((x.cells + x.rate - 1) / x.rate : Nat)) ((x.cells - x.sent + x.rate - 1) / x.rate : Nat))
/-- Cells a port has reserved `t` ticks from now (12 R268). -/
def State.reserved (s : State) (p : Nat) (t : Int) : Nat :=
  (((s.txOn p).filter fun e => decide ((s.span e.2).1 ≤ t) && decide (t < (s.span e.2).2)).map fun e => e.2.rate).sum
/-- Whether a stream fits at every tick from `t0` to before `t1`, counted from now: the sum of rates can rise only where a stream starts. -/
def State.rateFits (s : State) (p rate : Nat) (t0 t1 : Int) : Bool :=
  (t0 :: ((s.txOn p).map fun e => (s.span e.2).1).filter fun t => decide (t0 ≤ t) && decide (t < t1)).all fun t =>
    decide (s.reserved p t + rate ≤ (s.lport p).capacity)
/-- The horizon in ticks (11 R249). -/
def State.horizon (s : State) : Nat := if s.licLong then 2 ^ 32 else 65536
/-- Whether a partition's contexts hold a number (12 R264). -/
def State.ctxMine (s : State) (part c : Nat) : Bool :=
  decide ((s.part part).strBase.toNat ≤ c) && decide (c < (s.part part).strBase.toNat + (s.part part).strCount.toNat)
/-- Whether a context is open. -/
def State.ctxOpen (s : State) (c : Nat) : Bool := (s.tx c).isSome || (s.rx c).isSome

/-- The checks SEND and RECV share after their handles (12 Table LNK-3). -/
def State.linkChecks (s : State) (part p c : Nat) : Option Nat :=
  if !s.ctxMine part c then some cLnkCtxDenied
  else if s.ctxOpen c then some cLnkCtxBusy
  else if (s.lport p).st ≠ .up then some cLnkPortDown
  else none

/-- The receiver answers an admission request: it grants, refuses with a reason, or keeps the request (12 R267). -/
def State.answerAdmit (s : State) (p since : Nat) (m : LinkMsg) : State :=
  match m with
  | .admitReq sctx rctx tag bytes _ start =>
    let c := rctx.toNat
    let refuse (reason : Nat) : State := s.sendMsg p (.admitRefuse sctx reason)
    let older (e : Nat × LinkMsg) : Bool := decide (s.ticksAhead e.1 ≤ s.ticksAhead since)
    let kept := (s.lport p).admits
    let keep : State := s.setPort p { s.lport p with admits := kept.takeWhile older ++ [(since, m)] ++ kept.dropWhile older }
    match s.rx c, s.tx c with
    | some x, _ =>
      if x.port ≠ p then refuse 4
      else if x.admitted then keep
      else if x.tag ≠ tag then refuse 1
      else if x.bytes ≠ bytes then refuse 2
      else
        let from_ := if start = 0 ∨ s.reached (start.toNat / 1024) then s.tick else start.toNat / 1024
        (s.setRx c (some { x with admitted := true, sctx := sctx.toNat, gapFrom := from_ })).sendMsg p (.admitGrant sctx x.epoch)
    | none, some x => if x.port ≠ p then refuse 4 else keep
    | none, none => keep
  | _ => s

/-- Requests kept for a context that is now open, looked at again at every port (12 R267). -/
def State.admitKept (s : State) (c : Nat) : State :=
  let mine (e : Nat × LinkMsg) : Bool := match e.2 with | .admitReq _ r _ _ _ _ => r.toNat == c | _ => false
  (List.range 20).foldl
    (fun s p =>
      let x := s.lport p
      if x.admits.any mine then
        (x.admits.filter mine).foldl (fun s e => s.answerAdmit p e.1 e.2) (s.setPort p { x with admits := x.admits.filter fun e => !mine e })
      else s) s

/-- A port's engine holds a further offered command (12 R266). -/
def State.offerRoom (s : State) (p n q : Nat) : Bool := (s.lport p).offered.contains (n, q) || decide ((s.lport p).offered.length < 64)
/-- The command of a queue that its port's engine is offered, held while its checks have to wait for its descriptors, or let go of. -/
def State.offer (s : State) (p n q : Nat) (hold : Bool) : State :=
  let x := s.lport p
  s.setPort p { x with offered := x.offered.filter (fun e => e != (n, q)) ++ if hold then [(n, q)] else [] }

/-- SEND at issue (12 R264 to R268). -/
def cmdSend (s : State) (n q : Nat) (c : Cmd) : State :=
  let w1 := wordOf c 1
  let w2 := wordOf c 2
  let w3 := wordOf c 3
  let p := bitsOf w3 59 5
  let ctx := bitsOf w3 44 15
  let rate := bitsOf w3 19 10
  let start := w1 % 2 ^ 58
  let h := w2 % 4096
  if !s.gateOpen n then s.waitEngine n q
  else if bitsOf w2 16 16 = 0 ∨ rate = 0 ∨ 20 ≤ p ∨ (s.lport p).capacity < rate then s.refuseCmd n q c cQueBadCommand 0
  else if !s.portOn p then s.refuseCmd n q c cQueEngineAbsent (Config.engineDetail p (!s.portFused p)).toNat
  else if !s.offerRoom p n q then s.waitEngine n q
  else
    let r := s.useDescs n [(h, [0])]
    let t := r.1.offer p n q false
    match r.2.2, s.partOf n with
    | some (.fault code det), _ => t.refuseCmd n q c code det
    | some _, _ => r.1.offer p n q true
    | none, none => t.refuseCmd n q c cNetPartDenied 0
    | none, some part =>
      let s := t
      let src := r.2.1.headD 0
      let bytes := src.streamBytes
      let cells := (bytes + 511) / 512
      match planeFault h src, s.linkChecks part p ctx with
      | some f, _ => s.refuseCmd n q c f.1 f.2
      | none, some code => s.refuseCmd n q c code 0
      | none, none =>
        let t0 := if start = 0 then s.tick else start / 1024
        let n0 := (cells + rate - 1) / rate
        if start ≠ 0 ∧ !(s.lport p).sync then s.refuseCmd n q c cLnkNotSynced 0
        else if (start ≠ 0 ∧ (s.horizon * 1024 : Nat) < s.ahead start) ∨ (!s.licLong ∧ 65536 < n0) then
          s.refuseCmd n q c cClpBeyondTurn 0
        else if !s.rateFits p rate (s.ticksAhead t0) (max (s.ticksAhead t0 + n0) n0) ∨ 256 ≤ (s.txOn p).length then
          s.refuseCmd n q c cLnkAdmitNoRate 0
        else
          let x : TxStream :=
            { port := p, core := n, queue := q, idx := (s.queue n q).ptr.toNat, peer := bitsOf w3 29 15,
              tag := BitVec.ofNat 32 (w2 >>> 32), bytes := bytes, cells := cells, rate := rate, start := start, startTick := t0,
              gap := bitsOf w2 16 16, src := src, feed := if w3.testBit 18 then some (w3 % 4096) else none, admitted := none,
              epoch := 0, sent := 0, lastTick := none, cancel := none, dead := false }
          let s := ((s.launchCmd n q c).setTx ctx (some x)).sendMsg p
            (.admitReq (BitVec.ofNat 15 ctx) (BitVec.ofNat 15 x.peer) x.tag bytes (BitVec.ofNat 10 rate) (BitVec.ofNat 58 start))
          s.admitKept ctx

/-- The handles of a RECV whose shape R265 does not accept. -/
def recvShape (c : Cmd) (ds : List Desc) : Option (Nat × Nat) :=
  let w1 := wordOf c 1
  let w2 := wordOf c 2
  let dst := ds.getD 0 0
  let spill := ds.getD 1 0
  let opnd := ds.getD 2 0
  let comb := bitsOf w2 9 2
  let fp (d : Desc) : Bool := d.fm == .fp32 || d.fm == .bf16
  if dst.hasPlane ∨ (comb ≠ 0 ∧ !fp dst) then some (cQueDescFormat, bitsOf w1 36 12)
  else if spill.fm ≠ .int8 then some (cQueDescFormat, bitsOf w1 24 12)
  else if spill.ndim ≠ 1 ∨ spill.ext 0 < bitsOf w2 4 4 * bitsOf w1 48 12 * 512 then some (cQueDescShape, bitsOf w1 24 12)
  else if comb ≠ 0 ∧ !fp opnd then some (cQueDescFormat, bitsOf w1 12 12)
  else if comb ≠ 0 ∧ opnd.exts ≠ dst.exts then some (cQueDescShape, bitsOf w1 12 12)
  else none

/-- RECV at issue (12 R264 to R267). -/
def cmdRecv (s : State) (n q : Nat) (c : Cmd) : State :=
  let w1 := wordOf c 1
  let w2 := wordOf c 2
  let w3 := wordOf c 3
  let p := bitsOf w2 11 5
  let comb := bitsOf w2 9 2
  let ctx := w3 >>> 49
  if bitsOf w1 48 12 = 0 ∨ bitsOf w2 16 16 = 0 ∨ comb = 3 ∨ bitsOf w2 4 4 < 2 ∨ 20 ≤ p then s.refuseCmd n q c cQueBadCommand 0
  else if !s.portOn p then s.refuseCmd n q c cQueEngineAbsent (Config.engineDetail p (!s.portFused p)).toNat
  else if comb ≠ 0 ∧ !s.licMulti then s.refuseCmd n q c cQueEngineAbsent (Config.engineDetail p true).toNat
  else if !s.offerRoom p n q then s.waitEngine n q
  else
    let r := s.useDescs n ([(bitsOf w1 36 12, [0]), (bitsOf w1 24 12, [0])] ++ if comb = 0 then [] else [(bitsOf w1 12 12, [0])])
    let t := r.1.offer p n q false
    match r.2.2, s.partOf n with
    | some (.fault code det), _ => t.refuseCmd n q c code det
    | some _, _ => r.1.offer p n q true
    | none, none => t.refuseCmd n q c cNetPartDenied 0
    | none, some part =>
      let s := t
      let dst := r.2.1.headD 0
      match recvShape c r.2.1, s.linkChecks part p ctx with
      | some f, _ => s.refuseCmd n q c f.1 f.2
      | none, some code => s.refuseCmd n q c code 0
      | none, none =>
        if 256 ≤ (s.rxOn p).length then s.refuseCmd n q c cLnkAdmitNoRate 0
        else
          let e := Map.get 0 s.epochs ctx + 1
          let x : RxStream :=
            { port := p, core := n, queue := q, idx := (s.queue n q).ptr.toNat, tag := BitVec.ofNat 32 (w2 >>> 32),
              gap := bitsOf w2 16 16, dst := dst, spill := r.2.1.getD 1 0, opnd := r.2.1.getD 2 0, comb := comb,
              burst := bitsOf w1 48 12, spilln := bitsOf w2 4 4, bflag := if w2.testBit 8 then some (w1 % 4096) else none,
              armTick := s.tick, armLimit := bitsOf w3 24 24, epoch := e, sctx := 0, admitted := false, bytes := dst.streamBytes,
              cells := (dst.streamBytes + 511) / 512, gapFrom := 0, next := 0, committed := 0, out := none, waiting := [],
              drain := none, dead := false }
          (({ s.launchCmd n q c with epochs := Map.set 0 s.epochs ctx e }).setRx ctx (some x)).admitKept ctx

/-! ### The sender (R269, R274, R275) -/

/-- Codes as bytes, the lowest element in the lowest bits. -/
def packCodes (bits : Nat) (codes : List Nat) : List Byte :=
  leBytes ((codes.length * bits + 7) / 8) (codes.foldr (fun c a => c % 2 ^ bits + 2 ^ bits * a) 0)
/-- Bytes as `n` codes. -/
def unpackCodes (bits n : Nat) (bs : List Byte) : List Nat :=
  (List.range n).map fun i => (leNat ((bs.drop (i * bits / 8)).take 4) >>> (i * bits % 8)) % 2 ^ bits

/-- Elements `e` to `e + n - 1` of a plain tensor in descriptor order (12 R265), row by row. -/
def State.readElems (s : State) (w : Who) (m : Master) (d : Desc) (e n : Nat) : State × RowRes :=
  (pieces (d.ext 0) (n / d.ext 0 + 2) e n).foldl
    (fun acc p =>
      match acc.2 with
      | .ok cs _ =>
        let r := acc.1.readRow m d.fm (d.rowAt 0 (p.1 / d.ext 0)) (p.1 % d.ext 0) p.2 w
        match r.2 with
        | .ok c _ => (r.1, .ok (cs ++ c) [])
        | o => (r.1, o)
      | _ => acc)
    (s, .ok [] [])

/-- Elements of a stream in its first `b` bytes. -/
def Desc.elemsIn (d : Desc) (b : Nat) : Nat := min (b * 8 / d.fm.bits) (d.exts.foldl (· * ·) 1)

/-- What trying to send one cell comes to. -/
inductive SendRes where
  | sent (s : State)
  | notReady (s : State)
  | fault (s : State) (code detail : Nat)
  deriving DecidableEq, Repr

/-- One cell of an admitted stream, into a place of a frame (12 R269): it goes out if the feed flag allows it and its data has been
fetched. -/
def State.sendCell (s : State) (c : Nat) (x : TxStream) (place : Nat × Nat) : SendRes :=
  let part := s.partOf x.core
  let fed := match x.feed with
    | none => true
    | some f => decide (0 ≤ ((s.flag (part.getD 0) f).value - BitVec.ofNat 32 (x.sent + 1)).toInt)
  if !fed then .notReady s
  else
    let d := x.src
    let e0 := d.elemsIn (512 * x.sent)
    let e1 := d.elemsIn (512 * (x.sent + 1))
    let r := s.track (.linkTx c) RowRes.isWait fun s => s.readElems (.linkTx c) (linkMaster x.port part) d e0 (e1 - e0)
    match r.2 with
    | .fault code ma => .fault r.1 code ma
    | .wait => .notReady r.1
    | .ok cs _ =>
      let n := min 512 (x.bytes - 512 * x.sent)
      .sent (r.1.linkSend x.port (.cell place.1 place.2
        { ctx := BitVec.ofNat 15 x.peer, epoch := x.epoch, bytes := BitVec.ofNat 10 n, last := x.sent + 1 == x.cells,
          seq := BitVec.ofNat 32 x.sent, data := packCodes d.fm.bits cs }))

/-- Up to `n` cells of a stream into the places of the tick that are left; also the places left after them. -/
def State.sendCells (s : State) (c : Nat) : Nat → List (Nat × Nat) → State × List (Nat × Nat)
  | n + 1, place :: places =>
    match s.tx c with
    | none => (s, place :: places)
    | some x =>
      if x.cells ≤ x.sent then (s, place :: places)
      else
        match s.sendCell c x place with
        | .notReady t => (t, place :: places)
        | .fault t code det =>
          ((t.sendMsg x.port (.streamReset (BitVec.ofNat 15 x.peer) x.epoch t.resetCause)).draw.txFault c x code det, place :: places)
        | .sent t =>
          (t.setTx c (some { x with sent := x.sent + 1, lastTick := if x.sent + 1 = x.cells then some s.tick else none })).sendCells c n places
  | _, places => (s, places)

/-- Streams in the order they are served: ascending START, then admission (12 R269); positions are compared by how far they lie from the
counter (11 R241). -/
def State.serveBefore (s : State) (a b : Nat × TxStream) : Bool :=
  let key (x : TxStream) : Int := s.ahead (if x.start = 0 then x.startTick * 1024 else x.start)
  decide (key a.2 < key b.2) || (key a.2 == key b.2 && decide (a.2.admitted.getD 0 ≤ b.2.admitted.getD 0))
/-- A stream put into its place of the order. -/
def State.serveInsert (s : State) (a : Nat × TxStream) : List (Nat × TxStream) → List (Nat × TxStream)
  | [] => [a]
  | b :: bs => if s.serveBefore a b then a :: b :: bs else b :: s.serveInsert a bs
/-- Whether a stream's START has been reached (11 R249): one admitted late starts at the next tick boundary (12 R268). -/
def State.txDue (s : State) (x : TxStream) : Bool :=
  x.admitted.isSome && s.reached x.startTick && (x.start == 0 || decide (s.ahead x.start ≤ 0))

/-- The cells of a data frame that no block of the given logical lanes touches (12 R257, R259). -/
def cellsClear (w : Nat) (lanes : List Nat) : List Nat :=
  (List.range (linkCells w / 24)).filter fun c => lanes.all fun l =>
    decide (128 + 528 * c + 528 ≤ 640 * l) || decide (640 * (l + 1) ≤ 128 + 528 * c)

/-- The places of a tick a port may fill, by frame and cell: those overlapping a failing lane's block stay empty until the change applies
(12 R257). -/
def Port.places (x : Port) : List (Nat × Nat) :=
  let cs := cellsClear x.txWidth ((List.range x.txMap.length).filter fun l => x.txFailed.toNat.testBit (x.txMap.getD l 22))
  (List.range 24).flatMap fun f => cs.map fun c => (f, c)

/-- The header of frame `f` of the present tick with its messages (12 R259). -/
def State.frameHdr (s : State) (p f : Nat) (ms : List OutMsg) : FrameHdr :=
  let x := s.lport p
  { turn := BitVec.ofNat 32 s.turn, tickLo := BitVec.ofNat 16 s.tick, fidx := BitVec.ofNat 5 f, width := BitVec.ofNat 5 x.txWidth,
    node := s.bup.node, link := BitVec.ofNat 5 (s.linkIndex p), locked := s.clp.mode == .locked, laneFail := x.rxFailed,
    msgs := ms.map fun m => (m.num, m.msg) }

/-- One frame header sent (12 R259, R261): it carries the two messages at the front of the outbox; one sent twice is gone, and the WCS
command that waited for it completes (13 R297). -/
def State.sendHdr (s : State) (p f : Nat) : State :=
  let x := s.lport p
  let now := x.outbox.take 2
  let sent := now.map fun m => { m with left := m.left - 1 }
  let s := (s.setPort p { x with outbox := (sent.filter fun m => m.left != 0) ++ x.outbox.drop 2 }).linkSend p (.hdr (s.frameHdr p f now))
  ((sent.filter fun m => m.left == 0).filterMap OutMsg.cmd).foldl (fun s c => s.complete c.1 c.2 0 0 []) s

/-- The headers of a tick's frames: 24 data frames and a control frame (12 R258; a second control frame, sent where the line clock runs
fast, is left out: assumption log). -/
def State.sendHdrs (s : State) (p : Nat) : State := (List.range 25).foldl (fun s f => s.sendHdr p f) s

/-- A cancellation takes effect at the sender's tick boundary (12 R275): CANCEL names the last cell sent; the SEND faults, or was
abandoned. -/
def State.cancelTx (s : State) (c : Nat) (x : TxStream) (why : Option Nat) : State :=
  let s := s.countCancelled x.port
  let s := match x.admitted with
    | some _ => s.sendMsg x.port
        (.cancel (BitVec.ofNat 15 x.peer) x.epoch (if x.sent = 0 then none else some (BitVec.ofNat 32 (x.sent - 1))))
    | none => s
  match why with
  | some code => s.txFault c x code 0
  | none => s.freeCtx c

/-! ### The receiver (R270 to R275) -/

/-- One element combined with its operand: exact in FP32, one rounding to the destination format (12 R270; 02 R27, R28). The flags of
the combination reach no core's sticky flags: DESIGN CHOICE (the unit belongs to a port, and R28 keeps the flags per core). -/
def combine (comb : Nat) (fd fo : Fmt) (draw a b : Nat) : Nat :=
  let va := fpVal fd a
  let vb := fpVal fo b
  if comb = 1 then
    let r := xsum [va, vb]
    (fpRound fd r.1 r.2).1
  else
    let c (v : XV) : Nat := (fpRound .fp32 v false).1
    (fpRound fd (fpVal .fp32 (fpMax .fp32 false (Config.freeBit draw 0) (c va) (c vb)).1) false).1

/-- A burst read from its place of the spillway, combined, and cut into the rows it is written to. -/
def State.formBurst (s : State) (w : Who) (x : RxStream) : State × RowRes × List (Nat × Nat × List Nat) :=
  let m := linkMaster x.port (s.partOf x.core)
  let d := x.dst
  let b0 := x.committed * x.burst * 512
  let b1 := min x.bytes ((x.committed + 1) * x.burst * 512)
  let e0 := d.elemsIn b0
  let n := d.elemsIn b1 - e0
  let r := s.readMA w m (ma48 ((x.spill.base + (x.committed % x.spilln) * x.burst * 512 : Nat) : Int)) (b1 - b0)
  let o := if x.comb = 0 then (r.1, RowRes.ok [] []) else r.1.readElems w m x.opnd e0 n
  match r.2, o.2 with
  | .wait, _ | _, .wait => (o.1, .wait, [])
  | .fault code ma, _ | _, .fault code ma => (o.1, .fault code ma, [])
  | .ok bs, .ok ops _ =>
    let codes := unpackCodes d.fm.bits n bs
    let codes := if x.comb = 0 then codes else (codes.zip ops).map fun p => combine x.comb d.fm x.opnd.fm s.free p.1 p.2
    let segs := (pieces (d.ext 0) (n / d.ext 0 + 2) e0 n).map fun p =>
      (p.1 / d.ext 0, p.1 % d.ext 0, (codes.drop (p.1 - e0)).take p.2)
    (o.1.draw, .ok [] [], segs)

/-- The outcome of two rows: a wait before a fault, and of two faults the first. -/
def RowRes.both : RowRes → RowRes → RowRes
  | .wait, _ | _, .wait => .wait
  | .ok _ _, o => o
  | o, _ => o

/-- Every row of a burst written to the destination. -/
def State.writeBurst (s : State) (w : Who) (x : RxStream) (segs : List (Nat × Nat × List Nat)) : State × RowRes :=
  segs.foldl
    (fun (acc : State × RowRes) g =>
      let r := acc.1.writeRow (linkMaster x.port (s.partOf x.core)) x.dst.fm (x.dst.rowAt 0 g.1) g.2.1 g.2.2 [] w
      (r.1, acc.2.both r.2)) (s, .ok [] [])

/-- A receive stream goes on as far as the memory lets it: cells into the spillway, complete bursts into the destination in burst
order, each followed by its flag; then CLOSE, or the end of a cancelled stream (12 R270, R271, R275). Nothing of a burst is written
where one of its writes faults at once. `fuel` bounds the steps. -/
def State.rxRun (s : State) (c : Nat) : Nat → State
  | 0 => s
  | fuel + 1 =>
    match s.rx c with
    | none => s
    | some x =>
      let m := linkMaster x.port (s.partOf x.core)
      let w : Who := .linkRx c
      match x.waiting with
      | (seq, bs) :: rest =>
        let a := s.track w AccRes.isWait fun s =>
          s.writeMA w m (ma48 ((x.spill.base + ((seq / x.burst % x.spilln) * x.burst + seq % x.burst) * 512 : Nat) : Int)) bs
        match a.2 with
        | .fault code ma => (a.1.closeRx c x code ma a.1.resetCause).draw
        | .wait => a.1
        | .ok _ => (a.1.setRx c (some { x with waiting := rest })).rxRun c fuel
      | [] =>
        if x.cells ≤ x.committed * x.burst then
          let s := s.sendMsg x.port (.close (BitVec.ofNat 15 x.sctx) x.epoch x.bytes)
          let s := s.freeCtx c
          if x.dead then s else s.completeCmd x.core x.queue x.idx
        else if min ((x.committed + 1) * x.burst) x.cells ≤ x.next then
          match x.out with
          | none =>
            let r := s.track w (fun r : RowRes × List (Nat × Nat × List Nat) => r.1.isWait) fun s => s.formBurst w x
            match r.2.1 with
            | .fault code ma => (r.1.closeRx c x code ma r.1.resetCause).draw
            | .wait => r.1
            | .ok _ _ => (r.1.setRx c (some { x with out := some r.2.2 })).rxRun c fuel
          | some segs =>
            let r := s.track w RowRes.isWait fun s => s.writeBurst w x segs
            match r.2 with
            | .fault code ma =>
              let t := if (s.accOf w).isSome then r.1 else s
              (t.closeRx c x code ma t.resetCause).draw
            | .wait => r.1
            | .ok _ _ =>
              let s := r.1.setRx c (some { x with committed := x.committed + 1, out := none })
              ((if x.dead then s else s.signal x.core x.queue (x.bflag.map fun f => (f, 1)))).rxRun c fuel
        else
          match x.drain with
          | some d =>
            if d ≤ x.next then (s.countCancelled x.port).rxFault c x cLnkStreamCancelled 0 else s
          | none => s

/-- Steps one call may need: a burst's rows, its cells, its commit. -/
def RxStream.fuel (x : RxStream) : Nat := 2 * x.cells + x.bytes + 8

/-- The receive streams of a port go on. -/
def State.rxAll (s : State) (p : Nat) : State := (s.rxOn p).foldl (fun s e => s.rxRun e.1 e.2.fuel) s

/-- SEND_TICK (12 R258, R259, R269, R275): cancellations take effect, then each admitted stream whose START is reached sends up to RATE
ready cells into the places left, and the headers of the tick's frames go out. A port that trains sends headers alone (R262). -/
def sendTick (s : State) (p : Nat) : State :=
  let x := s.lport p
  if x.lastTick = some s.tick then s
  else
    let s := s.setPort p { x with lastTick := some s.tick }
    match x.st with
    | .up =>
      let s := (s.txOn p).foldl (fun s e => match e.2.cancel with | some why => s.cancelTx e.1 e.2 why | none => s) s
      let ready := ((s.txOn p).filter fun e => s.txDue e.2).foldl (fun l e => s.serveInsert e l) []
      let r := ready.foldl (fun (acc : State × List (Nat × Nat)) e => acc.1.sendCells e.1 e.2.rate acc.2) (s, x.places)
      (r.1.rxAll p).sendHdrs p
    | .training => s.sendHdrs p
    | _ => s

/-- A cell that has passed its checks reaches its stream (12 R270, R273). -/
def State.deliver (s : State) (p : Nat) (cell : Cell) : State :=
  let c := cell.ctx.toNat
  match s.rx c with
  | none => s.countStale p
  | some x0 =>
    if x0.port ≠ p ∨ !x0.admitted ∨ x0.epoch ≠ cell.epoch then s.countStale p
    else
      let s := s.rxRun c x0.fuel
      match s.rx c with
      | none => s.countStale p
      | some x =>
        let seq := cell.seq.toNat
        let past := match x.drain with | some d => decide (d ≤ seq) | none => false
        if decide (seq < x.next) || past then s.countStale p
        else if x.next < seq then s.closeRx c x cLnkStreamBroken 2 2
        else if x.committed + x.spilln ≤ seq / x.burst then (s.closeRx c x cLnkSpillOverrun 0 s.resetCause).draw
        else
          (s.setRx c (some { x with next := seq + 1, gapFrom := s.tick,
                                    waiting := x.waiting ++ [(seq, cell.data.take cell.bytes.toNat)] })).rxRun c x.fuel

/-! ### Timers -/

/-- LNK_STREAM_BROKEN (12 R272): the gap limit passes with no newer cell; a stream already cancelled ends as cancelled (R275). -/
def streamBroken (s : State) (c : Nat) : State :=
  match s.rx c with
  | none => s
  | some x =>
    if !x.admitted || !s.reached (x.gapFrom + x.gap) then s
    else
      match x.drain with
      | some _ => (s.countCancelled x.port).rxFault c x cLnkStreamCancelled 0
      | none => s.closeRx c x cLnkStreamBroken 1 1

/-- LNK_NO_CLOSE (12 R271). -/
def noClose (s : State) (c : Nat) : State :=
  match s.tx c with
  | none => s
  | some x =>
    match x.lastTick with
    | some t => if s.reached (t + x.gap) then s.txFault c x cLnkNoClose 0 else s
    | none => s

/-- LNK_ARM_TIMEOUT (12 R267). -/
def armTimeout (s : State) (c : Nat) : State :=
  match s.rx c with
  | none => s
  | some x => if x.admitted || x.armLimit == 0 || !s.reached (x.armTick + x.armLimit) then s else s.rxFault c x cLnkArmTimeout 0

/-- ADMIT_WAIT_EXPIRY (12 R267): the oldest request a port has kept for ADMIT_WAIT ticks is refused; 0 counts as 1. -/
def admitExpiry (s : State) (p : Nat) : State :=
  let x := s.lport p
  match x.admits.find? fun e => s.reached (e.1 + max 1 x.admitWait.toNat) with
  | some (t, .admitReq sctx r tag b rate st) =>
    (s.setPort p { x with admits := x.admits.erase (t, .admitReq sctx r tag b rate st) }).sendMsg p (.admitRefuse sctx 3)
  | _ => s

/-! ### Messages about streams -/

/-- ADMIT_GRANT (12 R267, R268): the stream is admitted with the receiver's EPOCH; a START already past is late (11 R249). -/
def State.granted (s : State) (p c : Nat) (epoch : Byte) : State :=
  match s.tx c with
  | none => s
  | some x =>
    if x.port ≠ p ∨ x.admitted.isSome then s
    else
      let late := decide (x.start ≠ 0) && decide (s.ahead x.start ≤ 0)
      let x := { x with admitted := some s.admNo, epoch := epoch,
                        startTick := if x.start = 0 then s.tick else if late then s.tick + 1 else x.startTick }
      let s := if late then { s with clp := { s.clp with late := satAdd s.clp.late 1 } } else s
      { s with admNo := s.admNo + 1 }.setTx c (some x)

/-- ADMIT_REFUSE. -/
def State.admitRefused (s : State) (p c reason : Nat) : State :=
  match s.tx c with
  | none => s
  | some x => if x.port ≠ p ∨ x.admitted.isSome then s else s.txFault c x cLnkAdmitRefused reason

/-- CANCEL (12 R275): the receiver drains. -/
def State.cancelRx (s : State) (p c : Nat) (epoch : Byte) (last : Option (BitVec 32)) : State :=
  match s.rx c with
  | none => s
  | some x =>
    if x.port ≠ p ∨ !x.admitted ∨ x.epoch ≠ epoch then s
    else
      let d := match last with | some q => q.toNat + 1 | none => 0
      (s.setRx c (some { x with drain := some d })).rxRun c x.fuel

/-- STREAM_RESET (12 R274, R275): either end stops at once; the partial burst is discarded. Cause 3 says that the stream was
cancelled. -/
def State.streamReset (s : State) (p c : Nat) (epoch : Byte) (cause : Nat) : State :=
  match s.tx c, s.rx c with
  | some x, _ =>
    if x.port ≠ p ∨ x.admitted.isNone ∨ x.epoch ≠ epoch then s
    else if cause = 3 then (s.countCancelled p).txFault c x cLnkStreamCancelled 0
    else s.txFault c x cLnkStreamReset 0
  | none, some x =>
    if x.port ≠ p ∨ !x.admitted ∨ x.epoch ≠ epoch then s else s.rxFault c x cLnkStreamReset 0
  | none, none => s

/-- CLOSE (12 R271): the SEND completes. -/
def State.closed (s : State) (p c : Nat) (epoch : Byte) : State :=
  match s.tx c with
  | none => s
  | some x =>
    if x.port ≠ p ∨ x.epoch ≠ epoch ∨ x.admitted.isNone then s
    else
      let s := s.freeCtx c
      if x.dead then s else s.completeCmd x.core x.queue x.idx

/-- A stream is asked to end (12 R275): at the sender from its next tick boundary, at the receiver by a STREAM_RESET carrying cause 3.
`why` is the fault its command takes; none where a reset abandons it. -/
def State.cancelStream (s : State) (c : Nat) (why : Option Nat) : State :=
  let dead := why.isNone
  match s.tx c, s.rx c with
  | some x, _ =>
    if x.cancel.isSome then s.setTx c (some { x with dead := x.dead || dead })
    else s.setTx c (some { x with cancel := some why, dead := x.dead || dead })
  | none, some x =>
    let x := { x with dead := x.dead || dead }
    let s := s.countCancelled x.port
    let s := if x.admitted then s.sendMsg x.port (.streamReset (BitVec.ofNat 15 x.sctx) x.epoch 3) else s
    s.rxFault c x cLnkStreamCancelled 0
  | none, none => s

/-! ### Lanes and port states (R256, R257, R262, R263, R276, R277) -/

/-- Whether a port is synchronised (12 R263). -/
def State.syncNow (s : State) (x : Port) : Bool :=
  x.st == .up && s.clp.mode == .locked && x.peerLocked && x.peerTurn.toNat == s.turn && x.tickNear
/-- SYNC formed anew; a change is posted (12 R263). -/
def State.refreshSync (s : State) (p : Nat) : State :=
  let x := s.lport p
  let now := s.syncNow x
  if now = x.sync then s
  else (s.setPort p { x with sync := now }).postEv (3 + portHome p) cLnkSyncChanged none [p, x.sync.toNat, now.toNat, 0]
/-- SYNC of every port. -/
def State.refreshSyncs (s : State) : State := (List.range 20).foldl State.refreshSync s

/-- The code of a port state. -/
def PortSt.code : PortSt → Nat
  | .disabled => 0 | .down => 1 | .training => 2 | .up => 3

/-- A port goes DOWN (12 R277): its streams fault, partial bursts are discarded, contexts are freed. -/
def State.portDown (s : State) (p : Nat) : State :=
  let x := s.lport p
  if x.st ≠ .up ∧ x.st ≠ .training then s
  else
    let s := (s.txOn p).foldl (fun s e => s.txFault e.1 e.2 cLnkPortDown 0) s
    let s := (s.rxOn p).foldl (fun s e => s.rxFault e.1 e.2 cLnkPortDown 0) s
    let y := s.lport p
    let s := s.setPort p { y with st := .down, txWidth := 0, rxWidth := 0, txPlan := [], rxPlan := [], admits := [], outbox := [], good := 0 }
    (s.refreshSync p).postEv (3 + portHome p) cLnkPortDown none [p, x.st.code, 1, 0]

/-- The element of a Moarex lane (15 Table BUP-7). -/
def laneElem (p : Nat) (rx : Bool) (l : Nat) : Nat := p * 2 ^ 27 + (if rx then 2 ^ 26 else 0) + l
/-- The turn whose boundary is the first at least 16 ticks from now (12 R257). -/
def State.laneTurn (s : State) : Nat := (s.tick + 16 + 65535) / 65536
/-- A lane of a map replaced by an unused good one, else the map narrowed (12 R257). -/
def replan (map : List Nat) (failed : Nat) (lane : Nat) : List Nat :=
  let good := (List.range 22).filter fun l => !failed.testBit l
  match good.find? fun l => !map.contains l with
  | some l => map.map fun k => if k = lane then l else k
  | none => (map.filter fun k => !failed.testBit k).take (widthOf (map.filter fun k => !failed.testBit k).length)

/-- A receive lane declared failing (12 R256): posted, recorded, reported; a change of a lane in use is planned and announced. -/
def State.declareLane (s : State) (p l : Nat) : State :=
  let x := s.lport p
  if x.rxFailed.toNat.testBit l ∨ 22 ≤ l then s
  else
    let failed := x.rxFailed ||| BitVec.ofNat 22 (2 ^ l)
    let s := s.setPort p { x with rxFailed := failed, rxGood := x.rxGood &&& ~~~(BitVec.ofNat 22 (2 ^ l)) }
    let s := s.repair (3 + portHome p) 0x0D (laneElem p true l) 5 0 none cLnkLaneFailing
    let cur := (x.rxPlan.getLast?.map LanePlan.map).getD x.rxMap
    if x.st ≠ .up ∨ !cur.contains l then s
    else
      let map := replan cur failed.toNat l
      let plan : LanePlan := { map := map, width := map.length, turn := BitVec.ofNat 32 s.laneTurn, lane := l }
      (s.setPort p { s.lport p with rxPlan := x.rxPlan ++ [plan] }).sendMsg p (.lanePlan true map map.length plan.turn)

/-- LANE_PLAN received (12 R257). -/
def State.planned (s : State) (p : Nat) (tx : Bool) (map : List Nat) (width : Nat) (turn : Word) : State :=
  let x := s.lport p
  if x.st ≠ .up then s
  else
    let cur := if tx then x.txMap else x.rxMap
    let plan : LanePlan := { map := map, width := width, turn := turn, lane := (cur.find? fun l => !map.contains l).getD 0 }
    s.setPort p (if tx then { x with txPlan := x.txPlan ++ [plan] } else { x with rxPlan := x.rxPlan ++ [plan] })

/-- Rates at a narrowed direction (12 R276): each becomes its share of the new capacity; a rate of 0 evicts the stream. -/
def State.scaleRates (s : State) (p c0 c1 : Nat) : State :=
  (s.txOn p).foldl
    (fun s e =>
      let r := e.2.rate * c1 / c0
      if r = 0 then s.setTx e.1 (some { e.2 with rate := 1, cancel := some (e.2.cancel.getD (some cLnkSchedEvicted)) })
      else s.setTx e.1 (some { e.2 with rate := r })) s

/-- One lane change takes effect (12 R257, R276, R277). -/
def State.applyPlan (s : State) (p : Nat) (rx : Bool) (plan : LanePlan) : State :=
  let x := s.lport p
  let w0 := if rx then x.rxWidth else x.txWidth
  if x.st ≠ .up then s
  else if plan.width < 10 then s.portDown p
  else
    let s := s.setPort p (if rx then { x with rxMap := plan.map, rxWidth := plan.width }
      else { x with txMap := plan.map, txWidth := plan.width })
    let elem := laneElem p rx plan.lane
    if plan.width < w0 then
      let s := if rx then s else s.scaleRates p (linkCells w0) (linkCells plan.width)
      let s := s.postEv (3 + portHome p) cLnkPortNarrowed none [p, w0, plan.width, 0]
      let s := if rx then s.repair (3 + portHome p) 0x0D elem 3 0 none else s
      s.profileChanged 14 4 (0x0D * 2 ^ 32 + elem) 0 0
    else if rx then
      s.repair (3 + portHome p) 0x0D elem 1 ((plan.map.find? fun l => !x.rxMap.contains l).getD 0) none
    else s

/-- The lane changes due at a turn boundary, and the counts of the turn that ended (12 R256, R257). -/
def State.laneChanges (s : State) (p : Nat) : State :=
  let x := s.lport p
  let due (l : LanePlan) : Bool := decide (0 ≤ (BitVec.ofNat 32 s.turn - l.turn).toInt)
  let s := s.setPort p { x with rxPlan := x.rxPlan.filter fun l => !due l, txPlan := x.txPlan.filter fun l => !due l, laneCorr := [] }
  let s := (x.rxPlan.filter due).foldl (fun s l => s.applyPlan p true l) s
  (x.txPlan.filter due).foldl (fun s l => s.applyPlan p false l) s

/-- Each enabled port that is not UP makes one training attempt at a turn boundary (12 R262; 14 R317): ports train from stage S4 on,
and not while their die is fenced. -/
def State.trainPort (s : State) (p : Nat) : State :=
  let x := s.lport p
  if !s.portOn p ∨ s.bup.stage.toNat < 4 ∨ s.dieFenced (portHome p) then s
  else
    match x.st with
    | .disabled | .down => s.setPort p { x with st := .training, good := 0 }
    | _ => s

/-- CELL_RECEIVE (12 R256, R260, R270): `corr` symbols corrected by lane, `bad` a lane whose codeword could not be corrected, the
header's check, and the cell, none for an empty place. -/
def cellReceive (s : State) (p : Nat) (corr : List (Nat × Nat)) (bad : Option Nat) (hcrc : Bool) (cell : Option Cell) : State :=
  let x := s.lport p
  if x.st ≠ .up then s
  else
    let lane := corr.foldl (fun m e => Map.set 0 m e.1 (Map.get 0 m e.1 + e.2)) x.laneCorr
    let s := s.setPort p { x with laneCorr := lane, corrected := satAdd x.corrected (corr.map Prod.snd).sum }
    let s := (lane.filter fun e => decide (65536 < e.2)).foldl (fun s e => s.declareLane p e.1) s
    match bad with
    | some l => (s.setPort p { s.lport p with uncorr := satAdd x.uncorr 1 }).declareLane p l
    | none =>
      if !hcrc then s.setPort p { s.lport p with hdrBad := satAdd x.hdrBad 1 }
      else
        match cell with
        | none => s
        | some c =>
          if x.dropCells ≠ 0 then s.setPort p { s.lport p with hdrBad := satAdd x.hdrBad 1, dropCells := x.dropCells - 1 }
          else s.deliver p c

/-- LANE_LOCK_LOST (12 R256): a lane loses lock or its skew passes 102.4 ns. -/
def laneLockLost (s : State) (p l : Nat) : State := if (s.lport p).st = .up then s.declareLane p l else s

/-- LNK_PORT_DOWN (12 R277): no good header for 16 ticks, a direction with fewer than 10 good lanes, or a fenced die. -/
def linkPortDown (s : State) (p : Nat) : State :=
  let x := s.lport p
  if x.st = .up ∧ (s.reached (x.lastHdr + 16) ∨ popCount 22 x.rxGood.toNat < 10 ∨
      22 - popCount 22 x.txFailed.toNat < 10 ∨ s.dieFenced (portHome p)) then s.portDown p
  else s

/-- The lanes of a direction that the repair record keeps out of use (12 R262; 15 Table BUP-7). -/
def State.lanesOut (s : State) (p : Nat) (rx : Bool) : BitVec 22 :=
  BitVec.ofNat 22 (((List.range 22).filter fun l => s.repairs.any fun e => e.cls.toNat == 0x0D && e.elem.toNat == laneElem p rx l).map (2 ^ ·)).sum

/-- PORT_UP (12 R262; 17 R378): training completes with the good lanes of each direction, those of the record left out; lanes found bad are
recorded. -/
def portUp (s : State) (p : Nat) (txFound rxFound : BitVec 22) (peerPort : BitVec 5) : State :=
  let x := s.lport p
  let txGood := txFound &&& ~~~(s.lanesOut p false)
  let rxGood := rxFound &&& ~~~(s.lanesOut p true)
  let tg := onesOf 22 txGood.toNat
  let rg := onesOf 22 rxGood.toNat
  if x.st ≠ .training ∨ x.good < 256 ∨ tg.length < 10 ∨ rg.length < 10 then s
  else
    let w (l : List Nat) : Nat := widthOf l.length
    let s := s.setPort p
      { x with st := .up, txGood := txGood, rxGood := rxGood, txMap := tg.take (w tg), rxMap := rg.take (w rg), txWidth := w tg,
               rxWidth := w rg, rxFailed := ~~~rxGood, txFailed := ~~~txGood, peerPort := peerPort, lastHdr := s.tick, seen := [],
               admits := [], txPlan := [], rxPlan := [], outbox := [] }
    let known (l : Nat) : Bool := s.repairs.any fun e => e.cls = 0x0D ∧ e.elem.toNat = laneElem p true l
    let s := ((List.range 22).filter fun l => !rxGood.toNat.testBit l && !known l).foldl
      (fun s l => s.repair (3 + portHome p) 0x0D (laneElem p true l) (if w rg = 20 then 1 else 3) 0 none) s
    (s.postEv (3 + portHome p) cLnkPortUp none [p, 2, 3, 0]).refreshSync p

end Sys2Proof.Machine
end

