-- ==== Sys2Proof/Machine/ClepOps.lean ====
section
/-! DEFINITION. The clepsydra: the cadence, acquisition, slews, uncertainty, steps of the counter and turn boundaries
(11 R239 to R249). -/

namespace Sys2Proof.Machine

/-! ### Steps -/

/-- A tick deadline moved by `d` drops: the time it has left is kept, to the whole tick (11 R248). -/
def shiftTick (d : Int) (t : Nat) : Nat := ((-((-((t : Int) * 1024 + d)) / 1024)) % 2 ^ 48).toNat
/-- A position moved by `d` drops. -/
def shiftPos (d : Int) (p : Nat) : Nat := (((p : Int) + d) % 2 ^ 58).toNat
/-- The tick of a cadence edge, after a step of `d` drops: the nearest one. -/
def shiftEdge (d : Int) (t : Nat) : Nat := (((t : Int) * 1024 + d + 512) / 1024 % 2 ^ 48).toNat
/-- A turn number moved by `d` drops, whole turns of them. -/
def shiftTurn (d : Int) (t : Nat) : Nat := (((t : Int) + d / (65536 * 1024)) % 2 ^ 32).toNat

/-- A queue's deadlines moved. -/
def Queue.shift (d : Int) (x : Queue) : Queue := { x with wait := x.wait.map fun w => { w with expiry := shiftTick d w.expiry } }
/-- A core's deadlines moved: FLAG_WAIT timeouts, RUN LIMIT, and LIMIT_TICKS of a feeder hold. -/
def Core.shift (d : Int) (c : Core) : Core :=
  { c with
    queues := Map.mapAll {} (Queue.shift d) c.queues
    hold := c.hold.map fun h => { h with pos := shiftPos d h.pos }
    run := c.run.map fun r => { r with limit := r.limit.map (shiftTick d) } }
/-- The tick a part arrived at its target in, moved. -/
def ReqPart.shift (d : Int) (r : ReqPart) : ReqPart := { r with arrived := r.arrived.map fun a => (shiftTick d a.1, a.2) }
/-- A sub-channel's held writes moved (CST_WHOLD_LIMIT). -/
def SubCh.shift (d : Int) (x : SubCh) : SubCh := { x with waiting := x.waiting.map (ReqPart.shift d), held := x.held.map (ReqPart.shift d) }
/-- A cistern's held writes moved. -/
def Cistern.shift (d : Int) (c : Cistern) : Cistern := { c with subs := Map.mapAll {} (SubCh.shift d) c.subs }
/-- A pass's deadline moved (ATT_PASS_LIMIT). -/
def Pass.shift (d : Int) (x : Pass) : Pass := { x with tick := shiftTick d x.tick }

/-- A transmit stream under a step: what has begun moves with the step; a START not yet reached moves only where `all` says that
scheduled positions keep the time they had left. -/
def State.shiftTx (s : State) (d : Int) (all : Bool) (x : TxStream) : TxStream :=
  let far := if x.start = 0 then !s.reached x.startTick else decide (0 < s.ahead x.start)
  { x with startTick := if far && !all then x.startTick else shiftTick d x.startTick
           start := if x.start = 0 ∨ (far && !all) then x.start else shiftPos d x.start
           lastTick := x.lastTick.map (shiftTick d) }
/-- A receive stream under a step: its gap clock moves with it (12 R277). -/
def State.shiftRx (s : State) (d : Int) (all : Bool) (x : RxStream) : RxStream :=
  { x with gapFrom := if !s.reached x.gapFrom && !all then x.gapFrom else shiftTick d x.gapFrom, armTick := shiftTick d x.armTick }
/-- A lane change under a step. -/
def LanePlan.shift (d : Int) (x : LanePlan) : LanePlan := { x with turn := BitVec.ofNat 32 (shiftTurn d x.turn.toNat) }
/-- A port's deadlines under a step; the turns of its lane changes move where scheduled positions do (12 R257). -/
def Port.shift (d : Int) (all : Bool) (x : Port) : Port :=
  { x with lastHdr := shiftTick d x.lastHdr, admits := x.admits.map fun e => (shiftTick d e.1, e.2),
           silentTo := x.silentTo.map (shiftTick d), lastTick := none
           txPlan := if all then x.txPlan.map (LanePlan.shift d) else x.txPlan
           rxPlan := if all then x.rxPlan.map (LanePlan.shift d) else x.rxPlan }
/-- The clepsydra's own record of the cadence under a step. -/
def Clep.shift (d : Int) (all : Bool) (c : Clep) : Clep :=
  { c with lastPulse := c.lastPulse.map (shiftEdge d), missTick := c.missTick.map (shiftEdge d),
           lastBad := if all then c.lastBad.map (shiftTurn d) else c.lastBad }

/-- The counter stepped by `d` drops (11 R242, R248): every pending deadline counted in ticks moves with it. `all` moves scheduled
positions too. A slew and the run of pulses go on; the lattice's positions can come again. -/
def State.stepBy (s : State) (d : Int) (all : Bool) : State :=
  let pos := ((s.pos : Int) + d) % 2 ^ 58
  let injs := s.wh.injs.map fun i =>
    { i with pos := if all && i.applied.isNone && i.pos != 0 then shiftPos d i.pos else i.pos,
             stop := if i.ty = 6 ∨ i.ty = 9 ∨ i.ty = 12 then shiftTick d i.stop else i.stop }
  { s with
    cores := Map.mapAll {} (Core.shift d) s.cores
    cisterns := Map.mapAll {} (Cistern.shift d) s.cisterns
    passes := Map.mapAll {} (Pass.shift d) s.passes
    txs := Map.mapAll none (Option.map (s.shiftTx d all)) s.txs
    rxs := Map.mapAll none (Option.map (s.shiftRx d all)) s.rxs
    ports := Map.mapAll {} (Port.shift d all) s.ports
    host := { s.host with jobs := s.host.jobs.map fun j => { j with limit := j.limit.map (shiftTick d) } }
    wh := { s.wh with injs := injs }
    thm := { s.thm with slotAt := none }
    clp := { s.clp.shift d all with tick := BitVec.ofNat 48 (pos / 1024).toNat, drop := BitVec.ofNat 10 (pos % 1024).toNat } }

/-! ### States -/

/-- The code of a clepsydra state (11 R251). -/
def ClpMode.code : ClpMode → Nat
  | .freeRun => 0 | .acquire => 1 | .locked => 2 | .holdover => 3 | .phaseError => 4

/-- UNCERT_DROPS (11 R247). -/
def State.uncert (s : State) : Nat :=
  if s.clp.mode = .locked then 0
  else
    match s.clp.lossTime with
    | some t => min 0xFFFFFFFF ((5 * (s.time - t) + 999999) / 1000000)
    | none => 0xFFFFFFFF

/-- The counter slews or is pulled by `e` drops, each tick lasting 1,024 + `r` drops of true time; the part of a drop kept starts so that
`e` is reached at the end of the last of these ticks (11 R239, R245). -/
def Clep.pull (c : Clep) (r e : Int) : Clep := { c with rate := r, slew := e, sub := if 0 < r then (1023 + r).toNat else 0 }
/-- Slew and pull ended. -/
def Clep.free (c : Clep) : Clep := { c with slewing := false, rate := 0, slew := 0, sub := 0 }

/-- The clepsydra's state changed (11 Table CLP-1). -/
def State.setClp (s : State) (m : ClpMode) : State :=
  let c := s.clp
  let c := match m with
    | .locked => { c.free with mode := m, lossTime := none, everLocked := true, uncertSent := false, missing := false, lastBad := none }
    | .holdover => { c.free with mode := m, lossTime := c.lossTime.orElse fun _ => some s.time, missing := false, run := 0 }
    | .phaseError => { c.free with mode := m, lossTime := c.lossTime.orElse fun _ => if c.everLocked then some s.time else none }
    | m => { c with mode := m, missing := false }
  { s with clp := c }.refreshSyncs
/-- The same with an event in layout V: the state before and after, and a third value (17 Table ERR-1). -/
def State.clpEvent (s : State) (m : ClpMode) (code : Nat) (third : Int) : State :=
  (s.setClp m).postEv 2 code none [0, s.clp.mode.code, m.code, wrapTo 64 third]

/-- The counter's reading of an edge: position plus CAD_DELAY, a signed number of drops (11 R239, R251). -/
def State.edgePos (s : State) : Int := (s.pos : Int) + signedOf 10 s.clp.cadDelay.toNat
/-- A number of drops as a signed offset from the nearest multiple of `m`. -/
def nearest (m : Nat) (x : Int) : Int := let r := x % m; if 2 * r < m then r else r - m

/-- A misalignment found in LOCKED (11 R244): counted; two on consecutive turns set PHASE_ERROR. -/
def State.misaligned (s : State) (e : Int) : State :=
  let c := s.clp
  let s' := { s with clp := { c with markerErr := satAdd c.markerErr 1, lastBad := some s.turn } }
  match c.lastBad with
  | some t => if (t + 1) % 2 ^ 32 = s.turn then s'.clpEvent .phaseError cClpPhaseError e else s'
  | none => s'

/-- S2 waits for the cadence: how long it has, in drops of true time (11 R246). -/
def State.s2Since (s : State) : Nat := s.time - s.bup.since
/-- What S2 has found by now (11 R246): no pulses in its first millisecond, or pulses and no marker within two turns. -/
def State.s2Watch (s : State) : State :=
  let c := s.clp
  if !c.s2Lock ∨ s.bup.stage.toNat < 2 then s
  else if !c.s2Pulses then
    if 1600000 < s.s2Since then ({ s with clp := { c with s2Lock := false } } : State).setClp .freeRun else s
  else if 2 * 65536 * 1024 < s.s2Since then ({ s with clp := { c with s2Lock := false } } : State).setClp .phaseError
  else s

/-- CADENCE_PULSE (11 R239, R243, R244): an injected mask makes the receiver ignore it (17 R387). In LOCKED a pulse pulls the counter to
the cadence over one tick. -/
def cadencePulse (s : State) : State :=
  let c := s.clp
  if c.masked then s
  else
    let off := nearest 1024 s.edgePos
    let t := ((s.edgePos - off) / 1024 % 2 ^ 48).toNat
    let run := match c.lastPulse with | some l => if (l + 1) % 2 ^ 48 = t then c.run + 1 else 1 | none => 1
    let s := s.s2Watch
    let c := { s.clp with lastPulse := some t, pulseAt := some s.time, run := run, missing := false,
                          s2Pulses := s.clp.s2Pulses || (s.clp.s2Lock && decide (2 ≤ s.bup.stage.toNat)) }
    let s := { s with clp := c }
    match c.mode with
    -- pulses have been present for 1,024 whole ticks at the 1,025th (the worked example)
    | .freeRun | .holdover => if 1025 ≤ run ∧ !c.s2Lock then s.setClp .acquire else s
    | .locked => if 64 < off.natAbs ∨ t % 65536 = 0 then s.misaligned off else { s with clp := c.pull off off }
    | _ => s

/-- CADENCE_MISSING (11 R244): an expected pulse is absent; the absence at a turn boundary is the marker and never counts. -/
def cadenceMissing (s : State) : State :=
  let c := s.clp
  if s.tick % 65536 = 0 ∨ c.lastPulse = some s.tick ∨ c.missTick = some s.tick then s
  else
    let c := { c with missTick := some s.tick }
    let s := { s with clp := c }
    match c.mode with
    | .freeRun | .holdover => { s with clp := { c with run := 0 } }
    | _ =>
      if c.missing then s.clpEvent .holdover cClpCadenceLost (s.uncert : Int)
      else { s with clp := { c with missing := true, missed := satAdd c.missed 1 } }

/-- The audit entry of a timebase change (14 Table WHD-8). -/
def timebaseAudit (sq cid object : Nat) (old new : Int) : Audit :=
  { origin := 1, oclass := 0x08, object := object, old := BitVec.ofNat 64 (wrapTo 64 old), new := BitVec.ofNat 64 (wrapTo 64 new),
    odetail := sq % 16 * 2 ^ 16 + cid % 2 ^ 16 }

/-- TURN_MARKER (11 R244 to R246, R248). -/
def turnMarker (s0 : State) : State :=
  let s := s0.s2Watch
  let c := s.clp
  let e := nearest (65536 * 1024) s.edgePos
  if c.masked then s
  else
    match c.resyncs with
    | _ :: _ =>
      let s' := (s.stepBy (-e) false).setClp .locked
      let s' := { s' with clp := { s'.clp with resyncs := [], s2Lock := false, phase := BitVec.ofNat 32 (wrapTo 32 e), lastTurn := none } }
      let s' := s'.post 2 (.ev cClpStepped none ([0, 0, wrapTo 64 (-e), 0].map (BitVec.ofNat 64)))
        (c.resyncs.map fun r => timebaseAudit r.1 r.2 1 0 (-e))
      c.resyncs.foldl (fun s r => s.complete r.1 r.2 0 0 []) s'
    | [] =>
      if c.s2Lock && !c.s2Pulses then s
      else if c.s2Lock then
        let s' := (s.stepBy (-e) false).setClp .locked
        { s' with clp := { s'.clp with s2Lock := false } }
      else
        match c.mode with
        | .acquire =>
          if c.slewing then s
          else
            let s' := { s with clp := { c with phase := BitVec.ofNat 32 (wrapTo 32 e) } }
            if e.natAbs ≤ 16384 then { s' with clp := { s'.clp with slewing := true }.pull (16 * e.sign) e }
            else s'.clpEvent .phaseError cClpPhaseError e
        | .locked => if nearest 1024 s.edgePos = e then s else s.misaligned e
        | _ => s

/-- SLEW_COMPLETE (11 R245). -/
def slewComplete (s : State) : State :=
  let c := s.clp
  if c.mode = .acquire ∧ c.slewing ∧ c.slew = 0 then
    { s with clp := { c with relocks := c.relocks + 1 } }.clpEvent .locked cClpRelocked 0
  else s

/-- CLP_UNCERT_HIGH (11 R247): once in each period of loss. -/
def uncertHigh (s : State) : State :=
  let c := s.clp
  if c.mode = .locked ∨ c.mode = .freeRun ∨ c.lossTime = none ∨ c.uncertSent ∨ c.thresh = 0 ∨ s.uncert ≤ c.thresh.toNat then s
  else { s with clp := { c with uncertSent := true } }.postEv 2 cClpUncertHigh none [0, c.mode.code, c.mode.code, s.uncert]

/-! ### Turn boundaries -/

/-- A new turn number takes effect (11 R242): the step, its event and audit, and the completion of its command. -/
def State.setTurn (s : State) (r : Nat × Nat × Word) : State :=
  let old := s.turn
  let d : Int := ((r.2.2.toNat : Int) - old) * 65536
  let s := s.stepBy (d * 1024) true
  let s := { s with clp := { s.clp with turnSet := true } }
  (s.post 2 (.ev cClpStepped none ([0, 0, wrapTo 64 d, 0].map (BitVec.ofNat 64))) [timebaseAudit r.1 r.2.1 0 old r.2.2.toNat]).complete
    r.1 r.2.1 0 0 []

/-- Whether the hub's counter is at drop 0, or past it by no more than a cycle of the block that acts (11 R240, R250). -/
def State.atDropZero (s : State) : Bool := decide (s.clp.drop.toNat ≤ 2)

/-- TURN_BOUNDARY (11 R242, R249; 12 R256, R257, R262; 10 R226): once for each turn. -/
def turnBoundary (s : State) : State :=
  let c := s.clp
  if s.tick % 65536 ≠ 0 ∨ !s.atDropZero ∨ c.lastTurn = some s.turn ∨ s.bup.stage.toNat < 2 then s
  else
    let s := c.newTurns.foldl State.setTurn { s with clp := { c with newTurns := [] } }
    let s := { s with clp := { s.clp with lastTurn := some s.turn } }
    let s := (List.range 20).foldl State.laneChanges s
    let s := (List.range 20).foldl State.trainPort s
    let s := { s with bundles := Map.mapAll {} (fun b => { b with parity := [] }) s.bundles }
    s.refreshSyncs.postEv 2 cClpTurn none [0, s.turn - 1, s.turn, 0]

end Sys2Proof.Machine
end

