-- ==== Sys2Proof/Machine/ClepRows.lean ====
section
/-! DEFINITION. The commands of the clepsydra (11): one meaning for each row. -/

namespace Sys2Proof.Machine

/-- CADENCE_PULSE (11 R244). -/
def execCadencePulse (s : State) : Host.Outcome State Fault Refusal :=
  .next (cadencePulse s)

/-- CADENCE_MISSING (11 R244). -/
def execCadenceMissing (s : State) : Host.Outcome State Fault Refusal :=
  .next (cadenceMissing s)

/-- TURN_MARKER (11 R245). -/
def execTurnMarker (s : State) : Host.Outcome State Fault Refusal :=
  .next (turnMarker s)

/-- SLEW_COMPLETE (11 R245). -/
def execSlewComplete (s : State) : Host.Outcome State Fault Refusal :=
  .next (slewComplete s)

/-- CLP_UNCERT_HIGH (11 R247). -/
def execClpUncertHigh (s : State) : Host.Outcome State Fault Refusal :=
  .next (uncertHigh s)

/-- TURN_BOUNDARY (11 R242). -/
def execTurnBoundary (s : State) : Host.Outcome State Fault Refusal :=
  .next (turnBoundary s)

end Sys2Proof.Machine
end

