-- ==== Sys2Proof/Machine/CoreAsync.lean ====
section
/-! DEFINITION. The asynchronous ports of a scratchpad (03 R61, R62): one 16-byte bank word at a time. -/

namespace Sys2Proof.Machine

/-- Whether a cycle-counted port needs a bank in the present cycle (03 R59, R61). -/
def Core.bankUsed (c : Core) (b : Nat) : Bool := (c.portWords c.cycle).any fun w => bankOf w.2 == b

/-- A bank word read or written whole (03 R61): a read's data go to the port, an uncorrectable word is reported to it (03 R62). -/
def State.asyncPerform (s : State) (n : Nat) (a : AsyncAcc) : State :=
  let key := padMA n (a.off / 16 * 16)
  if a.wr then
    let r := s.writeSram key (leBytes 16 a.data.toNat)
    let c := r.1.core n
    r.1.setCore n { c with asyncBad := false, sramFixed := c.sramFixed + r.2.2 }
  else
    let r := s.readSram key 16
    let c := s.core n
    (s.setCore n { c with asyncData := BitVec.ofNat 128 (leNat r.1), asyncBad := r.2.1.isSome,
                          sramFixed := c.sramFixed + r.2.2 }).draw

/-- ASYNC_SCRATCHPAD_ACCESS (03 R61): in a cycle that leaves the bank free the access is performed; else it waits, as it does while the
core's clock is withheld (R67). Offsets outside the scratchpad do not exist (01 R18). -/
def asyncAccess (s : State) (n : Nat) (a : AsyncAcc) : State :=
  let c := s.core n
  if padSize ≤ a.off then s
  else if c.bankUsed (bankOf (a.off / 16)) || !s.clocked n then
    if c.asyncWait.contains (.port a) then s else s.setCore n { c with asyncWait := c.asyncWait ++ [.port a] }
  else (s.setCore n { c with asyncWait := c.asyncWait.erase (.port a),
                             refusals := Map.set 0 c.refusals (bankOf (a.off / 16)) 0 }).asyncPerform n a

/-- ASYNC_BANK_FORCE (03 R61): a bank that has refused for 64 consecutive cycles serves the oldest access waiting for it, and a
cycle-counted access to it holds the core for one cycle. -/
def asyncForce (s : State) (n b : Nat) : State :=
  let c := s.core n
  if Map.get 0 c.refusals b < 64 || !s.clocked n then s
  else
    match c.asyncWait.find? fun i => i.bank = some b with
    | none => s
    | some i =>
      let held := if c.bankUsed b then 1 else 0
      let sw := swallowedIn (s.swallow n) c.clocks held
      let s := s.setCore n { c with asyncWait := c.asyncWait.erase i, refusals := Map.set 0 c.refusals b 0,
                                    cycBank := c.cycBank + BitVec.ofNat 64 (held - sw),
                                    cycSwallow := c.cycSwallow + BitVec.ofNat 64 sw, clocks := c.clocks + held }
      match i with
      | .port a => s.asyncPerform n a
      | .word q ma k => s.serveWord n q ma k

end Sys2Proof.Machine
end

