-- ==== Sys2Proof/Machine/CoreRows.lean ====
section
/-! DEFINITION. The commands of a core's pipeline (03, 04): one meaning for each row. A slot-operation row issues its operation in
the RUN that executes; without one it changes nothing. -/

namespace Sys2Proof.Machine

/-- BUNDLE_ISSUE (04 R73). -/
def execBundleIssue (core : CoreId) (s : State) : Host.Outcome State Fault Refusal :=
  .next (bundleIssue s core.toNat)

/-- RESULT_VISIBLE (04 R76). -/
def execResultVisible (core : CoreId) (s : State) : Host.Outcome State Fault Refusal :=
  .next (s.runTo core.toNat (s.core core.toNat).nextVisible)

/-- STEP_LAND (04 R49). -/
def execStepLand (core : CoreId) (s : State) : Host.Outcome State Fault Refusal :=
  .next (s.runTo core.toNat (s.core core.toNat).nextLanding)

/-- STEP (04 R84). -/
def execStep (core : CoreId) (f : StepF) (s : State) : Host.Outcome State Fault Refusal :=
  .next (issueRow s core.toNat (.step false f))

/-- STEPZ (04 R84). -/
def execStepz (core : CoreId) (f : StepF) (s : State) : Host.Outcome State Fault Refusal :=
  .next (issueRow s core.toNat (.step true f))

/-- DRAIN (04 R86). -/
def execDrain (core : CoreId) (f : DrainF) (s : State) : Host.Outcome State Fault Refusal :=
  .next (issueRow s core.toNat (.drain false f))

/-- DRAINZ (04 R86). -/
def execDrainz (core : CoreId) (f : DrainF) (s : State) : Host.Outcome State Fault Refusal :=
  .next (issueRow s core.toNat (.drain true f))

/-- SOPEN (04 R87). -/
def execSopen (core : CoreId) (f : SopenF) (s : State) : Host.Outcome State Fault Refusal :=
  .next (issueRow s core.toNat (.sopen f))

/-- STREAM_LINE_FILL (04 R55). -/
def execStreamLineFill (core : CoreId) (ctx : Bool) (line : BitVec 21) (s : State) : Host.Outcome State Fault Refusal :=
  .next (streamFill s core.toNat ctx line.toNat)

/-- CORE_FEED_TIMEOUT (04 R56). -/
def execCoreFeedTimeout (core : CoreId) (s : State) : Host.Outcome State Fault Refusal :=
  .next (feedTimeout s core.toNat)

/-- VADD (04 R88). -/
def execVadd (core : CoreId) (f : VecF) (s : State) : Host.Outcome State Fault Refusal :=
  .next (issueRow s core.toNat (.vec .vadd f))

/-- VSUB (04 R88). -/
def execVsub (core : CoreId) (f : VecF) (s : State) : Host.Outcome State Fault Refusal :=
  .next (issueRow s core.toNat (.vec .vsub f))

/-- VMUL (04 R88). -/
def execVmul (core : CoreId) (f : VecF) (s : State) : Host.Outcome State Fault Refusal :=
  .next (issueRow s core.toNat (.vec .vmul f))

/-- VFMA (04 R88). -/
def execVfma (core : CoreId) (f : VecF) (s : State) : Host.Outcome State Fault Refusal :=
  .next (issueRow s core.toNat (.vec .vfma f))

/-- VMAX (04 R88). -/
def execVmax (core : CoreId) (f : VecF) (s : State) : Host.Outcome State Fault Refusal :=
  .next (issueRow s core.toNat (.vec .vmax f))

/-- VMIN (04 R88). -/
def execVmin (core : CoreId) (f : VecF) (s : State) : Host.Outcome State Fault Refusal :=
  .next (issueRow s core.toNat (.vec .vmin f))

/-- VABS (04 R88). -/
def execVabs (core : CoreId) (f : VecF) (s : State) : Host.Outcome State Fault Refusal :=
  .next (issueRow s core.toNat (.vec .vabs f))

/-- VNEG (04 R88). -/
def execVneg (core : CoreId) (f : VecF) (s : State) : Host.Outcome State Fault Refusal :=
  .next (issueRow s core.toNat (.vec .vneg f))

/-- VHADD (04 R88). -/
def execVhadd (core : CoreId) (f : VecF) (s : State) : Host.Outcome State Fault Refusal :=
  .next (issueRow s core.toNat (.vec .vhadd f))

/-- VHMUL (04 R88). -/
def execVhmul (core : CoreId) (f : VecF) (s : State) : Host.Outcome State Fault Refusal :=
  .next (issueRow s core.toNat (.vec .vhmul f))

/-- VHFMA (04 R88). -/
def execVhfma (core : CoreId) (f : VecF) (s : State) : Host.Outcome State Fault Refusal :=
  .next (issueRow s core.toNat (.vec .vhfma f))

/-- VIADD (04 R88). -/
def execViadd (core : CoreId) (f : VecF) (s : State) : Host.Outcome State Fault Refusal :=
  .next (issueRow s core.toNat (.vec .viadd f))

/-- VISUB (04 R88). -/
def execVisub (core : CoreId) (f : VecF) (s : State) : Host.Outcome State Fault Refusal :=
  .next (issueRow s core.toNat (.vec .visub f))

/-- VIADDS (04 R88). -/
def execViadds (core : CoreId) (f : VecF) (s : State) : Host.Outcome State Fault Refusal :=
  .next (issueRow s core.toNat (.vec .viadds f))

/-- VIMUL (04 R88). -/
def execVimul (core : CoreId) (f : VecF) (s : State) : Host.Outcome State Fault Refusal :=
  .next (issueRow s core.toNat (.vec .vimul f))

/-- VAND (04 R88). -/
def execVand (core : CoreId) (f : VecF) (s : State) : Host.Outcome State Fault Refusal :=
  .next (issueRow s core.toNat (.vec .vand f))

/-- VOR (04 R88). -/
def execVor (core : CoreId) (f : VecF) (s : State) : Host.Outcome State Fault Refusal :=
  .next (issueRow s core.toNat (.vec .vor f))

/-- VXOR (04 R88). -/
def execVxor (core : CoreId) (f : VecF) (s : State) : Host.Outcome State Fault Refusal :=
  .next (issueRow s core.toNat (.vec .vxor f))

/-- VSHL (04 R88). -/
def execVshl (core : CoreId) (f : VecF) (s : State) : Host.Outcome State Fault Refusal :=
  .next (issueRow s core.toNat (.vec .vshl f))

/-- VSHR (04 R88). -/
def execVshr (core : CoreId) (f : VecF) (s : State) : Host.Outcome State Fault Refusal :=
  .next (issueRow s core.toNat (.vec .vshr f))

/-- VSRA (04 R88). -/
def execVsra (core : CoreId) (f : VecF) (s : State) : Host.Outcome State Fault Refusal :=
  .next (issueRow s core.toNat (.vec .vsra f))

/-- VCMPEQ (04 R88). -/
def execVcmpeq (core : CoreId) (f : VecF) (s : State) : Host.Outcome State Fault Refusal :=
  .next (issueRow s core.toNat (.vec .vcmpeq f))

/-- VCMPLT (04 R88). -/
def execVcmplt (core : CoreId) (f : VecF) (s : State) : Host.Outcome State Fault Refusal :=
  .next (issueRow s core.toNat (.vec .vcmplt f))

/-- VCMPLE (04 R88). -/
def execVcmple (core : CoreId) (f : VecF) (s : State) : Host.Outcome State Fault Refusal :=
  .next (issueRow s core.toNat (.vec .vcmple f))

/-- VSEL (04 R88). -/
def execVsel (core : CoreId) (f : VecF) (s : State) : Host.Outcome State Fault Refusal :=
  .next (issueRow s core.toNat (.vec .vsel f))

/-- VMOV (04 R88). -/
def execVmov (core : CoreId) (f : VecF) (s : State) : Host.Outcome State Fault Refusal :=
  .next (issueRow s core.toNat (.vec .vmov f))

/-- VBCAST (04 R88). -/
def execVbcast (core : CoreId) (f : VecF) (s : State) : Host.Outcome State Fault Refusal :=
  .next (issueRow s core.toNat (.vec .vbcast f))

/-- VPERM (04 R88). -/
def execVperm (core : CoreId) (f : VecF) (s : State) : Host.Outcome State Fault Refusal :=
  .next (issueRow s core.toNat (.vec .vperm f))

/-- VRSUM (04 R88). -/
def execVrsum (core : CoreId) (f : VecF) (s : State) : Host.Outcome State Fault Refusal :=
  .next (issueRow s core.toNat (.vec .vrsum f))

/-- VRMAX (04 R88). -/
def execVrmax (core : CoreId) (f : VecF) (s : State) : Host.Outcome State Fault Refusal :=
  .next (issueRow s core.toNat (.vec .vrmax f))

/-- VSCAN (04 R88). -/
def execVscan (core : CoreId) (f : VecF) (s : State) : Host.Outcome State Fault Refusal :=
  .next (issueRow s core.toNat (.vec .vscan f))

/-- VCVT (04 R90). -/
def execVcvt (core : CoreId) (f : VecF) (s : State) : Host.Outcome State Fault Refusal :=
  .next (issueRow s core.toNat (.vec .vcvt f))

/-- RCP (04 R91). -/
def execRcp (core : CoreId) (f : SfuF) (s : State) : Host.Outcome State Fault Refusal :=
  .next (issueRow s core.toNat (.sfu .rcp f))

/-- RSQRT (04 R91). -/
def execRsqrt (core : CoreId) (f : SfuF) (s : State) : Host.Outcome State Fault Refusal :=
  .next (issueRow s core.toNat (.sfu .rsqrt f))

/-- EXP (04 R91). -/
def execExpOp (core : CoreId) (f : SfuF) (s : State) : Host.Outcome State Fault Refusal :=
  .next (issueRow s core.toNat (.sfu .exp f))

/-- EXP2 (04 R91). -/
def execExp2 (core : CoreId) (f : SfuF) (s : State) : Host.Outcome State Fault Refusal :=
  .next (issueRow s core.toNat (.sfu .exp2 f))

/-- LOG (04 R91). -/
def execLogOp (core : CoreId) (f : SfuF) (s : State) : Host.Outcome State Fault Refusal :=
  .next (issueRow s core.toNat (.sfu .log f))

/-- LOG2 (04 R91). -/
def execLog2 (core : CoreId) (f : SfuF) (s : State) : Host.Outcome State Fault Refusal :=
  .next (issueRow s core.toNat (.sfu .log2 f))

/-- TANH (04 R91). -/
def execTanh (core : CoreId) (f : SfuF) (s : State) : Host.Outcome State Fault Refusal :=
  .next (issueRow s core.toNat (.sfu .tanh f))

/-- SIGM (04 R91). -/
def execSigm (core : CoreId) (f : SfuF) (s : State) : Host.Outcome State Fault Refusal :=
  .next (issueRow s core.toNat (.sfu .sigm f))

/-- SIN (04 R91). -/
def execSin (core : CoreId) (f : SfuF) (s : State) : Host.Outcome State Fault Refusal :=
  .next (issueRow s core.toNat (.sfu .sin f))

/-- COS (04 R91). -/
def execCos (core : CoreId) (f : SfuF) (s : State) : Host.Outcome State Fault Refusal :=
  .next (issueRow s core.toNat (.sfu .cos f))

/-- EXPD (04 R91). -/
def execExpd (core : CoreId) (f : SfuF) (s : State) : Host.Outcome State Fault Refusal :=
  .next (issueRow s core.toNat (.sfu .expd f))

/-- ADD (04 R92). -/
def execAdd (core : CoreId) (f : ScaF) (s : State) : Host.Outcome State Fault Refusal :=
  .next (issueRow s core.toNat (.sca .add f))

/-- SUB (04 R92). -/
def execSub (core : CoreId) (f : ScaF) (s : State) : Host.Outcome State Fault Refusal :=
  .next (issueRow s core.toNat (.sca .sub f))

/-- ADDI (04 R92). -/
def execAddi (core : CoreId) (f : ScaF) (s : State) : Host.Outcome State Fault Refusal :=
  .next (issueRow s core.toNat (.sca .addi f))

/-- SHIN (04 R92). -/
def execShin (core : CoreId) (f : ScaF) (s : State) : Host.Outcome State Fault Refusal :=
  .next (issueRow s core.toNat (.sca .shin f))

/-- AND (04 R92). -/
def execAndOp (core : CoreId) (f : ScaF) (s : State) : Host.Outcome State Fault Refusal :=
  .next (issueRow s core.toNat (.sca .and f))

/-- OR (04 R92). -/
def execOrOp (core : CoreId) (f : ScaF) (s : State) : Host.Outcome State Fault Refusal :=
  .next (issueRow s core.toNat (.sca .or f))

/-- XOR (04 R92). -/
def execXorOp (core : CoreId) (f : ScaF) (s : State) : Host.Outcome State Fault Refusal :=
  .next (issueRow s core.toNat (.sca .xor f))

/-- SHL (04 R92). -/
def execShl (core : CoreId) (f : ScaF) (s : State) : Host.Outcome State Fault Refusal :=
  .next (issueRow s core.toNat (.sca .shl f))

/-- SHR (04 R92). -/
def execShr (core : CoreId) (f : ScaF) (s : State) : Host.Outcome State Fault Refusal :=
  .next (issueRow s core.toNat (.sca .shr f))

/-- SRA (04 R92). -/
def execSra (core : CoreId) (f : ScaF) (s : State) : Host.Outcome State Fault Refusal :=
  .next (issueRow s core.toNat (.sca .sra f))

/-- SHLI (04 R92). -/
def execShli (core : CoreId) (f : ScaF) (s : State) : Host.Outcome State Fault Refusal :=
  .next (issueRow s core.toNat (.sca .shli f))

/-- SHRI (04 R92). -/
def execShri (core : CoreId) (f : ScaF) (s : State) : Host.Outcome State Fault Refusal :=
  .next (issueRow s core.toNat (.sca .shri f))

/-- MUL (04 R92). -/
def execMul (core : CoreId) (f : ScaF) (s : State) : Host.Outcome State Fault Refusal :=
  .next (issueRow s core.toNat (.sca .mul f))

/-- CMPEQ (04 R92). -/
def execCmpeq (core : CoreId) (f : ScaF) (s : State) : Host.Outcome State Fault Refusal :=
  .next (issueRow s core.toNat (.sca .cmpeq f))

/-- CMPLT (04 R92). -/
def execCmplt (core : CoreId) (f : ScaF) (s : State) : Host.Outcome State Fault Refusal :=
  .next (issueRow s core.toNat (.sca .cmplt f))

/-- CMPLTU (04 R92). -/
def execCmpltu (core : CoreId) (f : ScaF) (s : State) : Host.Outcome State Fault Refusal :=
  .next (issueRow s core.toNat (.sca .cmpltu f))

/-- AADDI (04 R92). -/
def execAaddi (core : CoreId) (f : ScaF) (s : State) : Host.Outcome State Fault Refusal :=
  .next (issueRow s core.toNat (.sca .aaddi f))

/-- AMOV (04 R92). -/
def execAmov (core : CoreId) (f : ScaF) (s : State) : Host.Outcome State Fault Refusal :=
  .next (issueRow s core.toNat (.sca .amov f))

/-- SMOVA (04 R92). -/
def execSmova (core : CoreId) (f : ScaF) (s : State) : Host.Outcome State Fault Refusal :=
  .next (issueRow s core.toNat (.sca .smova f))

/-- GETV (04 R92). -/
def execGetv (core : CoreId) (f : ScaF) (s : State) : Host.Outcome State Fault Refusal :=
  .next (issueRow s core.toNat (.sca .getv f))

/-- GETF (04 R92). -/
def execGetf (core : CoreId) (f : ScaF) (s : State) : Host.Outcome State Fault Refusal :=
  .next (issueRow s core.toNat (.sca .getf f))

/-- GETLC (04 R92). -/
def execGetlc (core : CoreId) (f : ScaF) (s : State) : Host.Outcome State Fault Refusal :=
  .next (issueRow s core.toNat (.sca .getlc f))

/-- GETT (04 R92). -/
def execGett (core : CoreId) (f : ScaF) (s : State) : Host.Outcome State Fault Refusal :=
  .next (issueRow s core.toNat (.sca .gett f))

/-- VLD (04 R93). -/
def execVld (core : CoreId) (f : MemF) (s : State) : Host.Outcome State Fault Refusal :=
  .next (issueRow s core.toNat (.mem .vld f))

/-- VST (04 R93). -/
def execVst (core : CoreId) (f : MemF) (s : State) : Host.Outcome State Fault Refusal :=
  .next (issueRow s core.toNat (.mem .vst f))

/-- SLD (04 R93). -/
def execSld (core : CoreId) (f : MemF) (s : State) : Host.Outcome State Fault Refusal :=
  .next (issueRow s core.toNat (.mem .sld f))

/-- SST (04 R93). -/
def execSst (core : CoreId) (f : MemF) (s : State) : Host.Outcome State Fault Refusal :=
  .next (issueRow s core.toNat (.mem .sst f))

/-- ALD (04 R93). -/
def execAld (core : CoreId) (f : MemF) (s : State) : Host.Outcome State Fault Refusal :=
  .next (issueRow s core.toNat (.mem .ald f))

/-- AST (04 R93). -/
def execAst (core : CoreId) (f : MemF) (s : State) : Host.Outcome State Fault Refusal :=
  .next (issueRow s core.toNat (.mem .ast f))

/-- PLD (04 R93). -/
def execPld (core : CoreId) (f : MemF) (s : State) : Host.Outcome State Fault Refusal :=
  .next (issueRow s core.toNat (.mem .pld f))

/-- PST (04 R93). -/
def execPst (core : CoreId) (f : MemF) (s : State) : Host.Outcome State Fault Refusal :=
  .next (issueRow s core.toNat (.mem .pst f))

/-- BR (04 R95). -/
def execBr (core : CoreId) (f : CtlF) (s : State) : Host.Outcome State Fault Refusal :=
  .next (issueRow s core.toNat (.ctl .br f))

/-- BRL (04 R95). -/
def execBrl (core : CoreId) (f : CtlF) (s : State) : Host.Outcome State Fault Refusal :=
  .next (issueRow s core.toNat (.ctl .brl f))

/-- BRI (04 R95). -/
def execBri (core : CoreId) (f : CtlF) (s : State) : Host.Outcome State Fault Refusal :=
  .next (issueRow s core.toNat (.ctl .bri f))

/-- LOOP (04 R96). -/
def execLoop (core : CoreId) (f : CtlF) (s : State) : Host.Outcome State Fault Refusal :=
  .next (issueRow s core.toNat (.ctl .loop f))

/-- LOOPX (04 R96). -/
def execLoopx (core : CoreId) (f : CtlF) (s : State) : Host.Outcome State Fault Refusal :=
  .next (issueRow s core.toNat (.ctl .loopx f))

/-- END (04 R97). -/
def execEndRun (core : CoreId) (f : CtlF) (s : State) : Host.Outcome State Fault Refusal :=
  .next (issueRow s core.toNat (.ctl .endRun f))

/-- CLRF (04 R99). -/
def execClrf (core : CoreId) (f : CtlF) (s : State) : Host.Outcome State Fault Refusal :=
  .next (issueRow s core.toNat (.ctl .clrf f))

/-- TRAP (04 R94). -/
def execTrap (core : CoreId) (f : CtlF) (s : State) : Host.Outcome State Fault Refusal :=
  .next (issueRow s core.toNat (.ctl .trap f))

/-- RUN_COMPLETE (04 R97). -/
def execRunComplete (core : CoreId) (s : State) : Host.Outcome State Fault Refusal :=
  .next (runComplete s core.toNat)

/-- ASYNC_SCRATCHPAD_ACCESS (04 R61). -/
def execAsyncScratchpadAccess (core : CoreId) (wr : Bool) (off : BitVec 23) (data : BitVec 128) (s : State) : Host.Outcome State Fault Refusal :=
  .next (asyncAccess s core.toNat { wr := wr, off := off.toNat, data := data })

/-- ASYNC_BANK_FORCE (04 R61). -/
def execAsyncBankForce (core : CoreId) (bank : BitVec 7) (s : State) : Host.Outcome State Fault Refusal :=
  .next (asyncForce s core.toNat bank.toNat)

/-- QUE_RUN_TIMEOUT (04 R109). -/
def execQueRunTimeout (core : CoreId) (s : State) : Host.Outcome State Fault Refusal :=
  .next (runTimeout s core.toNat)

end Sys2Proof.Machine
end

