-- ==== Sys2Proof/Machine/DmaRows.lean ====
section
/-! DEFINITION. The commands of the DMA engine (05; 09 R211): one meaning for each row. -/

namespace Sys2Proof.Machine

/-- COPY (05 R114). -/
def execCopy (core : CoreId) (q : QueueId) (s : State) : Host.Outcome State Fault Refusal :=
  .next (s.withHead core.toNat q.toNat 2 fun s c => cmdDma 0 s core.toNat q.toNat c)

/-- CASCADE (05 R115). -/
def execCascade (core : CoreId) (q : QueueId) (s : State) : Host.Outcome State Fault Refusal :=
  .next (s.withHead core.toNat q.toNat 2 fun s c => cmdDma 1 s core.toNat q.toNat c)

/-- GATHER (05 R116). -/
def execGather (core : CoreId) (q : QueueId) (s : State) : Host.Outcome State Fault Refusal :=
  .next (s.withHead core.toNat q.toNat 2 fun s c => cmdDma 2 s core.toNat q.toNat c)

/-- FILL (05 R114). -/
def execFill (core : CoreId) (q : QueueId) (s : State) : Host.Outcome State Fault Refusal :=
  .next (s.withHead core.toNat q.toNat 2 fun s c => cmdDma 3 s core.toNat q.toNat c)

/-- DMA_COMPLETE (05 R102). -/
def execDmaComplete (core : CoreId) (ch : BitVec 4) (s : State) : Host.Outcome State Fault Refusal :=
  .next (dmaComplete s core.toNat ch.toNat)

/-- PAGED_TRANSLATION (09 R211). -/
def execPagedTranslation (core : CoreId) (ch : BitVec 4) (s : State) : Host.Outcome State Fault Refusal :=
  .next (pagedTranslation s core.toNat ch.toNat)

end Sys2Proof.Machine
end

