-- ==== Sys2Proof/Machine/RegMap.lean ====
section
/-! DEFINITION. Register space and BAR0: what each register reads as (01 R20; 03 R65, R69; 04 R99; 05 R118, R129; 06 R153; 07 R175;
08 R198; 09 R219; 10 R237; 11 R251; 12 R280; 13 R283 to R291; 14 R324; 15 R348; 16 R373; 17 R389). -/

namespace Sys2Proof.Machine

/-- A bit as a number. -/
def bit (b : Bool) : Nat := if b then 1 else 0

/-- What stands at an 8-aligned offset: one 64-bit register, up to two 32-bit registers, two 32-bit
registers of which those absent are unmapped, no register the spec names, or an offset the spec leaves unmapped. -/
inductive RegSlot where
  | wide (v : Nat)
  | pair (lo hi : Option Nat)
  | split (lo hi : Option Nat)
  | absent
  | unmapped
  deriving DecidableEq, Repr

/-- A 32-bit register at an 8-aligned offset with nothing after it. -/
def RegSlot.one (v : Nat) : RegSlot := .pair (some v) none

/-- A block of register space and an offset in it (01 Table ARC-6). -/
inductive RegBlk where
  | hub (o : Nat)
  | die (d o : Nat)
  | rsv (k o : Nat)
  | port (p o : Nat)
  | core (n o : Nat)
  | none
  deriving DecidableEq, Repr

/-- The block of an offset from 0x03F0_0000_0000 (01 R20; 01 R18 for a core that does not exist). -/
def State.regBlk (s : State) (x : Nat) : RegBlk :=
  if x < 2 ^ 30 then .hub x
  else if 2 ^ 32 ≤ x ∧ x < 2 ^ 32 + 2 * 2 ^ 30 then .die ((x - 2 ^ 32) / 2 ^ 30) (x % 2 ^ 30)
  else if 2 ^ 33 ≤ x ∧ x < 2 ^ 33 + 8 * 2 ^ 30 then .rsv ((x - 2 ^ 33) / 2 ^ 30) (x % 2 ^ 30)
  else if 2 ^ 34 ≤ x ∧ x < 2 ^ 34 + 20 * 2 ^ 24 then .port ((x - 2 ^ 34) / 2 ^ 24) (x % 2 ^ 24)
  else if 2 ^ 35 ≤ x ∧ x < 2 ^ 35 + s.nCores * 2 ^ 20 then .core ((x - 2 ^ 35) / 2 ^ 20) (x % 2 ^ 20)
  else .none

/-! ### Cores and cisterns -/

/-- INV, OVF, SAT and FLUSH in the bits of CORE_STICKY (04 R99). -/
def Flags.sticky (f : Flags) : Nat := bit f.inv + 2 * bit f.ovf + 4 * bit f.sat + 8 * bit f.flush
/-- CORE_SITE (03 R66). -/
def Core.siteReg (c : Core) : Nat := c.siteLogical.toNat * 2 ^ 16 + c.site.toNat
/-- CORE_CUBE_CFG (03 R65): UCL is the cube latency of the core. -/
def Core.cubeReg (c : Core) : Nat :=
  bit c.cubeLock * 2 ^ 31 + c.cubeRepaired.toNat * 2 ^ 8 + bit c.eqMode * 2 ^ 4 + 12 + bit c.eqMode
/-- CORE_ROW_MAP_c. -/
def Core.rowReg (c : Core) (i : Nat) : Nat := (Map.get (0xF#4) c.rowMap i).toNat
/-- CORE_DBG (04 R77, R99). -/
def Core.dbgReg (c : Core) : Nat :=
  bit c.bkptEn * 2 ^ 31 + c.wcollFile.toNat * 2 ^ 16 + c.wcollReg.toNat * 2 ^ 10 + c.wcollWin.toNat * 2 ^ 7 +
    c.wcollLose.toNat * 2 ^ 4 + bit c.wcoll
/-- CORE_DMA_POS_c (05 R118). -/
def Core.dmaReg (c : Core) (ch : Nat) : Nat :=
  match Map.get none c.dma ch with
  | some d => bit d.stopped * 2 ^ 63 + d.queue % 4 * 2 ^ 61 + if d.stopped then (d.next - d.cmd.ostart) % 2 ^ 32 else 0
  | none => 0
/-- CORE_QSTAT (05 R129). -/
def State.qstat (s : State) (n q : Nat) : Nat :=
  let x := s.queue n q
  x.ptr.toNat * 2 ^ 32 + x.lastFault.toNat * 2 ^ 16 + bit (s.suspended n q) * 8 + x.st.code
/-- STATE of a sub-channel or channel (06 R153; 07 R175). -/
def ChState.code : ChState → Nat
  | .active => 0 | .retiring => 1 | .retired => 2
/-- CST_SC_STAT (06 R153). -/
def SubCh.reg (x : SubCh) : Nat :=
  x.st.code * 2 ^ 30 + bit x.whold * 2 ^ 29 + x.refRate.toNat * 2 ^ 27 + x.erase.length % 32 * 2 ^ 16 + x.spares.toNat
/-- Half `h` of CST_ERASE_MAP (06 R153). -/
def SubCh.eraseReg (x : SubCh) (h : Nat) : Nat :=
  ((List.range 8).map fun j => match Map.get 0 x.erase (8 * h + j) with
    | 0 => 0
    | p + 1 => (2 ^ 7 + p % 2 ^ 7) * 2 ^ (8 * j)).sum

/-- Clocks of a core that its counters do not hold yet (03 R69): those since the clocks started or the core was reset, at 1.1 GHz, less those
counted. The part swallowed, the part held for a stream line, and the rest, which are executed. -/
def State.clocksDue (s : State) (n : Nat) : Nat × Nat × Nat :=
  let c := s.core n
  let k := clocksIn (s.time - max s.clockFrom c.clockFrom) - (c.cycExec + c.cycSwallow + c.cycFeed + c.cycBank).toNat
  let sw := (c.clocks + k) * s.swallow n / 256 - c.clocks * s.swallow n / 256
  let held := match c.hold with | some h => min (k - sw) (clocksIn (s.time - h.time)) | none => 0
  (sw, held, k - sw - held)

/-- The registers of a core's page (03, 04, 05, 06). -/
def State.coreSlot (s : State) (n o : Nat) : RegSlot :=
  let c := s.core n
  let q := (o - 0x400) / 0x40
  let l := (o - 0x8000) / 0x100
  if o = 0 then .one c.siteReg
  else if o = 0x10 then .one c.cubeReg
  else if 0x20 ≤ o ∧ o < 0x40 then .pair (some (c.rowReg ((o - 0x20) / 4))) (some (c.rowReg ((o - 0x20) / 4 + 1)))
  else if o = 0x40 then .one c.feedLimit.toNat
  else if o = 0x100 then .wide (c.cycExec + BitVec.ofNat 64 (s.clocksDue n).2.2).toNat
  else if o = 0x108 then .wide (c.cycSwallow + BitVec.ofNat 64 (s.clocksDue n).1).toNat
  else if o = 0x110 then .wide (c.cycFeed + BitVec.ofNat 64 (s.clocksDue n).2.1).toNat
  else if o = 0x118 then .wide c.cycBank.toNat
  else if o = 0x200 then .pair (some c.sticky.sticky) (some c.dbgReg)
  else if o = 0x210 then .wide (c.markCount.toNat * 2 ^ 32 + c.markPc.toNat)
  else if 0x300 ≤ o ∧ o < 0x380 then .wide (c.dmaReg ((o - 0x300) / 8))
  else if 0x400 ≤ o ∧ o < 0x500 then
    (match o % 0x40 with
      | 0x00 => .wide (c.queue q).base.toNat
      | 0x08 => .pair (some (c.queue q).count.toNat) (some 0)
      | 0x10 => .wide (s.qstat n q)
      | _ => .absent)
  else if 0x600 ≤ o ∧ o < 0x700 then .wide (wordOf (c.queue ((o - 0x600) / 0x40)).record (o % 0x40 / 8))
  else if 0x8000 ≤ o ∧ o < 0x8400 then
    (match o % 0x100 with
      | 0x00 => .one (s.sub n l).reg
      | 0x08 => .wide ((s.sub n l).eraseReg 0)
      | 0x10 => .wide ((s.sub n l).eraseReg 1)
      | 0x18 => .wide ((s.sub n l).corrected.toNat * 2 ^ 32 + (s.sub n l).uncorr.toNat * 2 ^ 16 + (s.sub n l).poison.toNat)
      | _ => .absent)
  else if o = 0x8400 then
    .pair (some (s.cist n).wholdLimit.toNat) (some ((s.cist n).present.toNat * 2 ^ 4 + (s.cist n).active.toNat))
  else .absent

/-! ### Reservoirs -/

/-- Whether a program of a launch or pass read holds the channel (08 R198): an injected hold runs no program. -/
def Chan.running (x : Chan) : Bool := match x.current with | some (.launch _) => true | _ => false

/-- RSV_CH_STAT (07 R175). -/
def Chan.reg (x : Chan) : Nat :=
  x.st.code * 2 ^ 30 + bit x.proc * 2 ^ 29 + bit x.window * 2 ^ 28 + x.refRate.toNat * 2 ^ 26 +
    min 256 x.depth * 2 ^ 17 + (match x.erase with | some p => 2 ^ 16 + p % 128 * 2 ^ 9 | none => 0) +
    x.spares.toNat
/-- ATT_POOL_p (09 R219): frames of partition p's pool, and those free. -/
def State.poolReg (s : State) (k p : Nat) : Nat :=
  let mine := s.pool.filterMap fun e => e.2.bind fun f => if e.1 / 2 ^ 22 = k ∧ f.part = p then some f else none
  mine.length * 2 ^ 32 + (mine.filter fun f => f.refs == 0 && f.pins == 0).length

/-- The registers of a reservoir (07, 08, 09). -/
def State.rsvSlot (s : State) (k o : Nat) : RegSlot :=
  let v := s.rsv k
  let x := s.chan k ((o - 0x1000) / 0x40)
  if o = 0 then .wide (s.present k * 2 ^ 32 + s.activeCh k)
  else if o = 0x8 then .one (bit v.spareUsed * 2 ^ 31 + v.spareFor.toNat * 2 ^ 24 + v.busyCount.toNat)
  else if o = 0x100 then .one (bit v.skimEnable * 2 ^ 31 + bit v.skimPoison * 2 ^ 30 + v.skimPeriod.toNat)
  else if o = 0x108 then .wide (v.skimPasses.toNat * 2 ^ 32 + v.skimBehind.toNat)
  else if o = 0x110 then .wide (v.skimCorrected.toNat * 2 ^ 32 + v.skimUncorr.toNat * 2 ^ 16 + v.skimPoisoned.toNat)
  else if 0x1000 ≤ o ∧ o < 0x1800 then
    (match o % 0x40 with
      | 0x00 => .one x.reg
      | 0x08 => .one (x.maxHold.toNat * 2 ^ 16 + x.held.toNat)
      | 0x10 => .wide (x.corrected.toNat * 2 ^ 32 + x.uncorr.toNat * 2 ^ 16 + x.poison.toNat)
      | _ => .absent)
  else if o = 0x4000 then .one v.budgetUs.toNat
  else if o = 0x4008 then .wide (v.launches.toNat * 2 ^ 32 + v.budgetStops.toNat * 2 ^ 16 + v.tainted.toNat)
  else if o = 0x4010 then .one (4 * bit v.bnkFlags.sat + 2 * bit v.bnkFlags.inv + bit v.bnkFlags.ovf)
  else if 0x4100 ≤ o ∧ o < 0x4200 then
    let c := (o - 0x4100) / 8
    let y := s.chan k c
    let ns := match y.current.bind fun i => match i with | .launch n => s.launch n | _ => none with
      | some l => s.chanP k c l
      | none => y.runNs.toNat
    .wide (ns * 2 ^ 32 + bit y.running * 2 ^ 31 + y.runPart.toNat * 2 ^ 26 + y.runPauses.toNat)
  else if 0x4200 ≤ o ∧ o < 0x4280 then .pair (some (s.chsetOf k ((o - 0x4200) / 4))) (some (s.chsetOf k ((o - 0x4200) / 4 + 1)))
  else if o = 0x8000 then .wide (v.slotCount.toNat * 2 ^ 32 + v.slotBase.toNat)
  else if o = 0x8008 then .one v.passLimit.toNat
  else if o = 0x8010 then .wide (v.passes.toNat * 2 ^ 32 + v.cow.toNat * 2 ^ 16 + v.expired.toNat)
  else if 0x8100 ≤ o ∧ o < 0x8200 then .wide (s.poolReg k ((o - 0x8100) / 8))
  else if 0x8200 ≤ o ∧ o < 0x8300 then
    let p := s.part ((o - 0x8200) / 8)
    .wide (p.seqCount.toNat * 2 ^ 32 + p.passSlots.toNat * 2 ^ 16 + p.seqBase.toNat)
  else .absent

/-! ### Network and links -/

/-- The die that owns a sluice target (10 R237). -/
def sluTargetDie (t : Nat) : Nat :=
  if t < 8 then t / 4 else if t < 10 then t - 8 else if t < 42 then (t - 10) / 16 else if t < 62 then (t - 42) / 10 else if t = 62 then 0 else 2
/-- NET_CLUSTER_PART of a cluster (10 R237). -/
def State.clusterReg (s : State) (g : Nat) : Nat :=
  (match Map.get none s.clusterPart g with | some p => 2 ^ 31 + p.toNat | none => 0) + bit (Map.get false s.clusterRetired g) * 2 ^ 30
/-- NET_BR_BUNDLE_b of the direction out of die `src`. -/
def State.bundleReg (s : State) (src b : Nat) : Nat :=
  let x := s.bundle src b
  x.st.toNat * 2 ^ 30 + x.spares.toNat * 2 ^ 27 + x.replays.toNat
/-- SLU_SHARE_t_m; none where its target is another die's. The table holds the shares of every master at the target, those of the other
die's masters too, which R230 has accounts of (DEDUCED: R237 unmaps the offsets of another die's masters in the latency registers). -/
def State.shareReg (s : State) (d t m : Nat) : Option Nat :=
  if sluTargetDie t = d ∧ m < 64 then some ((s.acct t m).weight.toNat * 2 ^ 16 + (s.acct t m).guar.toNat) else none
/-- SLU_CAP_t; none where the target is the other die's. -/
def State.capReg (s : State) (d t : Nat) : Option Nat := if sluTargetDie t = d then some (s.capOf t) else none
/-- Two 32-bit registers of which those of the other die are unmapped. -/
def pairOr (a b : Option Nat) : RegSlot := if a.isNone && b.isNone then .unmapped else .split a b
/-- SLU_LAT_m_c. -/
def SluLat.reg (x : SluLat) : Nat := bit x.isOver * 2 ^ 63 + x.thresh.toNat * 2 ^ 32 + x.maxNs.toNat * 2 ^ 16

/-- The registers of a compute die (10 R237). -/
def State.dieSlot (s : State) (d o : Nat) : RegSlot :=
  let y := o - 0x01000000
  if o < 0x40 then .pair (some (s.clusterReg (16 * d + o / 4))) (some (s.clusterReg (16 * d + o / 4 + 1)))
  else if 0x100 ≤ o ∧ o < 0x200 then
    .pair (some (s.bundleReg (1 - d) ((o - 0x100) / 4))) (some (s.bundleReg (1 - d) ((o - 0x100) / 4 + 1)))
  else if o = 0x200 then
    let f := s.fence d
    .one (bit f.fenced * 2 ^ 31 + f.cause.toNat * 2 ^ 28 + f.rsv.toNat)
  else if o < 0x01000000 then .absent
  else if y < 0x100 then pairOr (s.capReg d (y / 4)) (s.capReg d (y / 4 + 1))
  else if 0x1000 ≤ y ∧ y < 0x5000 then
    let t := (y - 0x1000) / 0x100
    pairOr (s.shareReg d t (y % 0x100 / 4)) (s.shareReg d t (y % 0x100 / 4 + 1))
  else if 0x8000 ≤ y ∧ y < 0x9000 then
    let m := (y - 0x8000) / 0x40
    if portDie m ≠ d then .unmapped
    else if y % 0x40 / 8 < 5 then .wide (Map.get {} s.sluLat (5 * m + y % 0x40 / 8)).reg else .absent
  else .absent

/-- STATE of LNK_PORT_STAT as it reads (12 R262, R280, R281): a port that is enabled, which is known once S1 has read the licences, and has
not trained is DOWN. -/
def State.portShown (s : State) (p : Nat) : PortSt :=
  match (s.lport p).st with
  | .disabled => if decide (2 ≤ s.bup.stage.toNat) && s.portOn p then .down else .disabled
  | st => st
/-- The registers of a port (12 R280). -/
def State.portSlot (s : State) (p o : Nat) : RegSlot :=
  let x := s.lport p
  let up := x.st == .up
  match o with
  | 0x00 => .one ((s.portShown p).code * 2 ^ 29 + bit x.sync * 2 ^ 28 + bit x.peerLocked * 2 ^ 27 + x.txWidth * 2 ^ 20 + x.rxWidth * 2 ^ 15 +
      (if up then popCount 22 (x.txGood &&& ~~~x.txFailed).toNat else 0) * 2 ^ 10 +
      (if up then popCount 22 x.rxGood.toNat else 0) * 2 ^ 5 + bit (s.portFused p) * 16 + bit (decide (2 ≤ s.bup.stage.toNat) && !s.portLicensed p) * 8)
  | 0x08 => .wide (x.peerNode.toNat * 2 ^ 58 + x.peerLink.toNat * 2 ^ 53 + x.peerPort.toNat * 2 ^ 48 + x.peerTurn.toNat * 2 ^ 16)
  | 0x10 => .wide (x.rxFailed.toNat * 2 ^ 32 + x.txFailed.toNat)
  | 0x18 => .wide (s.reserved p s.tick * 2 ^ 32 + (s.txOn p).length * 2 ^ 9 + (s.rxOn p).length)
  | 0x20 => .wide (x.corrected.toNat * 2 ^ 32 + x.uncorr.toNat * 2 ^ 16 + x.hdrBad.toNat)
  | 0x28 => .wide (x.stale.toNat * 2 ^ 48 + x.broken.toNat * 2 ^ 32 + x.cancelled.toNat * 2 ^ 16 + x.refused.toNat * 2 ^ 8)
  | 0x30 => .one (bit x.cfgLock * 2 ^ 31 + bit x.peerResetEn * 2 ^ 30 + x.admitWait.toNat)
  | _ =>
    if 0x100 ≤ o ∧ o < 0x200 then
      let q := s.part ((o - 0x100) / 8)
      .wide (q.strCount.toNat * 2 ^ 48 + q.strBase.toNat % 2 ^ 15)
    else .absent

/-! ### The hub -/

/-- WH_LICENCE, the licence summary word (14 R317, R324). -/
def State.licWord (s : State) : Nat :=
  s.licParts.toNat * 2 ^ 6 + bit s.licLong * 2 ^ 5 + bit s.licMulti * 2 ^ 4 + bit s.licCompute * 2 ^ 3 + s.licPorts.toNat
/-- GRADE (14 R314). -/
def Fuses.grade (f : Fuses) : Nat := if f.gradeB then 0xB else 0xA
/-- Injections accepted and not applied (17 R386). -/
def State.injPending (s : State) : Nat := (s.wh.injs.filter fun i => i.applied.isNone).length

/-- WH_ (14 R324; 17 R389). -/
def State.whSlot (s : State) (o : Nat) : RegSlot :=
  let w := s.wh
  match o with
  | 0x00 => .one (w.cause.toNat * 2 ^ 28 + s.fuses.counter.toNat * 2 ^ 22 + (if w.recovery then 0 else w.fw.svn.toNat) * 2 ^ 16 + bit w.recovery)
  | 0x08 => .wide (if w.recovery then 0 else w.fw.version.toNat)
  | 0x10 => .wide (s.fuses.clusterOff.toNat * 2 ^ 32 + s.fuses.portOff.toNat * 2 ^ 12 + s.fuses.grade)
  | 0x18 => .one s.licWord
  | 0x20 => .wide w.esn.toNat
  | 0x28 => .wide (w.auditDropped.toNat * 2 ^ 32 + w.audit.length % 2 ^ 17)
  | 0x30 => .wide ((w.audit.head?.map fun e => e.index.toNat).getD 0)
  | 0x38 => .one (w.wdogExpiries.toNat * 2 ^ 24 + w.wdogMs.toNat)
  | 0x100 => .one (bit w.injLock * 2 ^ 31 + bit w.injEn * 2 ^ 30)
  | 0x108 => .wide (w.injCount.toNat * 2 ^ 32 + s.injPending)
  | _ => .absent

/-- CLP_ (11 R251). CAD_PRESENT: a pulse in the last 2 ticks of true time. -/
def State.clpSlot (s : State) (o : Nat) : RegSlot :=
  let c := s.clp
  let present := match c.pulseAt with | some t => decide (s.time - t ≤ 2048) | none => false
  match o with
  | 0x00 => .wide s.pos
  | 0x08 => .one (bit present * 2 ^ 31 + bit c.slewing * 2 ^ 30 + bit c.turnSet * 2 ^ 29 + c.mode.code)
  | 0x10 => .wide (s.uncert * 2 ^ 32 + c.phase.toNat)
  | 0x18 => .wide (c.missed.toNat * 2 ^ 32 + c.markerErr.toNat * 2 ^ 24 + c.relocks.toNat * 2 ^ 16 + c.late.toNat)
  | 0x20 => .one (bit c.cfgLock * 2 ^ 31 + bit c.turnEvt * 2 ^ 30 + c.cadDelay.toNat * 2 ^ 20 + c.thresh.toNat)
  | _ => .absent

/-- BUP_ (15 R348). -/
def State.bupSlot (s : State) (o : Nat) : RegSlot :=
  let b := s.bup
  if o = 0 then
    .wide (b.source.toNat * 2 ^ 60 + bit b.cold * 2 ^ 59 + bit b.full * 2 ^ 58 + b.bootMode.toNat * 2 ^ 56 + b.modId.toNat * 2 ^ 52 +
      b.s1Restarts.toNat * 2 ^ 50 + bit b.degraded * 2 ^ 49 + bit b.failed * 2 ^ 48 + b.quick.toNat * 2 ^ 40 + s.startNo.toNat)
  else if o = 0x10 then
    .wide (b.recGen.toNat % 2 ^ 32 * 2 ^ 32 + bit b.recHalf * 2 ^ 28 + bit b.recValid * 2 ^ 27 + bit b.recPending * 2 ^ 26 +
      bit b.recFull * 2 ^ 25 + b.recEntries.toNat)
  else if 0x100 ≤ o ∧ o < 0x1E0 then .wide (wordOf (Map.get 0 b.reports ((o - 0x100) / 0x20)) (o % 0x20 / 8))
  else .absent

/-- The code of a coolant state (16 R373). -/
def Coolant.code : Coolant → Nat
  | .normal => 0 | .alarm => 1 | .emergency => 2 | .halted => 3
/-- A twin site. -/
def State.site (s : State) (i : Nat) : Site := Map.get {} s.thm.sites i
/-- HOT: the highest compute base-die control value (16 Table THM-1). -/
def State.hotCtrl (s : State) : Int := ((List.range 32).map fun g => (s.site (5 * g)).ctrl).foldl max (s.site 0).ctrl
/-- A diode in service. -/
def Diode.usable (d : Diode) : Bool := !d.suspect && !d.ejected
/-- THM_SITE_i (16 R373). -/
def Site.reg (x : Site) : Nat :=
  let live := bit (!x.d0.ejected) + bit (!x.d1.ejected)
  let st := if x.est then 2 else if live = 2 then 0 else 1
  st * 2 ^ 30 + bit x.spareUsed * 2 ^ 29 + (bit x.d0.suspect + 2 * bit x.d1.suspect) * 2 ^ 27 + x.wasEjected.toNat * 2 ^ 25 +
    bit x.narrow * 2 ^ 24 + wrapTo 16 x.ctrl

/-- THM_ (16 R373). -/
def State.thmSlot (s : State) (o : Nat) : RegSlot :=
  let t := s.thm
  let weir (j : Nat) : Nat :=
    let w : Weir := Map.get {} s.weirs j
    bit w.engaged * 2 ^ 31 + w.core.toNat * 2 ^ 16 + w.escalations.toNat * 2 ^ 8 + w.swallow.toNat
  if o = 0 then
    .one (t.coolant.code * 2 ^ 29 + t.trayLost.toNat * 2 ^ 26 + bit (!s.pins.alertN) * 2 ^ 25 + bit t.inputRange * 2 ^ 24 + wrapTo 16 s.hotCtrl)
  else if o = 0x8 then .wide (wrapTo 16 t.inlet * 2 ^ 48 + wrapTo 16 t.outlet * 2 ^ 32 + t.flow % 2 ^ 16 * 2 ^ 16)
  else if o = 0x10 then .one (bit t.tripValid * 2 ^ 31 + t.tripSite.toNat)
  else if 0x1000 ≤ o ∧ o < 0x1428 then .pair (some (s.site ((o - 0x1000) / 4)).reg) (some (s.site ((o - 0x1000) / 4 + 1)).reg)
  else if 0x2000 ≤ o ∧ o < 0x2020 then .pair (some (weir ((o - 0x2000) / 4))) (some (weir ((o - 0x2000) / 4 + 1)))
  else .absent

/-- PWR_ (16 R373). -/
def State.pwrSlot (s : State) (o : Nat) : RegSlot :=
  let t := s.thm
  match o with
  | 0x00 => .wide (t.capW.toNat * 2 ^ 48 + t.lawW.toNat * 2 ^ 32 + t.escW.toNat * 2 ^ 16 + s.param 0x10 0 4800 % 2 ^ 16)
  | 0x08 => .wide (t.vin.toNat * 2 ^ 48 + t.sampleW.toNat * 2 ^ 32 + t.slotW.toNat * 2 ^ 16 + t.rth.toNat)
  | 0x10 => .wide (s.gate.target.toNat * 2 ^ 48 + s.gate.sg.toNat * 2 ^ 40 + popCount 256 s.gate.opened.toNat * 2 ^ 16 + s.gate.next.toNat)
  | 0x18 => .one (bit t.gateLock * 2 ^ 31 + bit t.fillEn * 2 ^ 30 + t.idleSlots.toNat)
  | _ => .absent

/-- A ring of the host interface (13 R291). -/
def State.ring (s : State) (r : Nat) : HostRing := Map.get {} s.host.rings r
/-- A ring replaced. -/
def State.setRing (s : State) (r : Nat) (x : HostRing) : State := { s with host := { s.host with rings := Map.set {} s.host.rings r x } }
/-- An MSI-X vector. -/
def State.vec (s : State) (v : Nat) : Msix := Map.get {} s.host.msix v
/-- A vector replaced. -/
def State.setVec (s : State) (v : Nat) (x : Msix) : State := { s with host := { s.host with msix := Map.set {} s.host.msix v x } }
/-- HST_RING_CFG (13 R291). A field the rule marks for rings of the other kind is RW here too, and does nothing (DESIGN CHOICE, 00 R5). -/
def HostRing.cfg (x : HostRing) : Nat :=
  bit x.enable * 2 ^ 31 + bit x.halted * 2 ^ 30 + x.log2n.toNat * 2 ^ 16 + x.cq.toNat * 2 ^ 12 + x.vector.toNat
/-- HST_RING_COAL (13 R291), of every ring alike. -/
def HostRing.coal (x : HostRing) : Nat := x.coalUs.toNat * 2 ^ 16 + x.coalCnt.toNat
/-- The ring whose registers hold a BAR0 offset (13 R291): 0x40 bytes each from 0x2_0000 on. -/
def ringAt (o : Nat) : Option Nat := if 0x20000 ≤ o ∧ o < 0x20840 then some ((o - 0x20000) / 0x40) else none

/-- HST_, at its BAR0 offsets (13 R283 to R292). An offset outside the regions of Table HST-2 reads zero. -/
def State.hstSlot (s : State) (o : Nat) : RegSlot :=
  let h := s.host
  if o = 0 then .wide (0x0960 * 2 ^ 48 + s.fuses.stepping.toNat * 2 ^ 40 + s.fuses.grade * 2 ^ 36 + if s.wh.recovery then 0 else s.wh.fw.wcs.toNat)
  else if o = 0x8 then
    .one (bit s.bup.ready * 2 ^ 31 + bit s.bup.degraded * 2 ^ 30 + bit s.wh.recovery * 2 ^ 29 + (if s.wh.recovery then 0 else s.bup.stage.toNat) * 2 ^ 24)
  else if 0x20 ≤ o ∧ o < 0x40 then .wide (wordOf s.fuses.moduleId ((o - 0x20) / 8))
  else if o < 0x1000 then .absent
  else if 0x10000 ≤ o ∧ o < 0x12000 then .pair (some 0) (some 0)
  else if 0x20000 ≤ o ∧ o < 0x21000 then
    (match ringAt o with
      | none => .absent
      | some r =>
        let x := s.ring r
        match o % 0x40 with
        | 0x00 => .wide (x.addr.toNat * 2 ^ 12)
        | 0x08 => .pair (some x.cfg) (some x.coal)
        | 0x10 => .wide ((if r = 32 then x.lost.toNat else 0) * 2 ^ 32 + x.head.toNat * 2 ^ 16 + x.tail.toNat)
        | _ => .absent)
  else if 0x30000 ≤ o ∧ o < 0x31000 then
    let v := s.vec ((o - 0x30000) / 16)
    if o % 16 = 0 then .wide v.addr.toNat else .pair (some v.data.toNat) (some (bit v.masked))
  else if 0x31000 ≤ o ∧ o < 0x31020 then
    .wide (((List.range 64).map fun i => bit (s.vec ((o - 0x31000) * 8 + i)).pending * 2 ^ i).sum)
  else if o = 0x40000 then .wide (h.win.toNat * 2 ^ 28 + bit h.wprot * 2 + bit h.winEn)
  else if o = 0x40008 then .wide (h.regWin.toNat * 2 ^ 25)
  else if o = 0x40010 then .wide (h.faultCode.toNat * 2 ^ 48 + h.faultMA.toNat)
  else if o = 0x40018 then .wide (bit h.faultValid * 2 ^ 63 + h.faultCount.toNat)
  else if 0x40000 ≤ o ∧ o < 0x41000 then .absent
  else .wide 0

/-- Whether an offset in the hub region lies in one of the blocks whose place the spec gives. -/
def hubPlaced (o : Nat) : Bool := decide (o < 0x100000) || (decide (0x300000 ≤ o) && decide (o < 0x700000))
/-- Whether an offset in the hub region lies in the HST_ block: Config.hstBase says where, outside the other blocks. -/
def inHst (o : Nat) : Bool := !hubPlaced o && decide (Config.hstBase ≤ o) && decide (o < Config.hstBase + 0x50000)
/-- The hub's registers (01 Table ARC-6). Where the HST_ block lies in the hub region the spec does not say: Config.hstBase. -/
def State.hubSlot (s : State) (o : Nat) : RegSlot :=
  if o < 0x100000 then s.whSlot o
  else if 0x300000 ≤ o ∧ o < 0x400000 then s.clpSlot (o - 0x300000)
  else if 0x400000 ≤ o ∧ o < 0x500000 then s.bupSlot (o - 0x400000)
  else if 0x500000 ≤ o ∧ o < 0x600000 then s.thmSlot (o - 0x500000)
  else if 0x600000 ≤ o ∧ o < 0x700000 then s.pwrSlot (o - 0x600000)
  else if inHst o then s.hstSlot (o - Config.hstBase)
  else .absent

/-- What stands at an 8-aligned offset of register space (01 R20). -/
def State.slot (s : State) (x : Nat) : RegSlot :=
  match s.regBlk x with
  | .hub o => s.hubSlot o
  | .die d o => s.dieSlot d o
  | .rsv k o => s.rsvSlot k o
  | .port p o => s.portSlot p o
  | .core n o => s.coreSlot n o
  | .none => .unmapped

/-- Whether the unit that holds a register is fenced or in reset (10 R235, R236). -/
def State.regFenced (s : State) (x : Nat) : Bool :=
  match s.regBlk x with
  | .die d _ => s.dieFenced d
  | .rsv k _ => s.rsvFenced k
  | .port p _ => s.dieFenced (portHome p)
  | .core n _ => s.targetReset (.pad n 0)
  | _ => false

/-- The 64 bits a slot delivers: a word with no register is a free value. -/
def RegSlot.value (draw : Nat) : RegSlot → Nat
  | .wide v => v % 2 ^ 64
  | .pair lo hi =>
    (lo.getD (Config.freeWord draw 0).toNat) % 2 ^ 32 + (hi.getD (Config.freeWord draw 1).toNat) % 2 ^ 32 * 2 ^ 32
  | .split lo hi => lo.getD 0 % 2 ^ 32 + hi.getD 0 % 2 ^ 32 * 2 ^ 32
  | .absent => (Config.freeWord draw 0).toNat + (Config.freeWord draw 1).toNat * 2 ^ 32
  | .unmapped => 0

/-- Whether bytes `a` to `a + n - 1` of a slot are mapped. -/
def RegSlot.mapped (a n : Nat) : RegSlot → Bool
  | .unmapped => false
  | .split lo hi => (decide (4 ≤ a) || lo.isSome) && (decide (a + n ≤ 4) || hi.isSome)
  | _ => true

/-- `n` bytes of register space from offset `x`, slot by slot (13 R285, R286): the bytes, or the fault of the first that fails. -/
def State.readRegs (s : State) (x n : Nat) : State × Nat × List Byte :=
  (pieces 8 (n / 8 + 2) x n).foldl
    (fun (acc : State × Nat × List Byte) p =>
      let s := acc.1
      let t := s.slot (p.1 / 8 * 8)
      let code := if acc.2.1 ≠ 0 then acc.2.1 else if !t.mapped (p.1 % 8) p.2 then cMemUnmapped else if s.regFenced p.1 then cNetTargetReset else 0
      (s.draw, code, acc.2.2 ++ ((leBytes 8 (t.value s.free)).drop (p.1 % 8)).take p.2))
    (s, 0, [])

end Sys2Proof.Machine
end

