-- ==== Sys2Proof/Machine/RegWrite.lean ====
section
/-! DEFINITION. Writes of registers by the access codes of their fields, doorbells, ring configuration and MSI-X (00 R5 to R7;
01 R21; 05 R129; 13 R285, R286, R291, R292, R296; 14 R322). -/

namespace Sys2Proof.Machine

/-- A register write of up to 8 bytes at an 8-aligned offset: the bits written and their mask. -/
structure RegW where
  val : Nat
  mask : Nat
  deriving DecidableEq, Repr

/-- A field of `n` bits from bit `lo`: written where the mask covers it, kept elsewhere (00 R5, RW). -/
def RegW.put (w : RegW) (lo n old : Nat) : Nat :=
  let m := (w.mask >>> lo) % 2 ^ n
  ((old &&& (m ^^^ (2 ^ n - 1))) ||| ((w.val >>> lo) % 2 ^ n &&& m)) % 2 ^ n
/-- A field as a bit vector. -/
def RegW.bv {n : Nat} (w : RegW) (lo : Nat) (old : BitVec n) : BitVec n := BitVec.ofNat n (w.put lo n old.toNat)
/-- A field of one bit. -/
def RegW.bool (w : RegW) (i : Nat) (old : Bool) : Bool := if w.mask.testBit i then w.val.testBit i else old
/-- Whether a 1 is written to bit `i`. -/
def RegW.set (w : RegW) (i : Nat) : Bool := w.mask.testBit i && w.val.testBit i
/-- A bit that a written 1 clears (00 R5, W1C). Where the hardware sets it in the same cycle it stays set (00 R6): such a write is a command
before the one that sets the bit (DESIGN CHOICE). -/
def RegW.w1c (w : RegW) (i : Nat) (old : Bool) : Bool := old && !w.set i
/-- Whether the write touches the lower, or the upper, 32 bits. -/
def RegW.lo (w : RegW) : Bool := w.mask % 2 ^ 32 != 0
/-- Whether the write touches the upper 32 bits. -/
def RegW.hi (w : RegW) : Bool := w.mask / 2 ^ 32 != 0

/-! ### Cores, reservoirs, dies, ports -/

/-- One row map entry written; 0x9 to 0xE is ignored (03 R65). -/
def Core.putRow (c : Core) (i : Nat) (v : BitVec 4) : Core :=
  if 9 ≤ v.toNat ∧ v.toNat ≤ 14 then c else { c with rowMap := Map.set (0xF#4) c.rowMap i v }
/-- CUBE_REPAIRED: the cubes with a bypassed row of 0 to 7 (03 R65). -/
def Core.withRepaired (c : Core) : Core :=
  { c with cubeRepaired := BitVec.ofNat 8 (((List.range 8).map fun i => bit (decide ((Map.get (0xF#4) c.rowMap i).toNat ≤ 7)) * 2 ^ i).sum) }

/-- The writable registers of a core's page. -/
def State.coreWrite (s : State) (n o : Nat) (w : RegW) : State :=
  let c := s.core n
  let q := (o - 0x400) / 0x40
  let x := c.queue q
  let still := x.st == .idle || x.st == .halted
  if o = 0x10 then
    if c.cubeLock then s else s.setCore n { c with eqMode := w.bool 4 c.eqMode, cubeLock := w.bool 31 c.cubeLock }
  else if 0x20 ≤ o ∧ o < 0x40 then
    if c.cubeLock then s
    else
      let i := (o - 0x20) / 4
      let c := if w.lo then c.putRow i (w.bv 0 (Map.get (0xF#4) c.rowMap i)) else c
      let c := if w.hi then c.putRow (i + 1) (w.bv 32 (Map.get (0xF#4) c.rowMap (i + 1))) else c
      s.setCore n c.withRepaired
  else if o = 0x40 then s.setCore n { c with feedLimit := w.bv 0 c.feedLimit }
  else if o = 0x200 then
    let f := c.sticky
    s.setCore n { c with
      sticky := { inv := w.w1c 0 f.inv, ovf := w.w1c 1 f.ovf, sat := w.w1c 2 f.sat, flush := w.w1c 3 f.flush }
      bkptEn := w.bool 63 c.bkptEn
      wcoll := w.w1c 32 c.wcoll }
  else if 0x400 ≤ o ∧ o < 0x500 ∧ o % 0x40 = 0 then
    if still then s.setQueue n q { x with base := w.bv 0 x.base } else s
  else if 0x400 ≤ o ∧ o < 0x500 ∧ o % 0x40 = 8 then
    let s := if still then s.setQueue n q { x with count := w.bv 0 x.count } else s
    let s := if w.set 63 then startQ s n q else s
    let s := if w.set 62 then haltQ s n q else s
    if w.set 61 then resumeQ s n q (w.set 60) else s
  else if o = 0x8400 then s.setCist n { s.cist n with wholdLimit := w.bv 0 (s.cist n).wholdLimit }
  else s

/-- The writable registers of a reservoir. -/
def State.rsvWrite (s : State) (k o : Nat) (w : RegW) : State :=
  let v := s.rsv k
  if o = 0x100 then
    s.setRsv k { v with skimEnable := w.bool 31 v.skimEnable, skimPoison := w.bool 30 v.skimPoison, skimPeriod := w.bv 0 v.skimPeriod }
  else if o = 0x4010 then
    let f := v.bnkFlags
    s.setRsv k { v with bnkFlags := { f with ovf := w.w1c 0 f.ovf, inv := w.w1c 1 f.inv, sat := w.w1c 2 f.sat } }
  else if o = 0x8008 then s.setRsv k { v with passLimit := w.bv 0 v.passLimit }
  else s

/-- The writable registers of a compute die: SLU_LAT_m_c (10 R237). -/
def State.dieWrite (s : State) (d o : Nat) (w : RegW) : State :=
  let y := o - 0x01000000
  let m := (y - 0x8000) / 0x40
  let c := y % 0x40 / 8
  if 0x01008000 ≤ o ∧ y < 0x9000 ∧ portDie m = d ∧ c < 5 then
    let x : SluLat := Map.get {} s.sluLat (5 * m + c)
    let x' : SluLat := { isOver := w.w1c 63 x.isOver, thresh := w.bv 32 x.thresh, maxNs := if w.set 15 then 0 else x.maxNs }
    { s with sluLat := Map.set {} s.sluLat (5 * m + c) x' }
  else s

/-- The writable register of a port: LNK_CFG (12 R280). -/
def State.portWrite (s : State) (p o : Nat) (w : RegW) : State :=
  let x := s.lport p
  if o = 0x30 then
    s.setPort p { x with admitWait := w.bv 0 x.admitWait
                         peerResetEn := if x.cfgLock then x.peerResetEn else w.bool 30 x.peerResetEn
                         cfgLock := x.cfgLock || w.set 31 }
  else s

/-! ### Rings and MSI-X (13 R291, R292, R296) -/

/-- Entries of a ring. -/
def HostRing.size (x : HostRing) : Nat := 2 ^ x.log2n.toNat
/-- A ring as ENABLE is set (R291). -/
def HostRing.start (x : HostRing) : HostRing :=
  { x with enable := true, halted := false, head := 0, tail := 0, phase := true, used := 0, fresh := 0, firstAt := none, lost := 0,
           lostHere := 0 }

/-- A write of HST_RING_CFG (R291). Setting ENABLE again starts a halted ring anew. -/
def State.ringCfg (s : State) (r : Nat) (w : RegW) : State :=
  let x := s.ring r
  if x.enable then
    if !w.bool 31 x.enable then s.setRing r { x with enable := false }
    else if w.set 31 && x.halted then s.setRing r x.start
    else s
  else
    let x := { x with log2n := w.bv 16 x.log2n, cq := w.bv 12 x.cq, vector := w.bv 0 x.vector }
    s.setRing r (if w.set 31 && decide (4 ≤ x.log2n.toNat) && decide (x.log2n.toNat ≤ 16) then x.start else x)

/-- A write of HST_RING_COAL (R291), in the upper half of its slot. -/
def State.ringCoal (s : State) (r : Nat) (w : RegW) : State :=
  let x := s.ring r
  if x.enable then s else s.setRing r { x with coalUs := w.bv 48 x.coalUs, coalCnt := w.bv 32 x.coalCnt }

/-- A ring halts on a bad index (R292). -/
def State.ringBad (s : State) (r old v : Nat) : State :=
  (s.setRing r { s.ring r with halted := true }).postEv 13 cHstRingBad none [r, old, v, 0]

/-- Whether a ring takes doorbells and is read or written: enabled, and not halted. -/
def HostRing.live (x : HostRing) : Bool := x.enable && !x.halted

/-- A write of an SQ tail (R292): entries up to the new tail pass to the wellhead. -/
def sqDoorbell (s : State) (r v : Nat) : State :=
  let x := s.ring r
  if !x.live then s
  else
    let s := s.post 13 (.doorbell 0 r v)
    if x.size ≤ v then s.ringBad r x.tail.toNat v
    else s.setRing r { x with tail := BitVec.ofNat 16 v, used := x.used + (v + x.size - x.tail.toNat) % x.size }

/-- A write of a CQ or EQ head (R292): entries are returned; a head that passes entries not yet written halts the ring. -/
def headDoorbell (s : State) (kind r v : Nat) : State :=
  let x := s.ring r
  if !x.live then s
  else
    let s := s.post 13 (.doorbell kind r v)
    let n := (v + x.size - x.head.toNat) % x.size
    if x.size ≤ v ∨ x.used < n then s.ringBad r x.head.toNat v
    else s.setRing r { x with head := BitVec.ofNat 16 v, used := x.used - n }

/-- A vector's message sent, or left pending while masked (R296; PCI Express). -/
def State.signalVec (s : State) (v : Nat) : State :=
  let m := s.vec v
  if m.masked || s.pci.msixMask || !s.pci.msixEn then s.setVec v { m with pending := true }
  else { s.setVec v { m with pending := false } with hostOut := s.hostOut ++ [.msix m.addr m.data] }
/-- A pending vector that nothing masks any more sends its message (R296). -/
def State.sendPending (s : State) (v : Nat) : State := if (s.vec v).pending then s.signalVec v else s

/-- MSIX_VECTOR_UNMASK (R296). -/
def msixUnmask (s : State) (v : Nat) : State := (s.setVec v { s.vec v with masked := false }).sendPending v

/-- MSIX_INTERRUPT (R296): COAL_CNT entries written since the last interrupt, or COAL_US since the first of them. -/
def msixInterrupt (s : State) (r : Nat) : State :=
  let x := s.ring r
  let late := match x.firstAt with | some t => decide (x.coalUs.toNat ≤ usIn (s.time - t)) | none => false
  if r < 16 ∨ 33 ≤ r ∨ x.fresh = 0 then s
  else if decide (max 1 x.coalCnt.toNat ≤ x.fresh) || late then
    (s.setRing r { x with fresh := 0, firstAt := none }).signalVec x.vector.toNat
  else s

/-! ### Writes by block -/

/-- The writable registers of HST_ at their BAR0 offsets (13 R285 to R292). -/
def State.hstWrite (s : State) (o : Nat) (w : RegW) : State :=
  let h := s.host
  if 0x10000 ≤ o ∧ o ≤ 0x11000 then
    let v := w.val % 2 ^ 16
    if !w.lo then s
    else if o = 0x11000 then headDoorbell s 2 32 v
    else if o % 0x100 = 0 then sqDoorbell s ((o - 0x10000) / 0x100) v
    else if o % 0x100 = 0x80 then headDoorbell s 1 (16 + (o - 0x10000) / 0x100) v
    else s
  else if 0x30000 ≤ o ∧ o < 0x31000 then
    let v := (o - 0x30000) / 16
    let m := s.vec v
    if o % 16 = 0 then s.setVec v { m with addr := w.bv 0 m.addr }
    else (s.setVec v { m with data := w.bv 0 m.data, masked := w.bool 32 m.masked }).sendPending v
  else if o = 0x40000 then
    { s with host := { h with win := w.bv 28 h.win, wprot := w.bool 1 h.wprot, winEn := w.bool 0 h.winEn } }
  else if o = 0x40008 then { s with host := { h with regWin := w.bv 25 h.regWin } }
  else if o = 0x40018 then { s with host := { h with faultValid := w.w1c 63 h.faultValid } }
  else
    match ringAt o with
    | none => s
    | some r =>
      let x := s.ring r
      if o % 0x40 = 0 then (if x.enable then s else s.setRing r { x with addr := w.bv 12 x.addr })
      else if o % 0x40 = 8 then
        let s := if w.hi then s.ringCoal r w else s
        if w.lo then s.ringCfg r w else s
      else s

/-- The writable registers of the hub: WH_INJECT_CTL, CLP_CFG, PWR_GATE_CFG and HST_. -/
def State.hubWrite (s : State) (o : Nat) (w : RegW) : State :=
  let c := s.clp
  let t := s.thm
  if o = 0x100 then
    if s.wh.injLock then s else { s with wh := { s.wh with injEn := w.bool 30 s.wh.injEn, injLock := w.bool 31 s.wh.injLock } }
  else if o = 0x300020 then
    if c.cfgLock then s
    else { s with clp := { c with cfgLock := w.bool 31 c.cfgLock, turnEvt := w.bool 30 c.turnEvt, cadDelay := w.bv 20 c.cadDelay,
                                  thresh := w.bv 0 c.thresh } }
  else if o = 0x600018 then
    if t.gateLock then s
    else { s with thm := { t with gateLock := w.bool 31 t.gateLock, fillEn := w.bool 30 t.fillEn, idleSlots := w.bv 0 t.idleSlots } }
  else if inHst o then s.hstWrite (o - Config.hstBase) w
  else s

/-- A write at an 8-aligned offset of register space. -/
def State.blkWrite (s : State) (x : Nat) (w : RegW) : State :=
  match s.regBlk x with
  | .hub o => s.hubWrite o w
  | .die d o => s.dieWrite d o w
  | .rsv k o => s.rsvWrite k o w
  | .port p o => s.portWrite p o w
  | .core n o => s.coreWrite n o w
  | .none => s

/-! ### Origins and the audit log -/

/-- ORIGIN and ODETAIL of a register write (14 R322). -/
def originCodes : Origin → Nat × Nat
  | .host => (1, 0)
  | .sbm a => (2, a.toNat)
  | .jtag => (4, 0)
/-- The source that posts a register write's change (14 Table WHD-7). -/
def originSrc : Origin → Nat
  | .host => 13
  | _ => 14

/-- The registers a write changed, with their contents before and after (14 R322): class 0x05, by module address. -/
def slotAudits (o : Origin) (ma : Nat) (w : RegW) (a b : RegSlot) : List Audit :=
  let e (ma x y : Nat) : List Audit :=
    if x = y then []
    else [{ origin := (originCodes o).1, oclass := 5, object := ma, old := BitVec.ofNat 64 x, new := BitVec.ofNat 64 y,
            odetail := (originCodes o).2 }]
  match a, b with
  | .wide x, .wide y => e ma x y
  | .pair l h, .pair l' h' =>
    (if w.lo then e ma (l.getD 0) (l'.getD 0) else []) ++ if w.hi then e (ma + 4) (h.getD 0) (h'.getD 0) else []
  | _, _ => []

/-- A change to configuration posted, where there is one (14 R319, R322). -/
def State.postChange (s : State) (src : Nat) (as : List Audit) : State := if as = [] then s else s.post src .change as

/-- A write of one slot of register space, audited (14 R322). -/
def State.regStore (s : State) (o : Origin) (x : Nat) (w : RegW) : State :=
  let a := s.slot x
  let s := s.blkWrite x w
  s.postChange (originSrc o) (slotAudits o (0x03F000000000 + x) w a (s.slot x))

/-- A write of one slot of BAR0 outside the aperture, audited. -/
def State.bar0Store (s : State) (x : Nat) (w : RegW) : State :=
  let a := s.hstSlot x
  let s := s.hstWrite x w
  s.postChange 13 (slotAudits .host (0x03F000000000 + Config.hstBase + x) w a (s.hstSlot x))

/-- `n` bytes written from byte `a` of a slot on. -/
def regW (a : Nat) (bs : List Byte) : RegW := { val := leNat bs * 2 ^ (8 * a), mask := (2 ^ (8 * bs.length) - 1) * 2 ^ (8 * a) }

/-- Bytes written to register space from offset `x`, slot by slot: each slot is written, or fails with its fault. -/
def State.writeRegs (s : State) (o : Origin) (x : Nat) (bs : List Byte) : State × Nat :=
  (pieces 8 (bs.length / 8 + 2) x bs.length).foldl
    (fun (acc : State × Nat) p =>
      let s := acc.1
      if !(s.slot (p.1 / 8 * 8)).mapped (p.1 % 8) p.2 then (s, if acc.2 = 0 then cMemUnmapped else acc.2)
      else if s.regFenced p.1 then (s, if acc.2 = 0 then cNetTargetReset else acc.2)
      else (s.regStore o (p.1 / 8 * 8) (regW (p.1 % 8) ((bs.drop (p.1 - x)).take p.2)), acc.2))
    (s, 0)

end Sys2Proof.Machine
end

