-- ==== Sys2Proof/Machine/Sha3.lean ====
section
/-! DEFINITION. SHA3-512, which the spec names (05 R127; 14 R308, R309, R315) and does not give (PRESUMED: as FIPS 202 defines it).
A digest is the number whose bytes, the least significant first, are the 64 bytes of the hash. -/

namespace Sys2Proof.Machine

/-- The rotation of each lane, x + 5y. -/
def keccakRot : List Nat := [0, 1, 62, 28, 27, 36, 44, 6, 55, 20, 3, 10, 43, 25, 39, 41, 45, 15, 21, 8, 18, 2, 61, 56, 14]
/-- The constants of the 24 rounds. -/
def keccakRc : List Nat :=
  [0x0000000000000001, 0x0000000000008082, 0x800000000000808A, 0x8000000080008000, 0x000000000000808B, 0x0000000080000001,
   0x8000000080008081, 0x8000000000008009, 0x000000000000008A, 0x0000000000000088, 0x0000000080008009, 0x000000008000000A] ++
  [0x000000008000808B, 0x800000000000008B, 0x8000000000008089, 0x8000000000008003, 0x8000000000008002, 0x8000000000000080,
   0x000000000000800A, 0x800000008000000A, 0x8000000080008081, 0x8000000000008080, 0x0000000080000001, 0x8000000080008008]

/-- Lane i of a state. -/
def lane5 (a : List DWord) (i : Nat) : DWord := a.getD i 0
/-- The columns added in. -/
def keccakTheta (a : List DWord) : List DWord :=
  let c := (List.range 5).map fun x => lane5 a x ^^^ lane5 a (x + 5) ^^^ lane5 a (x + 10) ^^^ lane5 a (x + 15) ^^^ lane5 a (x + 20)
  let d := (List.range 5).map fun x => lane5 c ((x + 4) % 5) ^^^ (lane5 c ((x + 1) % 5)).rotateLeft 1
  (List.range 25).map fun i => lane5 a i ^^^ lane5 d (i % 5)
/-- The lanes rotated and moved. -/
def keccakRhoPi (a : List DWord) : List DWord :=
  (List.range 25).map fun i =>
    let j := (i % 5 + 3 * (i / 5)) % 5 + 5 * (i % 5)
    (lane5 a j).rotateLeft (keccakRot.getD j 0)
/-- The rows mixed. -/
def keccakChi (a : List DWord) : List DWord :=
  (List.range 25).map fun i =>
    let y := i / 5 * 5
    lane5 a i ^^^ (~~~lane5 a (y + (i + 1) % 5) &&& lane5 a (y + (i + 2) % 5))
/-- One round. -/
def keccakRound (a : List DWord) (rc : Nat) : List DWord :=
  match keccakChi (keccakRhoPi (keccakTheta a)) with
  | x :: xs => (x ^^^ BitVec.ofNat 64 rc) :: xs
  | [] => []
/-- A block of 72 bytes taken in. -/
def sha3Block (a : List DWord) (bs : List Byte) : List DWord :=
  let m := (List.range 25).map fun i => if i < 9 then lane5 a i ^^^ BitVec.ofNat 64 (leNat ((bs.drop (8 * i)).take 8)) else lane5 a i
  keccakRc.foldl keccakRound m
/-- What fills the last block. -/
def sha3Pad (n : Nat) : List Byte := if n % 72 = 71 then [0x86] else 0x06 :: (List.replicate (70 - n % 72) 0 ++ [0x80])
/-- SHA3-512. -/
def sha3_512 (bs : List Byte) : BitVec 512 :=
  let m := bs ++ sha3Pad bs.length
  let a := (List.range (m.length / 72)).foldl (fun a i => sha3Block a ((m.drop (72 * i)).take 72)) (List.replicate 25 0)
  BitVec.ofNat 512 ((a.take 8).foldr (fun x acc => x.toNat + acc * 2 ^ 64) 0)

end Sys2Proof.Machine
end

