-- ==== Sys2Proof/Machine/HostOps.lean ====
section
/-! DEFINITION. The host's accesses through BAR0 and BAR2, the rings, and the taking and starting of WCS commands
(13 R283 to R298; 14 R310). -/

namespace Sys2Proof.Machine

/-! ### Accesses (R283 to R289) -/

/-- The part of a host request that lies in register space, performed at the hub (01 R21; 13 R285): it never enters the network. -/
def State.regPart (s : State) (p : ReqPart) : State :=
  let off (a : Nat) : Nat := match s.resolve a with | .reg x => x | _ => 0
  let one (acc : State × (Nat × Nat) × List Byte) (r : Nat × Nat) : State × (Nat × Nat) × List Byte :=
    let o : State × Nat × List Byte :=
      if p.wr then let w := acc.1.writeRegs .host (off r.1) (p.bytesAt r.1 r.2); (w.1, w.2, []) else acc.1.readRegs (off r.1) r.2
    (o.1, if acc.2.1.1 = 0 ∧ o.2.1 ≠ 0 then (o.2.1, r.1) else acc.2.1, acc.2.2 ++ o.2.2)
  let t := p.runs.foldl one (s, (0, 0), [])
  t.1.partDone p t.2.1.1 t.2.1.2 0 t.2.2

/-- Whether a part lies in register space. -/
def State.isRegPart (s : State) (p : ReqPart) : Bool := match s.resolve p.ma with | .reg _ => true | _ => false

/-- A request of the host, whole (R286, R287; 10 R409). -/
def State.hostReq (s : State) (who : Who) (wr : Bool) (ma len : Nat) (data : List Byte) : State :=
  let r := s.openReq hubMaster who false wr ma len data
  ((r.2.filter s.isRegPart).foldl State.regPart r.1).sendReq hubMaster (r.2.filter fun p => !s.isRegPart p)

/-- A host read of module memory or registers begun (R287). -/
def State.hostRead (s : State) (tag ma len : Nat) (since : Option Nat := none) : State :=
  let h : HostRead := { tag := tag, ma := ma, len := len, since := since.getD s.time, data := [], fault := none }
  if s.host.reads.any fun r => r.tag == tag then s
  else ({ s with host := { s.host with reads := s.host.reads ++ [h] } } : State).hostReq (.hostRead tag) false ma len []

/-- A host read that fails before it reaches the module (R286, R287). -/
def State.hostReadFails (s : State) (tag ma len code : Nat) : State :=
  s.endHostRead { tag := tag, ma := ma, len := len, since := s.time, data := [], fault := some (code, ma, 0) }

/-- A host write of module memory or registers (R287): each part is performed or discarded. -/
def State.hostWrite (s : State) (ma : Nat) (bs : List Byte) : State := s.hostReq .hostWrite true ma bs.length bs

/-- The module address of a BAR2 offset (R286): bits of BASE below the BAR2 size are ignored. -/
def State.bar2MA (s : State) (off : Nat) : Nat :=
  let size := 2 ^ s.pci.bar2Log.toNat
  (s.host.win.toNat * 2 ^ 28 / size * size + off) % 2 ^ 48

/-- HOST_BAR2_READ (R286, R287): at most 4,096 bytes. -/
def bar2Read (s : State) (tag off len : Nat) (since : Option Nat := none) : State :=
  if 2 ^ s.pci.bar2Log.toNat ≤ off then s
  else if s.host.winEn then s.hostRead tag (s.bar2MA off) (min len 4096) since
  else s.hostReadFails tag (s.bar2MA off) len cMemUnmapped

/-- HOST_BAR2_WRITE (R286, R287): at most 512 bytes. -/
def bar2Write (s : State) (off : Nat) (bs : List Byte) : State :=
  if 2 ^ s.pci.bar2Log.toNat ≤ off then s
  else if !s.host.winEn then s.barFault cMemUnmapped (s.bar2MA off)
  else if s.host.wprot then s.barFault cHstWinReadonly (s.bar2MA off)
  else s.hostWrite (s.bar2MA off) (bs.take 512)

/-- The module address of an aperture offset (R285). -/
def State.regMA (s : State) (o : Nat) : Nat := (s.host.regWin.toNat * 2 ^ 25 + o) % 2 ^ 48
/-- Whether a module address lies in register space (01 R20). -/
def inRegSpace (ma : Nat) : Bool := decide (0x03F000000000 ≤ ma) && decide (ma < 0x040000000000)

/-- A read or a write of BAR0 (R283, R285): aligned, of 4 or 8 bytes; any other read completes with UR, any other write is
discarded. The MSI-X structures stand with the rest. -/
def bar0Access (s : State) (tag off n : Nat) (data : Option DWord) (since : Option Nat := none) : State :=
  let bad := (n != 4 && n != 8) || off % n != 0 || decide (2 ^ 26 ≤ off)
  let ma := s.regMA (off % 2 ^ 25)
  match data with
  | none =>
    if bad then { s with hostOut := s.hostOut ++ [.cpl tag .ur []] }
    else if off < 2 ^ 25 then
      { s.draw with hostOut := s.hostOut ++ [.cpl tag .ok (((leBytes 8 ((s.hstSlot (off / 8 * 8)).value s.free)).drop (off % 8)).take n)] }
    else if inRegSpace ma then s.hostRead tag ma n since
    else s.hostReadFails tag ma n cMemUnmapped
  | some d =>
    let bs := leBytes n d.toNat
    if bad then s
    else if off < 2 ^ 25 then s.bar0Store (off / 8 * 8) (regW (off % 8) bs)
    else if inRegSpace ma then s.hostWrite ma bs
    else s.barFault cMemUnmapped ma


/-- REGISTER_WRITE (00 R5 to R7; 01 R21): an aligned write of 4 or 8 bytes, by the host to its own registers in BAR0 (`bar0`), else
to register space by whoever may reach it. -/
def registerWrite (s : State) (o : Origin) (bar0 : Bool) (off n : Nat) (d : DWord) : State :=
  if (n ≠ 4 ∧ n ≠ 8) ∨ off % n ≠ 0 then s
  else if bar0 then (match o with | .host => bar0Access s 0 (off % 2 ^ 25) n (some d) | _ => s)
  else
    let r := s.writeRegs o off (leBytes n d.toNat)
    match o with
    | .host => if r.2 = 0 then r.1 else r.1.barFault r.2 (0x03F000000000 + off)
    | .sbm _ => r.1
    | .jtag => { r.1 with tapReset := false }

/-- RING_ENABLE (R291): a write of HST_RING_CFG that sets ENABLE. -/
def ringEnable (s : State) (r : Nat) (cfg : Word) : State :=
  if r < 33 then s.bar0Store (0x20008 + 0x40 * r) { val := cfg.toNat ||| 2 ^ 31, mask := 2 ^ 32 - 1 } else s

/-! ### The order of host accesses (R286) -/

/-- Whether the hub has to keep accesses of the host waiting: a write the host has posted is not performed yet (R286), or an event of the hub waits for room (14 R320). -/
def State.hostWaits (s : State) : Bool :=
  s.heldEvents 13 != [] || s.reqs.any fun r => decide (r.who = .hostWrite)
/-- Whether an access the hub receives has to wait for an earlier posted write. -/
def State.hubBlocked (s : State) : Bool := s.host.hub != [] || s.hostWaits

/-- An access of the host that the hub received at time `t`, performed. -/
def State.hubPerform (s : State) (t : Nat) : HubAcc → State
  | .bar0 tag off n d => bar0Access s tag off n d (some t)
  | .read tag off n => bar2Read s tag off n (some t)
  | .write off bs => bar2Write s off bs
  | .reg off n d => registerWrite s .host false off n d
  | .sqDoorbell r v => sqDoorbell s r v
  | .headDoorbell k r v => headDoorbell s k r v
  | .enable r cfg => ringEnable s r cfg
  | .unmask v => msixUnmask s v

/-- Accesses that waited performed in the order received, up to one that still has to wait. -/
def State.hubDrain (s : State) : Nat → State
  | 0 => s
  | fuel + 1 =>
    if s.hostWaits then s
    else match s.host.hub with
      | [] => s
      | a :: rest => ({ s with host := { s.host with hub := rest } }.hubPerform a.1 a.2).hubDrain fuel

/-- An access of the host: performed after every write the host posted earlier (R286). -/
def State.hubTake (s : State) (a : HubAcc) : State :=
  let s := s.hubDrain s.host.hub.length
  if s.hubBlocked then { s with host := { s.host with hub := s.host.hub ++ [(s.time, a)] } } else s.hubPerform s.time a

/-- A read that the hub holds back since `t`, as a read begun. -/
def State.hubRead (s : State) (a : Nat × HubAcc) : Option HostRead :=
  let h (tag ma len : Nat) : HostRead := { tag := tag, ma := ma, len := len, since := a.1, data := [], fault := none }
  match a.2 with
  | .bar0 t off n none => some (h t (s.regMA (off % 2 ^ 25)) n)
  | .read t off n => some (h t (s.bar2MA off) (min n 4096))
  | _ => none

/-- HST_READ_EXPIRED (R289): 500 µs after its arrival a read not complete is answered with CA. -/
def readExpired (s : State) (tag : Nat) : State :=
  let mine (h : HostRead) : Bool := h.tag == tag
  let expire (s : State) (h : HostRead) : State :=
    if h.since + 800000 ≤ s.time then s.endHostRead { h with fault := some (cHstReadExpired, h.ma, 0) } else s
  match s.host.reads.find? mine with
  | some h => expire s h
  | none =>
    match s.host.hub.find? fun a => (s.hubRead a).any mine with
    | some a => (match s.hubRead a with
        | some h => if h.since + 800000 ≤ s.time then expire { s with host := { s.host with hub := s.host.hub.erase a } } h else s
        | none => s)
    | none => s

/-- The identity in configuration space (R282): vendor, device, class code and revision. -/
def State.pciId (s : State) : BitVec 16 × BitVec 16 × BitVec 24 × BitVec 8 := (Config.vendorId, 0x0960, 0x120000, s.fuses.stepping)

/-- CONFIGURATION_WRITE (R282). A BAR2 size outside 256 MiB to 1 TiB is not offered and changes nothing, nor does a payload size beyond
512 bytes or a read request size beyond 4,096. -/
def configWrite (s : State) (w : CfgWrite) : State :=
  let p := s.pci
  match w with
  | .bar2Size n => if 28 ≤ n.toNat ∧ n.toNat ≤ 40 then { s with pci := { p with bar2Log := n } } else s
  | .bar0 a => { s with pci := { p with bar0 := a &&& ~~~(BitVec.ofNat 64 (2 ^ 26 - 1)) } }
  | .bar2 a => { s with pci := { p with bar2 := a &&& ~~~(BitVec.ofNat 64 (2 ^ p.bar2Log.toNat - 1)) } }
  | .deviceControl r mp mr =>
    { s with pci := { p with relaxed := r, maxPayload := if mp.toNat ≤ 2 then mp else p.maxPayload, maxRead := if mr.toNat ≤ 5 then mr else p.maxRead } }
  | .msixControl e m => (Map.keys s.host.msix).foldl State.sendPending { s with pci := { p with msixEn := e, msixMask := m } }

/-! ### WCS commands (R284, R293, R294, R297, R298) -/

/-- Statuses (13 Table HST-5). -/
def stOk : Nat := 0x00
/-- ALREADY_COMPLETE. -/
def stAlready : Nat := 0x01
/-- ABORTED. -/
def stAborted : Nat := 0x02
/-- JOB_FAULTED. -/
def stJobFaulted : Nat := 0x03
/-- JOB_TIMEOUT. -/
def stJobTimeout : Nat := 0x04
/-- DMA_BROKEN. -/
def stDmaBroken : Nat := 0x05
/-- DMA_FAULT. -/
def stDmaFault : Nat := 0x06
/-- BAD_OPCODE. -/
def stBadOpcode : Nat := 0x10
/-- BAD_ARGUMENT. -/
def stBadArg : Nat := 0x11
/-- NO_SUCH_PARTITION. -/
def stNoPart : Nat := 0x12
/-- NO_SUCH_OBJECT. -/
def stNoObject : Nat := 0x13
/-- BUSY. -/
def stBusy : Nat := 0x14
/-- NO_RESOURCE. -/
def stNoResource : Nat := 0x15
/-- PLACE_DENIED. -/
def stPlaceDenied : Nat := 0x16
/-- PORT_DOWN. -/
def stPortDown : Nat := 0x17
/-- NOT_READY. -/
def stNotReady : Nat := 0x18
/-- ENGINE_ABSENT. -/
def stEngineAbsent : Nat := 0x20
/-- NOT_LICENSED. -/
def stNotLicensed : Nat := 0x21
/-- SHARE_OVERCOMMIT. -/
def stShareOver : Nat := 0x22
/-- TEMP_FORBIDDEN. -/
def stTempForbidden : Nat := 0x23
/-- BAD_SIGNATURE. -/
def stBadSig : Nat := 0x24
/-- REVOKED. -/
def stRevoked : Nat := 0x25
/-- LOAD_PROFILE_MISMATCH. -/
def stMismatch : Nat := 0x30

/-- The opcodes of Table HST-4. -/
def wcsOpcodes : List Nat :=
  [0x01, 0x02, 0x03, 0x04, 0x05, 0x06, 0x07, 0x08, 0x09, 0x10, 0x11, 0x12, 0x13, 0x14, 0x18, 0x19, 0x1A, 0x20, 0x21, 0x22, 0x23, 0x28, 0x29,
   0x2A, 0x2B]
/-- Argument word i (R297). -/
def WcsCmd.arg (c : WcsCmd) (i : Nat) : Nat := (c.w.getD i 0).toNat
/-- An argument narrower than 32 bits: the bits above are reserved (R297; 00 R7). -/
def WcsCmd.low (c : WcsCmd) (i : Nat) : Nat := c.arg i % 2 ^ 32
/-- A module address among the arguments (R297; 00 R7). -/
def WcsCmd.ma (c : WcsCmd) (i : Nat) : Nat := c.arg i % 2 ^ 48

/-- Whether commands are all served: READY set and no recovery (R284; 14 R310). -/
def State.serving (s : State) : Bool := s.bup.ready && !s.wh.recovery
/-- The status of a command refused before its own checks (R284, R297; 14 R310; 17 R385): before READY, and in recovery, only
FW_UPDATE, AUDIT_EXPORT and RESET of the whole module, cold, are served; RESET with any other scope is a BAD_ARGUMENT in recovery. -/
def State.refusal (s : State) (c : WcsCmd) : Option Nat :=
  if !s.serving then
    if c.opc = 0x29 ∨ c.opc = 0x2A then none
    else if c.opc = 0x20 ∧ c.low 0 = 0 then none
    else if c.opc = 0x20 ∧ s.wh.recovery then some stBadArg
    else some stNotReady
  else if !wcsOpcodes.contains c.opc then some stBadOpcode
  else if c.opc = 0x20 ∧ 5 < c.low 0 then some stBadArg
  else if c.opc = 0x21 ∧ 1 < c.low 0 then some stBadArg
  else if c.opc = 0x2B ∧ !s.wh.injEn then some stBadOpcode
  else if c.opc = 0x2B ∧ (c.arg 0 % 256 = 0 ∨ 12 < c.arg 0 % 256) then some stBadArg
  else none

/-- Commands of the same SQ taken before a command and still held. -/
def State.earlier (s : State) (c : WcsCmd) : List WcsCmd :=
  (s.host.taken.takeWhile fun x => decide (x ≠ c)).filter fun x => x.sq == c.sq
/-- Whether a command waits for an earlier one of whatever SQ: images and partial resets are performed in the order their entries are taken
(14 R311; 15 R329). -/
def State.follows (s : State) (x c : WcsCmd) : Bool :=
  x.stage == 0 && x.opc == c.opc && (s.refusal x).isNone && (s.refusal c).isNone &&
    (c.opc == 0x29 || (c.opc == 0x20 && decide (2 ≤ x.low 0) && decide (2 ≤ c.low 0)))
/-- Whether a command may start (R293): in ring order, and with ORDER only once every earlier one has completed; not while an event of
the wellhead waits for room (14 R320). -/
def State.startable (s : State) (c : WcsCmd) : Bool :=
  (s.heldEvents 14).isEmpty && c.stage == 0 && (s.earlier c).all (fun x => x.stage != 0) && (!c.order || (s.earlier c).isEmpty) &&
    (s.host.taken.takeWhile fun x => decide (x ≠ c)).all fun x => !s.follows x c

/-- Commands that are refused whatever they say complete as soon as they may start. -/
def State.refuseCmds (s : State) : State :=
  s.host.taken.foldl
    (fun s c =>
      match s.refusal c with
      | some st => if s.startable c then s.complete c.sq c.cid st 0 [] [] (some c.opc) else s
      | none => s) s

/-- The partition a command names exists. -/
def State.partExists (s : State) (p : Nat) : Bool := (s.part p).clusters != 0

/-- The SQ whose entry the wellhead takes next: the first after the last served that has entries (R293). -/
def State.nextSq (s : State) : Option Nat :=
  ((List.range 16).map fun i => (s.host.lastSq + 1 + i) % 16).find? fun r => (s.ring r).live && decide (0 < (s.ring r).used)

/-- An SQ halts because an entry could not be read (R292). -/
def State.sqFetchFailed (s : State) (r : Nat) : State :=
  let x := s.ring r
  (s.setRing r { x with halted := true }).postEv 13 cHstRingFetch none [r, x.head.toNat, x.head.toNat, 0]

/-- A command started: stage 1. -/
def State.begin_ (s : State) (c : WcsCmd) : State :=
  { s with host := { s.host with taken := s.host.taken.map fun x => if x = c then { x with stage := 1 } else x } }
/-- A JOB_ABORT that may start as it is taken is posted to the arbiter (R302). -/
def State.takeAbort (s : State) (c : WcsCmd) : State :=
  if c.opc = 0x13 ∧ s.host.taken.contains c ∧ (s.refusal c).isNone ∧ s.startable c then (s.begin_ c).post 14 (.abort c.sq c.cid) else s

/-- SQ_ENTRY_TAKE (R292, R293): the wellhead reads the next entry of the SQ whose turn it is. -/
def sqTake (s : State) (r : Nat) (e : HostData) : State :=
  if s.nextSq ≠ some r ∨ 256 ≤ s.host.taken.length ∨ s.bup.holding ∨ s.heldEvents 14 ≠ [] then s
  else
    let x := s.ring r
    match e with
    | .failed => s.sqFetchFailed r
    | .ok bs =>
      if bs.length ≠ 64 then s
      else
        let w (i : Nat) : Nat := leNat ((bs.drop (8 * i)).take 8)
        let c : WcsCmd := { sq := r, cid := bitsOf (w 0) 16 16, part := bitsOf (w 0) 32 5, opc := w 0 % 256, order := (w 0).testBit 8,
                            w := (List.range 7).map fun i => BitVec.ofNat 64 (w (i + 1)), stage := 0 }
        let s := s.setRing r { x with head := BitVec.ofNat 16 ((x.head.toNat + 1) % x.size), used := x.used - 1 }
        ({ s with host := { s.host with lastSq := r, taken := s.host.taken ++ [c] } }.refuseCmds).takeAbort c

/-- An entry of 64 bytes written to a CQ or the EQ (R294, R295): PHASE as the ring has it, which inverts at each wrap. -/
def State.ringWrite (s : State) (r : Nat) (words : List Nat) : State :=
  let x := s.ring r
  let bs := (words ++ [bit x.phase]).flatMap (leBytes 8)
  let last := decide (x.tail.toNat + 1 = x.size)
  let y := { x with tail := if last then 0 else x.tail + 1, phase := if last then !x.phase else x.phase, used := x.used + 1,
                    fresh := x.fresh + 1, firstAt := some (x.firstAt.getD s.time) }
  { s.setRing r y with
    hostOut := s.hostOut ++ [.write (BitVec.ofNat 64 (x.addr.toNat * 4096 + 64 * x.tail.toNat)) false bs] }

/-- Whether a CQ or the EQ has room. -/
def HostRing.room (x : HostRing) : Bool := x.live && decide (x.used < x.size)

/-- CQ_ENTRY_WRITE (R294): the oldest completion bound to the CQ, once it has a free entry. -/
def cqWrite (s : State) (cq : Nat) : State :=
  match s.host.cqWait.find? fun w => (s.ring w.sq).cq.toNat == cq with
  | none => s
  | some w =>
    if 16 ≤ cq ∨ !(s.ring (16 + cq)).room then s
    else
      let w0 := (s.ring w.sq).head.toNat * 2 ^ 48 + w.status % 2 ^ 16 * 2 ^ 32 + w.cid % 2 ^ 16 * 2 ^ 16 + w.sq % 16 * 2 ^ 12 + w.opc % 256
      let s := s.ringWrite (16 + cq)
        ([w0, w.esn.toNat, w.fault % 2 ^ 16 * 2 ^ 48 + w.tick % 2 ^ 48] ++ (List.range 4).map fun i => (w.result.getD i 0).toNat)
      let done := s.host.taken.find? fun c => c.sq == w.sq && c.cid == w.cid && c.stage == 3
      let taken := match done with | some c => s.host.taken.erase c | none => s.host.taken
      { s with host := { s.host with cqWait := s.host.cqWait.erase w, taken := taken } }.refuseCmds

end Sys2Proof.Machine
end

