-- ==== Sys2Proof/Machine/HostRows.lean ====
section
/-! DEFINITION. The commands of the host interface but those of WCS (13): one meaning for each row. -/

namespace Sys2Proof.Machine

/-- SQ_DOORBELL (13 R292). -/
def execSqDoorbell (ring : BitVec 4) (tail : BitVec 16) (s : State) : Host.Outcome State Fault Refusal :=
  .next (s.hubTake (.sqDoorbell ring.toNat tail.toNat))

/-- CQ_DOORBELL (13 R292). -/
def execCqDoorbell (ring : BitVec 4) (head : BitVec 16) (s : State) : Host.Outcome State Fault Refusal :=
  .next (s.hubTake (.headDoorbell 1 (16 + ring.toNat) head.toNat))

/-- EQ_DOORBELL (13 R292). -/
def execEqDoorbell (head : BitVec 16) (s : State) : Host.Outcome State Fault Refusal :=
  .next (s.hubTake (.headDoorbell 2 32 head.toNat))

/-- RING_ENABLE (13 R291). -/
def execRingEnable (ring : BitVec 6) (cfg : BitVec 32) (s : State) : Host.Outcome State Fault Refusal :=
  .next (s.hubTake (.enable ring.toNat cfg))

/-- SQ_ENTRY_TAKE (13 R293). -/
def execSqEntryTake (ring : BitVec 4) (entry : HostData) (s : State) : Host.Outcome State Fault Refusal :=
  .next (sqTake s ring.toNat entry)

/-- CQ_ENTRY_WRITE (13 R294). -/
def execCqEntryWrite (ring : BitVec 4) (s : State) : Host.Outcome State Fault Refusal :=
  .next (cqWrite s ring.toNat)

/-- MSIX_INTERRUPT (13 R296). -/
def execMsixInterrupt (ring : BitVec 6) (s : State) : Host.Outcome State Fault Refusal :=
  .next (msixInterrupt s ring.toNat)

/-- MSIX_VECTOR_UNMASK (13 R296). -/
def execMsixVectorUnmask (vector : BitVec 8) (s : State) : Host.Outcome State Fault Refusal :=
  .next (s.hubTake (.unmask vector.toNat))

/-- HOST_BAR2_READ (13 R287). -/
def execHostBar2Read (tag : BitVec 10) (off : BitVec 40) (len : BitVec 13) (s : State) : Host.Outcome State Fault Refusal :=
  .next (s.hubTake (.read tag.toNat off.toNat len.toNat))

/-- HOST_BAR2_WRITE (13 R287). -/
def execHostBar2Write (off : BitVec 40) (data : List (BitVec 8)) (s : State) : Host.Outcome State Fault Refusal :=
  .next (s.hubTake (.write off.toNat data))

/-- REG_APERTURE_ACCESS (13 R285). -/
def execRegApertureAccess (tag : BitVec 10) (off : BitVec 26) (len : BitVec 4) (data : Option (BitVec 64)) (s : State) : Host.Outcome State Fault Refusal :=
  .next (s.hubTake (.bar0 tag.toNat off.toNat len.toNat data))

/-- HST_READ_EXPIRED (13 R289). -/
def execHstReadExpired (tag : BitVec 10) (s : State) : Host.Outcome State Fault Refusal :=
  .next (readExpired s tag.toNat)

/-- REGISTER_WRITE (00 R5). -/
def execRegisterWrite (origin : Origin) (bar0 : Bool) (off : BitVec 36) (len : BitVec 4) (data : BitVec 64) (s : State) : Host.Outcome State Fault Refusal :=
  .next (match origin, bar0 with
    | .host, true => s.hubTake (.bar0 0 (off.toNat % 2 ^ 25) len.toNat (some data))
    | .host, false => s.hubTake (.reg off.toNat len.toNat data)
    | o, b => registerWrite s o b off.toNat len.toNat data)

/-- CONFIGURATION_WRITE (13 R282). -/
def execConfigurationWrite (w : CfgWrite) (s : State) : Host.Outcome State Fault Refusal :=
  .next (configWrite s w)

end Sys2Proof.Machine
end

