-- ==== Sys2Proof/Machine/WcsOps.lean ====
section
/-! DEFINITION. WCS commands that act at once: profile, parameters, partitions, shares, descriptors, flags, programs, jobs and host
DMA (10 R229, R232; 13 R297 to R303; 14 R318). Each takes the command started; none where it has to wait for memory. -/

namespace Sys2Proof.Machine

/-! ### Shared parts -/

/-- The audit entry of a change a command makes (14 R322). -/
def WcsCmd.audit (c : WcsCmd) (oclass object old new : Nat) : Audit :=
  { origin := 1, oclass := oclass, object := object, old := BitVec.ofNat 64 old, new := BitVec.ofNat 64 new,
    odetail := c.sq % 16 * 2 ^ 16 + c.cid % 2 ^ 16 }
/-- A command completed with a status. -/
def State.ends (s : State) (c : WcsCmd) (status : Nat) : State := s.complete c.sq c.cid status 0 [] [] (some c.opc)
/-- A command completed with OK. -/
def State.ok (s : State) (c : WcsCmd) (r : List Nat := []) (as : List Audit := []) : State := s.complete c.sq c.cid stOk 0 r as (some c.opc)
/-- A command whose data came: of the length asked for, or a read that failed, for which no rule states a status. -/
def State.withData (s : State) (c : WcsCmd) (d : HostData) (n : Nat) (f : List Byte → Option State) : Option State :=
  match d with
  | .failed => some (s.completeFree c.sq c.cid 0)
  | .ok bs => if bs.length = n then f bs else none
/-- Bytes written to host memory. -/
def State.toHost (s : State) (addr : Nat) (relaxed : Bool) (bs : List Byte) : State :=
  { s with hostOut := s.hostOut ++ [.write (BitVec.ofNat 64 addr) relaxed bs] }
/-- Every write of a list by the wellhead, as requests of one access, of 512 bytes each: what each came to. One that ends in RSV_CHANNEL_BUSY is
made again (17 Table ERR-3). -/
def State.whWrites (s : State) (w : Who) (ws : List (Nat × List Byte)) : State × List AccRes :=
  let ps := ws.flatMap fun x => (pieces 512 (x.2.length / 512 + 2) x.1 x.2.length).map fun p => (p.1, (x.2.drop (p.1 - x.1)).take p.2)
  ps.foldl (fun acc p => let r := acc.1.access w whMaster true p.1 p.2.length p.2 [] true; (r.1, acc.2 ++ [r.2])) (s, [])
/-- What a command writes to module memory, and then what it does: it is kept with the command until every write is done, and its row
takes it up again; faults are posted (17 Table ERR-3). -/
def State.storing (s : State) (c : WcsCmd) (n : Nat) (ws : List (Nat × List Byte)) (fin : State → State) : State :=
  let w := Who.wcs c.sq c.cid
  let r := s.track w (fun l => l.any AccRes.isWait) fun s => s.whWrites w ws
  if r.2.any AccRes.isWait then
    let keep (x : WcsCmd) : WcsCmd := if x.sq = c.sq ∧ x.cid = c.cid ∧ x.stage = 1 then { x with todo := some (n, ws) } else x
    { r.1 with host := { r.1.host with taken := r.1.host.taken.map keep } }
  else fin (r.2.foldl (fun s x => match x with | .fault code a => s.whFault code a | _ => s) r.1)
/-- The logical cores of a partition, ascending. -/
def State.coresOf (s : State) (p : Nat) : List Nat := (List.range s.nCores).filter fun n => s.partOf n == some p
/-- Whether every queue of some cores is IDLE or HALTED. -/
def State.quiet (s : State) (cores : List Nat) : Bool := cores.all fun n => (List.range 4).all fun q => s.still (n, q)
/-- Whether the hub die lies in the temperature range of flash and fuse writes (14 R307; 16 R359). -/
def State.flashTemp (s : State) : Bool :=
  let t := max (s.site 264).act (s.site 265).act
  decide (0 ≤ t) && decide (t ≤ 560)

/-- The cap the rules give now (16 R363). -/
def State.capNow (s : State) : Nat :=
  let t := s.thm
  match t.coolant with
  | .emergency | .halted => 800
  | _ => min (min 4800 (s.param 0x10 0 4800)) (min (min t.lawW.toNat t.escW.toNat) (100 * t.vin.toNat / 256))
/-- PWR_CAP as it reads (16 R373). -/
def State.capReg64 (s : State) : Nat := match s.pwrSlot 0 with | .wide v => v | _ => 0
/-- CAP_W formed anew: a change is audited, and one that lowers it is an event (16 R363). -/
def State.refreshCap (s : State) : State :=
  let old := s.thm.capW.toNat
  let new := s.capNow
  let s' := { s with thm := { s.thm with capW := BitVec.ofNat 16 new } }
  let a : Audit := { origin := 3, oclass := 5, object := 0x03F000600000, old := BitVec.ofNat 64 s.capReg64,
                     new := BitVec.ofNat 64 s'.capReg64, odetail := 0 }
  if new = old then s
  else if new < old then s'.post 1 (.ev cThmCapChanged none ([0, old, new, 0].map (BitVec.ofNat 64))) [a]
  else s'.post 1 .change [a]

/-! ### Profile and parameters (R297; 14 R318) -/


/-- The value of a parameter key of a partition; none where the key does not exist (14 Table WHD-6). -/
def State.paramValue (s : State) (key part : Nat) : Option Nat :=
  let perPart := key = 1 ∨ key = 2
  if perPart ∧ !s.partExists part then none
  else if !perPart ∧ part ≠ 0 then none
  else
    match key with
    | 0x0001 | 0x0002 => some (s.param key part 0)
    | 0x0010 => some (s.param key 0 4800)
    | 0x0011 => some (s.param key 0 1440)
    | 0x0100 => some (if s.wh.recovery then 0 else s.wh.fw.version.toNat)
    | 0x0101 => some (s.wh.fw.svn.toNat + s.fuses.counter.toNat * 2 ^ 8)
    | 0x0102 => some s.licWord
    | 0x0103 => some s.host.wallNs.toNat
    | _ => none

/-- GET_PARAM (14 R318). -/
def cmdGetParam (s : State) (c : WcsCmd) : Option State :=
  match s.paramValue (c.arg 0 % 2 ^ 32) (bitsOf (c.arg 0) 32 5) with
  | some v => some (s.ok c [v])
  | none => some (s.ends c stNoObject)

/-- Whether a value lies in a key's range (14 Table WHD-6; 06 R146; 07 R171). -/
def State.paramOk (s : State) (key part v : Nat) : Bool :=
  match key with
  | 0x0001 => v == 0 || s.cstTargetOk part v
  | 0x0002 => v == 0 || s.rsvTargetOk part 8 32 v
  | 0x0010 => decide (600 ≤ v) && decide (v ≤ 4800)
  | 0x0011 => decide (1 ≤ v) && decide (v ≤ 1048575)
  | _ => false

/-- SKIM_PERIOD_MIN written to every reservoir (14 Table WHD-6). -/
def State.putSkim (s : State) (v : Nat) : State :=
  (List.range 8).foldl (fun s k => s.setRsv k { s.rsv k with skimPeriod := BitVec.ofNat 20 v }) s

/-- SET_PARAM (14 R318): a persistent key is written to flash first (R307). -/
def cmdSetParam (s : State) (c : WcsCmd) : Option State :=
  let key := c.arg 0 % 2 ^ 32
  let part := bitsOf (c.arg 0) 32 5
  let v := c.arg 1
  let k := key + part * 2 ^ 32
  let keep := key = 0x10 ∨ key = 0x11
  match s.paramValue key part with
  | none => some (s.ends c stNoObject)
  | some old =>
    if !s.paramOk key part v then some (s.ends c stBadArg)
    else if keep ∧ !s.flashTemp then some (s.ends c stTempForbidden)
    else
      let s := { s with params := Map.set none s.params k (some (BitVec.ofNat 64 v)) }
      let s := if keep then { s with flash := { s.flash with params := Map.set none s.flash.params k (some (BitVec.ofNat 64 v)) } } else s
      let s := if key = 0x10 then s.refreshCap else if key = 0x11 then s.putSkim v else s.takeTargets
      some (s.ok c [] (if v = old then [] else [c.audit 0x01 k old v]))

/-- SET_WALLCLOCK (R297; 14 R322). -/
def cmdSetWallclock (s : State) (c : WcsCmd) : Option State :=
  let old := s.host.wallNs.toNat
  some ({ s with host := { s.host with wallNs := BitVec.ofNat 64 (c.arg 0) } }.ok c []
    (if c.arg 0 = old then [] else [c.audit 0x09 0 old (c.arg 0)]))

/-! ### Partitions and shares (10 R229, R232) -/

/-- The lowest base of a run of `n` free numbers below `lim`, given the ranges taken. -/
def firstFit (taken : List (Nat × Nat)) (lim n : Nat) : Option Nat :=
  let free (b : Nat) : Bool := decide (b + n ≤ lim) && taken.all fun r => r.2 == 0 || decide (b + n ≤ r.1) || decide (r.1 + r.2 ≤ b)
  if n = 0 then some 0 else (0 :: taken.map fun r => r.1 + r.2).foldl
    (fun best b => if free b then (match best with | none => some b | some x => some (min x b)) else best) none

/-- Channel set of reservoir k in a PART_CREATE (Table HST-4). -/
def WcsCmd.chset (c : WcsCmd) (k : Nat) : Nat := bitsOf (c.arg (3 + k / 2)) (32 * (k % 2)) 32

/-- Whether 512 KiB from an address lie in memory a new partition would address: its clusters' cores, or its channels (05 R110). -/
def State.tableFits (s : State) (clusters : Nat) (chset : Nat → Nat) (ma : Nat) : Bool :=
  (List.range 1024).all fun i => match s.resolve (ma + 512 * i) with
    | .cist n _ | .pad n _ | .bstore n _ => clusters.testBit (s.clusterOf n)
    | .rsv k x => (chset k).testBit (s.rsvCh k x)
    | _ => false

/-- PART_CREATE (10 R232; 13 Table HST-4). -/
def cmdPartCreate (s : State) (c : WcsCmd) : Option State :=
  let p := c.part
  let mask := c.arg 0 % 2 ^ 32
  let seqs := c.arg 1 % 2 ^ 17
  let strs := bitsOf (c.arg 1) 32 16
  let slots := bitsOf (c.arg 1) 48 7
  let desc := c.arg 2 % 2 ^ 48
  let gs := onesOf 32 mask
  let cores := (List.range s.nCores).filter fun n => gs.contains (s.clusterOf n)
  let others := (s.parts.filter fun e => e.2.clusters != 0).map Prod.snd
  let seqAt := firstFit (others.map fun x => (x.seqBase.toNat, x.seqCount.toNat)) 65536 seqs
  let strAt := firstFit (others.map fun x => (x.strBase.toNat, x.strCount.toNat)) 32768 strs
  let chOk := (List.range 8).all fun k => (List.range 32).all fun q => q == p || c.chset k &&& s.chsetOf k q == 0
  let slotOk := (List.range 8).all fun k => decide (4 * slots ≤ (s.rsv k).slotCount.toNat)
  if s.partExists p then some (s.ends c stBusy)
  else if mask = 0 ∨ 65536 < seqs ∨ 32768 < strs ∨ 64 < slots ∨ desc % 2 ^ 19 ≠ 0 then some (s.ends c stBadArg)
  else if s.licParts.toNat < others.length + 1 then some (s.ends c stNotLicensed)
  else if s.fuses.clusterOff.toNat &&& mask ≠ 0 then some (s.ends c stEngineAbsent)
  else if gs.any (fun g => s.heldOut.contains g || Map.get false s.clusterRetired g) then some (s.ends c stBadArg)
  else if gs.any (fun g => (Map.get none s.clusterPart g).isSome) || !s.quiet cores then some (s.ends c stBusy)
  else
    match seqAt, strAt with
    | some sb, some tb =>
      if !chOk || !slotOk || !s.tableFits mask c.chset desc then some (s.ends c stNoResource)
      else
        let x : Part := { clusters := BitVec.ofNat 32 mask, desc := BitVec.ofNat 48 desc, seqBase := BitVec.ofNat 16 sb,
                          seqCount := BitVec.ofNat 17 seqs, strBase := BitVec.ofNat 16 tb, strCount := BitVec.ofNat 16 strs,
                          passSlots := BitVec.ofNat 7 slots }
        let chset := (List.range 8).foldl (fun m k => Map.set 0 m (32 * k + p) (BitVec.ofNat 32 (c.chset k))) s.chset
        let s := { s with
          parts := Map.set {} s.parts p x
          clusterPart := gs.foldl (fun m g => Map.set none m g (some (BitVec.ofNat 5 p))) s.clusterPart
          chset := chset
          flags := Map.drop (fun k => k / 4096 == p) s.flags }
        some (s.ok c [] [c.audit 0x03 p 0 mask])
    | _, _ => some (s.ends c stNoResource)

/-- Whether a master's requests to a target could be permitted (10 R222, R233): a cluster's to its own partition's cores and
channels; every other master's to every target. -/
def State.mayReach (s : State) (t m : Nat) : Bool :=
  if 32 ≤ m then true
  else
    match Map.get none s.clusterPart m with
    | none => false
    | some p =>
      if t < 8 then s.chsetOf t p.toNat != 0
      else if t < 10 then true
      else if t < 42 then Map.get none s.clusterPart (t - 10) == some p
      else false

/-- SET_SHARES (10 R229). -/
def cmdSetShares (s : State) (c : WcsCmd) : Option State :=
  let t := c.arg 0 % 64
  let m := bitsOf (c.arg 0) 8 6
  let g := c.arg 1 % 2 ^ 11
  let w := bitsOf (c.arg 1) 16 8
  let a := s.acct t m
  let others := ((List.range 64).map fun i => if i = m then 0 else (s.acct t i).guar.toNat).sum
  let fused (x : Nat) : Bool := decide (42 ≤ x) && decide (x < 62) && s.portFused (x - 42)
  let cOff (x : Nat) : Bool := s.fuses.clusterOff.toNat.testBit x
  if 62 < t ∨ 1024 < g then some (s.ends c stBadArg)
  else if fused t || fused m || (decide (10 ≤ t) && decide (t < 42) && cOff (t - 10)) || (decide (m < 32) && cOff m) then
    some (s.ends c stEngineAbsent)
  else if 1024 < others + g ∨ (g = 0 ∧ w = 0 ∧ s.mayReach t m) then some (s.ends c stShareOver)
  else
    let old := a.guar.toNat + a.weight.toNat * 2 ^ 16
    let new := g + w * 2 ^ 16
    some ((s.setAcct t m { a with guar := BitVec.ofNat 11 g, weight := BitVec.ofNat 8 w }).ok c []
      (if old = new then [] else [c.audit 0x04 (t * 2 ^ 8 + m) old new]))

/-! ### Descriptors and flags -/

/-- Descriptors dropped from every cache of a partition (05 R111). -/
def State.dropDescs (s : State) (p : Nat) (mine : Nat → Bool) : State :=
  (s.coresOf p).foldl (fun s n => s.setCore n { s.core n with descs := (s.core n).descs.filter fun d => !mine d.1 }) s

/-- DESC_WRITE (05 R110, R111). -/
def cmdDescWrite (d : HostData) (s : State) (c : WcsCmd) : Option State :=
  let h := c.low 0
  let n := c.low 1
  let fin (s : State) : State := (s.dropDescs c.part fun i => decide (h ≤ i) && decide (i < h + n)).ok c
  match c.todo with
  | some (k, ws) => some (s.storing c k ws fin)
  | none =>
    if 4096 ≤ h ∨ 4096 < h + n then some (s.ends c stBadArg)
    else s.withData c d (128 * n) fun bs => some (s.storing c 0 [((s.part c.part).desc.toNat + 128 * h, bs)] fin)

/-- FLAG_READ (R297): two 32-bit values in each word of RESULT. -/
def cmdFlagRead (s : State) (c : WcsCmd) : Option State :=
  let f := c.low 0
  let n := c.low 1
  let v (i : Nat) : Nat := if i < n then (s.flag c.part (f + i)).value.toNat else 0
  if n = 0 ∨ 8 < n ∨ 4096 < f + n then some (s.ends c stBadArg)
  else some (s.ok c ((List.range 4).map fun i => v (2 * i) + v (2 * i + 1) * 2 ^ 32))

/-- FLAG_WRITE (05 R120): an update on its way to the flag's home, which completes the command. -/
def cmdFlagWrite (s : State) (c : WcsCmd) : Option State :=
  if 4096 ≤ c.low 0 ∨ 1 < c.low 1 then some (s.ends c stBadArg)
  else some { s with flagUpds := s.flagUpds ++
    [{ part := c.part, flag := c.low 0, add := c.low 1 == 1, value := BitVec.ofNat 32 (c.arg 2), by_ := .host, done := none,
       wcs := some (c.sq, c.cid) }] }

/-! ### Programs (R299, R300; 05 R127) -/

/-- The uniform cube latency the profile records (03 R66). -/
def State.uclWord (s : State) : Nat := s.bup.ucl.toNat
/-- The memory-map digest of a partition (05 R127). -/
def State.mapDigest (s : State) (p : Nat) : Nat :=
  let cs := s.coresOf p
  let ws := cs.map (fun n => (s.core n).site.toNat) ++ cs.map (fun n => (s.cist n).active.toNat) ++ (List.range 8).map s.activeCh
  (sha3_512 (ws.flatMap (leBytes 4))).toNat % 2 ^ 64
/-- The stamp words a program must carry to be loaded for a partition (R299; 05 R127). -/
def State.stampNow (s : State) (p : Nat) : List Nat :=
  [s.fuses.grade * 2 ^ 4 + s.uclWord, s.licWord, (s.part p).clusters.toNat * 2 ^ 16 + s.nCores, s.mapDigest p]
/-- What the rules say the device profile records (01 R15; 03 R66; 05 R127; 14 R317; 15 R336): generation, cube latency, grade, licences,
the site and the near reservoir of each logical core, the digest of each partition, the stage reports. -/
def State.profileWords (s : State) : List Nat :=
  [s.profGen.toNat, s.uclWord, s.fuses.grade, s.licWord] ++ s.profMap.flatMap (fun x => [x, x / 128]) ++ (List.range 32).map s.mapDigest ++
    (List.range 7).map fun i => (Map.get 0 s.bup.reports i).toNat
/-- GET_PROFILE (R297): no rule lays out the device profile as bytes. -/
def cmdGetProfile (s : State) (c : WcsCmd) : Option State :=
  let bs := Config.profileBytes s.profileWords
  if c.arg 1 < bs.length then some (s.ends c stNoResource) else some ((s.toHost (c.arg 0) false bs).ok c [s.profGen.toNat])
/-- The stamp words of an image. -/
def imageStamp (bs : List Byte) : List Nat :=
  let w (o : Nat) : Nat := leNat ((bs.drop o).take 8)
  [bitsOf (w 0) 32 8, w 8, bitsOf (w 0x10) 32 32 * 2 ^ 16 + w 0x10 % 2 ^ 16, w 0x20]
/-- The sections of an image, with their data; none where the image is not whole (R299). -/
def imageSections (bs : List Byte) : Option (List (Nat × List Byte)) :=
  let w (o : Nat) : Nat := leNat ((bs.drop o).take 8)
  let n := w 0x18 % 2 ^ 32
  let ent (i : Nat) : Nat × Nat := (w (0x40 + 16 * i) % 2 ^ 48, w (0x48 + 16 * i) % 2 ^ 32)
  if w 0 % 2 ^ 32 ≠ 1 ∨ bs.length < 64 + 16 * n then none
  else
    let r := (List.range n).foldl
      (fun (acc : List (Nat × List Byte) × Nat) i =>
        (acc.1 ++ [((ent i).1, (bs.drop acc.2).take (ent i).2)], acc.2 + ((ent i).2 + 63) / 64 * 64))
      ([], 64 + 16 * n)
    if bs.length < r.2 then none else some r.1
/-- Whether a partition may address every byte of a range. -/
def State.placeOk (s : State) (p ma n : Nat) : Bool :=
  (pieces 512 (n / 512 + 2) ma n).all fun q => match s.resolve q.1 with
    | .reg _ | .unmapped => false
    | t => s.permitted { port := 0, part := some p, core := none } t
/-- LOAD (R300). Handle numbers are 64 · partition + the lowest free, taken once every check has passed. -/
def cmdLoad (d : HostData) (s : State) (c : WcsCmd) : Option State :=
  let p := c.part
  let free := (List.range 64).find? fun i => (Map.get none s.host.progs (64 * p + i)).isNone
  let fin (h : Nat) (s : State) : State := (s.dropDescs p fun _ => true).ok c [h]
  if c.todo.isSome then c.todo.map fun t => s.storing c t.1 t.2 (fin t.1)
  else if !s.quiet (s.coresOf p) then some (s.ends c stBusy)
  else s.withData c d (c.arg 1) fun bs =>
    match imageSections bs with
    | none => some (s.ends c stBadArg)
    | some secs =>
      if imageStamp bs ≠ s.stampNow p then some (s.ends c stMismatch)
      else if !(secs.all fun x => s.placeOk p x.1 x.2.length) then some (s.ends c stPlaceDenied)
      else
        match free with
        | none => some (s.ends c stNoResource)
        | some i =>
          let g : Prog := { gen := s.profGen, stamp := (imageStamp bs).map (BitVec.ofNat 64) }
          some (({ s with host := { s.host with progs := Map.set none s.host.progs (64 * p + i) (some g) } } : State).storing c (64 * p + i) secs
            (fin (64 * p + i)))

/-- A program handle of a partition. -/
def State.prog (s : State) (p h : Nat) : Option Prog := if h / 64 = p then Map.get none s.host.progs h else none

/-- The program handle a command names (R297: RESULT[15:0] of its LOAD). -/
def WcsCmd.handle (c : WcsCmd) : Nat := c.arg 0 % 2 ^ 16
/-- UNLOAD. -/
def cmdUnload (s : State) (c : WcsCmd) : Option State :=
  match s.prog c.part c.handle with
  | none => some (s.ends c stNoObject)
  | some _ => some ({ s with host := { s.host with progs := Map.set none s.host.progs c.handle none } }.ok c)

/-! ### Jobs (R301, R302) -/

/-- An entry of a start list (R301): core, queue, list address, command count. -/
structure StartEnt where
  core : Nat
  queue : Nat
  ma : Nat
  count : Nat
  deriving DecidableEq, Repr

/-- The entries of a start list. -/
def startList (bs : List Byte) (n : Nat) : List StartEnt :=
  (List.range n).map fun i =>
    let a := leNat ((bs.drop (16 * i)).take 8)
    { core := bitsOf a 48 9, queue := bitsOf a 57 2, ma := a % 2 ^ 48, count := leNat ((bs.drop (16 * i + 8)).take 4) }

/-- The job a queue belongs to while it runs. -/
def State.jobOf (s : State) (n q : Nat) : Option Job := s.host.jobs.find? fun j => j.queues.contains (n, q)

/-- Events of a queue that were posted before a job took it: a fault goes to the event ring (17 R378), a return to IDLE to nobody. -/
def Event.stale (qs : List (Nat × Nat)) (e : Event) : Event :=
  match e.body with
  | .queueIdle n q => if qs.contains (n, q) then { e with body := .change } else e
  | .queueFault n q code r =>
    if qs.contains (n, q) then { e with body := .ev code none ((List.range 4).map fun i => BitVec.ofNat 64 (wordOf r i)) } else e
  | _ => e

/-- JOB_START (R301; 16 R368). -/
def cmdJobStart (d : HostData) (s : State) (c : WcsCmd) : Option State :=
  let p := c.part
  let n := c.low 2
  if n = 0 ∨ 2048 < n then some (s.ends c stBadArg)
  else if s.thm.coolant = .halted then some (s.complete c.sq c.cid stJobFaulted cThmCoolantHalt [])
  else
    match s.prog p c.handle with
    | none => some (s.ends c stNoObject)
    | some g =>
      if g.gen ≠ s.profGen ∨ g.stamp ≠ (s.stampNow p).map (BitVec.ofNat 64) then some (s.ends c stMismatch)
      else s.withData c d (16 * n) fun bs =>
        let es := startList bs n
        let qs := es.map fun e => (e.core, e.queue)
        let okq (x : Nat × Nat) : Bool := decide (x.1 < s.nCores) && s.partOf x.1 == some p && s.still x && (s.jobOf x.1 x.2).isNone
        if !qs.all okq || qs.eraseDups.length != qs.length then some (s.ends c stBusy)
        else
          let lim := c.arg 3 % 2 ^ 32
          let j : Job := { sq := c.sq, cid := c.cid, part := p, queues := qs, left := qs,
                           limit := if lim = 0 then none else some (s.tick + lim), ended := none, aborts := [] }
          let s := { s with
            events := s.events.map (Event.stale qs)
            host := { s.host with jobs := s.host.jobs ++ [j] } }
          some (es.foldl
            (fun s e =>
              let x := s.queue e.core e.queue
              startQ (s.setQueue e.core e.queue { x with base := BitVec.ofNat 48 e.ma, count := BitVec.ofNat 32 e.count }) e.core e.queue) s)

/-- JOB_TIMEOUT (R301): the tick counter has reached the job's limit; its end is sequenced. -/
def jobTimeout (s : State) (sq cid : Nat) : State :=
  match s.host.jobs.find? fun j => j.sq == sq && j.cid == cid with
  | none => s
  | some j =>
    match j.limit with
    | none => s
    | some t =>
      if !s.reached t ∨ j.ended.isSome then s
      else
        let jobs := s.host.jobs.map fun x => if x = j then { x with limit := none } else x
        { s with host := { s.host with jobs := jobs } }.post 14 (.jobEnd sq cid stJobTimeout 0)

/-- The contexts of streams that a job's queues opened. -/
def State.jobStreams (s : State) (j : Job) : List Nat :=
  (s.txs.filterMap fun e => e.2.bind fun x => if j.queues.contains (x.core, x.queue) && !x.dead then some e.1 else none) ++
  (s.rxs.filterMap fun e => e.2.bind fun x => if j.queues.contains (x.core, x.queue) && !x.dead then some e.1 else none)
/-- The open passes of a job's queues: partition and slot. -/
def State.jobPasses (s : State) (j : Job) : List (Nat × Nat) :=
  s.passes.filterMap fun e => match e.2.owner with
    | some o => if j.queues.contains o && e.2.st == .opened then some (e.1 / 64, e.1 % 64) else none
    | none => none

/-- A job ends (R301): with OK its completion is due; otherwise its running queues halt, its streams are cancelled, its passes close
as ABORT closes them, and its completion waits until every queue stands still. A job ends once. -/
def State.endJob (s : State) (j : Job) (status fault n q : Nat) : State :=
  if j.ended.isSome then s
  else
    let jobs := s.host.jobs.map fun x => if x = j then { x with ended := some (status, fault, n, q) } else x
    let s := { s with host := { s.host with jobs := jobs } }
    let s := if status = stOk then s
      else
        let s := j.queues.foldl (fun s x => if s.still x || (s.queue x.1 x.2).st == .draining then s else haltQ s x.1 x.2) s
        let s := (s.jobStreams j).foldl (fun s c => s.cancelStream c (some cLnkStreamCancelled)) s
        (s.jobPasses j).foldl (fun s x => s.failPass x.1 x.2 cAttPassState 0) s
    s.finishJobs

/-- JOB_ABORT (R302): the abort is posted to the arbiter as its entry is taken up. -/
def cmdJobAbort (s : State) (c : WcsCmd) : Option State := some (s.post 14 (.abort c.sq c.cid))

/-- FAULT_READ (05 R126, R129). -/
def cmdFaultRead (s : State) (c : WcsCmd) : Option State :=
  let n := c.low 0
  let q := c.low 1
  if s.nCores ≤ n ∨ 4 ≤ q then some (s.ends c stNoObject)
  else some ((s.toHost (c.arg 2) false ((List.range 8).flatMap fun i => leBytes 8 (wordOf (s.queue n q).record i))).ok c)

/-! ### Host DMA (R303) -/

/-- The bytes of a burst. -/
def Hdma.burst (h : Hdma) : Nat := 2 ^ h.log2 * 1024
/-- The record of a transfer replaced. -/
def State.putHdma (s : State) (h : Hdma) : State :=
  { s with host := { s.host with hdma := s.host.hdma.map fun x => if x.sq = h.sq ∧ x.cid = h.cid then h else x } }
/-- A transfer by its command. -/
def State.hdma (s : State) (sq cid : Nat) : Option Hdma := s.host.hdma.find? fun h => h.sq == sq && h.cid == cid
/-- A transfer ends: RESULT holds the bytes committed. -/
def State.endHdma (s : State) (h : Hdma) (status fault : Nat) : State :=
  { s.dropAcc (.hostDma h.sq h.cid) with
      host := { s.host with hdma := s.host.hdma.filter fun x => !(x.sq == h.sq && x.cid == h.cid) } }.complete h.sq h.cid status
    fault [h.committed]
/-- The signal of a committed burst: the flag advances by 1. -/
def State.hdmaSignal (s : State) (h : Hdma) : State :=
  match h.sig with
  | some (p, f) => { s with flagUpds := s.flagUpds ++
      [{ part := p, flag := f, add := true, value := 1, by_ := .host, done := none, wcs := none }] }
  | none => s

/-- HOST_DMA (R303). -/
def cmdHostDma (s : State) (c : WcsCmd) : Option State :=
  let log2 := bitsOf (c.arg 0) 8 4
  let len := c.arg 3
  let gap := c.arg 4 % 2 ^ 16
  let w5 := c.arg 5
  let p := bitsOf w5 32 5
  if log2 < 2 ∨ 10 < log2 ∨ len = 0 ∨ 2 ^ 40 < len ∨ gap = 0 ∨ (w5.testBit 63 ∧ !s.partExists p) then some (s.ends c stBadArg)
  else
    let h : Hdma := { sq := c.sq, cid := c.cid, out := (c.arg 0).testBit 0, log2 := log2, host := BitVec.ofNat 64 (c.arg 1),
                      ma := c.arg 2 % 2 ^ 48, len := len, gapUs := gap, sig := if w5.testBit 63 then some (p, w5 % 4096) else none,
                      got := [], committed := 0, lastAt := s.time }
    some { s with host := { s.host with hdma := s.host.hdma ++ [h] } }

/-- Bursts that have arrived whole committed in order; `fuel` bounds them. A write that faults ends the transfer. -/
def State.commitBursts (s : State) (h : Hdma) : Nat → State
  | 0 => s
  | fuel + 1 =>
    let n := min h.burst (h.len - h.committed)
    let bs := (Map.getRange none h.got h.committed n).filterMap id
    if n = 0 then s.endHdma h stOk 0
    else if bs.length ≠ n then s
    else
      let w := s.track (.hostDma h.sq h.cid) AccRes.isWait fun s => s.writeMA (.hostDma h.sq h.cid) hubMaster (h.ma + h.committed) bs
      match w.2 with
      | .wait => w.1
      | .fault code _ => w.1.endHdma h stDmaFault code
      | .ok _ =>
        let h := { h with committed := h.committed + n, got := Map.drop (fun k => decide (k < h.committed + n)) h.got }
        ((w.1.putHdma h).hdmaSignal h).commitBursts h fuel

/-- A transfer into the module breaks: the partial burst is discarded, committed bursts stay (R303). -/
def State.breakHdma (s : State) (h : Hdma) : State := s.endHdma h stDmaBroken cHstDmaBroken

/-- HOST_DMA_DATA (R303): host data for offset `off` of a transfer, within the four bursts in flight; an unsuccessful completion
breaks the transfer. -/
def hostDmaData (s : State) (sq cid off : Nat) (d : HostData) : State :=
  match s.hdma sq cid with
  | none => s
  | some h =>
    if h.out then s
    else
      match d with
      | .failed => s.breakHdma h
      | .ok bs =>
        let stop := min h.len ((h.committed / h.burst + 4) * h.burst)
        if off < h.committed ∨ stop < off + bs.length then s
        else
          let got := Map.setRange none h.got off (bs.map some)
          let h := { h with got := got, lastAt := if bs = [] then h.lastAt else s.time }
          (s.putHdma h).commitBursts h 5

/-- HST_DMA_BROKEN (R303): GAP_US with data outstanding and none arriving. -/
def hostDmaBroken (s : State) (sq cid : Nat) : State :=
  match s.hdma sq cid with
  | none => s
  | some h =>
    let all := decide (h.len - h.committed ≤ h.got.length)
    if h.out || all || decide (s.time < h.lastAt + 1600 * h.gapUs) then s else s.breakHdma h

/-- HOST_DMA_READ_RETURN (R303): the next burst of a transfer out of the module is read and written to host memory, or the read
faults. -/
def hostDmaReturn (s : State) (sq cid : Nat) : State :=
  match s.hdma sq cid with
  | none => s
  | some h =>
    if !h.out then s
    else
      let n := min h.burst (h.len - h.committed)
      let r := s.track (.hostDma sq cid) AccRes.isWait fun s => s.readMA (.hostDma sq cid) hubMaster (h.ma + h.committed) n
      match r.2 with
      | .wait => r.1
      | .fault code _ => r.1.endHdma h stDmaFault code
      | .ok bs =>
        let s := r.1.toHost (h.host.toNat + h.committed) r.1.pci.relaxed bs
        let h := { h with committed := h.committed + n }
        let s := (s.putHdma h).hdmaSignal h
        if h.committed = h.len then s.endHdma h stOk 0 else s

/-- COMPLETION_TIMEOUT (R292, R303): of a transfer's read, or of the read of an SQ entry. -/
def completionTimeout (s : State) (sq : Nat) (cid : Option Nat) : State :=
  match cid with
  | some cid =>
    match s.hdma sq cid with
    | some h => if h.out then s else s.breakHdma h
    | none => s
  | none => if s.nextSq = some sq ∧ s.host.taken.length < 256 then s.sqFetchFailed sq else s

/-! ### Streams, timebase, peers -/

/-- STREAM_CANCEL (12 R275). -/
def cmdStreamCancel (s : State) (c : WcsCmd) : Option State :=
  let x := c.arg 0 % 2 ^ 15
  if !s.ctxMine c.part x ∨ !s.ctxOpen x then some (s.ends c stNoObject)
  else some ({ s with host := { s.host with cancels := s.host.cancels ++ [(x, c.sq, c.cid)] } }.cancelStream x (some cLnkStreamCancelled))

/-- TIMEBASE set turn (11 R242). -/
def cmdSetTurn (s : State) (c : WcsCmd) : Option State :=
  if c.low 0 ≠ 0 then none
  else some { s with clp := { s.clp with newTurns := s.clp.newTurns ++ [(c.sq, c.cid, BitVec.ofNat 32 (c.arg 1))] } }
/-- TIMEBASE resync (11 R248). -/
def cmdResync (s : State) (c : WcsCmd) : Option State :=
  if c.low 0 ≠ 1 then none else some { s with clp := { s.clp with resyncs := s.clp.resyncs ++ [(c.sq, c.cid)] } }

/-- PEER_RESET (12 R261, R278; 13 Table HST-4): it completes once its message has been sent twice. -/
def cmdPeerReset (s : State) (c : WcsCmd) : Option State :=
  let p := c.low 0
  if 20 ≤ p ∨ 1 < c.low 1 then some (s.ends c stBadArg)
  else if s.portFused p then some (s.ends c stEngineAbsent)
  else if !s.portLicensed p ∨ !s.licMulti then some (s.ends c stNotLicensed)
  else if (s.lport p).st ≠ .up then some (s.ends c stPortDown)
  else some (s.sendMsg p (.peerReset (c.low 1 == 1)) (some (c.sq, c.cid)))

/-- A command started, and the record its CID still has of an ended job gone if it is a JOB_START (R302). -/
def State.startCmd (s : State) (c : WcsCmd) : State :=
  let s := s.begin_ c
  if c.opc = 0x12 then { s with host := { s.host with records := s.host.records.filter fun r => r != (c.sq, c.cid) } } else s
/-- A WCS row: the command started, or one whose writes to module memory are not all done taken up again, unless it has to wait. -/
def State.wcsRow (s : State) (sq cid opc : Nat) (p : Bool) (f : State → WcsCmd → Option State) : State :=
  let mine (c : WcsCmd) : Bool := c.sq == sq && c.cid == cid && (c.stage == 0 || (c.stage == 1 && c.todo.isSome))
  match s.host.taken.find? mine with
  | none => s
  | some c =>
    if c.opc ≠ opc ∨ (c.stage = 0 ∧ (!s.startable c ∨ (s.refusal c).isSome)) then s
    else
      let s1 := if c.stage = 0 then s.startCmd c else s
      if p && !s.partExists c.part then (s1.ends c stNoPart).refuseCmds
      else
        match f s1 c with
        | some s2 => s2.refuseCmds
        | none => s

end Sys2Proof.Machine
end

