-- ==== Sys2Proof/Machine/FwOps.lean ====
section
/-! DEFINITION. Firmware images, licences and the audit log (14 R307 to R323). -/

namespace Sys2Proof.Machine

/-! ### The firmware image (R308, R309) -/

/-- The 64-bit word at a byte offset. -/
def wordAt (bs : List Byte) (o : Nat) : Nat := leNat ((bs.drop o).take 8)
/-- IMAGE_LEN. -/
def fwLen (bs : List Byte) : Nat := wordAt bs 0 >>> 32
/-- SVN. -/
def fwSvn (bs : List Byte) : Nat := wordAt bs 0x10 % 64
/-- PUBKEY. -/
def fwKey (bs : List Byte) : List Byte := (bs.drop 0x40).take 2592
/-- The section entries: type, destination, length, and offset of the data. -/
def fwSections (bs : List Byte) : List (Nat × Nat × Nat × Nat) :=
  let n := wordAt bs 0x20 % 2 ^ 32
  ((List.range (min n 256)).foldl
    (fun (acc : List (Nat × Nat × Nat × Nat) × Nat) i =>
      let a := wordAt bs (0x2000 + 16 * i)
      let len := wordAt bs (0x2008 + 16 * i) % 2 ^ 32
      (acc.1 ++ [(bitsOf a 48 8, a % 2 ^ 48, len, acc.2)], acc.2 + (len + 63) / 64 * 64))
    ([], 0x2000 + 16 * n)).1
/-- The digest that is signed (R308). -/
def fwDigest (bs : List Byte) : BitVec 512 := sha3_512 (bs.take 0xA60 ++ (bs.drop 0x2000).take (fwLen bs - 0x2000))
/-- Check 2 of Table WHD-3. -/
def fwFormatOk (bs : List Byte) : Bool :=
  let n := wordAt bs 0x20 % 2 ^ 32
  let secs := fwSections bs
  wordAt bs 0 % 2 ^ 16 == 1 && fwLen bs % 64 == 0 && decide (0x2000 ≤ fwLen bs) && decide (fwLen bs ≤ 0x1000000) &&
    decide (fwLen bs ≤ bs.length) && decide (1 ≤ n) && decide (n ≤ 256) &&
    secs.all (fun e => decide (e.2.2.2 + e.2.2.1 ≤ fwLen bs) &&
      (e.1 == 2 || (e.1 == 1 && decide (Config.sramBase ≤ e.2.1) && decide (e.2.1 + e.2.2.1 ≤ Config.sramBase + 2 ^ 25)))) &&
    (secs.filter fun e => e.1 == 2).length == 1
/-- Checks 2 to 5 of Table WHD-3 in order: the CAUSE of the first that fails. -/
def State.fwCheck (s : State) (bs : List Byte) : Option Nat :=
  if !fwFormatOk bs then some 2
  else if sha3_512 (fwKey bs) ≠ s.fuses.keyHash then some 3
  else if fwSvn bs < s.fuses.counter.toNat then some 4
  else if !Config.sigVerifies (fwKey bs) (fwDigest bs) ((bs.drop 0xA60).take 4627) then some 5
  else none
/-- The firmware an image starts. -/
def fwOf (bs : List Byte) : Firmware :=
  let key := match (fwSections bs).find? fun e => e.1 == 2 with | some e => (bs.drop e.2.2.2).take e.2.2.1 | none => []
  { version := BitVec.ofNat 64 (wordAt bs 8), svn := BitVec.ofNat 6 (fwSvn bs), commit := (wordAt bs 0x10).testBit 8,
    wcs := BitVec.ofNat 32 (wordAt bs 0x18), key := key }

/-- FW_UPDATE (R311): the image is checked, the temperature range is checked, flash is written and read back. -/
def cmdFwUpdate (d : HostData) (s : State) (c : WcsCmd) : Option State :=
  s.withData c d (c.arg 1) fun bs =>
    match s.fwCheck bs with
    | some 2 => some (s.ends c stBadArg)
    | some 4 => some (s.ends c stRevoked)
    | some _ => some (s.ends c stBadSig)
    | none =>
      if !s.flashTemp then some (s.ends c stTempForbidden)
      else
        let old := wordAt s.flash.image 8
        some ({ s with flash := { s.flash with image := bs } }.ok c [] [c.audit 0x06 0 old (wordAt bs 8)])

/-! ### Licences (R315 to R317) -/

/-- Whether FEATURE and VALUE are legal (Table WHD-5). -/
def licLegal (f v : Nat) : Bool :=
  match f with
  | 1 => v == 4 || v == 10 || v == 20
  | 2 | 3 | 5 => v == 1
  | 4 => decide (1 ≤ v) && decide (v ≤ 32)
  | _ => false
/-- FEATURE of a record. -/
def licFeature (bs : List Byte) : Nat := bitsOf (wordAt bs 0) 16 16
/-- Step 1 of R316. -/
def State.licFormOk (s : State) (bs : List Byte) : Bool :=
  bs.length == 4691 && wordAt bs 0 % 2 ^ 16 == 1 && licLegal (licFeature bs) (wordAt bs 8) &&
    leNat ((bs.drop 0x10).take 32) == s.fuses.moduleId.toNat
/-- Step 2 of R316. -/
def State.licSigned (s : State) (bs : List Byte) : Bool :=
  Config.sigVerifies s.wh.fw.key (sha3_512 (bs.take 0x40)) ((bs.drop 0x40).take 4627)
/-- The value in force for a feature. -/
def State.licValue (s : State) (f : Nat) : Nat :=
  match f with
  | 1 => s.linkPorts
  | 2 => bit s.licCompute
  | 3 => bit s.licMulti
  | 4 => s.licParts.toNat
  | 5 => bit s.licLong
  | _ => 0
/-- A value put in force. -/
def State.setLic (s : State) (f v : Nat) : State :=
  match f with
  | 1 => { s with licPorts := if v = 4 then 1 else if v = 10 then 2 else if v = 20 then 3 else 0 }
  | 2 => { s with licCompute := v == 1 }
  | 3 => { s with licMulti := v == 1 }
  | 4 => { s with licParts := BitVec.ofNat 6 v }
  | 5 => { s with licLong := v == 1 }
  | _ => s

/-- LICENCE_INSTALL (R316, R317): the profile-change event follows the completion. -/
def cmdLicence (d : HostData) (s : State) (c : WcsCmd) : Option State :=
  if c.arg 1 ≠ 4691 then some (s.ends c stBadArg)
  else s.withData c d 4691 fun bs =>
    let f := licFeature bs
    let v := wordAt bs 8
    let old := s.licValue f
    if !s.licFormOk bs then some (s.ends c stBadArg)
    else if !s.licSigned bs then some (s.ends c stBadSig)
    else if v ≤ old then some (s.ok c)
    else if !s.flashTemp then some (s.ends c stTempForbidden)
    else
      let s := { s with flash := { s.flash with licences := Map.set [] s.flash.licences f bs } }.setLic f v
      some ((s.ok c [] [c.audit 0x02 f old v]).profileChanged 14 6 f 0 0)

/-! ### The audit log (R322, R323) -/

/-- The eight words of an audit entry (R322). -/
def AuditEnt.words (e : AuditEnt) : List Nat :=
  [e.esn.toNat, e.index.toNat, e.pos.toNat, e.wall.toNat,
   e.a.origin % 16 * 2 ^ 60 + e.a.oclass % 256 * 2 ^ 48 + e.a.object % 2 ^ 48, e.a.old.toNat, e.a.new.toNat, e.a.odetail % 2 ^ 20 * 2 ^ 32]

/-- An entry written to the ring of 65,536: a full ring loses its oldest, which is an event at the first drop after each export. -/
def State.writeAudit (s : State) (a : Audit) : State :=
  let w := s.wh
  let e : AuditEnt := { esn := w.esn, index := w.auditIndex + 1, pos := BitVec.ofNat 64 s.pos, wall := s.host.wallNs, a := a }
  if w.audit.length < 65536 then { s with wh := { w with audit := w.audit ++ [e], auditIndex := w.auditIndex + 1 } }
  else
    let n := satAdd w.auditDropped 1
    let s := { s with wh := { w with audit := w.audit.drop 1 ++ [e], auditIndex := w.auditIndex + 1, auditDropped := n, dropSent := true } }
    if w.dropSent then s else s.postEv 14 cWhdAuditDropped none [0, w.auditDropped.toNat, n.toNat, 0]

/-- AUDIT_EXPORT (R323): changes that still wait for their ESN come first. -/
def cmdAuditExport (s : State) (c : WcsCmd) : Option State :=
  if s.events.any fun e => e.audits != [] then none
  else
    let es := (s.wh.audit.filter fun e => decide (c.arg 2 ≤ e.esn.toNat)).take (c.arg 1 / 64)
    let s := { s with wh := { s.wh with dropSent := false } }
    let s := if es = [] then s else s.toHost (c.arg 0) false (es.flatMap fun e => e.words.flatMap (leBytes 8))
    some (s.ok c [es.length])

/-! ### The event arbiter (R319 to R321; 13 R294, R295, R301, R302; 17 R378, R379) -/

/-- KIND of an event ring entry (17 R379). -/
def evKind (code : Nat) : Nat :=
  if code = cBupRepair ∨ code = cLnkLaneFailing then 2
  else if code = cBupProfileChanged then 3
  else if code / 0x1000 = 8 then 4
  else if code / 0x1000 = 7 then 5
  else if code / 0x1000 = 0xC then 6
  else if code = cBupReset ∨ code = cBupRejoined ∨ code = cBupStageReport ∨ code = cBupStageFailed ∨ code = cBupDegraded then 7
  else if code / 0x1000 = 9 then 8
  else 1

/-- An event written to the event ring, or lost (13 R295). -/
def State.eqWrite (s : State) (code : Nat) (part : Option Nat) (d : List Nat) : State :=
  let x := s.ring 32
  if !x.enable then s
  else if !x.room then s.setRing 32 { x with lost := satAdd x.lost 1, lostHere := satAdd x.lostHere 1 }
  else
    let w1 := code % 2 ^ 16 * 2 ^ 48 + evKind code * 2 ^ 44 + (match part with | some p => 2 ^ 37 + p % 32 * 2 ^ 32 | none => 0) +
      x.lostHere.toNat * 2 ^ 16
    (s.setRing 32 { x with lostHere := 0 }).ringWrite 32 ([s.wh.esn.toNat, w1, s.tick] ++ (List.range 4).map fun i => d.getD i 0)

/-- A completion given its ESN waits for its ring (13 R294). -/
def State.cqQueue (s : State) (sq cid status fault : Nat) (r : List DWord) : State :=
  match s.host.taken.find? fun c => c.sq == sq && c.cid == cid && c.stage == 2 with
  | none => s
  | some c =>
    let taken := s.host.taken.map fun x => if x = c then { x with stage := 3 } else x
    { s with host := { s.host with taken := taken, cqWait := s.host.cqWait ++
        [{ sq := sq, cid := cid, opc := c.opc, status := status, fault := fault, result := r, esn := s.wh.esn, tick := s.tick }] } }

/-- A queue's return to IDLE reaches its job (13 R301): after the last, the job ends with OK. -/
def State.jobIdle (s : State) (n q : Nat) : State :=
  match s.jobOf n q with
  | none => s
  | some j =>
    if j.ended.isSome then s
    else
      let j' := { j with left := j.left.filter fun x => x != (n, q) }
      let s := { s with host := { s.host with jobs := s.host.jobs.map fun x => if x = j then j' else x } }
      if j'.left = [] then s.endJob j' stOk 0 0 0 else s

/-- An abort is sequenced (13 R302): before the job's end it decides it. -/
def State.abortSeq (s : State) (sq cid : Nat) : State :=
  match s.host.taken.find? fun c => c.sq == sq && c.cid == cid && c.stage == 1 with
  | none => s
  | some c =>
    let tsq := c.arg 0 % 16
    let tcid := bitsOf (c.arg 0) 16 16
    match s.host.jobs.find? fun j => j.sq == tsq && j.cid == tcid with
    | some j =>
      if j.ended.isSome then s.ends c stAlready
      else
        let j' := { j with aborts := j.aborts ++ [(sq, cid)] }
        { s with host := { s.host with jobs := s.host.jobs.map fun x => if x = j then j' else x } }.endJob j' stAborted 0 0 0
    | none => if s.host.records.contains (tsq, tcid) then s.ends c stAlready else s.ends c stNoObject

/-- The event to be sequenced next: the earliest posted, then the lowest source, then the first posted (R320). -/
def nextEvent : List Event → Option Event
  | [] => none
  | e :: es =>
    match nextEvent es with
    | none => some e
    | some f => if f.post < e.post ∨ (f.post = e.post ∧ f.src < e.src) then some f else some e

/-- What an event does once it has its ESN. -/
def State.consume (s : State) (e : Event) : State :=
  match e.body with
  | .ev code part d => if code = cClpTurn ∧ !s.clp.turnEvt then s else s.eqWrite code part (d.map BitVec.toNat)
  | .queueFault n q code r =>
    (match s.jobOf n q with
      | some j => s.endJob j stJobFaulted code n q
      | none => s.eqWrite code (s.partOf n) ((List.range 4).map (wordOf r)))
  | .queueIdle n q => s.jobIdle n q
  | .completion sq cid status fault r => s.cqQueue sq cid status fault r
  | .abort sq cid => s.abortSeq sq cid
  | .jobEnd sq cid status fault =>
    (match s.host.jobs.find? fun j => j.sq == sq && j.cid == cid with
      | some j => s.endJob j status fault 0 0
      | none => s)
  | .doorbell _ _ _ | .change => s

/-- EVENT_SEQUENCE (R319, R320, R321): the next event takes the next ESN, its changes enter the audit log, its consumers get it; an event
of its source that waited for room enters the buffer. -/
def eventSequence (s : State) : State :=
  match nextEvent s.events with
  | none => s
  | some e =>
    let es := s.events.erase e
    let es := if s.heldEvents e.src = [] then es else enterBuffer e.src s.time 1023 es
    let s := { s with events := es, wh := { s.wh with esn := s.wh.esn + 1 } }
    (e.audits.foldl State.writeAudit s).consume e

end Sys2Proof.Machine
end

