-- ==== Sys2Proof/Machine/ScrubOps.lean ====
section
/-! DEFINITION. Scrub passes (06 R150, R151; 17 R382 to R384). -/

namespace Sys2Proof.Machine

/-- The summary a pass builds (06 R151); `wait` says that some line cannot be read yet. -/
structure ScrubSum where
  corrected : Nat := 0
  erasure : Nat := 0
  uncorr : Nat := 0
  deferred : Nat := 0
  first : Option Nat := none
  poisoned : Nat := 0
  skipped : List Nat := []
  wait : Bool := false
  deriving DecidableEq, Repr

/-- The four words of a summary. -/
def ScrubSum.words (m : ScrubSum) : List Nat :=
  [min m.corrected (2 ^ 32 - 1) * 2 ^ 32 + m.erasure % 2 ^ 32, m.uncorr % 2 ^ 32 * 2 ^ 32 + m.deferred % 2 ^ 32,
   match m.first with | some a => 2 ^ 63 + a % 2 ^ 48 | none => 0,
   m.poisoned % 2 ^ 32 * 2 ^ 32 + m.skipped.length % 2 ^ 32]

/-- What kind of memory a range lies in, and whose: 0 cistern, 1 scratchpad, 2 bundle store, 3 reservoir. -/
def Tgt.owner : Tgt → Option (Nat × Nat)
  | .cist n _ => some (0, n)
  | .pad n _ => some (1, n)
  | .bstore n _ => some (2, n)
  | .rsv k _ => some (3, k)
  | _ => none

/-- The memory a range lies wholly in (17 R382): one window of one core, or one reservoir's per-stack window. -/
def State.scrubTarget (s : State) (ma n : Nat) : Option (Nat × Nat) :=
  if ma % 64 ≠ 0 ∨ n % 64 ≠ 0 ∨ n = 0 ∨ (2 ^ 41 ≤ ma ∧ ma < 0x030000000000) then none
  else
    match (s.resolve ma).owner, (s.resolve (ma + n - 1)).owner with
    | some a, some b => if a = b ∧ ¬ (2 ^ 41 ≤ ma + n - 1 ∧ ma < 2 ^ 41) then some a else none
    | _, _ => none

/-- SCRUB (17 R382, R384). -/
def cmdScrub (s : State) (c : WcsCmd) : Option State :=
  let ma := c.ma 1
  let n := c.arg 2
  let core := c.low 0
  match s.scrubTarget ma n with
  | none => some (if s.nCores ≤ core then s.ends c stNoObject else s.ends c stBadArg)
  | some t =>
    if t.1 ≠ 3 ∧ s.nCores ≤ core then some (s.ends c stNoObject)
    else if t.1 ≠ 3 ∧ core ≠ t.2 then some (s.ends c stBadArg)
    else if s.scrubs.any fun x => s.scrubTarget x.start x.len == some t then some (s.ends c stBusy)
    else
      let x : Scrub := { sq := c.sq, cid := c.cid, start := ma, len := n, poison := (c.arg 3).testBit 0 }
      some { s with scrubs := s.scrubs ++ [x] }

/-- What a pass does with a codeword it has decoded (06 R150): corrections are written back, with POISON an uncorrectable one becomes
poison, unless `hold` says that write-backs are deferred. -/
def State.scrubCw (s : State) (m : ScrubSum) (poison hold : Bool) (ma key : Nat) (era : Bool) (out : CwOut) (fixed : Nat) : State × ScrubSum :=
  let m := if era then { m with erasure := m.erasure + 1 } else m
  match out with
  | .data bs =>
    if fixed = 0 then (s, m)
    else if hold then (s, { m with deferred := m.deferred + 1 })
    else (s.putCw key bs, { m with corrected := m.corrected + 1 })
  | .poison => (s, { m with poisoned := m.poisoned + 1 })
  | .uncorr =>
    let m := { m with uncorr := m.uncorr + 1, first := m.first.orElse fun _ => some ma }
    if !poison then (s, m)
    else if hold then (s, { m with deferred := m.deferred + 1 })
    else (s.putPoison key, { m with poisoned := m.poisoned + 1 })

/-- One codeword of a cistern; a write that waits for the codeword is performed before it is read (06 R149). -/
def State.scrubCist (s : State) (m : ScrubSum) (poison : Bool) (n x : Nat) : State × ScrubSum :=
  let loc := s.cistLoc n x
  let sub := s.sub n loc.1
  let ma := (Tgt.cist n x).key
  if sub.st = .retired then (s, { m with skipped := if m.skipped.contains (x / 1024) then m.skipped else m.skipped ++ [x / 1024] })
  else if sub.window ∨ sub.pendingWrite [(ma, 64)] then (s, { m with wait := true })
  else
    let r := s.cistDecodeN n x []
    r.1.scrubCw m poison (sub.whold || sub.st == .retiring) ma ma (sub.erasures loc.2 != []) r.2.1 r.2.2
/-- One codeword of a reservoir (17 R383). -/
def State.scrubRsv (s : State) (m : ScrubSum) (poison : Bool) (k x : Nat) : State × ScrubSum :=
  let ch := s.chan k (s.rsvCh k x)
  if ch.st = .retired then (s, { m with skipped := if m.skipped.contains (x / 512) then m.skipped else m.skipped ++ [x / 512] })
  else if ch.proc || ch.window then (s, { m with wait := true })
  else
    let r := s.baseCw k (s.rsvCh k x) (Tgt.rsv k x).key
    r.1.scrubCw m poison false ((Tgt.rsv k x).key) ((Tgt.rsv k x).key) (ch.erasures != []) r.2.1 r.2.2
/-- One 8-byte word of a scratchpad or bundle store (17 R382). -/
def State.scrubSram (s : State) (m : ScrubSum) (ma : Nat) : State × ScrubSum :=
  let r := s.decodeSram ma
  match r with
  | (some w, fix) =>
    if fix || w != s.raw ma 8 then ({ s.setRaw ma w with sram := Map.set 0 s.sram (ma / 8) 0 }.draw, { m with corrected := m.corrected + if fix then 1 else 0 })
    else (s.draw, m)
  | (none, _) => (s.draw, { m with uncorr := m.uncorr + 1, first := m.first.orElse fun _ => some ma })

/-- A pass over its whole range. -/
def State.scrubPass (s : State) (x : Scrub) (t : Nat × Nat) : State × ScrubSum :=
  if t.1 = 1 ∨ t.1 = 2 then
    (List.range (x.len / 8)).foldl (fun a i => a.1.scrubSram a.2 (x.start + 8 * i)) (s, {})
  else
    (List.range (x.len / 64)).foldl
      (fun a i => match a.1.resolve (x.start + 64 * i) with
        | .cist n o => a.1.scrubCist a.2 x.poison n o
        | .rsv k o => a.1.scrubRsv a.2 x.poison k o
        | _ => a) (s, {})

/-- A pass ended before its time (17 R384): how far it had come is free, and so is its summary. -/
def State.endScrub (s : State) (x : Scrub) : State :=
  { s with scrubs := s.scrubs.erase x }.complete x.sq x.cid stNoObject 0
    ((List.range 4).map fun i => (Config.freeWord s.free (2 * i)).toNat + (Config.freeWord s.free (2 * i + 1)).toNat * 2 ^ 32) |>.draw

/-- Whether the whole memory of a pass has retired (17 R384). -/
def State.scrubGone (s : State) (t : Nat × Nat) : Bool :=
  (t.1 == 0 && (s.cist t.2).present == 0) || (t.1 == 3 && s.present t.2 == 0)

/-- SCRUB_COMPLETE (06 R150, R151; 17 R382, R383). The model reads and writes back in one step, so no write comes between. -/
def scrubComplete (s : State) (sq cid : Nat) : State :=
  match s.scrubs.find? fun x => x.sq == sq && x.cid == cid with
  | none => s
  | some x =>
    match s.scrubTarget x.start x.len with
    | none => s.endScrub x
    | some t =>
      if s.scrubGone t then s.endScrub x
      else
        let r := s.scrubPass x t
        if r.2.wait then s
        else { r.1 with scrubs := r.1.scrubs.erase x }.complete sq cid stOk 0 r.2.words

end Sys2Proof.Machine
end

