-- ==== Sys2Proof/Machine/ThmOps.lean ====
section
/-! DEFINITION. Sensors and their cross-checks, the weir, refresh and write holds, the activation budgets, coolant, the power cap,
the ramp gate and the input (16 R350 to R371). Temperatures are in 0.125 °C, predictions in hundredths of that. -/

namespace Sys2Proof.Machine

/-! ### Sites -/

/-- The stack a twin site stands in (16 Table THM-1): its first site, its position, its positions. -/
def siteStack (i : Nat) : Nat × Nat × Nat := if i < 160 then (i / 5 * 5, i % 5, 5) else ((i - 160) / 13 * 13 + 160, (i - 160) % 13, 13)
/-- The control value of a site. -/
def State.ctrl (s : State) (i : Nat) : Int := (s.site i).ctrl
/-- The control value of a site that the rules use: a change takes effect at the next sample (R351). -/
def State.ctrlOn (s : State) (i : Nat) : Int := (s.site i).act
/-- A site replaced. -/
def State.setSite (s : State) (i : Nat) (x : Site) : State := { s with thm := { s.thm with sites := Map.set {} s.thm.sites i x } }
/-- Sites at the same position of the other clusters of a compute site's region. -/
def siteMates (i : Nat) : List Nat := ((List.range 4).map fun c => i / 20 * 20 + 5 * c + i % 5).filter fun k => k != i
/-- The sites of the compute base dies. -/
def baseSites : List Nat := (List.range 32).map fun g => 5 * g
/-- The base-die control value beneath a core, as last formed. -/
def State.baseCtrl (s : State) (n : Nat) : Int := s.ctrl (5 * s.clusterOf n)
/-- The layer temperature of cistern layer L over region j (R351). -/
def State.layerTemp (s : State) (j l : Nat) : Int :=
  ((List.range 4).map fun c => s.ctrlOn (20 * j + 5 * c + l + 1)).foldl max (s.ctrlOn (20 * j + l + 1))
/-- The logical cores of a region j = 4d + r. -/
def State.regionCores (s : State) (j : Nat) : List Nat := (List.range s.nCores).filter fun n => (s.core n).site.toNat / 128 == j

/-! ### Cross-checks (R352 to R354) -/

/-- The refresh rate of a layer: of a region's sub-channels, or of a reservoir's layer by its temperature now. -/
def refNext (r : Nat) (t : Int) : Nat :=
  if 760 < t then 2 else if r = 2 ∧ 744 ≤ t then 2 else if 680 < t then 1 else if 1 ≤ r ∧ 664 ≤ t then 1 else 0
/-- ρ of a DRAM layer at a refresh rate. -/
def rhoOf (r : Nat) : Int := if r = 0 then 400 else if r = 1 then 640 else 1120
/-- ρ of a site (Table THM-2): `cw` and `rw` are the powers of the clusters and of the reservoir base dies. -/
def State.rho (s : State) (i : Nat) (cw rw : List Nat) : Int :=
  let (_, j, _) := siteStack i
  if i < 160 then
    if j = 0 then 32 * (cw.getD (i / 5) 0 : Int)
    else rhoOf (match (s.regionCores (i / 20)).head? with | some n => (s.sub n (j - 1)).refRate.toNat | none => 0)
  else if j = 0 then 24 * (rw.getD ((i - 160) / 13) 0 : Int)
  else rhoOf (Map.get 0 s.thm.rsvRate i)
/-- The neighbours the vertical prediction of a site uses. -/
def siteNeighbours (i : Nat) : List Nat :=
  if i = 264 then [265] else if i = 265 then [264]
  else
    let (b, j, n) := siteStack i
    if j = 0 then [b + 1, b + 2] else if j + 1 = n then [b + j - 1, b + j - 2] else [b + j - 1, b + j + 1]
/-- The vertical prediction M of a site (Table THM-2). -/
def State.predict (s : State) (i : Nat) (cw rw : List Nat) : Int :=
  if 264 ≤ i then 100 * s.ctrl (529 - i)
  else
    let (b, j, n) := siteStack i
    let t (k : Nat) : Int := 100 * s.ctrl (b + k)
    let r := s.rho i cw rw
    if j = 0 then 2 * t 1 - t 2 + r
    else if j + 1 = n then 2 * t (j - 1) - t (j - 2) + r
    else (t (j - 1) + t (j + 1)) / 2 + r
/-- The lateral prediction of a compute site. -/
def State.lateral (s : State) (i : Nat) : Int := 100 * ((siteMates i).map s.ctrl).sum / 3
/-- Whether a reading of a site is out of band. -/
def State.outOfBand (s : State) (i : Nat) (v : Int) (cw rw : List Nat) : Bool :=
  let (_, j, _) := siteStack i
  let narrow := (s.site i).narrow && decide (i < 264) && j != 0
  let vert : Int := if 264 ≤ i then 4800 else if narrow then 1600 else if j = 0 then 6400 else 3200
  let lat : Int := if narrow then 1600 else 8000
  decide (vert < ((100 * v - s.predict i cw rw).natAbs : Int)) ||
    (decide (i < 160) && decide (lat < ((100 * v - s.lateral i).natAbs : Int)))

/-- The estimate of a site with no usable diode (R353). -/
def State.estimate (s : State) (i : Nat) (cw rw : List Nat) : Int :=
  let (b, j, n) := siteStack i
  let measured (k : Nat) : Bool := !(s.site (b + k)).est
  let below := ((List.range j).reverse).find? measured
  let above := ((List.range n).filter fun k => decide (j < k)).find? measured
  if 264 ≤ i ∨ (siteNeighbours i).all fun k => !(s.site k).est then (s.predict i cw rw + 2400) / 100
  else
    match below, above with
    | some p, some q =>
      let tp := 100 * s.ctrl (b + p)
      let tq := 100 * s.ctrl (b + q)
      (tp + (tq - tp) * ((j : Int) - p) / ((q : Int) - p) + s.rho i cw rw + 2400) / 100
    | _, _ =>
      let mates := (siteMates i).filter fun k => !(s.site k).est
      if i < 160 then (match mates with | [] => 800 | k :: ks => (ks.map s.ctrl).foldl max (s.ctrl k)) else 800

/-- A diode after a sample: `skip` where there is nothing to compare with; `inj` where an injected offset keeps it from ejection. -/
def Diode.sample (d : Diode) (v : Int) (out skip inj : Bool) : Diode :=
  if d.ejected then d
  else if skip then { d with value := v }
  else
    let o := if out then d.outRun + 1 else 0
    let n := if out then 0 else d.inRun + 1
    let sus := if d.suspect then decide (n < 256) else decide (8 ≤ o)
    let run := if sus then d.susRun + 1 else 0
    { value := v, outRun := o, inRun := if sus && !d.suspect then 0 else n, susRun := run, suspect := sus,
      ejected := decide (656 ≤ run) && !inj }

/-- An event of a diode: site, diode, its reading and the other's. -/
def State.diodeEvent (s : State) (code i k : Nat) (a b : Int) : State :=
  s.postEv 1 code none [i + k * 2 ^ 16, wrapTo 64 a, wrapTo 64 b, 0]
/-- The events of what a sample made of a diode. -/
def State.diodeNews (s : State) (i k : Nat) (old new : Diode) (other : Int) : State :=
  let s := if new.suspect && !old.suspect then s.diodeEvent cThmSensorSuspect i k new.value other else s
  if new.ejected && !old.ejected then s.diodeEvent cThmSensorEjected i k new.value other else s

/-- Whether a site's recalibration window is open (R355; 11 Table CLP-2). -/
def State.siteWindow (s : State) (i : Nat) : Bool := s.inWindow 65536 (49152 + 4 * (i % 16)) 2

/-- A twin site's sample (R351 to R354), checked against the control values of `s0`, the state before the sample. -/
def State.sampleSite (s s0 : State) (i : Nat) (v : Int × Int) (cw rw : List Nat) : State :=
  let x := s.site i
  if s.siteWindow i then s
  else
    let v0 := v.1 + if x.offN0 = 0 then 0 else x.off0
    let v1 := v.2 + if x.offN1 = 0 then 0 else x.off1
    let first := s0.thm.samples == 0
    let out0 := s0.outOfBand i v0 cw rw
    let out1 := s0.outOfBand i v1 cw rw
    let d0 := x.d0.sample v0 out0 first (x.offN0 != 0)
    let d1 := x.d1.sample v1 out1 first (x.offN1 != 0)
    let both := !d0.ejected && !d1.ejected
    -- R354: the check that falls due, then the comparison of this sample
    let due := x.check && both && !first
    let e0 := due && out0 && !out1 && x.offN0 == 0
    let e1 := due && out1 && !out0 && x.offN1 == 0
    let d0 := if e0 then { d0 with ejected := true } else d0
    let d1 := if e1 then { d1 with ejected := true } else d1
    let apart := if due || !both then 0 else if 40 < (v0 - v1).natAbs then x.apart + 1 else 0
    let s := s.diodeNews i 0 x.d0 d0 v1
    let s := s.diodeNews i 1 x.d1 d1 v0
    let s := if due && !out0 && !out1 then s.diodeEvent cThmTwinKept i 0 v0 v1 else s
    let was := x.wasEjected ||| (if d0.ejected && !x.d0.ejected && !x.spareUsed then 1 else 0) |||
      (if d1.ejected && !x.d1.ejected && !x.spareUsed then 2 else 0)
    let est := !d0.usable && !d1.usable
    let ctrl := if est then s0.estimate i cw rw
      else if d0.usable && d1.usable then max d0.value d1.value else if d0.usable then d0.value else d1.value
    s.setSite i { x with d0 := d0, d1 := d1, apart := apart, check := decide (20 ≤ apart), wasEjected := was, ctrl := ctrl, est := est,
                         offN0 := x.offN0 - 1, offN1 := x.offN1 - 1 }

/-- Corrected symbols of the memory beneath a layer site (R352): a cluster's sub-channels of the layer, or a stack's channels. -/
def State.symCount (s : State) (i : Nat) : Nat :=
  let (_, j, _) := siteStack i
  if i < 160 then
    (((List.range s.nCores).filter fun n => s.clusterOf n == i / 5).map fun n => (s.sub n (j - 1)).corrected.toNat).sum
  else ((List.range 32).map fun c => (s.chan ((i - 160) / 13) c).corrected.toNat).sum

/-- A layer site's bands narrowed or widened by its corrected symbols (R352): ten samples stand for 1,024 ticks. -/
def State.sampleSyms (s : State) (i : Nat) (newTurn : Bool) : State :=
  let x := s.site i
  let h : SymHist := Map.get {} s.thm.sym i
  let n := s.symCount i
  let d := n - h.last
  let recent := (d :: h.recent).take 10
  let h : SymHist :=
    { last := n, recent := recent, turn := if newTurn then d else h.turn + d, prevTurn := if newTurn then h.turn else h.prevTurn }
  let narrow := decide (64 ≤ recent.sum) && decide (h.prevTurn < 16 * recent.sum)
  { s with thm := { s.thm with sym := Map.set {} s.thm.sym i h } }.setSite i { x with narrow := narrow }

/-! ### What follows the control values -/

/-- A core's diode (R351, R352): while suspect its control value is its cluster's base-die value plus 3 °C. -/
def State.coreCtrl (s : State) (n : Nat) : Int :=
  let d : Diode := Map.get {} s.thm.cores n
  if d.usable then d.value else s.baseCtrl n + 24
/-- The core control value in force (R351). -/
def State.coreOn (s : State) (n : Nat) : Int := Map.get 0 s.thm.coreAct n
/-- A sample puts in force the control values of the sample before (R351). -/
def State.inForce (s : State) : State :=
  { s with thm := { s.thm with sites := Map.mapAll {} (fun x => { x with act := x.ctrl }) s.thm.sites
                               coreAct := (List.range s.nCores).foldl (fun m n => Map.set 0 m n (s.coreCtrl n)) [] } }
/-- An event of a core diode: no rule gives a core's diode a site index or a second reading, so both words are free. -/
def State.coreDiodeEvent (s : State) (code n : Nat) (v : Int) : State :=
  (s.postEv 1 code none [(Config.freeWord s.free n).toNat, wrapTo 64 v, (Config.freeWord s.free (512 + n)).toNat, 0]).draw
/-- A core diode's sample (R352). -/
def State.sampleCore (s s0 : State) (n : Nat) (v : Int) : State :=
  let d : Diode := Map.get {} s.thm.cores n
  let d' := d.sample v (decide (64 < (v - s0.baseCtrl n).natAbs)) (s0.thm.samples == 0) false
  let s := { s with thm := { s.thm with cores := Map.set {} s.thm.cores n d' } }
  let s := if d'.suspect && !d.suspect then s.coreDiodeEvent cThmSensorSuspect n v else s
  if d'.ejected && !d.ejected then s.coreDiodeEvent cThmSensorEjected n v else s

/-- The excess X of a core (R356). -/
def State.excess (s : State) (n : Nat) : Int :=
  let g := 5 * s.clusterOf n
  let layer := ((List.range 4).map fun j => s.ctrlOn (g + j + 1)).foldl max (s.ctrlOn (g + 1))
  max (s.coreOn n - 784) (layer - 760)
/-- The swallow an excess calls for (R356). -/
def swallowOf (x : Int) : Nat := if 0 < x then min 230 (8 * x / 5).toNat else 0
/-- The core of a region with the largest excess; ties go to the higher diode, then the lower number (R357). -/
def State.hottest (s : State) (j : Nat) : Option Nat :=
  (s.regionCores j).foldl
    (fun best n => match best with
      | none => some n
      | some b =>
        if s.excess b < s.excess n ∨ (s.excess b = s.excess n ∧ s.coreOn b < s.coreOn n) then some n else some b) none
/-- THM_WEIR_j after a sample (R357). 5 ms are 8,000,000 drops. -/
def State.sampleWeir (s : State) (j : Nat) : State :=
  let w : Weir := Map.get {} s.weirs j
  let x := match s.hottest j with | some n => s.excess n | none => 0
  let on := decide (0 < x)
  let w := { w with engaged := on, core := BitVec.ofNat 9 ((s.hottest j).getD 0), swallow := BitVec.ofNat 8 (swallowOf x) }
  let e := match Map.get none s.thm.engaged j with
    | some e => if on then some e else none
    | none => if on then some { since := s.time, last := x, due := s.time + 8000000 } else none
  { s with weirs := Map.set {} s.weirs j w, thm := { s.thm with engaged := Map.set none s.thm.engaged j e } }

/-- The refresh rate and the write hold of a cistern layer over a region (06 R148, R149); an injected hold keeps its own sub-channel
held (17 R387). -/
def State.sampleLayer (s : State) (j l : Nat) : State :=
  let t := s.layerTemp j l
  let was := Map.get false s.thm.layerHot (4 * j + l)
  let hot := decide (840 < t) || (was && decide (800 ≤ t))
  let s := { s with thm := { s.thm with layerHot := Map.set false s.thm.layerHot (4 * j + l) hot } }
  (s.regionCores j).foldl
    (fun s n =>
      let x := s.sub n l
      let injected := s.wh.injs.any fun i => i.ty == 6 && i.applied.isSome && i.w1 % 512 == n && bitsOf i.w1 16 2 == l
      let s := s.setSub n l { x with refRate := BitVec.ofNat 2 (refNext x.refRate.toNat t), whold := x.whold || hot }
      if x.whold && !hot && !injected then s.releaseHold n l else s) s

/-- The row of Table THM-3 for a temperature beneath: it falls back only 2 °C below a bound (R358). -/
def budgetNext (r : Nat) (t : Int) : Nat :=
  let bounds : List Int := [720, 760, 800, 840]
  max (bounds.filter fun b => decide (b < t)).length (min r (bounds.filter fun b => decide (b - 16 < t)).length)

/-! ### Coolant and cap -/

/-- ALERT_N (R370): from S1 on. -/
def State.refreshAlert (s : State) : State :=
  let t := s.thm
  let low := 1 ≤ s.bup.stage.toNat ∧ (t.coolant ≠ .normal ∨ t.trayLost ≠ 0 ∨ t.inputRange = true)
  { s with pins := { s.pins with alertN := !decide low } }
/-- THM_STAT as it reads. -/
def State.thmStat (s : State) : Nat := match s.thmSlot 0 with | .pair (some v) _ => v | _ => 0
/-- A move of the coolant state: its event, and its audit entry with origin FW (R360). -/
def State.setCoolant (s : State) (c : Coolant) (code : Nat) (d : List Int) : State :=
  let s' := ({ s with thm := { s.thm with coolant := c }, allSwallowed := c == .halted } : State).refreshAlert
  s'.post 1 (.ev code none (d.map fun x => BitVec.ofNat 64 (wrapTo 64 x)))
    [{ origin := 3, oclass := 5, object := 0x03F000500000, old := BitVec.ofNat 64 s.thmStat, new := BitVec.ofNat 64 s'.thmStat, odetail := 0 }]

/-- The inlet temperature the cap law uses (R361). -/
def State.inletNow (s : State) : Int :=
  let t := s.thm
  if !t.trayLost.getLsbD 2 then t.inlet else if !t.trayLost.getLsbD 1 then t.outlet else t.inlet + 80

/-- Entry to EMERGENCY acted on at the sample after the reading (R367). -/
def State.actEmergency (s : State) : State :=
  if !s.thm.emAct then s
  else { s with thm := { s.thm with emAct := false }, gate := { s.gate with opened := 0, sg := 230, target := 800 } }

/-- Entry to HALTED (R368): every queue of every running job halts with THM_COOLANT_HALT, their streams are cancelled. -/
def State.enterHalted (s : State) (i : Nat) : State :=
  let s := s.setCoolant .halted cThmCoolantHalt [i, 0, s.ctrlOn i, 0]
  let js := s.host.jobs.filter fun j => j.ended.isNone
  js.foldl
    (fun s j =>
      let s := (s.jobStreams j).foldl (fun s c => s.cancelStream c (some cLnkStreamCancelled)) s
      j.queues.foldl
        (fun s p => if s.still p then s else s.haltQueue p.1 p.2 { cmd := (s.queue p.1 p.2).ptr.toNat, code := cThmCoolantHalt }) s) s
/-- The check of R368 at a sample: 50 ms are 80,000,000 drops. -/
def State.checkHalted (s : State) : State :=
  if s.thm.coolant ≠ .emergency ∨ s.thm.emSince + 80000000 < s.time then s
  else
    match (baseSites.zip s.thm.emTemps).find? fun p => decide (p.2 + 16 < s.ctrlOn p.1) || decide (880 ≤ s.ctrlOn p.1) with
    | some p => s.enterHalted p.1
    | none => s

/-- T_hot of R362: the highest compute base-die control value in force. -/
def State.hotOn (s : State) : Int := (baseSites.map s.ctrlOn).foldl max (s.ctrlOn 0)
/-- Input power and voltage of a sample (R362, R364, R373): R_th in 10^-6 °C/W over the last 10 s, the running mean of the slot. -/
def State.samplePower (s : State) (p vin : Nat) : State :=
  let t := s.thm
  let new : List (Nat × Nat) := if 1000 ≤ p then [(s.time, ((s.hotOn - s.inletNow) * 125000 / (p : Int)).toNat)] else []
  let rths := new ++ t.rths.filter fun e => decide (s.time < e.1 + 16000000000)
  let rth := if rths = [] then t.rth else BitVec.ofNat 16 (min 65535 ((rths.map Prod.snd).sum / rths.length))
  let sum := t.slotSum + p
  let n := t.slotN + 1
  let sg := if t.prevSlotW + 25 < sum / n then BitVec.ofNat 8 (min 230 (s.gate.sg.toNat + 16)) else s.gate.sg
  { s with
    thm := { t with rths := rths, rth := rth, slotSum := sum, slotN := n, sampleW := BitVec.ofNat 16 p, vin := BitVec.ofNat 16 vin }
    gate := { s.gate with sg := sg } }

/-- SENSOR_SAMPLE (R351 to R358, R362 to R364, R367, R368): every 100 ticks. -/
def sensorSample (s : State) (x : SampleIn) : State :=
  if s.tick % 100 ≠ 0 ∨ s.thm.lastSample = some s.tick ∨ s.bup.stage.toNat < 1 then s
  else
    let newTurn := match s.thm.lastSample with | some t => t / 65536 != s.turn | none => true
    let s1 := (x.sites.zipIdx.filter fun p => decide (p.2 < 266)).foldl (fun a p => a.sampleSite s p.2 p.1 x.clusterW x.rsvW) s.inForce
    let s1 := (x.cores.zipIdx.filter fun p => decide (p.2 < s.nCores)).foldl (fun a p => a.sampleCore s p.2 p.1) s1
    let layers := (List.range 264).filter fun i => (siteStack i).2.1 != 0
    let s1 := layers.foldl (fun a i => a.sampleSyms i newTurn) s1
    let s1 := { s1 with thm := { s1.thm with samples := s1.thm.samples + 1, lastSample := some s.tick } }
    let s1 := (List.range 8).foldl State.sampleWeir s1
    let any := (Map.keys s1.thm.engaged) != []
    let s1 := { s1 with thm := { s1.thm with quietSince := if any then none else some (s1.thm.quietSince.getD s.time) } }
    let s1 := (List.range 32).foldl (fun a i => a.sampleLayer (i / 4) (i % 4)) s1
    let rates := ((List.range 264).filter fun i => decide (160 ≤ i) && (siteStack i).2.1 != 0).foldl
      (fun m i => Map.set 0 m i (refNext (Map.get 0 m i) (s1.ctrlOn i))) s1.thm.rsvRate
    let top (k : Nat) : Nat := ((List.range 12).map fun l => Map.get 0 rates (161 + 13 * k + l)).foldl max 0
    let s1 := { s1 with thm := { s1.thm with rsvRate := rates } }
    let s1 := (List.range 256).foldl
      (fun a i => a.setChan (i / 32) (i % 32) { a.chan (i / 32) (i % 32) with refRate := BitVec.ofNat 2 (top (i / 32)) }) s1
    let s1 := { s1 with thm := { s1.thm with
      budget := (List.range 264).foldl (fun m i => Map.set 0 m i (budgetNext (Map.get 0 s1.thm.budget i) (s1.ctrlOn i))) s1.thm.budget } }
    ((s1.actEmergency.samplePower x.inputW x.vin).checkHalted).refreshCap

/-- SENSOR_RECAL_WINDOW (R354, R355): in its window a group's spare diodes take the places of ejected ones. -/
def recalWindow (s : State) (g : Nat) : State :=
  if !s.opensWindow 65536 (49152 + 4 * g) ∨ s.bup.stage.toNat < 1 then s
  else
    ((List.range 266).filter fun i => i % 16 == g % 16).foldl
      (fun s i =>
        let x := s.site i
        if x.spareUsed then s
        else if x.d0.ejected then s.setSite i { x with d0 := {}, spareUsed := true }
        else if x.d1.ejected then s.setSite i { x with d1 := {}, spareUsed := true }
        else s) s

/-- THM_WEIR_ESCALATED (R357): the comparison at 5 ms and every 5 ms after. -/
def weirEscalated (s : State) (j : Nat) : State :=
  match Map.get none s.thm.engaged j with
  | none => s
  | some e =>
    if s.time < e.due then s
    else
      let x := match s.hottest j with | some n => s.excess n | none => 0
      let e' : Engage := { e with last := x, due := e.due + 8000000 }
      let s' := { s with thm := { s.thm with engaged := Map.set none s.thm.engaged j (some e') } }
      if x ≤ e.last then s'
      else
        let w : Weir := Map.get {} s.weirs j
        let old := s.thm.escW.toNat
        let new := max 600 (s.thm.slotW.toNat - 200)
        let s' := { s' with weirs := Map.set {} s.weirs j { w with escalations := satAdd w.escalations 1 },
                            thm := { s'.thm with escW := BitVec.ofNat 16 new, escAt := none } }
        (s'.postEv 1 cThmWeirEscalated none [j, old, new, 0]).refreshCap

/-- ESC_W_RECOVERY (R357): after 1 s with no region engaged, 200 W each second. -/
def escRecovery (s : State) : State :=
  match s.thm.quietSince with
  | none => s
  | some t =>
    let from_ := max (t + 1600000000) ((s.thm.escAt.map fun a => a + 1600000000).getD 0)
    if s.time < from_ ∨ 4800 ≤ s.thm.escW.toNat then s
    else { s with thm := { s.thm with escW := BitVec.ofNat 16 (min 4800 (s.thm.escW.toNat + 200)), escAt := some s.time } }.refreshCap

/-! ### Coolant -/

/-- One tray sensor's reading counted (R361): lost after five misses in a row, found after five good. -/
def State.traySensor (s : State) (k b : Nat) (ok : Bool) : State :=
  let t := s.thm
  let miss := if ok then 0 else t.missRuns.getD k 0 + 1
  let good := if ok then t.goodRuns.getD k 0 + 1 else 0
  let lost := t.trayLost.getLsbD b
  let now := if lost then decide (good < 5) else decide (5 ≤ miss)
  let m : BitVec 3 := BitVec.ofNat 3 (2 ^ b)
  let new := if now then t.trayLost ||| m else t.trayLost &&& ~~~m
  let s' := { s with thm := { t with missRuns := t.missRuns.set k miss, goodRuns := t.goodRuns.set k good, trayLost := new } }
  if now && !lost then s'.postEv 1 cThmTrayLost none [b, t.trayLost.toNat, new.toNat, 0] else s'

/-- Since when a condition has held. -/
def holdsSince (old : Option Nat) (now : Nat) (b : Bool) : Option Nat := if b then some (old.getD now) else none
/-- Whether something has held for `d` drops. -/
def heldFor (t : Option Nat) (now d : Nat) : Bool := match t with | some t => decide (t + d ≤ now) | none => false

/-- A flow reading and the coolant state (R360, R361, Table THM-4). -/
def State.flowReading (s : State) (f : Nat) : State :=
  let t := s.thm
  let top := ((t.flows.filter fun e => decide (s.time ≤ e.1 + 320000000)).map Prod.snd).foldl max 0
  let prev := (t.flows.head?.map Prod.snd).getD 65535
  let low := holdsSince t.lowSince s.time (decide (f < 1536))
  let good := holdsSince t.goodSince s.time (decide (1664 ≤ f))
  let full := holdsSince t.fullSince s.time (decide (1536 ≤ f))
  let lost := t.trayLost.getLsbD 0
  let em := !lost && ((decide (f < 768) && decide (prev < 768)) || decide (10 * f < 6 * top))
  let s := { s with thm := { t with flow := f, lowSince := low, goodSince := good, fullSince := full,
                                    flows := (s.time, f) :: t.flows.filter fun e => decide (s.time ≤ e.1 + 320000000) } }
  let cool := baseSites.all fun i => decide (s.ctrlOn i < 680)
  match t.coolant with
  | .normal | .alarm =>
    if em then
      let s := s.setCoolant .emergency cThmCoolantEmergency [0, t.flow, f, 0]
      { s with thm := { s.thm with emSince := s.time, emTemps := baseSites.map s.ctrlOn, emAct := true } }
    else if t.coolant = .normal then
      (if heldFor low s.time 160000000 then s.setCoolant .alarm cThmCoolantAlarm [0, t.flow, f, 0] else s)
    else if !lost && heldFor good s.time 1600000000 then s.setCoolant .normal cThmCoolantNormal [0, t.flow, f, 0] else s
  | .emergency => if !lost && heldFor full s.time 16000000000 then s.setCoolant .normal cThmCoolantNormal [0, t.flow, f, 0] else s
  | .halted =>
    if !lost && heldFor full s.time 16000000000 && cool then
      s.setCoolant .normal cThmHaltCleared [0, Coolant.halted.code, Coolant.normal.code, 0]
    else s

/-- The readings of the three tray sensors counted, and the temperatures taken (R361). -/
def State.trayTemps (s : State) (x : TrayIn) : State :=
  let s := ((s.traySensor 0 2 x.inlet.isSome).traySensor 1 1 x.outlet.isSome).traySensor 2 0 x.flow.isSome
  { s with thm := { s.thm with inlet := x.inlet.getD s.thm.inlet, outlet := x.outlet.getD s.thm.outlet, lastReading := some s.time } }
/-- While the flow sensor is lost the coolant state is held at ALARM or worse (R361). -/
def State.flowLost (s : State) : State :=
  if s.thm.trayLost.getLsbD 0 && s.thm.coolant == .normal then s.setCoolant .alarm cThmCoolantAlarm [0, s.thm.flow, s.thm.flow, 0] else s
/-- A flow reading, if there is one. -/
def State.flowMaybe (s : State) (f : Option Nat) : State := match f with | some f => s.flowReading f | none => s
/-- TRAY_READING (R360, R361, R363, R370): every 2 ms. -/
def trayReading (s : State) (x : TrayIn) : State :=
  if s.bup.stage.toNat < 1 then s else ((s.trayTemps x).flowMaybe x.flow).flowLost.refreshAlert.refreshCap

/-- CAP_LAW (R362): once per second, at a step slot. -/
def capLaw (s : State) : State :=
  let t := s.thm
  if s.tick % 1024 ≠ 512 ∨ !s.atDropZero ∨ !(match t.lawAt with | some a => decide (a + 1600000000 ≤ s.time) | none => true) ∨ s.bup.stage.toNat < 1 then s
  else
    let guard : Int := if t.trayLost.getLsbD 0 then 64 else 32
    let r : Int := max 1 (t.rth.toNat : Int)
    let new := max 600 ((784 - s.inletNow - guard) * 125000 / r).toNat
    let law := if new ≤ t.lawW.toNat then new else min new (t.lawW.toNat + 200)
    { s with thm := { t with lawW := BitVec.ofNat 16 (min law 65535), lawAt := some s.time } }.refreshCap

/-! ### The ramp gate -/

/-- A value moved toward another by at most `d`. -/
def toward (x goal d : Nat) : Nat := if x ≤ goal then min goal (x + d) else max goal (x - d)
/-- The first of the next closed stages in rotation opened (R364); it starts with no idle slot behind it. -/
def Gate.openOne (g : Gate) : Gate :=
  match ((List.range 256).map fun i => (g.next.toNat + i) % 256).find? fun i => !g.opened.getLsbD i with
  | none => g
  | some i => { g with opened := g.opened ||| BitVec.ofNat 256 (2 ^ i), next := BitVec.ofNat 8 (i + 1), idle := Map.set 0 g.idle i 0 }
/-- A stage closed. -/
def Gate.close (g : Gate) (i : Nat) : Gate := { g with opened := g.opened &&& ~~~(BitVec.ofNat 256 (2 ^ i)) }

/-- GATE_STEP_SLOT (R364): `idle` counts a stage's slots without a RUN, up to the one that ends now. -/
def gateSlot (s : State) : State :=
  let t := s.thm
  if s.tick % 1024 ≠ 512 ∨ !s.atDropZero ∨ t.slotAt = some s.tick ∨ s.bup.stage.toNat < 6 then s
  else
    let p := if t.slotN = 0 then 0 else t.slotSum / t.slotN
    let g := s.gate
    let target := toward g.target.toNat t.capW.toNat 25
    let sg := g.sg.toNat
    let g := { g with target := BitVec.ofNat 16 target }
    let g := if target < p then { g with sg := BitVec.ofNat 8 (min 230 (sg + 16)) }
      else if p + 50 < target then (if 0 < sg then { g with sg := BitVec.ofNat 8 (sg - 16) } else g.openOne.openOne)
      else g
    let runs (i : Nat) : Bool := (List.range s.nCores).any fun n => n % 256 == i && (s.core n).run.isSome
    let open_ := (List.range 256).filter fun i => g.opened.getLsbD i
    let lim := max 1 t.idleSlots.toNat
    let shut := (open_.filter fun i => decide (lim ≤ Map.get 0 g.idle i) && !runs i).take 2
    let g := shut.foldl Gate.close g
    let idle := open_.foldl (fun m i => Map.set 0 m i (if runs i then 0 else Map.get 0 m i + 1)) g.idle
    { s with
      gate := { g with idle := idle }
      thm := { t with slotW := BitVec.ofNat 16 p, prevSlotW := p, slotSum := 0, slotN := 0, slotAt := some s.tick } }

/-! ### The input -/

/-- THM_INPUT_RANGE (R370, R371): the input outside 44 to 56 V for 1 ms; the voltage is in 1/256 V. -/
def inputRange (s : State) (v : Nat) : State :=
  if s.thm.inputRange ∨ (11264 ≤ v ∧ v ≤ 14336) ∨ s.bup.stage.toNat < 1 then s
  else
    let s' := { s with thm := { s.thm with inputRange := true, vin := BitVec.ofNat 16 v } }
    ((s'.postEv 1 cThmInputRange none [0, s.thm.vin.toNat, v, 0]).refreshAlert).refreshCap
/-- INPUT_RANGE_RETURN (R370). -/
def inputReturn (s : State) (v : Nat) : State :=
  if !s.thm.inputRange ∨ v < 11264 ∨ 14336 < v then s
  else ({ s with thm := { s.thm with inputRange := false, vin := BitVec.ofNat 16 v } } : State).refreshAlert.refreshCap

/-- THM_CONVERTER_LOST (R371): the second loss sets ESC_W to 4,400 W and is an event. -/
def converterLost (s : State) (c : Nat) : State :=
  let n := s.thm.convLost + 1
  let s' := { s with thm := { s.thm with convLost := n } }
  if n ≠ 2 then s'
  else
    let s' := { s' with thm := { s'.thm with escW := 4400 } }
    (s'.postEv 1 cThmConverterLost none [c, s.thm.escW.toNat, 4400, 0]).refreshCap

end Sys2Proof.Machine
end

