-- ==== Sys2Proof/Machine/InjOps.lean ====
section
/-! DEFINITION. Error injection (17 R385 to R388). -/

namespace Sys2Proof.Machine

/-! ### Targets -/

/-- The bits of W1 that name a target, by type (Table ERR-6). -/
def injTarget (ty w1 : Nat) : Nat :=
  match ty with
  | 4 => w1 % 2 ^ 40
  | 5 => w1 % 8 + bitsOf w1 8 5 * 2 ^ 8
  | 6 => w1 % 512 + bitsOf w1 16 2 * 2 ^ 16
  | 7 | 9 => w1 % 32
  | 8 => w1 % 32 + bitsOf w1 8 5 * 2 ^ 8
  | 10 => w1 % 2 ^ 7
  | 11 => w1 % 2 ^ 10
  | 12 => 0
  | _ => w1

/-- The core whose site a repair element names, if it is in the logical map. -/
def State.coreAt (s : State) (site : Nat) : Option Nat := (List.range s.nCores).find? fun n => (s.core n).site.toNat == site
/-- The channel that carries a reservoir pin: the spare path's serves the channel it replaces. -/
def State.pinChan (s : State) (k c : Nat) : Option Nat :=
  if c < 32 then some c else if c = 32 ∧ (s.rsv k).spareUsed then some (s.rsv k).spareFor.toNat else none
/-- Whether an element is recorded as spared or worse. -/
def State.spared (s : State) (cls elem : Nat) : Bool := s.repairs.any fun e => e.cls.toNat == cls && e.elem.toNat == elem && e.st.toNat != 5

/-- Whether an injection's target exists and is not retired (R386). -/
def State.injExists (s : State) (ty w1 : Nat) : Bool :=
  match ty with
  | 1 => w1 % 64 == 0 && (match s.resolve w1 with
      | .cist n x => (s.sub n (s.cistLoc n x).1).st != .retired
      | .rsv k x => decide (w1 < 2 ^ 41) && (s.chan k (s.rsvCh k x)).st != .retired
      | _ => false)
  | 2 => w1 % 64 == 0 && (match s.resolve w1 with
      | .rsv k x => decide (w1 < 2 ^ 41) && (s.chan k (s.rsvCh k x)).st != .retired
      | _ => false)
  | 3 => w1 % 8 == 0 && (match s.resolve w1 with | .pad _ _ | .bstore _ _ => true | _ => false)
  | 4 =>
    if bitsOf w1 32 8 = 1 then
      (match s.coreAt (bitsOf w1 22 10) with
        | some n => (s.sub n (bitsOf w1 20 2)).st != .retired && decide (w1 % 2 ^ 11 < 1152)
        | none => false)
    else
      (match s.pinChan (bitsOf w1 29 3) (bitsOf w1 23 6) with
        | some c => bitsOf w1 32 8 == 7 && (s.chan (bitsOf w1 29 3) c).st != .retired && decide (w1 % 2 ^ 7 < 72)
        | none => false)
  | 5 => (s.chan (w1 % 8) (bitsOf w1 8 5)).st == .active
  | 6 => decide (w1 % 512 < s.nCores) && (s.sub (w1 % 512) (bitsOf w1 16 2)).st != .retired
  | 7 | 9 => s.portOn (w1 % 32)
  | 8 => s.portOn (w1 % 32) && decide (bitsOf w1 8 5 < 22)
  | 10 => (s.bundle (w1 % 2) (bitsOf w1 1 6)).st != 2
  | 11 => decide (w1 % 512 < 266)
  | _ => true

/-- Whether an injection's target is of the kind Table ERR-6 gives its type: a codeword of a cistern or of a per-stack reservoir window, of the
latter, or a word of a scratchpad or bundle store. An address where nothing is stands for no target at all. -/
def State.injKind (s : State) (ty w1 : Nat) : Bool :=
  match s.resolve w1 with
  | .unmapped => true
  | .cist _ _ => ty != 2 && ty != 3 && w1 % 64 == 0
  | .rsv _ _ => ty != 3 && w1 % 64 == 0 && decide (w1 < 2 ^ 41)
  | .pad _ _ | .bstore _ _ => ty == 3 && w1 % 8 == 0
  | _ => false

/-- Whether the parameter lies in Table ERR-6. -/
def State.injParam (s : State) (ty w1 w2 : Nat) : Bool :=
  let lo := w2 % 65536
  match ty with
  | 1 => decide (w2 % 128 < 72) && decide (1 ≤ bitsOf w2 8 4) && decide (bitsOf w2 8 4 ≤ 8) && bitsOf w2 16 8 != 0
  | 3 => decide (w2 % 128 < 72) && (decide (bitsOf w2 8 7 < 72) || bitsOf w2 8 7 == 0x7F)
  | 4 =>
    lo != 0 &&
      (if bitsOf w1 32 8 = 1 then
        (match s.coreAt (bitsOf w1 22 10) with
          | some n =>
            let x := s.sub n (bitsOf w1 20 2)
            let g := pinGroup (w1 % 2 ^ 11)
            !s.spared 1 (w1 % 2 ^ 32) && !x.dead.contains g && x.erasures g.1 == []
          | none => false)
      else
        (match s.pinChan (bitsOf w1 29 3) (bitsOf w1 23 6) with
          | some c =>
            let x := s.chan (bitsOf w1 29 3) c
            !s.spared 7 (w1 % 2 ^ 32) && !x.dead.contains (w1 % 2 ^ 7) && x.erasures == [] &&
              (bitsOf w1 23 6 == 32 || !((s.rsv (bitsOf w1 29 3)).spareUsed && (s.rsv (bitsOf w1 29 3)).spareFor.toNat == c))
          | none => false))
  | 5 => decide (1 ≤ lo) && decide (lo ≤ 1000)
  | 6 | 7 => lo != 0
  | 9 => decide (1 ≤ lo) && decide (lo ≤ 1024)
  | 10 => decide (1 ≤ w2 % 128) && decide (w2 % 128 ≤ 64)
  | 11 => bitsOf w2 32 16 != 0
  | 12 => w2 % 2 ^ 20 != 0
  | _ => true

/-! ### Ends -/

/-- The key and pin of an injected pin error in effect. -/
def State.injPin (s : State) (w1 : Nat) : Nat × Nat :=
  if bitsOf w1 32 8 = 1 then
    let g := pinGroup (w1 % 2 ^ 11)
    (cistPinKey ((s.coreAt (bitsOf w1 22 10)).getD 0) (bitsOf w1 20 2) g.1, g.2)
  else (rsvPinKey (bitsOf w1 29 3) ((s.pinChan (bitsOf w1 29 3) (bitsOf w1 23 6)).getD 0), w1 % 2 ^ 7)

/-- Whether an applied injection's duration or count has run out (R387). -/
def State.injOver (s : State) (i : Inj) : Bool :=
  match i.ty with
  | 4 => !s.pinInj.any fun p => (p.1, p.2.1) == s.injPin i.w1
  | 5 => (match i.applied with
      | some n => (s.chan (i.w1 % 8) (bitsOf i.w1 8 5)).current == some (ArbItem.hold n) && decide (i.stop ≤ s.time)
      | none => false)
  | 6 | 9 | 12 => s.reached i.stop
  | 7 => (s.lport (i.w1 % 32)).dropCells == 0
  | 10 => (s.bundle (i.w1 % 2) (bitsOf i.w1 1 6)).inject == 0
  | 11 => (if i.w1.testBit 9 then (s.site (i.w1 % 512)).offN1 else (s.site (i.w1 % 512)).offN0) == 0
  | _ => true

/-- An injection's effect taken away (R387, R388). -/
def State.endInj (s : State) (i : Inj) : State :=
  match i.ty with
  | 4 => { s with pinInj := s.pinInj.filter fun p => (p.1, p.2.1) != s.injPin i.w1 }
  | 5 =>
    (match i.applied with
      | some n =>
        let k := i.w1 % 8
        let c := bitsOf i.w1 8 5
        let ch := s.chan k c
        if ch.current = some (.hold n) then s.memoryMode k c
        else (s.setChan k c { ch with ops := ch.ops.filter fun o => decide (o.item ≠ .hold n) }).serve k c
      | none => s)
  | 6 =>
    let n := i.w1 % 512
    let l := bitsOf i.w1 16 2
    if Map.get false s.thm.layerHot (4 * ((s.core n).site.toNat / 128) + l) then s else s.releaseHold n l
  | 7 =>
    let p := s.lport (i.w1 % 32)
    s.setPort (i.w1 % 32) { p with dropCells := 0 }
  | 9 =>
    let p := s.lport (i.w1 % 32)
    s.setPort (i.w1 % 32) { p with silentTo := none }
  | 10 =>
    let b := s.bundle (i.w1 % 2) (bitsOf i.w1 1 6)
    s.setBundle (i.w1 % 2) (bitsOf i.w1 1 6) { b with inject := 0 }
  | 11 =>
    let x := s.site (i.w1 % 512)
    s.setSite (i.w1 % 512) (if i.w1.testBit 9 then { x with off1 := 0, offN1 := 0 } else { x with off0 := 0, offN0 := 0 })
  | 12 => { s with clp := { s.clp with masked := false } }
  | _ => s

/-- INJECTION_END (R387, R388): the injection of a number stops taking effect once its duration or count has run out. -/
def injectionEnd (s : State) (n : Nat) : State :=
  match s.wh.injs.find? fun i => i.applied == some n with
  | none => s
  | some i => if s.injOver i then { s with wh := { s.wh with injs := s.wh.injs.erase i } }.endInj i else s

/-! ### Effects -/

/-- Symbols of a stored codeword changed (R387), without re-encoding. -/
def CwErr.flip (e : CwErr) (first count x : Nat) : CwErr :=
  let one (m : Map Byte) (j : Nat) : Map Byte :=
    let p := (first + j) % 72
    Map.set 0 m p (Map.get 0 m p ^^^ BitVec.ofNat 8 x)
  { e with syms := (List.range count).foldl one e.syms }

/-- Whether a write of a codeword would have to wait (06 R134, R149; 07 R162). -/
def State.cwWaits (s : State) (ma : Nat) : Bool :=
  match s.resolve ma with
  | .cist n x => let b := s.sub n (s.cistLoc n x).1; b.window || b.whold || b.pendingWrite [(ma, 64)]
  | .rsv k x => let c := s.chan k (s.rsvCh k x); c.window || c.busy || c.ops != []
  | _ => false

/-- The effect of an injection (R387); none where it has to wait for its place among the writes of its codeword. -/
def State.injEffect (s : State) (i : Inj) (no : Nat) : Option State :=
  let lo := i.w2 % 65536
  match i.ty with
  | 1 =>
    if s.cwWaits i.w1 then none
    else
      let key := (s.resolve i.w1).key / 64
      some { s with cw := Map.set {} s.cw key ((Map.get {} s.cw key).flip (i.w2 % 128) (bitsOf i.w2 8 4) (bitsOf i.w2 16 8)) }
  | 2 => if s.cwWaits i.w1 then none else some (s.putPoison (s.resolve i.w1).key)
  | 3 =>
    let key := (s.resolve i.w1).key / 8
    let b2 := bitsOf i.w2 8 7
    let m : BitVec 72 := BitVec.ofNat 72 (2 ^ (i.w2 % 128)) ^^^ (if b2 = 0x7F then 0 else BitVec.ofNat 72 (2 ^ b2))
    some { s with sram := Map.set 0 s.sram key (Map.get 0 s.sram key ^^^ m) }
  | 4 => some { s with pinInj := s.pinInj ++ [((s.injPin i.w1).1, (s.injPin i.w1).2, lo)] }
  | 5 =>
    some (s.order (i.w1 % 8) (bitsOf i.w1 8 5) 128 (.hold no))
  | 6 =>
    let x := s.sub (i.w1 % 512) (bitsOf i.w1 16 2)
    some (s.setSub (i.w1 % 512) (bitsOf i.w1 16 2) { x with whold := true })
  | 7 =>
    let p := s.lport (i.w1 % 32)
    some (s.setPort (i.w1 % 32) { p with dropCells := lo })
  | 8 => some (s.declareLane (i.w1 % 32) (bitsOf i.w1 8 5))
  | 9 =>
    let p := s.lport (i.w1 % 32)
    some (s.setPort (i.w1 % 32) { p with silentTo := some (s.tick + lo) })
  | 10 =>
    let b := s.bundle (i.w1 % 2) (bitsOf i.w1 1 6)
    some (s.setBundle (i.w1 % 2) (bitsOf i.w1 1 6) { b with inject := i.w2 % 128 })
  | 11 =>
    let x := s.site (i.w1 % 512)
    let off := signedOf 16 lo
    let n := bitsOf i.w2 32 16
    some (s.setSite (i.w1 % 512) (if i.w1.testBit 9 then { x with off1 := off, offN1 := n } else { x with off0 := off, offN0 := n }))
  | _ => some { s with clp := { s.clp with masked := true } }

/-- A pending injection applied (R386): its effect, its number, its event, the completion of its command. Those whose effect is done
at once leave the list. -/
def State.applyInj (s : State) (i : Inj) : Option State :=
  let no := (satAdd s.wh.injCount 1).toNat
  let j : Inj := { i with applied := some no, stop := s.tick + if i.ty = 12 then i.w2 % 2 ^ 20 else i.w2 % 65536 }
  let injs := if i.ty ≤ 3 ∨ i.ty = 8 then s.wh.injs.erase i else s.wh.injs.map fun x => if x = i then j else x
  -- the injection is announced ahead of every effect that follows
  let s1 := ({ s with wh := { s.wh with injs := injs, injCount := satAdd s.wh.injCount 1 } } : State).postEv 14 cWhdInjected none
    [i.ty, i.w1, i.w2, no]
  (s1.injEffect i no).map fun s => s.complete i.sq i.cid 0 0 [no]

/-- A position reached or passed; 0 is at once (R386). -/
def State.injDue (s : State) (i : Inj) : Bool := i.pos == 0 || decide (s.ahead i.pos ≤ 0)
/-- The pending injection that comes first: by position, then by entry (R388). -/
def State.nextInj (s : State) : Option Inj :=
  (s.wh.injs.filter fun i => i.applied.isNone && s.injDue i).foldl
    (fun best i => match best with
      | none => some i
      | some b =>
        let at_ (x : Inj) : Int := if x.pos = 0 then 0 else s.ahead x.pos
        if at_ i < at_ b then some i else some b) none

/-- INJECTION_APPLY (R386, R388). -/
def injectionApply (s : State) : State := match s.nextInj with | none => s | some i => (s.applyInj i).getD s

/-- An INJECT of the type of a row (R385 to R387): checked, an address of another kind than the type takes being an argument out of range, then applied at once or held until its position. -/
def cmdInject (ty : Nat) (s : State) (c : WcsCmd) : Option State :=
  let w1 := if ty ≤ 3 then c.ma 1 else c.arg 1
  let w2 := c.arg 2
  let pos := c.arg 3 % 2 ^ 58
  let i : Inj := { sq := c.sq, cid := c.cid, ty := ty, w1 := w1, w2 := w2, pos := pos, applied := none, stop := 0 }
  let same (x : Inj) : Bool := x.ty == ty && x.applied.isSome && injTarget ty x.w1 == injTarget ty w1 && !s.injOver x
  if c.arg 0 % 256 ≠ ty then none
  else if ty ≤ 3 ∧ !s.injKind ty w1 then some (s.ends c stBadArg)
  else if !s.injExists ty w1 then some (s.ends c stNoObject)
  else if !s.injParam ty w1 w2 then some (s.ends c stBadArg)
  else if pos ≠ 0 ∧ (s.horizon * 1024 : Nat) < s.ahead pos then some (s.complete c.sq c.cid stBadArg cClpBeyondTurn [])
  else if 16 ≤ s.injPending then some (s.ends c stNoResource)
  else if s.wh.injs.any same then some (s.ends c stBusy)
  else
    let late := decide (pos ≠ 0) && decide (s.ahead pos ≤ 0)
    let s1 : State := { s with wh := { s.wh with injs := s.wh.injs ++ [i] },
                               clp := if late then { s.clp with late := satAdd s.clp.late 1 } else s.clp }
    some (if s1.injDue i then (s1.applyInj i).getD s1 else s1)

end Sys2Proof.Machine
end

