-- ==== Sys2Proof/Machine/InjRows.lean ====
section
/-! DEFINITION. The INJECT commands by type, their application and their end (17 R385 to R388): one meaning for each row. -/

namespace Sys2Proof.Machine

/-- CW_SYMBOLS (17 R387). -/
def execCwSymbols (sq : BitVec 4) (cid : BitVec 16) (s : State) : Host.Outcome State Fault Refusal :=
  .next (s.wcsRow sq.toNat cid.toNat 0x2B false (cmdInject 1))

/-- CW_POISON (17 R387). -/
def execCwPoison (sq : BitVec 4) (cid : BitVec 16) (s : State) : Host.Outcome State Fault Refusal :=
  .next (s.wcsRow sq.toNat cid.toNat 0x2B false (cmdInject 2))

/-- SRAM_BITS (17 R387). -/
def execSramBits (sq : BitVec 4) (cid : BitVec 16) (s : State) : Host.Outcome State Fault Refusal :=
  .next (s.wcsRow sq.toNat cid.toNat 0x2B false (cmdInject 3))

/-- PIN_ERRORS (17 R387). -/
def execPinErrors (sq : BitVec 4) (cid : BitVec 16) (s : State) : Host.Outcome State Fault Refusal :=
  .next (s.wcsRow sq.toNat cid.toNat 0x2B false (cmdInject 4))

/-- CHANNEL_HOLD (17 R387). -/
def execChannelHold (sq : BitVec 4) (cid : BitVec 16) (s : State) : Host.Outcome State Fault Refusal :=
  .next (s.wcsRow sq.toNat cid.toNat 0x2B false (cmdInject 5))

/-- WRITE_HOLD (17 R387). -/
def execWriteHold (sq : BitVec 4) (cid : BitVec 16) (s : State) : Host.Outcome State Fault Refusal :=
  .next (s.wcsRow sq.toNat cid.toNat 0x2B false (cmdInject 6))

/-- CELL_DROP (17 R387). -/
def execCellDrop (sq : BitVec 4) (cid : BitVec 16) (s : State) : Host.Outcome State Fault Refusal :=
  .next (s.wcsRow sq.toNat cid.toNat 0x2B false (cmdInject 7))

/-- LANE_FAIL (17 R387). -/
def execLaneFail (sq : BitVec 4) (cid : BitVec 16) (s : State) : Host.Outcome State Fault Refusal :=
  .next (s.wcsRow sq.toNat cid.toNat 0x2B false (cmdInject 8))

/-- FRAME_SILENCE (17 R387). -/
def execFrameSilence (sq : BitVec 4) (cid : BitVec 16) (s : State) : Host.Outcome State Fault Refusal :=
  .next (s.wcsRow sq.toNat cid.toNat 0x2B false (cmdInject 9))

/-- FLIT_CRC (17 R387). -/
def execFlitCrc (sq : BitVec 4) (cid : BitVec 16) (s : State) : Host.Outcome State Fault Refusal :=
  .next (s.wcsRow sq.toNat cid.toNat 0x2B false (cmdInject 10))

/-- SENSOR_OFFSET (17 R387). -/
def execSensorOffset (sq : BitVec 4) (cid : BitVec 16) (s : State) : Host.Outcome State Fault Refusal :=
  .next (s.wcsRow sq.toNat cid.toNat 0x2B false (cmdInject 11))

/-- CADENCE_MASK (17 R387). -/
def execCadenceMask (sq : BitVec 4) (cid : BitVec 16) (s : State) : Host.Outcome State Fault Refusal :=
  .next (s.wcsRow sq.toNat cid.toNat 0x2B false (cmdInject 12))

/-- INJECTION_APPLY (17 R386). -/
def execInjectionApply (s : State) : Host.Outcome State Fault Refusal :=
  .next (injectionApply s)

/-- INJECTION_END (17 R388). -/
def execInjectionEnd (n : Nat) (s : State) : Host.Outcome State Fault Refusal :=
  .next (injectionEnd s n)

end Sys2Proof.Machine
end

