-- ==== Sys2Proof/Machine/ResetOps.lean ====
section
/-! DEFINITION. Resets of partial scope, fences, rejoin, and the escalation of failing elements (10 R235, R236; 15 R329, R337 to R339,
R345 to R347; and the tables of each block that say what a scope clears). -/

namespace Sys2Proof.Machine

/-! ### What a reset clears -/

/-- The audit entry of a reset (15 R326; 14 Table WHD-8). -/
def resetAudit (origin scope object src odetail : Nat) : Audit :=
  { origin := origin, oclass := 0x0A, object := scope * 2 ^ 40 + object, old := 0, new := BitVec.ofNat 64 src, odetail := odetail }

/-- Whether an address lies in a core's cistern. -/
def inCist (n a : Nat) : Bool := decide (a < 2 ^ 39) && a / 2 ^ 30 == n
/-- Whether an address lies in a core's scratchpad or bundle store. -/
def inSram (n a : Nat) : Bool :=
  (decide (0x030000000000 ≤ a) && decide (a < 0x034000000000) && (a - 0x030000000000) / 2 ^ 23 == n) ||
    (decide (0x034000000000 ≤ a) && decide (a < 0x03F000000000) && (a - 0x034000000000) / 2 ^ 19 == n)
/-- Whether a per-stack address lies in a reservoir. -/
def inRsv (k a : Nat) : Bool := decide (2 ^ 40 ≤ a) && decide (a < 2 ^ 41) && (a - 2 ^ 40) / 2 ^ 37 == k
/-- Memory zeroed, with valid check symbols, where `p` holds of the address. -/
def State.zeroMem (s : State) (p : Nat → Bool) : State :=
  { s with mem := Map.drop p s.mem, cw := Map.drop (fun k => p (64 * k)) s.cw, sram := Map.drop (fun k => p (8 * k)) s.sram }

/-- A core after a reset of it (03 Table COR-7; 04 R100; 05 Table QUE-6): its site, cube configuration and row maps stay as firmware
restores them; its fault records stay unless its die was reset. -/
def Core.afterReset (c : Core) (die : Bool) (now : Nat) : Core :=
  let keep (q : Queue) : Queue := { record := q.record }
  { siteLogical := c.siteLogical, site := c.site, cubeLock := c.cubeLock, cubeRepaired := c.cubeRepaired, eqMode := c.eqMode,
    rowMap := c.rowMap, gens := c.gens, cycle := c.cycle, seq := c.seq, clocks := c.clocks, clockFrom := now,
    asyncWait := if die then [] else c.asyncWait, asyncData := c.asyncData, asyncBad := c.asyncBad,
    queues := if die then [] else Map.mapAll {} keep c.queues }

/-- The active layers of a core take its present ones; a change zeroes the cistern (06 R147, Table CST-7). -/
def State.takePresent (s : State) (n : Nat) : State :=
  let c := s.cist n
  if c.active = c.present then s else (s.setCist n { c with active := c.present }).zeroMem (inCist n)

/-- A list index no command has: a command given it never completes. -/
def goneIdx : Nat := 2 ^ 32

/-- Parts of requests given up: those in a hold queue are not performed, those a sluice of their own port holds never leave it, and
neither has a completion (07 R176). Parts that wait elsewhere stay. -/
def State.forget (s : State) (gone : ReqPart → Bool) : State :=
  let out (e : ArbEntry) : List Nat := match e.item with | .req r => if r.inHold && gone r then [r.id] else [] | _ => []
  let held (h : HeldReq) : Bool := !h.there && h.parts.any gone
  let ids := (s.chans.flatMap fun e => e.2.ops.flatMap out) ++ (s.sluHeld.filter held).map HeldReq.id
  let chan (x : Chan) : Chan := { x with ops := x.ops.filter fun e => out e == [] }
  { s with chans := Map.mapAll {} chan s.chans
           sluHeld := s.sluHeld.filter fun h => !held h
           reqs := s.reqs.filter fun r => !ids.contains r.id }

/-- The commands of cores abandoned (05 R131, Table QUE-6; 07 R176; 10 Table NET-6; 12 R275, Table LNK-5): ATT commands not performed are
forgotten, as are their FLAG_SETs on the way, reads and programs go on without their command, streams are cancelled, their requests are
given up, and what still comes of them is for nobody. -/
def State.abandon (s : State) (mine port : Nat → Bool) : State :=
  let who (w : Who) : Bool := match w with | .dma n _ _ | .fetch n _ | .desc n _ | .bankImage n _ => mine n | _ => false
  let launch (l : Option Launch) : Option Launch := l.map fun l => if mine l.core then { l with idx := goneIdx } else l
  let pass (x : Pass) : Pass := { x with cmd := x.cmd.map fun c => if mine c.1 then (c.1, c.2.1, goneIdx) else c }
  let offers (x : Port) : Port := { x with offered := x.offered.filter fun e => !mine e.1 }
  let ctxs := (s.txs.filterMap fun e => e.2.bind fun x => if mine x.core then some e.1 else none) ++
    (s.rxs.filterMap fun e => e.2.bind fun x => if mine x.core then some e.1 else none)
  let s := s.forget fun p => port p.port || who p.who
  let s := (s.att.filter fun i => mine i.core).foldl State.dropAtt s
  let s := s.dropUpds fun u => match u.done with | some d => mine d.1 | none => false
  let s := { s with launches := Map.mapAll none launch s.launches
                    passes := Map.mapAll {} pass s.passes
                    ports := Map.mapAll {} offers s.ports
                    reqs := s.reqs.filter fun r => !(port r.port || who r.who)
                    accs := s.accs.filter fun a => !who a.who }
  ctxs.foldl (fun s c => s.cancelStream c none) s

/-- Cores reset (03 R70; 05 R131): their commands are abandoned, their active layers take the present ones. -/
def State.resetCores (s : State) (ns : List Nat) (port : Nat → Bool) : State :=
  let s := s.abandon ns.contains port
  ns.foldl (fun s n => (s.setCore n ((s.core n).afterReset false s.time)).takePresent n) s

/-- Running jobs that lose a resource end ABORTED, as the arbiter sequences it (13 R301, Table HST-6). -/
def State.abortJobs (s : State) (lost : Job → Bool) (fault : Nat) : State :=
  (s.host.jobs.filter fun j => j.ended.isNone && lost j).foldl (fun s j => s.post 14 (.jobEnd j.sq j.cid stAborted fault)) s

/-- Whether a reset's scope covers the target of an injection (17 R388), given the cores, channels, reservoirs and compute dies it
covers. -/
def State.injCovered (s : State) (core : Nat → Bool) (chan : Nat → Nat → Bool) (rsv die : Nat → Bool) (i : Inj) : Bool :=
  match i.ty with
  | 1 | 2 | 3 =>
    (match s.resolve i.w1 with
      | .cist n _ => core n
      | .pad n _ => core n
      | .bstore n _ => core n
      | .rsv k x => chan k (s.rsvCh k x)
      | _ => false)
  | 4 =>
    if bitsOf i.w1 32 8 = 1 then (match s.coreAt (bitsOf i.w1 22 10) with | some n => core n | none => false)
    else (match s.pinChan (bitsOf i.w1 29 3) (bitsOf i.w1 23 6) with | some c => chan (bitsOf i.w1 29 3) c | none => false)
  | 5 => chan (i.w1 % 8) (bitsOf i.w1 8 5)
  | 6 => core (i.w1 % 512)
  | 7 | 8 | 9 => die (portHome (i.w1 % 32))
  | 10 => die 0 || die 1
  | 11 => if i.w1 % 512 < 160 then die (i.w1 % 512 / 80) else decide (i.w1 % 512 < 264) && rsv ((i.w1 % 512 - 160) / 13)
  | _ => false

/-- Covered injections end: those in effect lose it, those pending are discarded, with a status no rule gives (17 R388). -/
def State.dropInjs (s : State) (covered : Inj → Bool) : State :=
  (s.wh.injs.filter covered).foldl
    (fun s i =>
      let s := { s with wh := { s.wh with injs := s.wh.injs.erase i } }
      match i.applied with
      | some _ => s.endInj i
      | none => s.completeFree i.sq i.cid 0) s

/-! ### The escalation of failing elements (15 R337, Table BUP-5) -/

/-- Entries of a class that stand (a provisional one does not) and whose element satisfies `p`. -/
def State.entsOf (s : State) (cls : Nat) (p : RepEnt → Bool) : Nat :=
  (s.repairs.filter fun e => e.cls.toNat == cls && e.st.toNat != 5 && p e).length
/-- Whether an element is recorded in a state other than provisional. -/
def State.recorded (s : State) (cls elem : Nat) : Bool := decide (0 < s.entsOf cls fun e => e.elem.toNat == elem)
/-- Whether an element is retired. -/
def State.isRetired (s : State) (cls elem : Nat) : Bool := s.repairs.any fun e => e.cls.toNat == cls && e.elem.toNat == elem && e.st.toNat == 4

/-- What absorbs a failing element: its new state, the spare used, and the container that fails where the spares are exhausted. -/
structure Absorb where
  st : Nat
  action : Nat := 0
  up : List (Nat × Nat) := []
  deriving DecidableEq, Repr

/-- Pin group of a cistern pin element; spare columns have none. -/
def elemGroup (e : Nat) : Option Nat := if e % 2 ^ 11 < 1152 then some (pinGroup (e % 2 ^ 11)).1 else none

/-- The element of number `j` in the pin set of a pin element. -/
def pinElem (cls e j : Nat) : Nat := (if cls = 1 then e / 2 ^ 20 * 2 ^ 20 else e / 2 ^ 23 * 2 ^ 23) + j
/-- Whether a pin element's spare is itself out of use. -/
def State.spareLost (s : State) (cls e : Nat) : Bool :=
  (cls == 1 || cls == 7) &&
    s.repairs.any fun x => x.cls.toNat == cls && x.elem.toNat == e && x.st.toNat == 1 && s.isRetired cls (pinElem cls e x.action.toNat)
/-- A spare pin is out of use, and the pin it served fails again. -/
def State.absorbSpare (s : State) (cls e : Nat) : Absorb :=
  { st := 4, up := match s.sparedBy cls e (pinOf cls e) with | some p => [(cls, pinElem cls e p)] | none => [] }

/-- Table BUP-5, level by level. -/
def State.absorbAs (s : State) (cls e : Nat) : Absorb :=
  match cls with
  | 1 =>
    let here (x : RepEnt) : Bool := x.elem.toNat / 2 ^ 20 == e / 2 ^ 20
    if 1152 ≤ pinOf 1 e then s.absorbSpare 1 e
    else
      match s.sparesLeft 1 e with
      | j :: _ => { st := 1, action := j }
      | [] =>
        if s.entsOf 1 (fun x => here x && x.st.toNat == 2 && elemGroup x.elem.toNat == elemGroup e) = 0 then { st := 2 }
        else { st := 4, up := [(3, e / 2 ^ 20 * 2 ^ 20)] }
  | 2 =>
    let used := s.entsOf 2 fun x => x.elem.toNat / 2 ^ 15 == e / 2 ^ 15 && x.st.toNat == 1
    if used < 16 then { st := 1, action := used } else { st := 4, up := [(3, e / 2 ^ 20 * 2 ^ 20)] }
  | 3 => { st := 4, up := if 3 ≤ s.entsOf 3 (fun x => x.elem.toNat / 2 ^ 22 == e / 2 ^ 22 && x.elem.toNat != e) then [(5, e / 2 ^ 22 * 2 ^ 22)] else [] }
  | 4 =>
    if s.entsOf 4 (fun x => x.elem.toNat / 16 == e / 16) = 0 then { st := 1, action := 8 } else { st := 4, up := [(5, e / 2 ^ 22 * 2 ^ 22)] }
  | 7 =>
    let here (x : RepEnt) : Bool := x.elem.toNat / 2 ^ 23 == e / 2 ^ 23
    let k := e / 2 ^ 29
    let c := bitsOf e 23 6
    -- the pins of a channel on the spare path are out of use
    if c < 32 ∧ s.recorded 0xA (chanElem k c) then { st := 4 }
    else if 72 ≤ pinOf 7 e then s.absorbSpare 7 e
    else
      match s.sparesLeft 7 e with
      | j :: _ => { st := 1, action := j }
      | [] =>
        if s.entsOf 7 (fun x => here x && x.st.toNat == 2) = 0 then { st := 2 }
        else if c < 32 ∧ s.entsOf 0xA (fun x => x.elem.toNat / 2 ^ 29 == k) = 0 ∧ !s.pathBad k then { st := 1, up := [(0xA, chanElem k c)] }
        else if c < 32 then { st := 4, up := [(9, chanElem k c)] }
        else { st := 4, up := (List.range 32).filterMap fun c => if s.recorded 0xA (chanElem k c) then some (9, chanElem k c) else none }
  | 8 =>
    let used := s.entsOf 8 fun x => x.elem.toNat / 2 ^ 19 == e / 2 ^ 19 && x.st.toNat == 1
    if used < 32 then { st := 1, action := used } else { st := 4, up := [(9, e / 2 ^ 24 * 2 ^ 24)] }
  | 9 =>
    { st := 4, up := if 16 ≤ s.entsOf 9 (fun x => x.elem.toNat / 2 ^ 29 == e / 2 ^ 29 && x.elem.toNat != e) then [(0xF, e / 2 ^ 29)] else [] }
  | 0xA => { st := 1 }
  | 0xB =>
    let here (x : RepEnt) : Bool := x.elem.toNat / 2 ^ 25 == e / 2 ^ 25
    let used := s.entsOf 0xB fun x => here x && x.st.toNat == 1
    if used < 4 then { st := 1, action := 64 + used }
    else { st := 4, up := [(0xC, e / 2 ^ 25 * 2 ^ 25)] }
  | 0xC =>
    let lanes := s.entsOf 0xB fun x => x.elem.toNat / 2 ^ 25 == e / 2 ^ 25
    if lanes ≠ 0 ∧ lanes ≤ 36 then { st := 3 }
    else
      { st := 4,
        up := if 15 ≤ s.entsOf 0xC (fun x => x.elem.toNat / 2 ^ 29 == e / 2 ^ 29 && x.elem.toNat != e && x.st.toNat == 4) then [(0xE, 1)] else [] }
  | 0xD => { st := 1 }
  | _ => { st := 4 }

/-- The partition a change of a pin element carries: that of the core its cistern is of, or whose channel set holds its channel (17 R380). -/
def State.pinPart (s : State) (cls e : Nat) : Option Nat :=
  if cls = 1 then (s.coreAt (e / 2 ^ 22)).bind s.partOf
  else if cls = 7 then (s.pinChan (e / 2 ^ 29) (bitsOf e 23 6)).bind (s.chanPart (e / 2 ^ 29))
  else none

/-- A failing element absorbed, and what fails because of it. `find` is the source of the finding (1 a full start, 2 a quick one, 3 in
service), or 0 for an element of the fuse map, which is entered without a finding being posted. -/
def State.absorb (s : State) (find : Nat) : Nat → Nat × Nat → State
  | 0, _ => s
  | fuel + 1, x =>
    let a := s.absorbAs x.1 x.2
    -- an element already out of use is no new finding, but a narrowed bundle that loses more lanes is, and a pin that loses its spare
    if s.recorded x.1 x.2 && !(x.1 == 0xC && !s.isRetired 0xC x.2 && a.st == 4) && !s.spareLost x.1 x.2 then s
    else
      let ent : RepEnt := { cls := BitVec.ofNat 8 x.1, st := BitVec.ofNat 8 a.st, action := BitVec.ofNat 16 a.action,
                            elem := BitVec.ofNat 32 x.2, source := 0, found := s.startNo }
      let rest := s.repairs.filter fun e => !(e.cls.toNat == x.1 && e.elem.toNat == x.2)
      let s1 := if find = 0 then { s with repairs := rest ++ [ent] }
        else s.repair 14 x.1 x.2 a.st a.action (s.pinPart x.1 x.2) cBupRepair (if find = 3 then 3 else 0) find
      let s1 := { s1 with bup := { s1.bup with repairs := s1.bup.repairs + (if a.st = 1 ∨ a.st = 2 then 1 else 0)
                                               retired := s1.bup.retired + (if a.st = 4 then 1 else 0) } }
      a.up.foldl (fun s y => s.absorb find fuel y) s1

/-- Findings absorbed in their order. -/
def State.absorbAll (s : State) (find : Nat) (xs : List (Byte × Word)) : State :=
  xs.foldl (fun s x => s.absorb find 8 (x.1.toNat, x.2.toNat)) s

/-- What fails first in a stage has a code that no rule names (15 R348: FIRST_FAULT): a free value. -/
def State.noteFault (s : State) (bad : Bool) : State :=
  if bad && s.bup.firstFault == 0 then
    { s with bup := { s.bup with firstFault := BitVec.ofNat 16 (Config.freeWord s.free 0).toNat } }.draw
  else s

/-- What a test of a depth can find (R341): at quick depth, of the rows only those of the start's residue class, and of the one 8 further on in
the layers nearest the base die. No rule says which layer a reservoir's row lies in. -/
def testedFindings (full : Bool) (no : Nat) (found : List (Byte × Word)) : List (Byte × Word) :=
  let near (e : Nat) (layers : Bool) : Bool := e % 16 == no % 16 || (layers && e % 16 == (no + 8) % 16)
  if full then found
  else found.filter fun x =>
    if x.1 = 2 then near (x.2.toNat % 2 ^ 10) (decide (bitsOf x.2.toNat 20 2 ≤ 1))
    else if x.1 = 8 then near (x.2.toNat % 2 ^ 16) true
    else true
/-- Elements of the scope `mine` (by class and element): the fuse map's entered, provisional entries and findings absorbed. -/
def State.settleFindings (s : State) (find : Nat) (mine : Nat → Nat → Bool) (found : List (Byte × Word)) : State :=
  let pick (x : Byte × Word) : Bool := mine x.1.toNat x.2.toNat
  let s := s.absorbAll 0 (s.fuses.bad.filter pick)
  let s := s.absorbAll find ((s.repairs.filter fun e => e.st == 5 && mine e.cls.toNat e.elem.toNat).map fun e => (e.cls, e.elem))
  s.absorbAll find (found.filter pick)

/-- A stage's elements reconciled (R337): at a full start those of pin and lane classes declared in service are removed where they pass. -/
def State.reconcile (s : State) (classes : List Nat) (full : Bool) (found : List (Byte × Word)) : State :=
  let lane (e : RepEnt) : Bool := e.cls = 1 || e.cls = 7 || e.cls = 0xB || e.cls = 0xD
  let passes (e : RepEnt) : Bool := classes.contains e.cls.toNat && e.source == 3 && lane e && !found.contains (e.cls, e.elem)
  let s := if !full then s
    else (s.repairs.filter passes).foldl (fun s e => s.repair 14 e.cls.toNat e.elem.toNat 0 0 none cBupRepair 0 1) s
  (s.settleFindings (if full then 1 else 2) (fun c _ => classes.contains c) found).noteFault
    (found.any fun x => classes.contains x.1.toNat)

/-! ### What the record gives (15 R337, R345, R346) -/

/-- A sub-channel as the record has it, by its site and layer (06 R143, R144, Table CST-7). -/
def State.subFromRecord (s : State) (site l : Nat) : SubCh :=
  let loc := site * 4 + l
  let pins := s.repairs.filter fun e => e.cls.toNat == 1 && e.elem.toNat / 2 ^ 20 == loc
  let era := pins.filter fun e => e.st.toNat == 2
  let putEra (m : Map Nat) (e : RepEnt) : Map Nat :=
    let g := pinGroup (e.elem.toNat % 2 ^ 11)
    Map.set 0 m g.1 (g.2 + 1)
  let rows := s.repairs.filter fun e => e.cls.toNat == 2 && e.elem.toNat / 2 ^ 20 == loc && e.st.toNat == 1
  let putRow (m : Map Nat) (e : RepEnt) : Map Nat := Map.set 0 m (bitsOf e.elem.toNat 15 5) (Map.get 0 m (bitsOf e.elem.toNat 15 5) + 1)
  { st := if s.isRetired 3 (loc * 2 ^ 20) then .retired else .active
    spares := BitVec.ofNat 5 (pins.filter fun e => e.st.toNat == 1).length
    erase := era.foldl putEra []
    rows := rows.foldl putRow [] }
/-- Layers of a site not retired. -/
def State.layersOf (s : State) (site : Nat) : BitVec 4 :=
  BitVec.ofNat 4 (((List.range 4).filter fun l => !s.isRetired 3 ((site * 4 + l) * 2 ^ 20)).map (2 ^ ·)).sum
/-- A cistern as the record has it, its counters and limits at their reset values, refresh rates kept. -/
def State.cistFromRecord (s : State) (n site : Nat) : State :=
  let p := s.layersOf site
  let sub (l : Nat) : SubCh := { s.subFromRecord site l with refRate := (s.sub n l).refRate }
  let subs := (List.range 4).foldl (fun m l => Map.set {} m l (sub l)) []
  s.setCist n { present := p, active := p, subs := subs }

/-- A reservoir channel as the record has it (07 R169, R170, Table RSV-6). -/
def State.chanFromRecord (s : State) (k c : Nat) : Chan :=
  -- a channel on the spare path has the path's pins (15 Table BUP-7)
  let set := if s.recorded 0xA (chanElem k c) then 32 else c
  let pins := s.repairs.filter fun e => e.cls.toNat == 7 && e.elem.toNat / 2 ^ 23 == k * 2 ^ 6 + set
  let rows := s.repairs.filter fun e => e.cls.toNat == 8 && e.elem.toNat / 2 ^ 24 == k * 2 ^ 5 + c && e.st.toNat == 1
  let putRow (m : Map Nat) (e : RepEnt) : Map Nat := Map.set 0 m (bitsOf e.elem.toNat 19 5) (Map.get 0 m (bitsOf e.elem.toNat 19 5) + 1)
  { st := if s.isRetired 9 (chanElem k c) ∨ s.isRetired 0xF k then .retired else .active
    spares := BitVec.ofNat 2 (pins.filter fun e => e.st.toNat == 1 && 72 ≤ e.action.toNat).length
    erase := (pins.find? fun e => e.st.toNat == 2).map fun e => e.elem.toNat % 2 ^ 7
    rows := rows.foldl putRow [] }

/-- A reservoir as the record has it: channels, masks, spare path; the stack zeroed; counters, skimmer and pass limit at their reset
values, the budget and walker area kept (07 Table RSV-6; 09 Table ATT-5; 15 R346). -/
def State.rsvFromRecord (s : State) (k : Nat) : State :=
  let mask : Word := BitVec.ofNat 32 (((List.range 32).filter fun c => (s.chanFromRecord k c).st == .active).map (2 ^ ·)).sum
  let put (s : State) (c : Nat) : State := s.setChan k c { s.chanFromRecord k c with refRate := (s.chan k c).refRate }
  let s := (List.range 32).foldl put s
  let v := s.rsv k
  let sp := s.repairs.find? fun e => e.cls.toNat == 0xA && e.elem.toNat / 2 ^ 29 == k
  let s := s.setRsv k
    { budgetUs := v.budgetUs, slotBase := v.slotBase, slotCount := v.slotCount, spareUsed := sp.isSome
      spareFor := BitVec.ofNat 5 ((sp.map fun e => bitsOf e.elem.toNat 24 5).getD 0) }
  { s.zeroMem (inRsv k) with
    rsvPresent := Map.set 0xFFFFFFFF s.rsvPresent k mask
    rsvActive := Map.set 0xFFFFFFFF s.rsvActive k mask
    sluCap := Map.set none s.sluCap k (some (BitVec.ofNat 20 (896 * popCount 32 mask.toNat))) }

/-- A bridge bundle as the record has it (10 R226). -/
def State.bundleFromRecord (s : State) (d b : Nat) : Bundle :=
  let e := d * 2 ^ 31 + b * 2 ^ 25
  let lanes := s.repairs.filter fun x => x.cls.toNat == 0xB && x.elem.toNat / 2 ^ 25 == e / 2 ^ 25
  let n := (s.repairs.find? fun x => x.cls.toNat == 0xC && x.elem.toNat == e).map fun x => x.st.toNat
  { st := if n = some 4 then 2 else if n = some 3 then 1 else 0
    spares := BitVec.ofNat 3 (lanes.filter fun x => x.st.toNat == 1).length
    bad := lanes.map fun x => x.elem.toNat % 2 ^ 7 }
/-- Every bundle of the bridge as the record has it, and the CAP of each direction. -/
def State.bridgeFromRecord (s : State) : State :=
  let put (s : State) (i : Nat) : State := s.setBundle (i / 64) (i % 64) (s.bundleFromRecord (i / 64) (i % 64))
  (((List.range 128).foldl put { s with brRows := [] }).bridgeCap 0).bridgeCap 1

/-- The site a cluster leaves out, or none where the cluster has to retire (15 R337): the one that must retire, by the record or for the run
by `out`; with none, the lowest-numbered with a reduced cistern; with none, site 16. -/
def State.siteOutFor (s : State) (out : Nat → Bool) (g : Nat) : Option Nat :=
  let bad := (List.range 17).filter fun i => s.recorded 5 ((g * 32 + i) * 2 ^ 22) || out (g * 32 + i)
  match bad with
  | [] => some (((List.range 17).find? fun i => s.layersOf (g * 32 + i) != 0xF).getD 16)
  | [i] => some i
  | _ => none

/-- The same by the record alone. -/
def State.siteOut (s : State) (g : Nat) : Option Nat := s.siteOutFor (fun _ => false) g

/-- A core's cube rows as the record has them (03 R64, R65). -/
def State.rowMapOf (s : State) (site : Nat) : Map (BitVec 4) :=
  (s.repairs.filter fun e => e.cls.toNat == 4 && e.elem.toNat / 2 ^ 22 == site && e.st.toNat == 1).foldl
    (fun m e => Map.set 0xF m (bitsOf e.elem.toNat 4 3) (BitVec.ofNat 4 e.elem.toNat)) []
/-- Whether a site needs equaliser mode 1: a bypassed row below 8 (03 R65). -/
def State.needsEq (s : State) (site : Nat) : Bool := (s.rowMapOf site).any fun e => decide (e.2.toNat ≤ 7)

/-- A logical core placed on a site, its cube configuration set for U and locked (01 R15; 03 R64 to R66). -/
def State.placeCore (s : State) (n site u : Nat) : State :=
  let c : Core := { s.core n with siteLogical := BitVec.ofNat 9 n, site := BitVec.ofNat 10 site, cubeLock := true, eqMode := u == 13,
                                  rowMap := s.rowMapOf site }
  s.setCore n c.withRepaired

/-! ### Fences (10 R236) -/

/-- NET_DIE_FENCED posted with the jobs that use the object aborted: `cls` 0x0E a compute die, 0x0F a reservoir. -/
def State.postFence (s : State) (cls obj cause : Nat) (uses : Job → Bool) : State :=
  (s.postEv 14 cNetDieFenced none [cls * 2 ^ 32 + obj, 0, cause, 0]).abortJobs uses cNetDieFenced

/-- Requests that wait at a core's cistern answered NET_TARGET_RESET. -/
def State.answerCist (s : State) (n : Nat) : State :=
  (List.range 4).foldl
    (fun s l =>
      let x := s.sub n l
      let s := s.setSub n l { x with waiting := [], held := [] }
      (x.waiting ++ x.held).foldl (State.failPart · cNetTargetReset 0) s) s
/-- Requests sent to a compute die and not answered, answered NET_TARGET_RESET on the surviving side once it is fenced: those that its endpoint
of the bridge or an ingress or a cistern of it holds, those at the bridge, and flag updates homed there. What was at the bridge on its way
out of it is discarded, and a response's request answered (10 R236). -/
def State.answerDie (s : State) (d : Nat) (ns : List Nat) : State :=
  let far (h : HeldReq) : Bool := h.there && h.toDie == d
  let br (i : Nat × BrItem) : List ReqPart :=
    match i.2 with
    | .go h => if h.toDie = d then h.parts else []
    | .back p _ _ _ _ => if i.1 = d then [p] else []
  let pads := s.ingress.filter fun x => ns.contains x.core
  let parts := (s.sluHeld.filter far).flatMap HeldReq.parts ++ s.brWait.flatMap br ++ pads.map PadPart.p
  let s := { s with sluHeld := s.sluHeld.filter fun h => !far h, brWait := [], ingress := s.ingress.filter fun x => !ns.contains x.core }
  let s := ns.foldl State.answerCist (parts.foldl (State.failPart · cNetTargetReset 0) s)
  (s.flagUpds.filter fun u => s.homeFenced u.part u.flag).foldl State.refuseUpd s
/-- Requests in a reservoir's hold queues answered NET_TARGET_RESET. -/
def State.answerRsv (s : State) (k : Nat) : State :=
  (List.range 32).foldl
    (fun s c =>
      let x := s.chan k c
      let s := s.setChan k c { x with ops := x.ops.filter fun i => !i.isReq }
      x.ops.foldl (fun s e => match e.item with | .req r => s.refusePart cNetTargetReset 0 r | _ => s) s) s

/-- The logical cores of a compute die. -/
def State.dieCores (s : State) (d : Nat) : List Nat := (List.range s.nCores).filter fun n => s.dieOf n == d

/-- A compute die fenced (R236; 12 R277): its ports go down, unanswered requests are answered, jobs that use it are aborted. -/
def State.fenceDie (s : State) (d cause : Nat) : State :=
  if s.dieFenced d then s
  else
    let f := s.fence (1 - d)
    let s := { s with netFence := Map.set {} s.netFence (1 - d) { f with fenced := true, cause := BitVec.ofNat 3 cause } }
    let s := s.answerDie d (s.dieCores d)
    let s := (List.range 10).foldl (fun s i => s.portDown (10 * d + i)) s
    let uses (j : Job) : Bool := j.queues.any fun x => s.dieOf x.1 == d
    s.postFence 0x0E d cause uses

/-- Whether a pass has its home or a stripe in a reservoir. -/
def Pass.uses (x : Pass) (k : Nat) : Bool := x.st == .opened && (x.seq % 8 == k || x.pages.any fun g => g.k == k)
/-- Whether a job uses a reservoir: a launch or an open pass of one of its queues names it. -/
def State.jobUsesRsv (s : State) (k : Nat) (j : Job) : Bool :=
  (s.launches.any fun e => match e.2 with | some l => l.rsvMask.toNat.testBit k && j.queues.contains (l.core, l.queue) | none => false) ||
    s.passes.any fun e => match e.2.owner with | some o => e.2.uses k && j.queues.contains o | none => false

/-- A reservoir fenced (R236; 07 R176). -/
def State.fenceRsv (s : State) (k cause : Nat) : State :=
  if s.rsvFenced k then s
  else
    let f := s.fence (k / 4)
    let s := { s with netFence := Map.set {} s.netFence (k / 4) { f with rsv := f.rsv ||| BitVec.ofNat 4 (2 ^ (k % 4)) } }
    (s.answerRsv k).postFence 0x0F k cause (s.jobUsesRsv k)

/-! ### Partial resets begin -/

/-- A partial reset put in progress, its event and audit entry posted (15 R326; 17 R378). -/
def State.beginPartial (s : State) (p : PartialReset) (part : Option Nat) (origin odetail : Nat) : State :=
  { s with partials := s.partials ++ [p] }.post 14
    (.ev cBupReset part ([p.scope * 2 ^ 40 + p.object, 0, 5, 0].map (BitVec.ofNat 64))) [resetAudit origin p.scope p.object 5 odetail]
/-- The ODETAIL of a host command (14 R322). -/
def cmdDetail (sq cid : Nat) : Nat := sq * 2 ^ 16 + cid

/-- A partial reset over: its event, and the completion of its command, if it has one. -/
def State.rejoined (s : State) (p : PartialReset) : State :=
  let s := { s with partials := s.partials.filter fun x => x != p }
  let s := s.postEv 14 cBupRejoined (if p.scope = 4 then some p.object else none) [p.scope * 2 ^ 40 + p.object, 0, 5, 0]
  if p.cid < 2 ^ 16 then s.complete p.sq p.cid stOk 0 [] else s

/-- The cores of a partial reset of partition or core scope. -/
def State.partialCores (s : State) (p : PartialReset) : List Nat :=
  if p.scope = 4 then s.coresOf p.object else if p.scope = 5 then [p.object] else []

/-- Whether something of these cores has not yet ended (15 R347): a program, pass read or stream, or a request accepted at a core's
ingress or cistern (10 R235). -/
def State.stillEnding (s : State) (ns : List Nat) : Bool :=
  (s.launches.any fun e => match e.2 with | some l => ns.contains l.core | none => false) ||
    (s.passes.any fun e => match e.2.cmd with | some c => ns.contains c.1 | none => false) ||
    (s.txs.any fun e => match e.2 with | some x => ns.contains x.core | none => false) ||
    (s.rxs.any fun e => match e.2 with | some x => ns.contains x.core | none => false) ||
    (s.ingress.any fun x => ns.contains x.core) ||
    ns.any fun n => (s.core n).asyncWait != [] || (List.range 4).any fun l => (s.sub n l).waiting != [] || (s.sub n l).held != []

/-- Partition and core resets that are over complete (15 R347). -/
def State.finishPartials (s : State) : State :=
  s.partials.foldl
    (fun s p =>
      if (p.scope = 4 ∨ p.scope = 5) ∧ !s.stillEnding (s.partialCores p) then
        ({ s with partReset := if p.scope = 4 then s.partReset.filter fun x => x != p.object else s.partReset
                  coreReset := if p.scope = 5 then s.coreReset.filter fun x => x != p.object else s.coreReset } : State).rejoined p
      else s) s

/-- A context closed by a reset (09 R220): its valid entries lower their pages' counts, but those in a reservoir that is zeroed, and
the change is posted. -/
def State.closeSeq (s : State) (q : Nat) (zeroed : Nat → Bool) : State :=
  let x := s.seqAt q
  let s := x.table.foldl
    (fun s e =>
      let k := e.1 % x.cap.toNat % 8
      if e.2.toNat.testBit 31 && !zeroed k then s.count k (e.2.toNat % 2 ^ 22) PFrame.deref else s) s
  (s.setSeq q {}).profileChanged 14 8 q 0 0

/-- Every bank program of a partition ends, with no fault and no signal (08 R197). -/
def State.stopBank (s : State) (p : Nat) : State :=
  (Map.keys s.launches).foldl
    (fun s n => match s.launch n with
      | some l =>
        if l.kind = .bank ∧ l.part = p then
          let s := s.stopLaunch n none
          match s.launch n with
          | some l => s.setLaunch n { l with ordered := l.rsvMask, statusMA := 0, idx := goneIdx }
          | none => s
        else s
      | none => s) s

/-- Whether a stored reservoir byte lies in the walker area, in a channel of a partition's set (09 R204). -/
def State.inPartArea (s : State) (p a : Nat) : Bool :=
  (List.range 8).any fun k =>
    inRsv k a &&
      (let x := a - (2 ^ 40 + k * 2 ^ 37)
       decide (x < s.rsvSize k) && s.slotInArea k (s.rsvPlace k x).2.1 && (s.chsetOf k p).testBit (s.rsvCh k x))

/-- What a partition reset clears beside its cores (05 R131, Table QUE-6; 08 R197; 09 Table ATT-5; 13 Table HST-6). Updates of its queues
still on the way to its flags go with the flags. -/
def State.clearPartition (s : State) (p : Nat) : State :=
  let s := s.stopBank p
  let s := s.dropUpds fun u => u.part == p && u.wcs.isNone
  let s := ((Map.keys s.passes).filter fun e => e / 64 == p && (s.pass p (e % 64)).st == .opened).foldl
    (fun s e => (s.stopPass p (e % 64) cNetTargetReset).closePass p (e % 64) .free) s
  let s := ((Map.keys s.seqs).filter fun q => (s.seqAt q).isOpen && (s.seqAt q).part.toNat == p).foldl (fun s q => s.closeSeq q fun _ => false) s
  let x := s.part p
  { s.zeroMem (s.inPartArea p) with
    flags := Map.drop (fun k => k / 4096 == p) s.flags
    passes := Map.drop (fun k => k / 64 == p) s.passes
    pool := s.pool.filter fun e => match e.2 with | some f => f.part != p | none => false
    parts := Map.set {} s.parts p { x with lastUnit := [] }
    host := { s.host with progs := Map.drop (fun h => h / 64 == p) s.host.progs } }

/-- A WCS RESET of partition or core scope started on its cores. -/
def State.startCoreReset (s : State) (c : WcsCmd) (p : PartialReset) (part : Option Nat) (ns : List Nat) (port : Nat → Bool) : State :=
  let s := s.beginPartial p part 1 (cmdDetail c.sq c.cid)
  let s := s.abortJobs (fun j => j.queues.any fun x => ns.contains x.1) 0
  let chan (k ch : Nat) : Bool := p.scope == 4 && (s.chsetOf k p.object).testBit ch
  (s.dropInjs (s.injCovered ns.contains chan (fun _ => false) fun _ => false)).resetCores ns port

/-- RESET of a partition (15 R347; 10 R235). -/
def cmdResetPart (s : State) (c : WcsCmd) : Option State :=
  let p : PartialReset := { sq := c.sq, cid := c.cid, scope := 4, object := c.part, full := false }
  if c.low 0 ≠ 4 ∨ s.partials ≠ [] then none
  else if !s.partExists c.part then some (s.ends c stNoObject)
  else
    let gs := onesOf 32 (s.part c.part).clusters.toNat
    let s := s.startCoreReset c p (some c.part) (s.coresOf c.part) gs.contains
    let s := s.forget fun r => decide (32 ≤ r.port) && decide (r.port < 40) && r.part == some c.part
    some (({ s.clearPartition c.part with partReset := s.partReset ++ [c.part] } : State).finishPartials)

/-- RESET of a core (15 R347; 03 R70). A core whose cistern has lost every layer is retired. -/
def cmdResetCore (s : State) (c : WcsCmd) : Option State :=
  let n := c.arg 1 % 512
  let p : PartialReset := { sq := c.sq, cid := c.cid, scope := 5, object := n, full := false }
  if c.low 0 ≠ 5 ∨ s.partials ≠ [] then none
  else if s.nCores ≤ n ∨ (s.cist n).present = 0 then some (s.ends c stNoObject)
  else some (({ s.startCoreReset c p (s.partOf n) [n] (fun _ => false) with coreReset := s.coreReset ++ [n] } : State).finishPartials)

/-- PART_DESTROY (10 R232; 13 Table HST-4): BUSY while a queue runs or a job has not ended; else cleared as by a partition reset, its
clusters freed; its keys return to their defaults (14 Table WHD-9). -/
def cmdPartDestroy (s : State) (c : WcsCmd) : Option State :=
  let p := c.part
  let ns := s.coresOf p
  if !s.quiet ns || s.host.jobs.any (fun j => j.part == p) then some (s.ends c stBusy)
  else
    let old := (s.part p).clusters.toNat
    let s := (s.resetCores ns (onesOf 32 old).contains).clearPartition p
    let s := { s with
      parts := Map.set {} s.parts p {}
      clusterPart := (onesOf 32 old).foldl (fun m g => Map.set none m g none) s.clusterPart
      chset := Map.drop (fun k => k % 32 == p) s.chset
      params := Map.drop (fun k => k / 2 ^ 32 == p && (k % 2 ^ 32 == 1 || k % 2 ^ 32 == 2)) s.params }
    some (s.ok c [] [c.audit 0x03 p old 0])

/-! ### Dies and reservoirs -/

/-- Evacuations of elements that a reset covers abandoned: the element is retired without the rest (06 Table CST-7; 07 Table RSV-6). -/
def State.dropEvacs (s : State) (mine : Evac → Bool) : State :=
  (s.evacs.filter mine).foldl
    (fun s e =>
      let s := ({ s with evacs := s.evacs.erase e } : State).dropAcc e.who
      if e.cist then s.subRetired e.owner e.ch 0 false else s.chanRetired e.owner e.ch 0 false) s

/-- Scrub passes over memory that a reset covers end (17 R384). -/
def State.dropScrubs (s : State) (mine : Nat × Nat → Bool) : State :=
  (s.scrubs.filter fun x => match s.scrubTarget x.start x.len with | some t => mine t | none => false).foldl State.endScrub s

/-- A compute die fenced and reset (15 R345). A port of the die and a cluster of it are its masters. -/
def State.resetDie (s : State) (d : Nat) : State :=
  let s := s.fenceDie d 4
  let ns := s.dieCores d
  let port (p : Nat) : Bool := (decide (p < 32) && p / 16 == d) || (decide (40 ≤ p) && decide (p < 62) && portDie p == d)
  let s := s.dropInjs (s.injCovered ns.contains (fun _ _ => false) (fun _ => false) fun x => x == d)
  let s := s.dropScrubs fun t => t.1 != 3 && ns.contains t.2
  let s := s.dropEvacs fun e => e.cist && ns.contains e.owner
  let s := s.abandon ns.contains port
  let s := ns.foldl (fun s n => s.setCore n ((s.core n).afterReset true s.time)) s
  let hit (p : Nat) : Bool := (onesOf 32 (s.part p).clusters.toNat).any fun g => g / 16 == d
  { s with flags := Map.drop (fun k => hit (k / 4096)) s.flags }

/-- RESET of a compute die (15 R345). -/
def cmdResetDie (s : State) (c : WcsCmd) : Option State :=
  let d := c.arg 1 % 256
  let p : PartialReset := { sq := c.sq, cid := c.cid, scope := 2, object := d, full := (c.arg 1).testBit 8 }
  if c.low 0 ≠ 2 ∨ s.partials ≠ [] then none
  else if 2 ≤ d ∨ s.isRetired 0x0E d then some (s.ends c stNoObject)
  else some ((s.beginPartial p none 1 (cmdDetail c.sq c.cid)).resetDie d)

/-- A launch loses a reservoir: it ends there with NET_TARGET_RESET, and on its other reservoirs as R197 of 08 gives. -/
def State.launchLoses (s : State) (k n : Nat) : State :=
  let s := s.stopLaunch n (some (cNetTargetReset, bankDetail k 0 0 0))
  match s.launch n with
  | some l => s.setLaunch n { l with left := Map.drop (fun x => x == k) l.left, ordered := l.ordered ||| BitVec.ofNat 8 (2 ^ k) }
  | none => s

/-- A reservoir fenced and reset (15 R346; 07 Table RSV-6; 08 R197; 09 Table ATT-5). -/
def State.resetRsv (s : State) (k : Nat) : State :=
  let s := s.fenceRsv k 4
  let s := s.dropInjs (s.injCovered (fun _ => false) (fun x _ => x == k) (fun x => x == k) fun _ => false)
  let s := s.dropScrubs fun t => t == (3, k)
  let s := s.dropEvacs fun e => !e.cist && e.owner == k
  let s := (Map.keys s.launches).foldl
    (fun s n => match s.launch n with | some l => if l.rsvMask.toNat.testBit k then s.launchLoses k n else s | none => s) s
  let drop (s : State) (c : Nat) : State := s.setChan k c { s.chan k c with proc := false, current := none, ops := [], window := false }
  let s := (List.range 32).foldl drop s
  let s := ((Map.keys s.passes).filter fun e => (s.pass (e / 64) (e % 64)).uses k).foldl
    (fun s e => s.failPass (e / 64) (e % 64) cNetTargetReset 0) s
  -- an APPEND with a page reserved there, and a translation it was to make, lose it too
  let hit (i : AttItem) : Bool :=
    match i.trans with
    | some t => t.2.any fun q => q % 8 == k
    | none => s.attHome i.part i.cmd == k || (i.plan.getD []).any fun e => e.2.1 % 8 == k
  let s := { s with pool := Map.drop (fun f => f / 2 ^ 22 == k) s.pool }
  let s := (s.att.filter hit).foldl
    (fun s i =>
      match i.trans with
      | none => (s.dropAtt i).faultCmd i.core i.queue i.idx { code := cNetTargetReset }
      | some t => match (s.core i.core).dmaCh t.1 with | some x => s.dmaStop i.core t.1 x cNetTargetReset 0 | none => s) s
  let pageIn (q : Nat) : Bool :=
    let x := s.seqAt q
    x.table.any fun e => e.2.toNat.testBit 31 && e.1 % x.cap.toNat % 8 == k
  ((Map.keys s.seqs).filter fun q => (s.seqAt q).isOpen && (q % 8 == k || pageIn q)).foldl (fun s q => s.closeSeq q fun x => x == k) s

/-- RESET of a reservoir (15 R346). -/
def cmdResetRsv (s : State) (c : WcsCmd) : Option State :=
  let k := c.arg 1 % 256
  let p : PartialReset := { sq := c.sq, cid := c.cid, scope := 3, object := k, full := (c.arg 1).testBit 8 }
  if c.low 0 ≠ 3 ∨ s.partials ≠ [] then none
  else if 8 ≤ k ∨ s.present k = 0 ∨ s.isRetired 0x0F k then some (s.ends c stNoObject)
  else some ((s.beginPartial p none 1 (cmdDetail c.sq c.cid)).resetRsv k)

/-! ### Rejoin (15 R339, R345, R346) -/

/-- The first partial reset in progress, if it is of a scope and object. -/
def State.partialOf (s : State) (scope object : Nat) : Option PartialReset :=
  (s.partials.find? fun p => p.scope == scope && p.object == object)

/-- A rejoin that fails: the object is retired for the run and recorded; the fence stays (R345, R346). -/
def State.rejoinFails (s : State) (p : PartialReset) (cls : Nat) : State :=
  let s := { s with partials := s.partials.filter fun x => x != p }
  let s := if s.isRetired cls p.object then s else s.repair 14 cls p.object 4 0 none
  let s := s.profileChanged 14 7 (cls * 2 ^ 32 + p.object) 0 0
  if p.cid < 2 ^ 16 then s.complete p.sq p.cid stNoObject cBupRejoinFailed [] else s

/-- A rejoining cluster's sites (R339): its logical numbers stay, on the sites in service. A core that would need equaliser mode 1 while U is
12 is retired for the run, so its site is left out like one that must retire (03 R66); a cluster with none to spare is retired and stays held
out, in the record where the record alone says so. -/
def State.rejoinCluster (s : State) (g : Nat) : State :=
  let mine := (List.range s.nCores).filter fun n => s.clusterOf n == g
  let s1 := { s with heldOut := s.heldOut.filter fun x => x != g }
  let u := s.bup.ucl.toNat
  if mine = [] then s
  else
    match s.siteOutFor (fun x => u == 12 && s.needsEq x) g with
    | none =>
      let s2 := if s.recorded 6 (g * 2 ^ 27) || (s.siteOut g).isSome then s else s.repair 14 6 (g * 2 ^ 27) 4 0 none
      { s2 with heldOut := if s.heldOut.contains g then s.heldOut else s.heldOut ++ [g]
                clusterRetired := Map.set false s2.clusterRetired g true }
    | some out =>
      let sites := ((List.range 17).filter fun i => i != out).map fun i => g * 32 + i
      let place (s : State) (e : Nat × Nat) : State := (s.placeCore e.1 e.2 u).cistFromRecord e.1 e.2
      (mine.zip sites).foldl place s1

/-- What tells two maps of a die apart: its held-out clusters, sites and active layers. -/
def State.dieMap (s : State) (d : Nat) : List Nat × List (Nat × Nat) :=
  (s.heldOut.filter fun g => g / 16 == d, (s.dieCores d).map fun n => ((s.core n).site.toNat, (s.cist n).active.toNat))

/-- A die's blocks after its reset (03, 06, 10, 12: the tables of state by scope): memories zeroed, cores and cisterns from the
record, bridge retrained, port counters, lanes and latency registers at their reset values, the fence lifted. -/
def State.dieFresh (s : State) (d : Nat) : State :=
  let ns := s.dieCores d
  let s := s.zeroMem fun a => ns.any fun n => inCist n a || inSram n a
  let s := ((((List.range 16).map fun i => 16 * d + i).foldl State.rejoinCluster s).bridgeFromRecord).loadCopies [d]
  let port (s : State) (i : Nat) : State :=
    let x := s.lport (10 * d + i)
    s.setPort (10 * d + i)
      { x with txGood := 0, rxGood := 0, rxFailed := 0, txFailed := 0, txMap := [], rxMap := [], corrected := 0, uncorr := 0, hdrBad := 0,
               stale := 0, broken := 0, cancelled := 0, refused := 0, laneCorr := [], seen := [], dropCells := 0, silentTo := none }
  let s := (List.range 10).foldl port s
  { s with sluLat := Map.drop (fun k => decide (k / 5 < 62) && portDie (k / 5) == d) s.sluLat
           netFence := Map.set {} s.netFence (1 - d) { s.fence (1 - d) with fenced := false, cause := 0 } }

/-- Whether a die's elements include one of a class and element (Table BUP-7); the bridge's ends are each die's. -/
def dieElem (d cls e : Nat) : Bool :=
  (decide (1 ≤ cls) && decide (cls ≤ 5) && e / 2 ^ 31 == d) || cls == 0xB || cls == 0xC || (cls == 0xD && e / 2 ^ 27 / 10 == d)
/-- Whether a row of the bridge has no working bundle left in the record (10 R226). -/
def State.rowLost (s : State) : Bool :=
  (List.range 8).any fun y => (List.range 16).all fun b => s.isRetired 0xC (y / 4 * 2 ^ 31 + (y % 4 * 16 + b) * 2 ^ 25)

/-- DIE_REJOIN (R345): the clock and network work (`ok`), and the die's tests have found the elements of `found`. A row of the bridge
with no working bundle fails the rejoin of die 1 (10 R226). -/
def dieRejoin (s : State) (d : Nat) (ok : Bool) (found : List (Byte × Word)) : State :=
  match s.partialOf 2 d with
  | none => s
  | some p =>
    let s := s.settleFindings 3 (dieElem d) (testedFindings p.full s.startNo.toNat found)
    if !ok ∨ s.isRetired 0x0E d ∨ (d = 1 ∧ s.rowLost) then s.rejoinFails p 0x0E
    else
      let t := s.dieFresh d
      -- the profile records the map (01 R15, R16)
      let t := { t with profMap := (List.range t.nCores).map fun n => (t.core n).site.toNat }
      let t := if t.dieMap d = s.dieMap d then t else t.profileChanged 14 7 (0x0E * 2 ^ 32 + d) 0 0
      t.rejoined p

/-- RESERVOIR_REJOIN (R346). -/
def rsvRejoin (s : State) (k : Nat) (ok : Bool) (found : List (Byte × Word)) : State :=
  match s.partialOf 3 k with
  | none => s
  | some p =>
    let s := s.settleFindings 3 (fun c e => decide (7 ≤ c) && decide (c ≤ 9) && e / 2 ^ 29 == k) (testedFindings p.full s.startNo.toNat found)
    if !ok ∨ s.isRetired 0x0F k then s.rejoinFails p 0x0F
    else
      let t := s.rsvFromRecord k
      let f := t.fence (k / 4)
      let lifted : NetFence := { f with rsv := f.rsv &&& ~~~(BitVec.ofNat 4 (2 ^ (k % 4))) }
      let t := ({ t with netFence := Map.set {} t.netFence (k / 4) lifted } : State).loadCopies [2 + k]
      let t := if t.activeCh k = s.activeCh k then t else t.profileChanged 14 7 (0x0F * 2 ^ 32 + k) 0 0
      t.rejoined p

end Sys2Proof.Machine
end

