-- ==== Sys2Proof/Machine/BootOps.lean ====
section
/-! DEFINITION. Module resets, the stages of a start, the repair record, power and the contacts (14 R309 to R313, R316; 15 R326 to R349;
16 R369 to R371; 18 R402 to R404). -/

namespace Sys2Proof.Machine

/-! ### What a module reset leaves -/

/-- Diodes and spares kept by a module reset (16 Table THM-7). -/
def Diode.kept (d : Diode) : Diode := { ejected := d.ejected }
/-- A site kept. -/
def Site.kept (x : Site) : Site := { d0 := x.d0.kept, d1 := x.d1.kept, spareUsed := x.spareUsed, wasEjected := x.wasEjected }
/-- Thermal state after a module reset (16 Table THM-7). -/
def Thermal.kept (t : Thermal) : Thermal :=
  { sites := Map.mapAll {} Site.kept t.sites, cores := Map.mapAll {} Diode.kept t.cores, tripValid := t.tripValid, tripSite := t.tripSite,
    tripPosted := t.tripPosted }
/-- Wellhead state after a module reset (14 Table WHD-9; 17 R389). No reset table lists WH_INJECT_CTL, so a reset keeps it with its lock
(00 R5). -/
def Wellhead.kept (w : Wellhead) (cold : Bool) : Wellhead :=
  if cold then { injLock := w.injLock, injEn := w.injEn }
  else { injLock := w.injLock, injEn := w.injEn, esn := w.esn, audit := w.audit, auditIndex := w.auditIndex, auditDropped := w.auditDropped, dropSent := w.dropSent,
         wdogExpiries := w.wdogExpiries, injCount := w.injCount }

/-- Everything a module reset clears, at its reset value (15 R326; 03 Table COR-7; 05 QUE-6; 06 CST-7; 07 RSV-6; 09 ATT-5; 10 NET-6;
11 CLP-3; 12 LNK-5; 13 HST-6; 14 WHD-9; 16 THM-7). Cistern and reservoir contents stay until stage S3 zeroes them. `link` says that the
source resets PCI Express configuration space as well. -/
def State.cleared (s : State) (cold link : Bool) : State :=
  let sram (a : Nat) : Bool := decide (0x030000000000 ≤ a)
  { pending := s.pending, time := s.time, free := s.free, memDone := s.memDone, linkOut := s.linkOut, hostOut := s.hostOut,
    launchNo := s.launchNo, admNo := s.admNo, epochs := s.epochs, profGen := s.profGen, profMap := s.profMap, fuses := s.fuses, flash := s.flash,
    startNo := s.startNo, tapReset := s.tapReset, pins := { s.pins with alertN := true }, cw := s.cw, mem := Map.drop sram s.mem,
    events := if cold then [] else s.events, thm := s.thm.kept, wh := s.wh.kept cold,
    host := { wallNs := if cold then 0 else s.host.wallNs, reads := if cold then [] else s.host.reads ++ s.host.hub.filterMap s.hubRead },
    pci := if cold || link then {} else s.pci }

/-- Power lost: only flash, fuses and the sender's queue remain, with the logs of what the block has sent (16 R371; 18 R404). -/
def State.powerLost (s : State) : State :=
  { pending := s.pending, time := s.time, free := s.free, memDone := s.memDone, linkOut := s.linkOut, hostOut := s.hostOut,
    fuses := s.fuses, flash := s.flash,
    pins := { modResetN := s.pins.modResetN, perstN := s.pins.perstN, modId := s.pins.modId, bootMode := s.pins.bootMode } }

/-! ### Holds and the beginning of a start (15 R327, R329, R332, R334) -/

/-- Whether a contact or the trip latch holds the module in reset (R327). -/
def State.held (s : State) : Bool := !s.pins.pwrOk || !s.pins.modResetN || !s.pins.perstN || s.pins.trip

/-- The repair record in use: the valid half with the higher generation (R343), and whether it is half B. -/
def Flash.record (f : Flash) : Option (Bool × RecHalf) :=
  if f.recA.valid ∧ f.recB.valid then some (if f.recA.gen.toNat < f.recB.gen.toNat then (true, f.recB) else (false, f.recA))
  else if f.recA.valid then some (false, f.recA)
  else if f.recB.valid then some (true, f.recB)
  else none

/-- Whether a start is full (R332, Table BUP-4). -/
def fullStart (mode src : Nat) (asked : Bool) (r : Option (Bool × RecHalf)) : Bool :=
  match r with
  | none => true
  | some (_, h) => decide (30 ≤ h.quick.toNat) || mode == 1 || (mode == 3 && (src == 1 || src == 9 || asked))

/-- A start begins at S0 (R331, R332, R349), or again at S1 (R334): the straps are sampled, BUP_START is written. The number of a start
whose record is lost is free. -/
def State.beginStart (s : State) : State :=
  let b := s.bup
  if b.resumeS1 then { s with bup := { b with holding := false, resumeS1 := false, running := true, since := s.time } }
  else
    let r := s.flash.record
    let full := fullStart s.pins.bootMode.toNat b.nextSource.toNat b.fullAsked r
    let no : Word := match r with | some (_, h) => h.startNo + 1 | none => Config.freeWord s.free 0
    let quick : Nat := if full then 0 else match r with | some (_, h) => h.quick.toNat + 1 | none => 0
    let b' : Bup := { source := b.nextSource, cold := b.nextCold, full := full, bootMode := s.pins.bootMode, modId := s.pins.modId,
                      quick := BitVec.ofNat 8 quick, running := true, since := s.time, holding := false, nextCold := false }
    { s with bup := b', startNo := no }.draw
/-- A start begins unless something holds the module. -/
def State.startIfFree (s : State) : State := if s.held || !s.pins.rails then s else s.beginStart

/-- A report in the layout of BUP_STAGE_REPORT (R348). -/
def State.reportOf (s : State) (result ms : Nat) : Nat :=
  let b := s.bup
  let st := b.stage.toNat
  let ports := ((List.range 20).filter fun p => (s.lport p).st == .up).map (2 ^ ·)
  let rsv := ((List.range 8).filter fun k => !s.isRetired 0xF k).map (2 ^ ·)
  st * 2 ^ 248 + result * 2 ^ 240 + (if b.full then 0 else 1) * 2 ^ 232 + ms % 2 ^ 32 * 2 ^ 192 + b.repairs % 2 ^ 32 * 2 ^ 160 +
    b.retired % 2 ^ 32 * 2 ^ 128 + ports.sum * 2 ^ 108 + (if 5 ≤ st then s.nCores else 0) * 2 ^ 98 +
    (if 5 ≤ st then b.ucl.toNat else 0) * 2 ^ 94 + (if 2 ≤ st then s.clp.mode.code else 0) * 2 ^ 91 + rsv.sum * 2 ^ 80 +
    b.firstFault.toNat * 2 ^ 64 + if 2 ≤ st then s.tick else 0
/-- A stage's report filed and posted, with `code` (17 Table ERR-4, layout S). -/
def State.fileReport (s : State) (result ms code : Nat) : State :=
  let r := s.reportOf result ms
  let b := { s.bup with reports := Map.set 0 s.bup.reports s.bup.stage.toNat (BitVec.ofNat 256 r) }
  { s with bup := b }.postEv 14 code none ((List.range 4).map fun i => bitsOf r (64 * i) 64)

/-! ### Module resets (15 R326, R328, R329, R334) -/

/-- A module reset from a source of Table BUP-1: everything is cleared and the start begins anew once nothing holds the module. A
further source while it is held adds to the one reset: cold if any is, the source the first. -/
def State.fullReset (s : State) (src : Nat) (cold : Bool) (origin odetail : Nat) (full : Bool) : State :=
  let again := s.bup.holding && s.bup.nextSource != 0
  let b : Bup :=
    { holding := true, nextSource := if again then s.bup.nextSource else BitVec.ofNat 4 src
      nextCold := cold || (again && s.bup.nextCold), fullAsked := full || (again && s.bup.fullAsked) }
  let t := if again && (!cold || s.bup.nextCold) then s else s.cleared cold (src == 4)
  { t with bup := b }.post 0 .change [resetAudit origin (if cold then 0 else 1) 0 src odetail]

/-- S1 held and to be restarted (R334): S0's results stand. The third restart in a row is a cold reset of source 10 instead;
a further source while S1 is held changes nothing more. -/
def State.restartS1 (s : State) (src : Nat) (cold : Bool) (origin odetail : Nat) : State :=
  let audit := resetAudit origin (if cold then 0 else 1) 0 src odetail
  if s.bup.resumeS1 then s.post 0 .change [audit]
  else if 2 ≤ s.bup.s1Restarts.toNat then s.fullReset 10 true 3 0 false
  else
    let s := s.fileReport 5 0 cBupStageReport
    let b := { s.bup with running := false, holding := true, resumeS1 := true, s1Restarts := s.bup.s1Restarts + 1, repairs := 0, retired := 0,
                          firstFault := 0 }
    let fw := s.wh.fw
    let t := s.cleared cold (src == 4)
    { t with bup := b, wh := { t.wh with fw := fw } }.post 0 .change [audit]

/-- A reset of the module by a source. -/
def State.moduleReset (s : State) (src : Nat) (cold : Bool) (origin odetail : Nat) (full : Bool := false) : State :=
  let inS1 := decide (s.bup.stage = 1) && (s.bup.running || s.bup.resumeS1) && src != 1 && src != 9
  (if inS1 then s.restartS1 src cold origin odetail else s.fullReset src cold origin odetail full).startIfFree

/-- Both compute dies fenced at once: source 11 (R326, R329). -/
def State.dieEscalation (s : State) : State :=
  if s.dieFenced 0 && s.dieFenced 1 && !s.bup.holding then s.moduleReset 11 false 3 0 else s

/-- RESET of a compute die, with the escalation (R329, R345). -/
def cmdResetDieEsc (s : State) (c : WcsCmd) : Option State := (cmdResetDie s c).map State.dieEscalation

/-- RESET of the module (R326): its command is discarded with the others. -/
def cmdResetModule (cold : Bool) (s : State) (c : WcsCmd) : Option State :=
  if c.low 0 ≠ (if cold then 0 else 1) then none
  else some (s.moduleReset 5 cold 1 (cmdDetail c.sq c.cid) ((c.arg 1).testBit 8))

/-- DIE_FENCE (10 R236): a clock loss (1), the absent idle pattern (2), or a lost bridge row (3), which fences die 1 and is followed by
one attempt to rejoin it by a die reset (10 R226). The fence of a reset comes with its command. -/
def dieFence (s : State) (rsv : Bool) (obj cause : Nat) : State :=
  let lost := (List.range 8).any fun y => (List.range 16).all fun b => (s.bundle (y / 4) (y % 4 * 16 + b)).st == 2
  if s.bup.stage.toNat < 2 ∨ s.bup.holding then s
  else if cause = 1 ∨ cause = 2 then
    (if rsv then s.fenceRsv (obj % 8) cause else if obj < 2 then (s.fenceDie obj cause).dieEscalation else s)
  else if cause = 3 ∧ !rsv ∧ obj = 1 ∧ lost ∧ !s.dieFenced 1 then
    let s := s.fenceDie 1 3
    if s.dieFenced 0 then s.dieEscalation
    else
      let p : PartialReset := { sq := 0, cid := 2 ^ 16, scope := 2, object := 1, full := false }
      (s.beginPartial p none 3 0).resetDie 1
  else s

/-! ### Contacts and power -/

/-- Whether a low level of so many nanoseconds, or one that lasts, passes the glitch filter (R328): between 1 µs and 10 µs it may. -/
def State.filtered (s : State) (ns : Option Nat) : State × Bool :=
  match ns with
  | none => (s, true)
  | some n => if n < 1000 then (s, false) else if 10000 ≤ n then (s, true) else (s.draw, Config.freeBit s.free 0)

/-- POWER_ON (R326; 18 R402, R403): PWR_OK rises with 48 V present; the rails come up. -/
def powerOn (s : State) : State :=
  if !s.pins.vin48 ∨ s.pins.pwrOk then s
  else
    ({ s with pins := { s.pins with pwrOk := true, rails := true }, tapReset := true,
              bup := { s.bup with nextSource := 0, resumeS1 := false, running := false } } : State).moduleReset 1 true 0 0

/-- PWR_OK_FALL (R327, R328; 18 R404): the module is held, every rail but the hub's discharges, the trip latch clears. A low that
ends is followed by the power-on of its rise. -/
def pwrOkFall (s : State) (ns : Option Nat) : State :=
  let f := s.filtered ns
  if !s.pins.pwrOk then s
  else if !f.2 then f.1
  else
    let p := { s.pins with pwrOk := false, rails := false, trip := false, thermTripN := true }
    let t := { f.1.cleared true true with pins := { p with alertN := true }, bup := {} }
    match ns with | some _ => powerOn t | none => t

/-- MOD_RESET_N (R327, R328): low, released, or a pulse of so many nanoseconds. `cool` says that every trip sensor reads below 90 °C
(16 R369): the pulse then clears the trip latch. -/
def modReset (s : State) (e : PinEvt) (cool : Bool) : State :=
  let fall (s : State) (low : Bool) : State :=
    let clear := cool && s.pins.trip
    let p := { s.pins with modResetN := !low, trip := s.pins.trip && !clear, thermTripN := s.pins.thermTripN || clear,
                           rails := s.pins.rails || (clear && s.pins.pwrOk) }
    let s := { s with pins := p }
    if s.pins.pwrOk then s.moduleReset 2 true 0 0 else s
  match e with
  | .high => { s with pins := { s.pins with modResetN := true } }
  | .low => if s.pins.modResetN then fall s true else s
  | .pulse n => let f := s.filtered (some n); if s.pins.modResetN && f.2 then fall f.1 false else f.1

/-- PERST_N (R328; 18 R403). -/
def perst (s : State) (e : PinEvt) : State :=
  let fall (s : State) (low : Bool) : State :=
    let s := { s with pins := { s.pins with perstN := !low } }
    if s.pins.pwrOk then s.moduleReset 3 true 0 0 else s
  match e with
  | .high => { s with pins := { s.pins with perstN := true } }
  | .low => if s.pins.perstN then fall s true else s
  | .pulse n => let f := s.filtered (some n); if s.pins.perstN && f.2 then fall f.1 false else f.1

/-- HOT_RESET (R326): a PCI Express hot reset or Function Level Reset. -/
def hotReset (s : State) : State := if s.pins.pwrOk then s.moduleReset 4 false 1 0 else s
/-- SBM_RESET (R326; 18 R399): the bus is active from S1 on, and the audit entry names the module's static address. -/
def sbmReset (s : State) (cold : Bool) : State :=
  if !s.pins.pwrOk ∨ s.bup.stage = 0 ∨ s.bup.holding then s else s.moduleReset 6 cold 2 (0x50 + s.bup.modId.toNat)
/-- WATCHDOG_EXPIRY (14 R313): in every state but recovery. -/
def watchdogExpiry (s : State) : State :=
  if s.bup.holding ∨ s.wh.recovery then s
  else ({ s with wh := { s.wh with wdogExpiries := satAdd s.wh.wdogExpiries 1 } } : State).moduleReset 8 false 3 0
/-- RESET_RELEASE (R327, R334). -/
def resetRelease (s : State) : State := if s.bup.holding ∧ s.bup.nextSource ≠ 0 ∨ s.bup.holding ∧ s.bup.resumeS1 then s.startIfFree else s

/-- THERMAL_TRIP (16 R369): an armed diode of a base-die or hub site reaches 118 °C. -/
def thermalTrip (s : State) (i k : Nat) : State :=
  let x := s.site i
  let d := if k = 0 then x.d0 else x.d1
  if 266 ≤ i ∨ (i < 264 ∧ (siteStack i).2.1 ≠ 0) ∨ d.ejected ∨ s.pins.trip ∨ !s.pins.vin48 then s
  else
    ({ s with pins := { s.pins with trip := true, thermTripN := false, rails := false },
              thm := { s.thm with tripValid := true, tripSite := BitVec.ofNat 9 i, tripPosted := false } } : State).moduleReset 9 true 0 0

/-- VIN48_ARRIVAL (18 R402). -/
def vin48Arrival (s : State) : State := if s.pins.vin48 then s else { s with pins := { s.pins with vin48 := true } }
/-- INPUT_UNDERVOLTAGE (16 R371). -/
def undervoltage (s : State) : State := if s.pins.vin48 then s.powerLost else s
/-- TRST_N (R330; 18 R400). -/
def trst (s : State) : State := { s with tapReset := true }

/-! ### The repair record (15 R342 to R344) -/

/-- The record written into the half not in use and read back (R344); outside the flash temperature range it waits. -/
def State.writeRecord (s : State) (readback : Bool) : State :=
  let b := s.bup
  if !s.flashTemp then { s with bup := { b with recPending := true, recRetry := s.time } }
  else
    let old := s.flash.record
    let toB := match old with | some (h, _) => !h | none => false
    let lastFull : Word := if b.full then s.startNo else match old with | some (_, h) => h.lastFull | none => 0
    let ents := s.repairs.take 524284
    let more := decide (524284 < s.repairs.length)
    let half : RecHalf := { valid := readback, gen := b.recGen + 1, startNo := s.startNo, quick := b.quick.setWidth 16, lastFull := lastFull,
                            ents := ents }
    let s := { s with flash := if toB then { s.flash with recB := half } else { s.flash with recA := half } }
    let s := if more then s.postEv 14 cBupRecordFull none [0, 0, ents.length, 0] else s
    if readback then
      { s with repDirty := none
               bup := { b with recGen := b.recGen + 1, recHalf := toB, recPending := false, recFull := more, recEntries := BitVec.ofNat 20 ents.length } }
    else
      ({ s with repDirty := none, bup := { b with recPending := true, recFull := more, recRetry := s.time } } : State).postEv 14 cBupRecordFail none
        [0, 0, b.recEntries.toNat, 0]

/-- RECORD_WRITE (R344): after in-service repairs, or a minute after one that had to wait. -/
def recordWrite (s : State) (readback : Bool) : State :=
  let b := s.bup
  if !b.ready then s
  else if b.recPending then (if b.recRetry + 96000000000 ≤ s.time then s.writeRecord readback else s)
  else if s.repDirty.isSome then s.writeRecord readback
  else s

/-! ### The revocation counter (14 R312) -/

/-- The counter blown up to the running image's SVN, where the temperature allows it. -/
def State.blowCounter (s : State) : State :=
  let w := s.wh
  if !w.fw.commit ∨ w.fw.svn.toNat ≤ s.fuses.counter.toNat then { s with wh := { w with counterRetry := none } }
  else if !s.flashTemp then { s with wh := { w with counterRetry := some s.time } }
  else
    ({ s with fuses := { s.fuses with counter := w.fw.svn }, wh := { w with counterRetry := none } } : State).post 14 .change
      [{ origin := 3, oclass := 0x07, object := 0, old := BitVec.ofNat 64 s.fuses.counter.toNat, new := BitVec.ofNat 64 w.fw.svn.toNat,
         odetail := 0 }]
/-- REVOCATION_COUNTER_RETRY: once a minute. -/
def counterRetry (s : State) : State :=
  match s.wh.counterRetry with
  | some t => if t + 96000000000 ≤ s.time then s.blowCounter else s
  | none => s

/-! ### Stages (15 R331 to R341) -/

/-- The duration of a stage in ms (Table BUP-3); S6 has none. -/
def stageMs (st : Nat) (full : Bool) : Option Nat :=
  match st with
  | 0 => some 1200
  | 1 => some 300
  | 2 => some 800
  | 3 => some (if full then 200000 else 25000)
  | 4 => some 4000
  | 5 => some 8000
  | _ => none
/-- Whether a stage that has run so long is beyond four times its duration (R335). -/
def tooLong (st : Nat) (full : Bool) (ms : Nat) : Bool := match stageMs st full with | some d => decide (4 * d < ms) | none => false

/-- A stage fails (R335): the start stops; only a module reset leaves this state. -/
def State.failStage (s : State) (ms : Nat) : State :=
  let s := s.noteFault true
  let s := { s with bup := { s.bup with failed := true, running := false } }
  (s.fileReport 4 ms cBupStageReport).fileReport 4 ms cBupStageFailed

/-- Whether a stage's result falls below the fuse grade (R338). -/
def State.degrades (s : State) : Bool :=
  match s.bup.stage.toNat with
  | 2 => s.isRetired 0xE 0 || s.isRetired 0xE 1
  | 3 => (List.range 8).any fun k => s.activeCh k != 0xFFFFFFFF
  | 4 => ((List.range 128).any fun i => (s.bundle (i / 64) (i % 64)).st != 0) ||
      (List.range 20).any fun p => let x := s.lport p; x.st == .up && (x.txWidth != 20 || x.rxWidth != 20)
  | 5 => decide (s.nCores < if s.fuses.gradeB then 448 else 512) || (List.range s.nCores).any fun n => (s.cist n).active != 0xF
  | _ => false

/-- A stage done: its report, the degradation it caused, and the next stage (R336, R338). -/
def State.endStage (s : State) (ms : Nat) : State :=
  let b := s.bup
  let deg := s.degrades
  let result := if deg then 3 else if b.repairs ≠ 0 ∨ b.retired ≠ 0 then 2 else 1
  let s := (if deg then { s with bup := { b with degraded := true } } else s).fileReport result ms cBupStageReport
  let s := if deg && !b.degraded then s.fileReport result ms cBupDegraded else s
  let b := s.bup
  { s with bup := { b with stage := if b.stage = 6 then 6 else b.stage + 1, running := b.stage != 6, ready := b.stage == 6, since := s.time,
                           repairs := 0, retired := 0, firstFault := 0 } }

/-- Recovery entered (14 R310): the start goes no further. -/
def State.enterRecovery (s : State) (cause : Nat) : State :=
  ({ s with wh := { s.wh with recovery := true, cause := BitVec.ofNat 4 cause, fw := {} }
            bup := { s.bup with running := false } } : State).postEv 14 cWhdBootRecovery none [0, 0, cause, 0]

/-- S0 (R331; 14 R309, R310): the image check. -/
def State.stageS0 (s : State) (x : StageIn) : State :=
  if s.bup.bootMode = 0 then s.enterRecovery 6
  else if !x.flashOk then s.enterRecovery 1
  else
    match s.fwCheck s.flash.image with
    | some c => s.enterRecovery c
    | none => ({ s with wh := { s.wh with fw := fwOf s.flash.image } } : State).endStage x.durationMs

/-- The licence store read (14 R316): a record that fails is ignored and posted. -/
def State.loadLicences (s : State) : State :=
  [1, 2, 3, 4, 5].foldl
    (fun s f =>
      let r := Map.get [] s.flash.licences f
      if r = [] then s
      else if s.licFormOk r && s.licSigned r && licFeature r == f then s.setLic f (wordAt r 8)
      else s.postEv 14 cWhdLicenceInvalid none [f, 0, 0, 0]) s

/-- The repair record read (R342, R343). -/
def State.loadRecord (s : State) : State :=
  match s.flash.record with
  | some (h, r) =>
    { s with repairs := r.ents
             bup := { s.bup with recGen := r.gen, recHalf := h, recValid := true, recEntries := BitVec.ofNat 20 r.ents.length } }
  | none => ({ s with repairs := [] } : State).postEv 14 cBupRecordInvalid none [0, 0, 0, 0]

/-- What board configuration supplies to registers, each locked then (R331; 11 R251; 12 R280; 16 R373; 17 R389); with none, the defaults. -/
def State.loadBoard (s : State) (b : Option Board) : State :=
  let lock (x : Port) : Port := { x with cfgLock := true, peerResetEn := (b.map Board.peerResetEn).getD false }
  let c := s.clp
  let t := s.thm
  { (List.range 20).foldl (fun s p => s.setPort p (lock (s.lport p))) s with
    clp := { c with cfgLock := true, cadDelay := (b.map Board.cadDelay).getD c.cadDelay, turnEvt := (b.map Board.turnEvt).getD c.turnEvt
                    thresh := (b.map Board.uncertThresh).getD c.thresh, s2Lock := true }
    wh := if s.wh.injLock then s.wh else { s.wh with injLock := true, injEn := (b.map Board.injectEn).getD false }
    thm := { t with gateLock := true, fillEn := (b.map Board.fillEn).getD false, idleSlots := (b.map Board.idleSlots).getD t.idleSlots }
    bup := { s.bup with node := (b.bind Board.node).getD (s.bup.modId.setWidth 6), tray := (b.map Board.tray).getD [] } }

/-- The registers the boot sequence changed, audited with origin BOOT (14 R322). -/
def State.bootAudits (s old : State) (xs : List Nat) : State :=
  let one (x : Nat) : List Audit :=
    (slotAudits .jtag (0x03F000000000 + x) { val := 0, mask := 2 ^ 64 - 1 } (old.slot x) (s.slot x)).map fun a => { a with origin := 0 }
  s.postChange 0 (xs.flatMap one)
/-- The offsets in register space of the registers board configuration supplies. -/
def boardRegs : List Nat := [0x300020, 0x100, 0x600018] ++ (List.range 20).map fun p => 2 ^ 34 + p * 2 ^ 24 + 0x30

/-- The trip of before is announced at S1 (16 R369). -/
def State.postTrip (s : State) : State :=
  if s.thm.tripValid && !s.thm.tripPosted then
    ({ s with thm := { s.thm with tripPosted := true } } : State).postEv 14 cThmTrip none [s.thm.tripSite.toNat, 0, 0, 0]
  else s

/-- S1 (R331): licences, record, persistent parameters, board configuration. -/
def State.stageS1 (s : State) (x : StageIn) : State :=
  let s := s.loadLicences.loadRecord
  let s := { s with params := s.flash.params }
  let t := ((s.loadBoard x.board).bootAudits s boardRegs).postTrip
  (({ t with bup := { t.bup with s1Restarts := 0 } } : State).endStage x.durationMs).refreshAlert

/-- A compute die that a start retires is out of reach (R337, Table BUP-5). -/
def State.dropDie (s : State) (d : Nat) (cause : Nat) : State :=
  { s with netFence := Map.set {} s.netFence (1 - d) { s.fence (1 - d) with fenced := true, cause := BitVec.ofNat 3 cause } }

/-- The clepsydra where S2 ends before its first turn marker (11 R246). -/
def State.s2Clock (s : State) (pulses : Bool) : State :=
  if !s.clp.s2Lock then s
  else ({ s with clp := { s.clp with s2Lock := false } } : State).setClp (if pulses then .phaseError else .freeRun)

/-- S2 (R331, R335; 11 R246, R252): the copies of the counter are loaded; a die whose clocks fail is retired; with none left the stage
fails. -/
def State.stageS2 (s : State) (x : StageIn) : State :=
  let s := ({ s with clockFrom := s.time }.s2Clock (s.clp.s2Pulses || x.pulses)).loadCopies (List.range 10)
  let find := if s.bup.full then 1 else 2
  let s := [0, 1].foldl
    (fun s d => if x.dies.toNat.testBit d && !s.isRetired 0xE d then s else ((s.absorb find 8 (0xE, d)).noteFault (!x.dies.toNat.testBit d)).dropDie d 1) s
  if s.isRetired 0xE 0 && s.isRetired 0xE 1 then s.failStage x.durationMs else s.endStage x.durationMs

/-- The walker area of a reservoir: firmware sets its slots, at the top of the stack's (09 R204, R219). -/
def State.placeArea (s : State) (k : Nat) : State :=
  let n := min Config.walkerSlots 12288
  s.setRsv k { s.rsv k with slotCount := BitVec.ofNat 14 n, slotBase := BitVec.ofNat 14 (12288 - n) }

/-- A record that had no more room is rebuilt by a full start, from the fuse map and its findings (R344). -/
def State.rebuildRecord (s : State) : State :=
  if s.bup.full ∧ s.repairs.length = 524284 then { s with repairs := s.repairs.filter fun e => e.found == s.startNo } else s
/-- S3 (R331, R337, R340, R341): memories tested, trained from the record and zeroed. -/
def State.stageS3 (s : State) (x : StageIn) : State :=
  let s := s.rebuildRecord.reconcile [1, 2, 3, 7, 8, 9, 0xA] s.bup.full (testedFindings s.bup.full s.startNo.toNat x.found)
  let s := { s with mem := [], cw := [] }
  let s := (List.range 8).foldl (fun s k => (s.rsvFromRecord k).placeArea k) s
  let s := match Map.get none s.params 0x11 with | some v => s.putSkim v.toNat | none => s
  s.endStage x.durationMs

/-- S4 (R331, R337): the bridge's lanes; ports begin to train (12 R262). -/
def State.stageS4 (s : State) (x : StageIn) : State :=
  let s := (s.reconcile [0xB, 0xC, 0xD] s.bup.full x.found).bridgeFromRecord
  let s := if s.isRetired 0xE 1 && !s.dieFenced 1 then s.dropDie 1 3 else s
  if s.isRetired 0xE 0 && s.isRetired 0xE 1 then s.failStage x.durationMs else s.endStage x.durationMs

/-- The clusters that field no core: fused off, of a retired die, or retired (R337; 14 R314). -/
def State.clusterOut (s : State) (g : Nat) : Bool :=
  s.fuses.clusterOff.toNat.testBit g || s.isRetired 0xE (g / 16) || s.isRetired 6 (g * 2 ^ 27) || s.recorded 6 (g * 2 ^ 27)
/-- Clusters in which two sites have to retire are retired (R337). -/
def State.retireClusters (s : State) (find : Nat) : State :=
  (List.range 32).foldl
    (fun s g => if !s.clusterOut g && (s.siteOut g).isNone then s.absorb find 8 (6, g * 2 ^ 27) else s) s
/-- The physical sites of the logical map, in order (01 R15). -/
def State.logicalMap (s : State) : List Nat :=
  (List.range 32).flatMap fun g =>
    if s.clusterOut g then []
    else match s.siteOut g with
      | some out => ((List.range 17).filter fun i => i != out).map fun i => g * 32 + i
      | none => []

/-- The logical map recorded in the device profile; a map that differs from the one recorded at an earlier start is posted, with a cause that
Table ERR-5 does not give, a free value (01 R15, R16; 17 R381). -/
def State.recordMap (s : State) (map : List Nat) : State :=
  let t := { s with profMap := map }
  if s.profMap = [] ∨ s.profMap = map then t
  else t.draw.profileChanged 14 ((Config.freeWord s.free 0).toNat % 256) 0 0 0

/-- S5 (R331, R335, R337; 01 R15; 03 R64 to R66): the logical map, the uniform cube latency, the cores and cisterns on their sites. -/
def State.stageS5 (s : State) (x : StageIn) : State :=
  let find := if s.bup.full then 1 else 2
  let s := (s.reconcile [4, 5, 6] s.bup.full x.found).retireClusters find
  let map := s.logicalMap
  let u := if map.any s.needsEq then 13 else 12
  let out := (List.range 32).foldl (fun m g => Map.set false m g (s.clusterOut g)) []
  let s := { s with nCores := map.length, clusterRetired := out, bup := { s.bup with ucl := BitVec.ofNat 4 u } }
  if map = [] then s.failStage x.durationMs
  else
    let t := (map.zipIdx).foldl (fun s e => (s.placeCore e.2 e.1 u).cistFromRecord e.2 e.1) s
    let cfg := (List.range map.length).flatMap fun n => (List.range 5).map fun i => 2 ^ 35 + n * 2 ^ 20 + 0x10 + 8 * i
    ((t.bootAudits s cfg).recordMap map).endStage x.durationMs

/-- S6 (R331, R344; 10 R230; 14 R312; 16 R364): the profile, the record, the counter, the sluices' shares, the gate closed at the
measured power; READY. -/
def State.stageS6 (s : State) (x : StageIn) : State :=
  let s := { s with profGen := s.profGen + 1, gate := { target := s.thm.sampleW }, fwShares := true }
  ((s.writeRecord x.readback).blowCounter).endStage x.durationMs

/-- STAGE_END (R331): the stage in progress is done, within its time. -/
def stageEnd (s : State) (st : Nat) (x : StageIn) : State :=
  if !s.bup.running ∨ s.bup.stage.toNat ≠ st ∨ tooLong st s.bup.full x.durationMs then s
  else
    match st with
    | 0 => s.stageS0 x
    | 1 => s.stageS1 x
    | 2 => s.stageS2 x
    | 3 => s.stageS3 x
    | 4 => s.stageS4 x
    | 5 => s.stageS5 x
    | _ => s.stageS6 x

/-- STAGE_TIMEOUT (R335). -/
def stageTimeout (s : State) (st ms : Nat) : State :=
  if s.bup.running ∧ s.bup.stage.toNat = st ∧ tooLong st s.bup.full ms then s.failStage ms else s

end Sys2Proof.Machine
end

