-- ==== Sys2Proof/Machine/LinkMsgs.lean ====
section
/-! DEFINITION. Received frame headers and control messages, and actions whose position is reached (11 R249; 12 R257, R260 to R263, R267,
R271, R274, R275, R278). -/

namespace Sys2Proof.Machine

/-- A peer's reset request (12 R278; 15 R326): performed as reset source 7, or refused, counted and audited. -/
def State.peerResetMsg (s : State) (p : Nat) (warm : Bool) : State :=
  let x := s.lport p
  if s.licMulti ∧ x.peerResetEn then s.moduleReset 7 (!warm) 5 p
  else
    (s.setPort p { x with refused := satAdd x.refused 1 }).post (3 + portHome p) .change
      [{ origin := 5, oclass := 0x0A, object := (if warm then 1 else 0) * 2 ^ 40, old := 0, new := 0, odetail := p }]

/-- What a control message does (12 Table LNK-2). -/
def State.actOn (s : State) (p : Nat) (m : LinkMsg) : State :=
  match m with
  | .admitReq _ _ _ _ _ _ => s.answerAdmit p s.tick m
  | .admitGrant c e => s.granted p c.toNat e
  | .admitRefuse c r => s.admitRefused p c.toNat r
  | .cancel c e l => s.cancelRx p c.toNat e l
  | .streamReset c e k => s.streamReset p c.toNat e k
  | .close c e _ => s.closed p c.toNat e
  | .peerReset w => s.peerResetMsg p w
  | .lanePlan tx map w t => s.planned p tx map w t

/-- A control message received on a port that is UP (12 R260, R261): the first copy of a number is acted on. The last 256 numbers are
remembered: a message is sent in two consecutive frames. -/
def State.rxMsg (s : State) (p : Nat) (no : Half) (m : LinkMsg) : State :=
  let x := s.lport p
  if x.st ≠ .up ∨ x.seen.contains no then s
  else (s.setPort p { x with seen := (no :: x.seen).take 256 }).actOn p m

/-- The port after a good header (12 R259, R262, R263): frames count while it trains, the peer's state is taken over. -/
def State.headerState (s : State) (x : Port) (h : FrameHdr) : Port :=
  let near := (h.tickLo - BitVec.ofNat 16 s.tick).toInt.natAbs
  let x := { x with lastHdr := s.tick, good := x.good + 1, peerLocked := h.locked, peerTurn := if h.fidx = 0 then h.turn else x.peerTurn, txFailed := h.laneFail,
                    tickNear := if h.fidx = 0 then decide (near ≤ 2) else x.tickNear }
  if x.st = .training then { x with peerNode := h.node, peerLink := h.link } else x

/-- FRAME_HEADER (12 R259 to R263, R277): `ok` says that FCRC passes. A changed NODE or LINK takes the port down. -/
def frameHeader (s : State) (p : Nat) (ok : Bool) (h : FrameHdr) : State :=
  let x := s.lport p
  if x.st ≠ .up ∧ x.st ≠ .training then s
  else if !ok then s.setPort p { x with good := 0, hdrBad := satAdd x.hdrBad 1 }
  else if x.st = .up ∧ (x.peerNode ≠ h.node ∨ x.peerLink ≠ h.link) then s.portDown p
  else
    let s := (s.setPort p (s.headerState x h)).refreshSync p
    h.msgs.foldl (fun s m => s.rxMsg p m.1 m.2) s

/-- SCHEDULED_ACTION (11 R249): a port's sender, whose streams start at their positions, or the wellhead's injections. -/
def scheduledAction (s : State) (port : Option Nat) : State :=
  match port with
  | some p => sendTick s p
  | none => injectionApply s

end Sys2Proof.Machine
end

