-- ==== Sys2Proof/Machine/LinkMsgRows.lean ====
section
/-! DEFINITION. Frame headers, control messages and scheduled actions (11, 12): one meaning for each row. -/

namespace Sys2Proof.Machine

/-- FRAME_HEADER (12 R260). -/
def execFrameHeader (p : BitVec 5) (ok : Bool) (h : FrameHdr) (s : State) : Host.Outcome State Fault Refusal :=
  .next (frameHeader s p.toNat ok h)

/-- ADMIT_REQ (12 R267). -/
def execAdmitReq (p : BitVec 5) (no : BitVec 16) (sctx : BitVec 15) (rctx : BitVec 15) (tag : BitVec 32) (bytes : Nat) (rate : BitVec 10) (start : BitVec 58) (s : State) : Host.Outcome State Fault Refusal :=
  .next (s.rxMsg p.toNat no (.admitReq sctx rctx tag bytes rate start))

/-- ADMIT_GRANT (12 R267). -/
def execAdmitGrant (p : BitVec 5) (no : BitVec 16) (sctx : BitVec 15) (epoch : BitVec 8) (s : State) : Host.Outcome State Fault Refusal :=
  .next (s.rxMsg p.toNat no (.admitGrant sctx epoch))

/-- ADMIT_REFUSE (12 R267). -/
def execAdmitRefuse (p : BitVec 5) (no : BitVec 16) (sctx : BitVec 15) (reason : Nat) (s : State) : Host.Outcome State Fault Refusal :=
  .next (s.rxMsg p.toNat no (.admitRefuse sctx reason))

/-- CANCEL (12 R275). -/
def execCancel (p : BitVec 5) (no : BitVec 16) (rctx : BitVec 15) (epoch : BitVec 8) (last : Option (BitVec 32)) (s : State) : Host.Outcome State Fault Refusal :=
  .next (s.rxMsg p.toNat no (.cancel rctx epoch last))

/-- STREAM_RESET (12 R274). -/
def execStreamReset (p : BitVec 5) (no : BitVec 16) (ctx : BitVec 15) (epoch : BitVec 8) (cause : Nat) (s : State) : Host.Outcome State Fault Refusal :=
  .next (s.rxMsg p.toNat no (.streamReset ctx epoch cause))

/-- CLOSE (12 R271). -/
def execClose (p : BitVec 5) (no : BitVec 16) (sctx : BitVec 15) (epoch : BitVec 8) (bytes : Nat) (s : State) : Host.Outcome State Fault Refusal :=
  .next (s.rxMsg p.toNat no (.close sctx epoch bytes))

/-- PEER_RESET_MSG (12 R278). -/
def execPeerResetMsg (p : BitVec 5) (no : BitVec 16) (warm : Bool) (s : State) : Host.Outcome State Fault Refusal :=
  .next (s.rxMsg p.toNat no (.peerReset warm))

/-- LANE_PLAN (12 R257). -/
def execLanePlan (p : BitVec 5) (no : BitVec 16) (tx : Bool) (map : List Nat) (width : Nat) (turn : BitVec 32) (s : State) : Host.Outcome State Fault Refusal :=
  .next (s.rxMsg p.toNat no (.lanePlan tx map width turn))

/-- SCHEDULED_ACTION (11 R249). -/
def execScheduledAction (port : Option (BitVec 5)) (s : State) : Host.Outcome State Fault Refusal :=
  .next (scheduledAction s (port.map BitVec.toNat))

end Sys2Proof.Machine
end

