-- ==== Sys2Proof/Machine/LinkRows.lean ====
section
/-! DEFINITION. The commands of the Moarex links but those of received messages (12): one meaning for each row. -/

namespace Sys2Proof.Machine

/-- SEND (12 R267). -/
def execSend (core : CoreId) (q : QueueId) (s : State) : Host.Outcome State Fault Refusal :=
  .next (s.withHead core.toNat q.toNat 5 fun s c => cmdSend s core.toNat q.toNat c)

/-- RECV (12 R267). -/
def execRecv (core : CoreId) (q : QueueId) (s : State) : Host.Outcome State Fault Refusal :=
  .next (s.withHead core.toNat q.toNat 6 fun s c => cmdRecv s core.toNat q.toNat c)

/-- SEND_TICK (12 R269). -/
def execSendTick (port : BitVec 5) (s : State) : Host.Outcome State Fault Refusal :=
  .next (sendTick s port.toNat)

/-- CELL_RECEIVE (12 R270). -/
def execCellReceive (port : BitVec 5) (corr : List (Nat × Nat)) (bad : Option Nat) (hcrc : Bool) (cell : Option Cell) (s : State) : Host.Outcome State Fault Refusal :=
  .next (cellReceive s port.toNat corr bad hcrc cell)

/-- LNK_STREAM_BROKEN (12 R272). -/
def execLnkStreamBroken (ctx : BitVec 15) (s : State) : Host.Outcome State Fault Refusal :=
  .next (streamBroken s ctx.toNat)

/-- LNK_NO_CLOSE (12 R271). -/
def execLnkNoClose (ctx : BitVec 15) (s : State) : Host.Outcome State Fault Refusal :=
  .next (noClose s ctx.toNat)

/-- LNK_ARM_TIMEOUT (12 R267). -/
def execLnkArmTimeout (ctx : BitVec 15) (s : State) : Host.Outcome State Fault Refusal :=
  .next (armTimeout s ctx.toNat)

/-- ADMIT_WAIT_EXPIRY (12 R267). -/
def execAdmitWaitExpiry (port : BitVec 5) (s : State) : Host.Outcome State Fault Refusal :=
  .next (admitExpiry s port.toNat)

/-- LNK_PORT_DOWN (12 R277). -/
def execLnkPortDown (port : BitVec 5) (s : State) : Host.Outcome State Fault Refusal :=
  .next (linkPortDown s port.toNat)

/-- PORT_UP (12 R262). -/
def execPortUp (port : BitVec 5) (txGood : BitVec 22) (rxGood : BitVec 22) (peerPort : BitVec 5) (s : State) : Host.Outcome State Fault Refusal :=
  .next (portUp s port.toNat txGood rxGood peerPort)

/-- LANE_LOCK_LOST (12 R256). -/
def execLaneLockLost (port : BitVec 5) (lane : BitVec 5) (s : State) : Host.Outcome State Fault Refusal :=
  .next (laneLockLost s port.toNat lane.toNat)

end Sys2Proof.Machine
end

