-- ==== Sys2Proof/Machine/MemRows.lean ====
section
/-! DEFINITION. The commands of cisterns and reservoirs as memories (06, 07): one meaning for each row. -/

namespace Sys2Proof.Machine

/-- CST_READ (06 R134). -/
def execCstRead (port : BitVec 6) (part : BitVec 5) (own : Bool) (core : CoreId) (off : Nat) (len : Nat) (s : State) : Host.Outcome State Fault Refusal :=
  .next (cstAccess s port.toNat part.toNat core.toNat own false off len [])

/-- CST_WRITE (06 R134). -/
def execCstWrite (port : BitVec 6) (part : BitVec 5) (own : Bool) (core : CoreId) (off : Nat) (data : List (BitVec 8)) (s : State) : Host.Outcome State Fault Refusal :=
  .next (cstAccess s port.toNat part.toNat core.toNat own true off 0 data)

/-- CST_CAL_WINDOW (06 R140). -/
def execCstCalWindow (core : CoreId) (layer : BitVec 2) (fails : List Nat) (s : State) : Host.Outcome State Fault Refusal :=
  .next (cstWindow s core.toNat layer.toNat fails)

/-- CST_EVACUATION_DONE (06 R146). -/
def execCstEvacuationDone (core : CoreId) (layer : BitVec 2) (s : State) : Host.Outcome State Fault Refusal :=
  .next (cstEvacDone s core.toNat layer.toNat)

/-- EVAC_TARGET_TIMEOUT (06 R146). -/
def execEvacTargetTimeout (cist : Bool) (owner : CoreId) (ch : BitVec 5) (s : State) : Host.Outcome State Fault Refusal :=
  .next (evacTimeout s cist owner.toNat ch.toNat)

/-- CST_REFRESH (06 R148). -/
def execCstRefresh (core : CoreId) (layer : BitVec 2) (s : State) : Host.Outcome State Fault Refusal :=
  .next (cstRefresh s core.toNat layer.toNat)

/-- MEM_CST_WRITE_HOT (06 R149). -/
def execMemCstWriteHot (core : CoreId) (layer : BitVec 2) (s : State) : Host.Outcome State Fault Refusal :=
  .next (writeHot s core.toNat layer.toNat)

/-- RSV_REQUEST (07 R162). -/
def execRsvRequest (port : BitVec 6) (part : BitVec 5) (rsv : BitVec 3) (wr : Bool) (off : Nat) (len : Nat) (data : List (BitVec 8)) (s : State) : Host.Outcome State Fault Refusal :=
  .next (rsvRequest s port.toNat part.toNat rsv.toNat wr off len data)

/-- HOLD_TIMEOUT (07 R163). -/
def execHoldTimeout (rsv : BitVec 3) (ch : BitVec 5) (s : State) : Host.Outcome State Fault Refusal :=
  .next (holdTimeout s rsv.toNat ch.toNat)

/-- RSV_CAL_WINDOW (07 R168). -/
def execRsvCalWindow (rsv : BitVec 3) (ch : BitVec 5) (fails : List Nat) (s : State) : Host.Outcome State Fault Refusal :=
  .next (rsvWindow s rsv.toNat ch.toNat fails)

/-- RSV_EVACUATION_DONE (07 R171). -/
def execRsvEvacuationDone (rsv : BitVec 3) (ch : BitVec 5) (s : State) : Host.Outcome State Fault Refusal :=
  .next (rsvEvacDone s rsv.toNat ch.toNat)

/-- RSV_REFRESH (07 R173). -/
def execRsvRefresh (rsv : BitVec 3) (ch : BitVec 5) (bg : BitVec 3) (s : State) : Host.Outcome State Fault Refusal :=
  .next (rsvRefresh s rsv.toNat ch.toNat bg.toNat)

/-- SKIM_READ (07 R174). -/
def execSkimRead (rsv : BitVec 3) (ch : BitVec 5) (extra : Bool) (s : State) : Host.Outcome State Fault Refusal :=
  .next (skimRead s rsv.toNat ch.toNat extra)

/-- CALIBRATION_WINDOW_END (06 R141). -/
def execCalibrationWindowEnd (w : WinId) (s : State) : Host.Outcome State Fault Refusal :=
  .next (windowEnd s w)

end Sys2Proof.Machine
end

