-- ==== Sys2Proof/Machine/NetRows.lean ====
section
/-! DEFINITION. The commands of the network and the bridge (10): one meaning for each row. -/

namespace Sys2Proof.Machine

/-- SLUICE_EPOCH (10 R229). -/
def execSluiceEpoch (target : BitVec 6) (s : State) : Host.Outcome State Fault Refusal :=
  .next (sluiceEpoch s target.toNat)

/-- SLUICE_STARVED (10 R230). -/
def execSluiceStarved (master : BitVec 6) (target : BitVec 6) (s : State) : Host.Outcome State Fault Refusal :=
  .next (sluiceStarved s master.toNat target.toNat)

/-- CLR_MAX (10 R237). -/
def execClrMax (master : BitVec 6) (cls : BitVec 3) (s : State) : Host.Outcome State Fault Refusal :=
  .next (clrMax s master.toNat cls.toNat)

/-- FLIT_RECEIVE (10 R225). -/
def execFlitReceive (d : BitVec 1) (bundle : BitVec 6) (n : Nat) (crcOk : Bool) (flit : BitVec 512) (errs : List Nat) (s : State) : Host.Outcome State Fault Refusal :=
  .next (flitReceive s d.toNat bundle.toNat n crcOk flit errs)

/-- BRIDGE_CAL_WINDOW (10 R227). -/
def execBridgeCalWindow (d : BitVec 1) (fails : List (Nat × Nat)) (s : State) : Host.Outcome State Fault Refusal :=
  .next (bridgeWindow s d.toNat fails)

end Sys2Proof.Machine
end

