-- ==== Sys2Proof/Machine/QueueRows.lean ====
section
/-! DEFINITION. The commands of a queue that use no engine, and the writes of CORE_QCTL (05): one meaning for each row. -/

namespace Sys2Proof.Machine

/-- RUN (05 R109). -/
def execRunCmd (core : CoreId) (q : QueueId) (s : State) : Host.Outcome State Fault Refusal :=
  .next (s.withHead core.toNat q.toNat 1 fun s c => cmdRun s core.toNat q.toNat c)

/-- COMMAND_FETCH (05 R105). -/
def execCommandFetch (core : CoreId) (q : QueueId) (s : State) : Host.Outcome State Fault Refusal :=
  .next (commandFetch s core.toNat q.toNat)

/-- FLAG_SET (05 R120). -/
def execFlagSet (core : CoreId) (q : QueueId) (s : State) : Host.Outcome State Fault Refusal :=
  .next (s.withHead core.toNat q.toNat 7 fun s c => cmdFlagSet 0 s core.toNat q.toNat c)

/-- FLAG_ADD (05 R120). -/
def execFlagAdd (core : CoreId) (q : QueueId) (s : State) : Host.Outcome State Fault Refusal :=
  .next (s.withHead core.toNat q.toNat 7 fun s c => cmdFlagSet 1 s core.toNat q.toNat c)

/-- FLAG_WAIT (05 R121). -/
def execFlagWait (core : CoreId) (q : QueueId) (s : State) : Host.Outcome State Fault Refusal :=
  .next (s.withHead core.toNat q.toNat 8 fun s c => cmdFlagWait s core.toNat q.toNat c)

/-- FENCE (05 R102). -/
def execFence (core : CoreId) (q : QueueId) (s : State) : Host.Outcome State Fault Refusal :=
  .next (s.withHead core.toNat q.toNat 9 fun s c => cmdFence s core.toNat q.toNat c)

/-- FLAG_UPDATE (05 R120). -/
def execFlagUpdate (part : BitVec 5) (flag : BitVec 12) (nth : BitVec 8) (s : State) : Host.Outcome State Fault Refusal :=
  .next (flagArrive s part.toNat flag.toNat nth.toNat)

/-- QUE_WAIT_TIMEOUT (05 R122). -/
def execQueWaitTimeout (core : CoreId) (q : QueueId) (s : State) : Host.Outcome State Fault Refusal :=
  .next (waitTimeout s core.toNat q.toNat)

/-- START (05 R129). -/
def execStartQueue (core : CoreId) (q : QueueId) (s : State) : Host.Outcome State Fault Refusal :=
  .next (startQ s core.toNat q.toNat)

/-- HALT (05 R106). -/
def execHaltQueue (core : CoreId) (q : QueueId) (s : State) : Host.Outcome State Fault Refusal :=
  .next (haltQ s core.toNat q.toNat)

/-- RESUME (05 R130). -/
def execResumeRun (core : CoreId) (q : QueueId) (s : State) : Host.Outcome State Fault Refusal :=
  .next (resumeQ s core.toNat q.toNat false)

/-- RESUME_STEP (05 R130). -/
def execResumeStep (core : CoreId) (q : QueueId) (s : State) : Host.Outcome State Fault Refusal :=
  .next (resumeQ s core.toNat q.toNat true)

end Sys2Proof.Machine
end

