-- ==== Sys2Proof/Machine/ResetRows.lean ====
section
/-! DEFINITION. Resets, starts, power and the contacts (10, 14, 15, 16, 18): one meaning for each row. -/

namespace Sys2Proof.Machine

/-- DIE_FENCE (10 R236). -/
def execDieFence (rsv : Bool) (obj : BitVec 3) (cause : BitVec 3) (s : State) : Host.Outcome State Fault Refusal :=
  .next (dieFence s rsv obj.toNat cause.toNat)

/-- PART_DESTROY (13 R297). -/
def execPartDestroy (sq : BitVec 4) (cid : BitVec 16) (s : State) : Host.Outcome State Fault Refusal :=
  .next (s.wcsRow sq.toNat cid.toNat 0x05 true cmdPartDestroy)

/-- RESET_MODULE_COLD (15 R326). -/
def execResetModuleCold (sq : BitVec 4) (cid : BitVec 16) (s : State) : Host.Outcome State Fault Refusal :=
  .next (s.wcsRow sq.toNat cid.toNat 0x20 false (cmdResetModule true))

/-- RESET_MODULE_WARM (15 R326). -/
def execResetModuleWarm (sq : BitVec 4) (cid : BitVec 16) (s : State) : Host.Outcome State Fault Refusal :=
  .next (s.wcsRow sq.toNat cid.toNat 0x20 false (cmdResetModule false))

/-- RESET_DIE (15 R345). -/
def execResetDie (sq : BitVec 4) (cid : BitVec 16) (s : State) : Host.Outcome State Fault Refusal :=
  .next (s.wcsRow sq.toNat cid.toNat 0x20 false cmdResetDieEsc)

/-- RESET_RESERVOIR (15 R346). -/
def execResetReservoir (sq : BitVec 4) (cid : BitVec 16) (s : State) : Host.Outcome State Fault Refusal :=
  .next (s.wcsRow sq.toNat cid.toNat 0x20 false cmdResetRsv)

/-- RESET_PARTITION (15 R347). -/
def execResetPartition (sq : BitVec 4) (cid : BitVec 16) (s : State) : Host.Outcome State Fault Refusal :=
  .next (s.wcsRow sq.toNat cid.toNat 0x20 false cmdResetPart)

/-- RESET_CORE (15 R347). -/
def execResetCore (sq : BitVec 4) (cid : BitVec 16) (s : State) : Host.Outcome State Fault Refusal :=
  .next (s.wcsRow sq.toNat cid.toNat 0x20 false cmdResetCore)

/-- DIE_REJOIN (15 R345). -/
def execDieRejoin (d : BitVec 1) (ok : Bool) (found : List (BitVec 8 × BitVec 32)) (s : State) : Host.Outcome State Fault Refusal :=
  .next (dieRejoin s d.toNat ok found)

/-- RESERVOIR_REJOIN (15 R346). -/
def execReservoirRejoin (k : BitVec 3) (ok : Bool) (found : List (BitVec 8 × BitVec 32)) (s : State) : Host.Outcome State Fault Refusal :=
  .next (rsvRejoin s k.toNat ok found)

/-- POWER_ON (15 R326). -/
def execPowerOn (s : State) : Host.Outcome State Fault Refusal :=
  .next (powerOn s)

/-- PWR_OK_FALL (18 R404). -/
def execPwrOkFall (ns : Option Nat) (s : State) : Host.Outcome State Fault Refusal :=
  .next (pwrOkFall s ns)

/-- MOD_RESET_N (15 R328). -/
def execModResetN (e : PinEvt) (cool : Bool) (s : State) : Host.Outcome State Fault Refusal :=
  .next (modReset s e cool)

/-- PERST_N (15 R328). -/
def execPerstN (e : PinEvt) (s : State) : Host.Outcome State Fault Refusal :=
  .next (perst s e)

/-- HOT_RESET (15 R326). -/
def execHotReset (s : State) : Host.Outcome State Fault Refusal :=
  .next (hotReset s)

/-- SBM_RESET (15 R326). -/
def execSbmReset (cold : Bool) (s : State) : Host.Outcome State Fault Refusal :=
  .next (sbmReset s cold)

/-- WATCHDOG_EXPIRY (14 R313). -/
def execWatchdogExpiry (s : State) : Host.Outcome State Fault Refusal :=
  .next (watchdogExpiry s)

/-- RESET_RELEASE (15 R327). -/
def execResetRelease (s : State) : Host.Outcome State Fault Refusal :=
  .next (resetRelease s)

/-- STAGE_END (15 R331). -/
def execStageEnd (st : BitVec 3) (x : StageIn) (s : State) : Host.Outcome State Fault Refusal :=
  .next (stageEnd s st.toNat x)

/-- STAGE_TIMEOUT (15 R335). -/
def execStageTimeout (st : BitVec 3) (ms : Nat) (s : State) : Host.Outcome State Fault Refusal :=
  .next (stageTimeout s st.toNat ms)

/-- RECORD_WRITE (15 R344). -/
def execRecordWrite (readback : Bool) (s : State) : Host.Outcome State Fault Refusal :=
  .next (recordWrite s readback)

/-- THERMAL_TRIP (16 R369). -/
def execThermalTrip (diodeSite : BitVec 9) (k : BitVec 1) (s : State) : Host.Outcome State Fault Refusal :=
  .next (thermalTrip s diodeSite.toNat k.toNat)

/-- INPUT_UNDERVOLTAGE (16 R371). -/
def execInputUndervoltage (s : State) : Host.Outcome State Fault Refusal :=
  .next (undervoltage s)

/-- VIN48_ARRIVAL (18 R402). -/
def execVin48Arrival (s : State) : Host.Outcome State Fault Refusal :=
  .next (vin48Arrival s)

/-- REVOCATION_COUNTER_RETRY (14 R312). -/
def execRevocationCounterRetry (s : State) : Host.Outcome State Fault Refusal :=
  .next (counterRetry s)

/-- TRST_N (15 R330). -/
def execTrstN (s : State) : Host.Outcome State Fault Refusal :=
  .next (trst s)

end Sys2Proof.Machine
end

