-- ==== Sys2Proof/Machine/ThmRows.lean ====
section
/-! DEFINITION. Sensors, coolant, power and the ramp gate (16): one meaning for each row. -/

namespace Sys2Proof.Machine

/-- SENSOR_SAMPLE (16 R351). -/
def execSensorSample (x : SampleIn) (s : State) : Host.Outcome State Fault Refusal :=
  .next (sensorSample s x)

/-- SENSOR_RECAL_WINDOW (16 R355). -/
def execSensorRecalWindow (g : BitVec 4) (s : State) : Host.Outcome State Fault Refusal :=
  .next (recalWindow s g.toNat)

/-- THM_WEIR_ESCALATED (16 R357). -/
def execThmWeirEscalated (j : BitVec 3) (s : State) : Host.Outcome State Fault Refusal :=
  .next (weirEscalated s j.toNat)

/-- ESC_W_RECOVERY (16 R357). -/
def execEscWRecovery (s : State) : Host.Outcome State Fault Refusal :=
  .next (escRecovery s)

/-- TRAY_READING (16 R360). -/
def execTrayReading (x : TrayIn) (s : State) : Host.Outcome State Fault Refusal :=
  .next (trayReading s x)

/-- CAP_LAW (16 R362). -/
def execCapLaw (s : State) : Host.Outcome State Fault Refusal :=
  .next (capLaw s)

/-- GATE_STEP_SLOT (16 R364). -/
def execGateStepSlot (s : State) : Host.Outcome State Fault Refusal :=
  .next (gateSlot s)

/-- THM_INPUT_RANGE (16 R371). -/
def execThmInputRange (v : BitVec 16) (s : State) : Host.Outcome State Fault Refusal :=
  .next (inputRange s v.toNat)

/-- INPUT_RANGE_RETURN (16 R370). -/
def execInputRangeReturn (v : BitVec 16) (s : State) : Host.Outcome State Fault Refusal :=
  .next (inputReturn s v.toNat)

/-- THM_CONVERTER_LOST (16 R371). -/
def execThmConverterLost (c : BitVec 4) (s : State) : Host.Outcome State Fault Refusal :=
  .next (converterLost s c.toNat)

end Sys2Proof.Machine
end

