-- ==== Sys2Proof/Machine/WcsRows.lean ====
section
/-! DEFINITION. The WCS commands but resets and injections, what goes on with them, and the event arbiter (13, 14): one meaning for each row. -/

namespace Sys2Proof.Machine

/-- GET_PROFILE (13 R297). -/
def execGetProfile (sq : BitVec 4) (cid : BitVec 16) (s : State) : Host.Outcome State Fault Refusal :=
  .next (s.wcsRow sq.toNat cid.toNat 0x01 false cmdGetProfile)

/-- GET_PARAM (14 R318). -/
def execGetParam (sq : BitVec 4) (cid : BitVec 16) (s : State) : Host.Outcome State Fault Refusal :=
  .next (s.wcsRow sq.toNat cid.toNat 0x02 false cmdGetParam)

/-- SET_PARAM (14 R318). -/
def execSetParam (sq : BitVec 4) (cid : BitVec 16) (s : State) : Host.Outcome State Fault Refusal :=
  .next (s.wcsRow sq.toNat cid.toNat 0x03 false cmdSetParam)

/-- PART_CREATE (10 R232). -/
def execPartCreate (sq : BitVec 4) (cid : BitVec 16) (s : State) : Host.Outcome State Fault Refusal :=
  .next (s.wcsRow sq.toNat cid.toNat 0x04 false cmdPartCreate)

/-- SET_SHARES (10 R229). -/
def execSetShares (sq : BitVec 4) (cid : BitVec 16) (s : State) : Host.Outcome State Fault Refusal :=
  .next (s.wcsRow sq.toNat cid.toNat 0x06 false cmdSetShares)

/-- DESC_WRITE (05 R111). -/
def execDescWrite (sq : BitVec 4) (cid : BitVec 16) (data : HostData) (s : State) : Host.Outcome State Fault Refusal :=
  .next (s.wcsRow sq.toNat cid.toNat 0x07 true (cmdDescWrite data))

/-- FLAG_READ (13 R297). -/
def execFlagRead (sq : BitVec 4) (cid : BitVec 16) (s : State) : Host.Outcome State Fault Refusal :=
  .next (s.wcsRow sq.toNat cid.toNat 0x08 true cmdFlagRead)

/-- FLAG_WRITE (13 R297). -/
def execFlagWrite (sq : BitVec 4) (cid : BitVec 16) (s : State) : Host.Outcome State Fault Refusal :=
  .next (s.wcsRow sq.toNat cid.toNat 0x09 true cmdFlagWrite)

/-- LOAD (13 R300). -/
def execLoad (sq : BitVec 4) (cid : BitVec 16) (data : HostData) (s : State) : Host.Outcome State Fault Refusal :=
  .next (s.wcsRow sq.toNat cid.toNat 0x10 true (cmdLoad data))

/-- UNLOAD (13 R297). -/
def execUnload (sq : BitVec 4) (cid : BitVec 16) (s : State) : Host.Outcome State Fault Refusal :=
  .next (s.wcsRow sq.toNat cid.toNat 0x11 true cmdUnload)

/-- JOB_START (13 R301). -/
def execJobStart (sq : BitVec 4) (cid : BitVec 16) (data : HostData) (s : State) : Host.Outcome State Fault Refusal :=
  .next (s.wcsRow sq.toNat cid.toNat 0x12 true (cmdJobStart data))

/-- JOB_TIMEOUT (13 R301). -/
def execJobTimeout (sq : BitVec 4) (cid : BitVec 16) (s : State) : Host.Outcome State Fault Refusal :=
  .next (jobTimeout s sq.toNat cid.toNat)

/-- JOB_ABORT (13 R302). -/
def execJobAbort (sq : BitVec 4) (cid : BitVec 16) (s : State) : Host.Outcome State Fault Refusal :=
  .next (s.wcsRow sq.toNat cid.toNat 0x13 false cmdJobAbort)

/-- FAULT_READ (13 R297). -/
def execFaultRead (sq : BitVec 4) (cid : BitVec 16) (s : State) : Host.Outcome State Fault Refusal :=
  .next (s.wcsRow sq.toNat cid.toNat 0x14 false cmdFaultRead)

/-- HOST_DMA (13 R303). -/
def execHostDma (sq : BitVec 4) (cid : BitVec 16) (s : State) : Host.Outcome State Fault Refusal :=
  .next (s.wcsRow sq.toNat cid.toNat 0x18 false cmdHostDma)

/-- HOST_DMA_DATA (13 R303). -/
def execHostDmaData (sq : BitVec 4) (cid : BitVec 16) (off : Nat) (data : HostData) (s : State) : Host.Outcome State Fault Refusal :=
  .next (hostDmaData s sq.toNat cid.toNat off data)

/-- HST_DMA_BROKEN (13 R303). -/
def execHstDmaBroken (sq : BitVec 4) (cid : BitVec 16) (s : State) : Host.Outcome State Fault Refusal :=
  .next (hostDmaBroken s sq.toNat cid.toNat)

/-- HOST_DMA_READ_RETURN (13 R303). -/
def execHostDmaReadReturn (sq : BitVec 4) (cid : BitVec 16) (s : State) : Host.Outcome State Fault Refusal :=
  .next (hostDmaReturn s sq.toNat cid.toNat)

/-- COMPLETION_TIMEOUT (13 R303). -/
def execCompletionTimeout (sq : BitVec 4) (cid : Option (BitVec 16)) (s : State) : Host.Outcome State Fault Refusal :=
  .next (completionTimeout s sq.toNat (cid.map BitVec.toNat))

/-- SCRUB (17 R382). -/
def execScrub (sq : BitVec 4) (cid : BitVec 16) (s : State) : Host.Outcome State Fault Refusal :=
  .next (s.wcsRow sq.toNat cid.toNat 0x19 false cmdScrub)

/-- SCRUB_COMPLETE (06 R151). -/
def execScrubComplete (sq : BitVec 4) (cid : BitVec 16) (s : State) : Host.Outcome State Fault Refusal :=
  .next (scrubComplete s sq.toNat cid.toNat)

/-- STREAM_CANCEL (12 R275). -/
def execStreamCancel (sq : BitVec 4) (cid : BitVec 16) (s : State) : Host.Outcome State Fault Refusal :=
  .next (s.wcsRow sq.toNat cid.toNat 0x1A true cmdStreamCancel)

/-- TIMEBASE_SET_TURN (11 R242). -/
def execTimebaseSetTurn (sq : BitVec 4) (cid : BitVec 16) (s : State) : Host.Outcome State Fault Refusal :=
  .next (s.wcsRow sq.toNat cid.toNat 0x21 false cmdSetTurn)

/-- TIMEBASE_RESYNC (11 R248). -/
def execTimebaseResync (sq : BitVec 4) (cid : BitVec 16) (s : State) : Host.Outcome State Fault Refusal :=
  .next (s.wcsRow sq.toNat cid.toNat 0x21 false cmdResync)

/-- PEER_RESET (12 R278). -/
def execPeerReset (sq : BitVec 4) (cid : BitVec 16) (s : State) : Host.Outcome State Fault Refusal :=
  .next (s.wcsRow sq.toNat cid.toNat 0x22 false cmdPeerReset)

/-- SET_WALLCLOCK (13 R297). -/
def execSetWallclock (sq : BitVec 4) (cid : BitVec 16) (s : State) : Host.Outcome State Fault Refusal :=
  .next (s.wcsRow sq.toNat cid.toNat 0x23 false cmdSetWallclock)

/-- LICENCE_INSTALL (14 R316). -/
def execLicenceInstall (sq : BitVec 4) (cid : BitVec 16) (data : HostData) (s : State) : Host.Outcome State Fault Refusal :=
  .next (s.wcsRow sq.toNat cid.toNat 0x28 false (cmdLicence data))

/-- FW_UPDATE (14 R311). -/
def execFwUpdate (sq : BitVec 4) (cid : BitVec 16) (data : HostData) (s : State) : Host.Outcome State Fault Refusal :=
  .next (s.wcsRow sq.toNat cid.toNat 0x29 false (cmdFwUpdate data))

/-- AUDIT_EXPORT (14 R323). -/
def execAuditExport (sq : BitVec 4) (cid : BitVec 16) (s : State) : Host.Outcome State Fault Refusal :=
  .next (s.wcsRow sq.toNat cid.toNat 0x2A false cmdAuditExport)

/-- EVENT_SEQUENCE (14 R320). -/
def execEventSequence (s : State) : Host.Outcome State Fault Refusal :=
  .next (eventSequence s)

end Sys2Proof.Machine
end

