-- ==== Sys2Proof/Machine/Dispatch.lean ====
section
/-! DEFINITION. The meaning of every command: one arm for each constructor of Instr, each a direct call. -/

namespace Sys2Proof.Machine

def exec (i : Instr) (s : State) : Host.Outcome State Fault Refusal :=
  match i with
  | .bundleIssue core => Sys2Proof.Machine.execBundleIssue core s
  | .resultVisible core => Sys2Proof.Machine.execResultVisible core s
  | .stepLand core => Sys2Proof.Machine.execStepLand core s
  | .step core f => Sys2Proof.Machine.execStep core f s
  | .stepz core f => Sys2Proof.Machine.execStepz core f s
  | .drain core f => Sys2Proof.Machine.execDrain core f s
  | .drainz core f => Sys2Proof.Machine.execDrainz core f s
  | .sopen core f => Sys2Proof.Machine.execSopen core f s
  | .streamLineFill core ctx line => Sys2Proof.Machine.execStreamLineFill core ctx line s
  | .coreFeedTimeout core => Sys2Proof.Machine.execCoreFeedTimeout core s
  | .vadd core f => Sys2Proof.Machine.execVadd core f s
  | .vsub core f => Sys2Proof.Machine.execVsub core f s
  | .vmul core f => Sys2Proof.Machine.execVmul core f s
  | .vfma core f => Sys2Proof.Machine.execVfma core f s
  | .vmax core f => Sys2Proof.Machine.execVmax core f s
  | .vmin core f => Sys2Proof.Machine.execVmin core f s
  | .vabs core f => Sys2Proof.Machine.execVabs core f s
  | .vneg core f => Sys2Proof.Machine.execVneg core f s
  | .vhadd core f => Sys2Proof.Machine.execVhadd core f s
  | .vhmul core f => Sys2Proof.Machine.execVhmul core f s
  | .vhfma core f => Sys2Proof.Machine.execVhfma core f s
  | .viadd core f => Sys2Proof.Machine.execViadd core f s
  | .visub core f => Sys2Proof.Machine.execVisub core f s
  | .viadds core f => Sys2Proof.Machine.execViadds core f s
  | .vimul core f => Sys2Proof.Machine.execVimul core f s
  | .vand core f => Sys2Proof.Machine.execVand core f s
  | .vor core f => Sys2Proof.Machine.execVor core f s
  | .vxor core f => Sys2Proof.Machine.execVxor core f s
  | .vshl core f => Sys2Proof.Machine.execVshl core f s
  | .vshr core f => Sys2Proof.Machine.execVshr core f s
  | .vsra core f => Sys2Proof.Machine.execVsra core f s
  | .vcmpeq core f => Sys2Proof.Machine.execVcmpeq core f s
  | .vcmplt core f => Sys2Proof.Machine.execVcmplt core f s
  | .vcmple core f => Sys2Proof.Machine.execVcmple core f s
  | .vsel core f => Sys2Proof.Machine.execVsel core f s
  | .vmov core f => Sys2Proof.Machine.execVmov core f s
  | .vbcast core f => Sys2Proof.Machine.execVbcast core f s
  | .vperm core f => Sys2Proof.Machine.execVperm core f s
  | .vrsum core f => Sys2Proof.Machine.execVrsum core f s
  | .vrmax core f => Sys2Proof.Machine.execVrmax core f s
  | .vscan core f => Sys2Proof.Machine.execVscan core f s
  | .vcvt core f => Sys2Proof.Machine.execVcvt core f s
  | .rcp core f => Sys2Proof.Machine.execRcp core f s
  | .rsqrt core f => Sys2Proof.Machine.execRsqrt core f s
  | .expOp core f => Sys2Proof.Machine.execExpOp core f s
  | .exp2 core f => Sys2Proof.Machine.execExp2 core f s
  | .logOp core f => Sys2Proof.Machine.execLogOp core f s
  | .log2 core f => Sys2Proof.Machine.execLog2 core f s
  | .tanh core f => Sys2Proof.Machine.execTanh core f s
  | .sigm core f => Sys2Proof.Machine.execSigm core f s
  | .sin core f => Sys2Proof.Machine.execSin core f s
  | .cos core f => Sys2Proof.Machine.execCos core f s
  | .expd core f => Sys2Proof.Machine.execExpd core f s
  | .add core f => Sys2Proof.Machine.execAdd core f s
  | .sub core f => Sys2Proof.Machine.execSub core f s
  | .addi core f => Sys2Proof.Machine.execAddi core f s
  | .shin core f => Sys2Proof.Machine.execShin core f s
  | .andOp core f => Sys2Proof.Machine.execAndOp core f s
  | .orOp core f => Sys2Proof.Machine.execOrOp core f s
  | .xorOp core f => Sys2Proof.Machine.execXorOp core f s
  | .shl core f => Sys2Proof.Machine.execShl core f s
  | .shr core f => Sys2Proof.Machine.execShr core f s
  | .sra core f => Sys2Proof.Machine.execSra core f s
  | .shli core f => Sys2Proof.Machine.execShli core f s
  | .shri core f => Sys2Proof.Machine.execShri core f s
  | .mul core f => Sys2Proof.Machine.execMul core f s
  | .cmpeq core f => Sys2Proof.Machine.execCmpeq core f s
  | .cmplt core f => Sys2Proof.Machine.execCmplt core f s
  | .cmpltu core f => Sys2Proof.Machine.execCmpltu core f s
  | .aaddi core f => Sys2Proof.Machine.execAaddi core f s
  | .amov core f => Sys2Proof.Machine.execAmov core f s
  | .smova core f => Sys2Proof.Machine.execSmova core f s
  | .getv core f => Sys2Proof.Machine.execGetv core f s
  | .getf core f => Sys2Proof.Machine.execGetf core f s
  | .getlc core f => Sys2Proof.Machine.execGetlc core f s
  | .gett core f => Sys2Proof.Machine.execGett core f s
  | .vld core f => Sys2Proof.Machine.execVld core f s
  | .vst core f => Sys2Proof.Machine.execVst core f s
  | .sld core f => Sys2Proof.Machine.execSld core f s
  | .sst core f => Sys2Proof.Machine.execSst core f s
  | .ald core f => Sys2Proof.Machine.execAld core f s
  | .ast core f => Sys2Proof.Machine.execAst core f s
  | .pld core f => Sys2Proof.Machine.execPld core f s
  | .pst core f => Sys2Proof.Machine.execPst core f s
  | .br core f => Sys2Proof.Machine.execBr core f s
  | .brl core f => Sys2Proof.Machine.execBrl core f s
  | .bri core f => Sys2Proof.Machine.execBri core f s
  | .loop core f => Sys2Proof.Machine.execLoop core f s
  | .loopx core f => Sys2Proof.Machine.execLoopx core f s
  | .endRun core f => Sys2Proof.Machine.execEndRun core f s
  | .clrf core f => Sys2Proof.Machine.execClrf core f s
  | .trap core f => Sys2Proof.Machine.execTrap core f s
  | .runComplete core => Sys2Proof.Machine.execRunComplete core s
  | .asyncScratchpadAccess core wr off data => Sys2Proof.Machine.execAsyncScratchpadAccess core wr off data s
  | .asyncBankForce core bank => Sys2Proof.Machine.execAsyncBankForce core bank s
  | .runCmd core q => Sys2Proof.Machine.execRunCmd core q s
  | .queRunTimeout core => Sys2Proof.Machine.execQueRunTimeout core s
  | .copy core q => Sys2Proof.Machine.execCopy core q s
  | .cascade core q => Sys2Proof.Machine.execCascade core q s
  | .gather core q => Sys2Proof.Machine.execGather core q s
  | .fill core q => Sys2Proof.Machine.execFill core q s
  | .dmaComplete core ch => Sys2Proof.Machine.execDmaComplete core ch s
  | .commandFetch core q => Sys2Proof.Machine.execCommandFetch core q s
  | .flagSet core q => Sys2Proof.Machine.execFlagSet core q s
  | .flagAdd core q => Sys2Proof.Machine.execFlagAdd core q s
  | .flagWait core q => Sys2Proof.Machine.execFlagWait core q s
  | .fence core q => Sys2Proof.Machine.execFence core q s
  | .flagUpdate part flag nth => Sys2Proof.Machine.execFlagUpdate part flag nth s
  | .queWaitTimeout core q => Sys2Proof.Machine.execQueWaitTimeout core q s
  | .startQueue core q => Sys2Proof.Machine.execStartQueue core q s
  | .haltQueue core q => Sys2Proof.Machine.execHaltQueue core q s
  | .resumeRun core q => Sys2Proof.Machine.execResumeRun core q s
  | .resumeStep core q => Sys2Proof.Machine.execResumeStep core q s
  | .bank core q => Sys2Proof.Machine.execBank core q s
  | .bankLaunchOrder rsv n => Sys2Proof.Machine.execBankLaunchOrder rsv n s
  | .channelSwitch rsv ch => Sys2Proof.Machine.execChannelSwitch rsv ch s
  | .bnkMovi rsv ch bg => Sys2Proof.Machine.execBnkMovi rsv ch bg s
  | .bnkAddi rsv ch bg => Sys2Proof.Machine.execBnkAddi rsv ch bg s
  | .bnkAdd rsv ch bg => Sys2Proof.Machine.execBnkAdd rsv ch bg s
  | .bnkSub rsv ch bg => Sys2Proof.Machine.execBnkSub rsv ch bg s
  | .bnkLoop rsv ch bg => Sys2Proof.Machine.execBnkLoop rsv ch bg s
  | .bnkEnd rsv ch bg => Sys2Proof.Machine.execBnkEnd rsv ch bg s
  | .bnkClr rsv ch bg => Sys2Proof.Machine.execBnkClr rsv ch bg s
  | .bnkMac rsv ch bg => Sys2Proof.Machine.execBnkMac rsv ch bg s
  | .bnkMact rsv ch bg => Sys2Proof.Machine.execBnkMact rsv ch bg s
  | .bnkSmax rsv ch bg => Sys2Proof.Machine.execBnkSmax rsv ch bg s
  | .bnkExpl rsv ch bg => Sys2Proof.Machine.execBnkExpl rsv ch bg s
  | .bnkSt rsv ch bg => Sys2Proof.Machine.execBnkSt rsv ch bg s
  | .bnkLvb rsv ch bg => Sys2Proof.Machine.execBnkLvb rsv ch bg s
  | .rsvBankBudget rsv ch => Sys2Proof.Machine.execRsvBankBudget rsv ch s
  | .channelProgramEnd rsv ch => Sys2Proof.Machine.execChannelProgramEnd rsv ch s
  | .bankComplete n => Sys2Proof.Machine.execBankComplete n s
  | .poolAdd core q accept => Sys2Proof.Machine.execPoolAdd core q accept s
  | .seqOpen core q accept => Sys2Proof.Machine.execSeqOpen core q accept s
  | .seqClose core q accept => Sys2Proof.Machine.execSeqClose core q accept s
  | .append core q accept => Sys2Proof.Machine.execAppend core q accept s
  | .share core q accept => Sys2Proof.Machine.execShare core q accept s
  | .truncate core q accept => Sys2Proof.Machine.execTruncate core q accept s
  | .score core q accept => Sys2Proof.Machine.execScore core q accept s
  | .apply core q accept => Sys2Proof.Machine.execApply core q accept s
  | .abortPass core q accept => Sys2Proof.Machine.execAbortPass core q accept s
  | .passReadEnd part slot stripe => Sys2Proof.Machine.execPassReadEnd part slot stripe s
  | .attPassExpired part slot => Sys2Proof.Machine.execAttPassExpired part slot s
  | .pagedTranslation core ch => Sys2Proof.Machine.execPagedTranslation core ch s
  | .send core q => Sys2Proof.Machine.execSend core q s
  | .recv core q => Sys2Proof.Machine.execRecv core q s
  | .sendTick port => Sys2Proof.Machine.execSendTick port s
  | .frameHeader p ok h => Sys2Proof.Machine.execFrameHeader p ok h s
  | .cellReceive port corr bad hcrc cell => Sys2Proof.Machine.execCellReceive port corr bad hcrc cell s
  | .admitReq p no sctx rctx tag bytes rate start => Sys2Proof.Machine.execAdmitReq p no sctx rctx tag bytes rate start s
  | .admitGrant p no sctx epoch => Sys2Proof.Machine.execAdmitGrant p no sctx epoch s
  | .admitRefuse p no sctx reason => Sys2Proof.Machine.execAdmitRefuse p no sctx reason s
  | .cancel p no rctx epoch last => Sys2Proof.Machine.execCancel p no rctx epoch last s
  | .streamReset p no ctx epoch cause => Sys2Proof.Machine.execStreamReset p no ctx epoch cause s
  | .close p no sctx epoch bytes => Sys2Proof.Machine.execClose p no sctx epoch bytes s
  | .peerResetMsg p no warm => Sys2Proof.Machine.execPeerResetMsg p no warm s
  | .lanePlan p no tx map width turn => Sys2Proof.Machine.execLanePlan p no tx map width turn s
  | .lnkStreamBroken ctx => Sys2Proof.Machine.execLnkStreamBroken ctx s
  | .lnkNoClose ctx => Sys2Proof.Machine.execLnkNoClose ctx s
  | .lnkArmTimeout ctx => Sys2Proof.Machine.execLnkArmTimeout ctx s
  | .admitWaitExpiry port => Sys2Proof.Machine.execAdmitWaitExpiry port s
  | .lnkPortDown port => Sys2Proof.Machine.execLnkPortDown port s
  | .portUp port txGood rxGood peerPort => Sys2Proof.Machine.execPortUp port txGood rxGood peerPort s
  | .turnBoundary => Sys2Proof.Machine.execTurnBoundary s
  | .flitReceive d bundle n crcOk flit errs => Sys2Proof.Machine.execFlitReceive d bundle n crcOk flit errs s
  | .bridgeCalWindow d fails => Sys2Proof.Machine.execBridgeCalWindow d fails s
  | .dieFence rsv obj cause => Sys2Proof.Machine.execDieFence rsv obj cause s
  | .sluiceEpoch target => Sys2Proof.Machine.execSluiceEpoch target s
  | .sluiceStarved master target => Sys2Proof.Machine.execSluiceStarved master target s
  | .cstRead port part own core off len => Sys2Proof.Machine.execCstRead port part own core off len s
  | .cstWrite port part own core off data => Sys2Proof.Machine.execCstWrite port part own core off data s
  | .cstCalWindow core layer fails => Sys2Proof.Machine.execCstCalWindow core layer fails s
  | .cstEvacuationDone core layer => Sys2Proof.Machine.execCstEvacuationDone core layer s
  | .evacTargetTimeout cist owner ch => Sys2Proof.Machine.execEvacTargetTimeout cist owner ch s
  | .cstRefresh core layer => Sys2Proof.Machine.execCstRefresh core layer s
  | .memCstWriteHot core layer => Sys2Proof.Machine.execMemCstWriteHot core layer s
  | .rsvRequest port part rsv wr off len data => Sys2Proof.Machine.execRsvRequest port part rsv wr off len data s
  | .holdTimeout rsv ch => Sys2Proof.Machine.execHoldTimeout rsv ch s
  | .rsvCalWindow rsv ch fails => Sys2Proof.Machine.execRsvCalWindow rsv ch fails s
  | .rsvEvacuationDone rsv ch => Sys2Proof.Machine.execRsvEvacuationDone rsv ch s
  | .rsvRefresh rsv ch bg => Sys2Proof.Machine.execRsvRefresh rsv ch bg s
  | .skimRead rsv ch extra => Sys2Proof.Machine.execSkimRead rsv ch extra s
  | .cadencePulse => Sys2Proof.Machine.execCadencePulse s
  | .cadenceMissing => Sys2Proof.Machine.execCadenceMissing s
  | .turnMarker => Sys2Proof.Machine.execTurnMarker s
  | .slewComplete => Sys2Proof.Machine.execSlewComplete s
  | .clpUncertHigh => Sys2Proof.Machine.execClpUncertHigh s
  | .scheduledAction port => Sys2Proof.Machine.execScheduledAction port s
  | .sqDoorbell ring tail => Sys2Proof.Machine.execSqDoorbell ring tail s
  | .cqDoorbell ring head => Sys2Proof.Machine.execCqDoorbell ring head s
  | .eqDoorbell head => Sys2Proof.Machine.execEqDoorbell head s
  | .ringEnable ring cfg => Sys2Proof.Machine.execRingEnable ring cfg s
  | .sqEntryTake ring entry => Sys2Proof.Machine.execSqEntryTake ring entry s
  | .cqEntryWrite ring => Sys2Proof.Machine.execCqEntryWrite ring s
  | .msixInterrupt ring => Sys2Proof.Machine.execMsixInterrupt ring s
  | .hostBar2Read tag off len => Sys2Proof.Machine.execHostBar2Read tag off len s
  | .hostBar2Write off data => Sys2Proof.Machine.execHostBar2Write off data s
  | .regApertureAccess tag off len data => Sys2Proof.Machine.execRegApertureAccess tag off len data s
  | .hstReadExpired tag => Sys2Proof.Machine.execHstReadExpired tag s
  | .registerWrite origin bar0 off len data => Sys2Proof.Machine.execRegisterWrite origin bar0 off len data s
  | .clrMax master cls => Sys2Proof.Machine.execClrMax master cls s
  | .getProfile sq cid => Sys2Proof.Machine.execGetProfile sq cid s
  | .getParam sq cid => Sys2Proof.Machine.execGetParam sq cid s
  | .setParam sq cid => Sys2Proof.Machine.execSetParam sq cid s
  | .partCreate sq cid => Sys2Proof.Machine.execPartCreate sq cid s
  | .partDestroy sq cid => Sys2Proof.Machine.execPartDestroy sq cid s
  | .setShares sq cid => Sys2Proof.Machine.execSetShares sq cid s
  | .descWrite sq cid data => Sys2Proof.Machine.execDescWrite sq cid data s
  | .flagRead sq cid => Sys2Proof.Machine.execFlagRead sq cid s
  | .flagWrite sq cid => Sys2Proof.Machine.execFlagWrite sq cid s
  | .load sq cid data => Sys2Proof.Machine.execLoad sq cid data s
  | .unload sq cid => Sys2Proof.Machine.execUnload sq cid s
  | .jobStart sq cid data => Sys2Proof.Machine.execJobStart sq cid data s
  | .jobTimeout sq cid => Sys2Proof.Machine.execJobTimeout sq cid s
  | .jobAbort sq cid => Sys2Proof.Machine.execJobAbort sq cid s
  | .faultRead sq cid => Sys2Proof.Machine.execFaultRead sq cid s
  | .hostDma sq cid => Sys2Proof.Machine.execHostDma sq cid s
  | .hostDmaData sq cid off data => Sys2Proof.Machine.execHostDmaData sq cid off data s
  | .hstDmaBroken sq cid => Sys2Proof.Machine.execHstDmaBroken sq cid s
  | .scrub sq cid => Sys2Proof.Machine.execScrub sq cid s
  | .scrubComplete sq cid => Sys2Proof.Machine.execScrubComplete sq cid s
  | .streamCancel sq cid => Sys2Proof.Machine.execStreamCancel sq cid s
  | .resetModuleCold sq cid => Sys2Proof.Machine.execResetModuleCold sq cid s
  | .resetModuleWarm sq cid => Sys2Proof.Machine.execResetModuleWarm sq cid s
  | .resetDie sq cid => Sys2Proof.Machine.execResetDie sq cid s
  | .resetReservoir sq cid => Sys2Proof.Machine.execResetReservoir sq cid s
  | .resetPartition sq cid => Sys2Proof.Machine.execResetPartition sq cid s
  | .resetCore sq cid => Sys2Proof.Machine.execResetCore sq cid s
  | .dieRejoin d ok found => Sys2Proof.Machine.execDieRejoin d ok found s
  | .reservoirRejoin k ok found => Sys2Proof.Machine.execReservoirRejoin k ok found s
  | .timebaseSetTurn sq cid => Sys2Proof.Machine.execTimebaseSetTurn sq cid s
  | .timebaseResync sq cid => Sys2Proof.Machine.execTimebaseResync sq cid s
  | .peerReset sq cid => Sys2Proof.Machine.execPeerReset sq cid s
  | .setWallclock sq cid => Sys2Proof.Machine.execSetWallclock sq cid s
  | .licenceInstall sq cid data => Sys2Proof.Machine.execLicenceInstall sq cid data s
  | .fwUpdate sq cid data => Sys2Proof.Machine.execFwUpdate sq cid data s
  | .auditExport sq cid => Sys2Proof.Machine.execAuditExport sq cid s
  | .cwSymbols sq cid => Sys2Proof.Machine.execCwSymbols sq cid s
  | .cwPoison sq cid => Sys2Proof.Machine.execCwPoison sq cid s
  | .sramBits sq cid => Sys2Proof.Machine.execSramBits sq cid s
  | .pinErrors sq cid => Sys2Proof.Machine.execPinErrors sq cid s
  | .channelHold sq cid => Sys2Proof.Machine.execChannelHold sq cid s
  | .writeHold sq cid => Sys2Proof.Machine.execWriteHold sq cid s
  | .cellDrop sq cid => Sys2Proof.Machine.execCellDrop sq cid s
  | .laneFail sq cid => Sys2Proof.Machine.execLaneFail sq cid s
  | .frameSilence sq cid => Sys2Proof.Machine.execFrameSilence sq cid s
  | .flitCrc sq cid => Sys2Proof.Machine.execFlitCrc sq cid s
  | .sensorOffset sq cid => Sys2Proof.Machine.execSensorOffset sq cid s
  | .cadenceMask sq cid => Sys2Proof.Machine.execCadenceMask sq cid s
  | .injectionApply => Sys2Proof.Machine.execInjectionApply s
  | .injectionEnd n => Sys2Proof.Machine.execInjectionEnd n s
  | .eventSequence => Sys2Proof.Machine.execEventSequence s
  | .powerOn => Sys2Proof.Machine.execPowerOn s
  | .pwrOkFall ns => Sys2Proof.Machine.execPwrOkFall ns s
  | .modResetN e cool => Sys2Proof.Machine.execModResetN e cool s
  | .perstN e => Sys2Proof.Machine.execPerstN e s
  | .hotReset => Sys2Proof.Machine.execHotReset s
  | .sbmReset cold => Sys2Proof.Machine.execSbmReset cold s
  | .watchdogExpiry => Sys2Proof.Machine.execWatchdogExpiry s
  | .resetRelease => Sys2Proof.Machine.execResetRelease s
  | .stageEnd st x => Sys2Proof.Machine.execStageEnd st x s
  | .stageTimeout st ms => Sys2Proof.Machine.execStageTimeout st ms s
  | .recordWrite readback => Sys2Proof.Machine.execRecordWrite readback s
  | .sensorSample x => Sys2Proof.Machine.execSensorSample x s
  | .sensorRecalWindow g => Sys2Proof.Machine.execSensorRecalWindow g s
  | .thmWeirEscalated j => Sys2Proof.Machine.execThmWeirEscalated j s
  | .escWRecovery => Sys2Proof.Machine.execEscWRecovery s
  | .trayReading x => Sys2Proof.Machine.execTrayReading x s
  | .capLaw => Sys2Proof.Machine.execCapLaw s
  | .gateStepSlot => Sys2Proof.Machine.execGateStepSlot s
  | .thermalTrip diodeSite k => Sys2Proof.Machine.execThermalTrip diodeSite k s
  | .thmInputRange v => Sys2Proof.Machine.execThmInputRange v s
  | .inputUndervoltage => Sys2Proof.Machine.execInputUndervoltage s
  | .thmConverterLost c => Sys2Proof.Machine.execThmConverterLost c s
  | .calibrationWindowEnd w => Sys2Proof.Machine.execCalibrationWindowEnd w s
  | .vin48Arrival => Sys2Proof.Machine.execVin48Arrival s
  | .inputRangeReturn v => Sys2Proof.Machine.execInputRangeReturn v s
  | .revocationCounterRetry => Sys2Proof.Machine.execRevocationCounterRetry s
  | .trstN => Sys2Proof.Machine.execTrstN s
  | .configurationWrite w => Sys2Proof.Machine.execConfigurationWrite w s
  | .msixVectorUnmask vector => Sys2Proof.Machine.execMsixVectorUnmask vector s
  | .hostDmaReadReturn sq cid => Sys2Proof.Machine.execHostDmaReadReturn sq cid s
  | .completionTimeout sq cid => Sys2Proof.Machine.execCompletionTimeout sq cid s
  | .laneLockLost port lane => Sys2Proof.Machine.execLaneLockLost port lane s
  | .passLaunchOrder part slot stripe => Sys2Proof.Machine.execPassLaunchOrder part slot stripe s

end Sys2Proof.Machine
end

