-- ==== Sys2Proof/Machine/Tick.lean ====
section
/-! DEFINITION. What the passing of time alone does (11 R241, R245, R246, R252). -/

namespace Sys2Proof.Machine

/-- The counter `n` drops on. -/
def Clep.plus (c : Clep) (n : Nat) : Clep :=
  let p := c.tick.toNat * 1024 + c.drop.toNat + n
  { c with tick := BitVec.ofNat 48 (p / 1024), drop := BitVec.ofNat 10 p }

/-- One drop of true time at the counter (11 R239, R241, R245): a drop, or while a slew or pull has drops left to make up, as much of one as
its ticks of 1,024 + `rate` drops give. -/
def Clep.advance (c : Clep) : Clep :=
  if c.slew = 0 then c.plus 1
  else
    let l := (1024 + c.rate).toNat
    let n := (c.sub + 1024) / l
    let left := c.slew - (1 - (n : Int))
    { c.plus n with slew := left, rate := if left = 0 then 0 else c.rate, sub := if left = 0 then 0 else (c.sub + 1024) % l }

/-- What waits for the banks of a core served where its clock runs: what a core that issues nothing has in flight is delivered first
(03 R61, R68; 04 R75). -/
def State.servePad (s : State) (n : Nat) : State :=
  let s := (if !s.clocked n || (s.core n).canIssue then s else s.drainPipe n 64).drainPad n
  ((s.core n).asyncWait.filterMap AsyncItem.access).foldl (fun s a => asyncAccess s n a) s
/-- The same for every core. -/
def State.servePads (s : State) : State :=
  (Map.keys s.cores).foldl (fun s n => if (s.core n).asyncWait = [] then s else s.servePad n) s

/-- One drop of true time passes. The counter starts at stage S2 (11 R242, R252), where S2 gives up on a cadence that does not come (R246).
Partition and core resets whose work has ended complete (15 R347), what waits in the ingress buffers of a core whose clock runs again is
served (03 R68), and the hub performs host accesses that need wait no longer (13 R286). -/
def State.tickDrop (s : State) : State :=
  let s := ({ s with time := s.time + 1, clp := if s.bup.stage.toNat < 2 then s.clp else s.clp.advance } : State).s2Watch
  s.servePads.finishPartials.hubDrain s.host.hub.length

end Sys2Proof.Machine
end

