-- ==== Sys2Proof/Machine/Step.lean ====
section
/-! DEFINITION. One step: the command at the front of the queue, or, with none waiting, the passing of one drop of time. -/

namespace Sys2Proof.Machine

/-- The command at the front of the queue is taken and performed with the rest of the queue; with an empty queue the block's
clock goes on by one drop (assumption log 2). -/
def step (s : State) : Host.Outcome State Fault Refusal :=
  match s.pending with
  | [] => .next s.tickDrop
  | c :: cs => exec c { s with pending := cs }

/-- The command a word spells put at the front of the queue. No row of the table gives bits, so no word spells one. -/
def State.withFetchWord (s : State) (nbits w : Nat) : State :=
  match Sys2Proof.decodeTableWord nbits w with
  | some c => { s with pending := c :: s.pending }
  | none => s

end Sys2Proof.Machine
end

