-- ==== Sys2Proof/Machine/Contacts.lean ====
section
/-! DEFINITION. The contact field and the test access port's identity (18 R390 to R400, R405): where each signal lands. Rows and
columns count from 1, lengths are in hundredths of a millimetre, voltages in hundredths of a volt. -/

namespace Sys2Proof.Machine

/-- The sector letter of a grid position (R390), none off the grid. -/
def sectorOf (row col : Nat) : Option Char :=
  if row = 0 ∨ 120 < row ∨ col = 0 ∨ 160 < col then none
  else ("ABCDEFGH".toList)[(row - 1) / 60 * 4 + (col - 1) / 40]?
/-- Whether a coordinate's letter matches its row and column (R390). -/
def coordNames (letter : Char) (row col : Nat) : Bool := sectorOf row col == some letter
/-- Whether a grid site is populated: all but those beneath the compute stacks (R391). -/
def populated (row col : Nat) : Bool :=
  (sectorOf row col).isSome && !(decide (31 ≤ row) && decide (row ≤ 90) && decide (41 ≤ col) && decide (col ≤ 120))

/-- The first row and column of a Moarex port's sector (R393). -/
def portSector (p : Nat) : Nat × Nat :=
  if p < 5 then (1, 1) else if p < 10 then (61, 1) else if p < 15 then (1, 121) else (61, 121)
/-- The position of a Moarex lane contact (R393): transmit or receive, P or N. -/
def laneContact (p l : Nat) (rx neg : Bool) : Nat × Nat :=
  let (rs, cs) := portSector p
  (rs + 12 * (p % 5) + 1 + (if rx then 6 else 0) + 2 * (l / 11), cs + 3 + 3 * (l % 11) + if neg then 1 else 0)
/-- The position of a PCI Express lane contact (R393). -/
def pcieContact (i : Nat) (rx neg : Bool) : Nat × Nat :=
  ((if rx then 16 else 10) + 2 * (i / 8), 42 + 3 * (i % 8) + if neg then 1 else 0)
/-- The named contacts of Table PIN-2 (R392). -/
def signalContacts : List (String × Nat × Nat) :=
  [("PCIE_REFCLK_P", 22, 50), ("PCIE_REFCLK_N", 22, 51), ("LNK_REFCLK_P", 100, 50), ("LNK_REFCLK_N", 100, 51),
   ("CAD_P", 100, 56), ("CAD_N", 100, 57), ("PWR_OK", 104, 44), ("MOD_RESET_N", 104, 46), ("PERST_N", 104, 48),
   ("THERMTRIP_N", 104, 50), ("ALERT_N", 104, 52), ("TRAY_SCL", 106, 44), ("TRAY_SDA", 106, 46), ("SBM_SCL", 106, 48),
   ("SBM_SDA", 106, 50), ("TCK", 108, 44), ("TMS", 108, 46), ("TDI", 108, 48)] ++
  [("TDO", 108, 50), ("TRST_N", 108, 52), ("MOD_ID[0]", 110, 44), ("MOD_ID[1]", 110, 46), ("MOD_ID[2]", 110, 48),
   ("MOD_ID[3]", 110, 50), ("BOOT_MODE[0]", 110, 52), ("BOOT_MODE[1]", 110, 54)]
/-- Every position that Table PIN-2 or a placement formula names (R391). -/
def namedPositions : List (Nat × Nat) :=
  signalContacts.map Prod.snd ++
  (List.range 20).flatMap (fun p => (List.range 22).flatMap fun l =>
    [laneContact p l false false, laneContact p l false true, laneContact p l true false, laneContact p l true true]) ++
  (List.range 16).flatMap fun i => [pcieContact i false false, pcieContact i false true, pcieContact i true false, pcieContact i true true]
/-- Whether a position is a ground contact (R391). -/
def isGround (row col : Nat) : Bool := populated row col && !namedPositions.contains (row, col)

/-- The centre of a contact, x along columns and y along rows (R405). -/
def contactCentre (row col : Nat) : Nat × Nat := (845 + 90 * (col - 1), 1145 + 90 * (row - 1))

/-- The level a single-ended input is read at, none between VIL and VIH (R397, Table PIN-5). -/
def inputLevel (v : Int) : Option Bool := if 117 ≤ v then some true else if v ≤ 63 then some false else none
/-- A strap as sampled: open reads 1, tied to ground reads 0 (R394). -/
def strapBit (tied : Bool) : Nat := if tied then 0 else 1

/-- The SBM static address of a module (R394, R399). -/
def State.sbmAddress (s : State) : Nat := 0x50 + s.bup.modId.toNat
/-- The classes of contact of Table BUP-2 (15 R330). -/
inductive PadClass where
  | control | diffIn | thermTrip | alert | bus | pcieLane | linkTx (port : Nat) | tdo
  deriving DecidableEq, Repr
/-- What a contact shows (15 Table BUP-2): unpowered; an input, pulled up or not; pulled up and ignored; open drain, released or low; on a bus or
off it; a link's transmitters off, electrically idle or running; high impedance. -/
inductive PadState where
  | dead | input (pullUp : Bool) | pulledUp | openDrain (low : Bool) | onBus | txOff | idle | running | highZ
  deriving DecidableEq, Repr
/-- Whether stage S1 has configured the pads: they are pulled up from 48 V on and in every module-cold reset, and stay configured in a
module-warm one (15 R330). -/
def State.padsSet (s : State) : Bool :=
  s.pins.rails && (1 ≤ s.bup.stage.toNat || !(if s.bup.holding then s.bup.nextCold else s.bup.cold))
/-- The state of a contact (15 Table BUP-2); TDO is driven only while the TAP shifts, which no command does. -/
def State.pad (s : State) (c : PadClass) : PadState :=
  let live := decide (1 ≤ s.bup.stage.toNat) && !s.bup.holding
  if !s.pins.vin48 then .dead
  else
    match c with
    | .control => .input true
    | .diffIn => if s.padsSet then .input false else .pulledUp
    | .thermTrip => .openDrain (!s.pins.thermTripN)
    | .alert => if live then .openDrain (!s.pins.alertN) else .openDrain false
    | .bus => if live then .onBus else .pulledUp
    | .pcieLane => if s.padsSet then .running else .idle
    | .linkTx p =>
      if !s.padsSet then .txOff
      else if live && decide (4 ≤ s.bup.stage.toNat) && s.portOn p then .running
      else .idle
    | .tdo => .highZ

/-- IDCODE of the test access port (R400). -/
def State.idcode (s : State) : BitVec 32 :=
  BitVec.ofNat 32 (s.fuses.stepping.toNat % 16 * 2 ^ 28 + 0x0960 * 2 ^ 12 + Config.manufacturer.toNat * 2 + 1)

end Sys2Proof.Machine
end

