-- ==== Sys2Proof/Machine/Encode.lean ====
section
/-! DEFINITION. The words of slots and bundles from their operations (04 R71 to R74, Tables BDL-2, BDL-4, BDL-6 to BDL-15): the encoder
beside the decoder of Bundle.lean. -/

namespace Sys2Proof.Machine

/-- VEC opcodes (04 Table BDL-8). -/
def VecOp.code : VecOp → Nat
  | .vadd => 0x01 | .vsub => 0x02 | .vmul => 0x03 | .vfma => 0x04 | .vmax => 0x05 | .vmin => 0x06 | .vabs => 0x07 | .vneg => 0x08
  | .vhadd => 0x09 | .vhmul => 0x0A | .vhfma => 0x0B | .viadd => 0x10 | .visub => 0x11 | .viadds => 0x12 | .vimul => 0x13
  | .vand => 0x14 | .vor => 0x15 | .vxor => 0x16 | .vshl => 0x17 | .vshr => 0x18 | .vsra => 0x19 | .vcmpeq => 0x20 | .vcmplt => 0x21
  | .vcmple => 0x22 | .vsel => 0x28 | .vmov => 0x29 | .vbcast => 0x2A | .vperm => 0x2B | .vrsum => 0x30 | .vrmax => 0x31
  | .vscan => 0x32 | .vcvt => 0x40
/-- SFU opcodes (04 Table BDL-10). -/
def SfuOp.code : SfuOp → Nat
  | .rcp => 1 | .rsqrt => 2 | .exp => 3 | .exp2 => 4 | .log => 5 | .log2 => 6 | .tanh => 7 | .sigm => 8 | .sin => 9 | .cos => 10
  | .expd => 11
/-- SCA opcodes (04 Table BDL-12). -/
def ScaOp.code : ScaOp → Nat
  | .add => 0x01 | .sub => 0x02 | .addi => 0x03 | .shin => 0x04 | .and => 0x05 | .or => 0x06 | .xor => 0x07 | .shl => 0x08 | .shr => 0x09
  | .sra => 0x0A | .shli => 0x0B | .shri => 0x0C | .mul => 0x0D | .cmpeq => 0x10 | .cmplt => 0x11 | .cmpltu => 0x12 | .aaddi => 0x18
  | .amov => 0x19 | .smova => 0x1A | .getv => 0x1C | .getf => 0x1D | .getlc => 0x1E | .gett => 0x1F
/-- MEM opcodes (04 Table BDL-14). -/
def MemOp.code : MemOp → Nat
  | .vld => 1 | .vst => 2 | .sld => 3 | .sst => 4 | .ald => 5 | .ast => 6 | .pld => 7 | .pst => 8
/-- CTL opcodes (04 Table BDL-15). -/
def CtlOp.code : CtlOp → Nat
  | .br => 1 | .brl => 2 | .bri => 3 | .loop => 4 | .loopx => 5 | .endRun => 6 | .clrf => 7 | .trap => 8

/-- Fields put in place, each at its low bit. -/
def pack (fs : List (Nat × Nat)) : Nat := (fs.map fun f => f.2 * 2 ^ f.1).sum
/-- A bit as a number. -/
def bitNat (b : Bool) : Nat := if b then 1 else 0

/-- The word of a slot's operation, its reserved bits 0 (04 Tables BDL-4, BDL-6, BDL-7, BDL-9, BDL-11, BDL-13, R87, R94). -/
def encodeSlot : SlotOp → Nat
  | .step z f =>
    pack [(92, if z then 2 else 1), (89, f.pred.toNat), (88, bitNat f.pneg), (84, f.acc.toNat), (80, f.fmta.toNat), (76, f.fmtb.toNat),
          (72, f.areg.toNat), (53, f.aoff.toNat), (52, bitNat f.ainc), (51, bitNat f.awin), (49, f.bsrc.toNat), (45, f.breg.toNat),
          (26, f.boff.toNat), (25, bitNat f.binc), (17, f.toffa.toNat), (9, f.toffb.toNat)]
  | .drain z f => pack [(92, if z then 4 else 3), (89, f.pred.toNat), (88, bitNat f.pneg), (84, f.acc.toNat), (70, f.vd.toNat)]
  | .sopen f =>
    pack [(92, 5), (89, f.pred.toNat), (88, bitNat f.pneg), (87, bitNat f.ctx), (83, bitNat f.lw), (76, f.fmtb.toNat), (71, f.sbase.toNat),
          (66, f.splane.toNat), (46, f.j.toNat)]
  | .vec op f =>
    pack [(56, op.code), (53, f.pred.toNat), (52, bitNat f.pneg), (46, f.vd.toNat), (40, f.va.toNat), (34, f.vb.toNat), (28, f.vc.toNat),
          (24, f.fmt.toNat), (20, f.fmt2.toNat), (18, f.rnd.toNat), (17, bitNat f.sat), (16, bitNat f.bmem), (0, f.imm.toNat)]
  | .sfu op f =>
    pack [(42, op.code), (39, f.pred.toNat), (38, bitNat f.pneg), (32, f.vd.toNat), (26, f.va.toNat), (20, f.vb.toNat), (18, f.qtr.toNat)]
  | .sca op f => pack [(26, op.code), (23, f.pred.toNat), (22, bitNat f.pneg), (17, f.rd.toNat), (12, f.ra.toNat), (0, f.imm.toNat)]
  | .mem op f =>
    pack [(58, op.code), (55, f.pred.toNat), (54, bitNat f.pneg), (48, f.reg.toNat), (44, f.areg.toNat), (21, f.addr.toNat),
          (15, f.size.toNat), (3, f.stride.toNat)]
  | .ctl op f => pack [(26, op.code), (23, f.pred.toNat), (22, bitNat f.pneg), (0, f.bits.toNat)]

/-- The header's 16 bits (04 Table BDL-2). -/
def Header.toNat (h : Header) : Nat := pack [(8, h.slots), (4, h.idle), (3, bitNat h.bkpt), (2, bitNat h.mark), (1, bitNat h.last)]

/-- The bytes of a bundle: its header, then its slots in ascending number (04 R71). -/
def encodeBundle (idle : Nat) (bkpt mark last : Bool) (ops : List SlotOp) : List Byte :=
  leBytes 2 (Header.toNat { slots := (ops.map fun o => 2 ^ o.slot).sum, idle := idle, bkpt := bkpt, mark := mark, last := last }) ++
    ops.flatMap fun o => leBytes (slotBytes o.slot) (encodeSlot o)

end Sys2Proof.Machine
end

