-- ==== Sys2Proof/Safety.lean ====
section
/-! DEFINITION. The words the claims are stated in: when a run is safe, when an operation issues, and what its issue does to the flow of
the RUN. -/

namespace Sys2Proof.Machine

/-- A command completes: it ends neither in a fault nor in a refusal. -/
def completes (i : Instr) (s : State) : Prop := ∃ t, exec i s = .next t

/-- Core `n` stands in the issue cycle of its RUN `r`, with the slot of `op` free, a bundle of `op` alone is legal there
(04 R73, R74, R78), no load or store of an earlier bundle meets an uncorrectable word in the cycle (04 R75), and what issued before a
breakpoint the RUN was resumed from is delivered (05 R130). -/
structure State.Issues (s : State) (n : Nat) (r : RunState) (op : SlotOp) : Prop where
  run : (s.core n).run = some r
  live : r.suspended = false ∧ r.ended = false ∧ r.stop = none
  now : (s.core n).cycle = r.nextIssue
  more : (r.oneShot && !r.skipBkpt) = false
  free : Map.get 0 (s.core n).busy op.slot ≤ (s.core n).cycle
  legal : op.legal (2 + slotBytes op.slot) = true
  room : (s.core n).pc + (2 + slotBytes op.slot) ≤ 2 ^ 19
  sound : s.slotError n = none
  delivered : (s.core n).undelivered = false

/-- The flow of a bundle of one operation that leaves it alone (04 R73, R95, R96): the sequential successor or the loop's start, in
the next cycle. -/
def Core.flow (c : Core) (r : RunState) (op : SlotOp) : Flow :=
  { loops := (loopNext c.loops c.pc (2 + slotBytes op.slot)).1, next := (loopNext c.loops c.pc (2 + slotBytes op.slot)).2,
    at_ := c.cycle + 1, redirect := r.redirect, ended := false }

/-- The core after the bundle of one operation at `pc`, its effect `d` in place, with flow `fl`: the slot is taken for the operation's
occupancy (04 R78), and the RUN goes on. -/
def Core.after (d : Core) (r : RunState) (op : SlotOp) (fl : Flow) : Core :=
  { d with
    loops := fl.loops
    pc := fl.target
    busy := Map.set 0 d.busy op.slot (d.cycle + op.occ)
    run := some { r with nextIssue := fl.at_, redirect := fl.later, ended := fl.ended, skipBkpt := false } }

/-- The state after an operation issued in the core: `d` is the core with its effect. -/
def State.issuedOp (s : State) (n : Nat) (r : RunState) (op : SlotOp) (d : Core) : State :=
  (s.setCore n (d.after r op ((s.core n).flow r op))).draw

/-- The state after an operation issued with a flow of its own. -/
def State.issuedFlow (s : State) (n : Nat) (r : RunState) (op : SlotOp) (d : Core) (fl : Flow) : State :=
  (s.setCore n (d.after r op fl)).draw

/-- A RUN ended by a fault (04 R74, R75; 05 R106): from `s` to `t` the queue of RUN `r` halts with the code, draining while commands of
its are in flight, the RUN is gone, and the registers, accumulators and memory of the machine stand as they did. -/
structure FaultedRun (s t : State) (n : Nat) (r : RunState) (code : Nat) : Prop where
  queue : (t.queue n r.queue).lastFault = BitVec.ofNat 16 code ∧
    ((t.queue n r.queue).st = .halted ∨ (t.queue n r.queue).st = .draining)
  ended : (t.core n).run = none
  files : (t.core n).v = (s.core n).v ∧ (t.core n).s = (s.core n).s ∧ (t.core n).a = (s.core n).a ∧ (t.core n).p = (s.core n).p ∧
    (t.core n).acc = (s.core n).acc
  memory : t.mem = s.mem
  others : ∀ j, j ≠ n → t.core j = s.core j

end Sys2Proof.Machine
end

