-- ==== Sys2Proof/Certificates/Slice0/Obligations.lean ====
section
/-! DEFINITION. The statements about the model, each with the rules of the spec it comes from. -/

open Sys2Proof Sys2Proof.Machine

namespace Sys2Proof.Machine

/-- What a lane-wise vector operation puts in lane i, from the core, the fields and the draw number of a free choice. -/
abbrev LaneVal := Core → VecF → Nat → Nat → Word × Flags
/-- Source a, b and c of a vector operation at lane i. -/
def laneA (c : Core) (f : VecF) (i : Nat) : Word := c.lane f.va.toNat i
/-- Source b. -/
def laneB (c : Core) (f : VecF) (i : Nat) : Word := c.lane f.vb.toNat i
/-- Source c. -/
def laneC (c : Core) (f : VecF) (i : Nat) : Word := c.lane f.vc.toNat i
/-- A lane computed by a floating-point function of two encodings. -/
def fpLane (g : Nat → Nat → Nat × Flags) : LaneVal := fun c f _ i => wordRes (g (laneA c f i).toNat (laneB c f i).toNat)
/-- A lane computed by a function of two words that raises nothing. -/
def intLane (g : Word → Word → Word) : LaneVal := fun c f _ i => (g (laneA c f i) (laneB c f i), .none)
/-- Both 16-bit halves of a lane computed by a function of three encodings of the format FMT names (04 Table BDL-8). -/
def halfLane (g : Fmt → Nat → Nat → Nat → Nat × Flags) : LaneVal := fun c f _ i =>
  halves (g (if f.fmt = 1 then .bf16 else .fp16)) (laneA c f i) (laneB c f i) (laneC c f i)

/-- The lane-wise vector operations with their commands, latencies and values (04 R88, Table BDL-8). -/
def laneTable : List (VecOp × (CoreId → VecF → Instr) × Nat × LaneVal) :=
  [(.vadd, .vadd, 3, fpLane (fpAdd .fp32)),
   (.vsub, .vsub, 3, fpLane fun x y => fpAdd .fp32 x (fpNeg .fp32 y)),
   (.vmul, .vmul, 3, fpLane (fpMul .fp32)),
   (.vfma, .vfma, 4, fun c f _ i => wordRes (fpFma .fp32 (laneA c f i).toNat (laneB c f i).toNat (laneC c f i).toNat)),
   (.vmax, .vmax, 1, fun c f d i => wordRes (fpMax .fp32 false (Config.freeBit d i) (laneA c f i).toNat (laneB c f i).toNat)),
   (.vmin, .vmin, 1, fun c f d i => wordRes (fpMax .fp32 true (Config.freeBit d i) (laneA c f i).toNat (laneB c f i).toNat)),
   (.vabs, .vabs, 1, fun c f _ i => (BitVec.ofNat 32 (fpAbs .fp32 (laneA c f i).toNat), .none)),
   (.vneg, .vneg, 1, fun c f _ i => (BitVec.ofNat 32 (fpNeg .fp32 (laneA c f i).toNat), .none)),
   (.vhadd, .vhadd, 3, halfLane fun t x y _ => fpAdd t x y),
   (.vhmul, .vhmul, 3, halfLane fun t x y _ => fpMul t x y),
   (.vhfma, .vhfma, 4, halfLane fun t x y z => fpFma t x y z),
   (.viadd, .viadd, 1, intLane (· + ·)),
   (.visub, .visub, 1, intLane (· - ·)),
   (.viadds, .viadds, 1, fun c f _ i =>
     let t := (laneA c f i).toInt + (laneB c f i).toInt
     if t < -(2 ^ 31) then (0x80000000, .S) else if 2 ^ 31 ≤ t then (0x7FFFFFFF, .S) else (laneA c f i + laneB c f i, .none)),
   (.vimul, .vimul, 2, intLane (· * ·)),
   (.vand, .vand, 1, intLane (· &&& ·)),
   (.vor, .vor, 1, intLane (· ||| ·)),
   (.vxor, .vxor, 1, intLane (· ^^^ ·)),
   (.vshl, .vshl, 1, intLane fun x y => x <<< (y.toNat % 32)),
   (.vshr, .vshr, 1, intLane fun x y => x >>> (y.toNat % 32)),
   (.vsra, .vsra, 1, intLane fun x y => x.sshiftRight (y.toNat % 32)),
   (.vsel, .vsel, 1, fun c f _ i => (if (c.preg (f.vc.toNat % 8)).getLsbD i then laneA c f i else laneB c f i, .none)),
   (.vmov, .vmov, 1, fun c f _ i => (laneA c f i, .none)),
   (.vbcast, .vbcast, 1, fun c f _ _ => ((c.sreg (f.imm.toNat % 32)).setWidth 32, .none))]

/-- The lanes an operation is performed in: the ones of p[PRED], inverted when PNEG is set (04 R80). -/
def maskLanes (c : Core) (pred : BitVec 3) (pneg : Bool) : List Nat := onesOf 256 (c.mask pred pneg).toNat
/-- The slot of a vector operation. -/
def vecSlot (f : VecF) : Nat := if f.vec1 then 2 else 1

end Sys2Proof.Machine

/-- 04 R88 with Tables BDL-7 and BDL-8: a lane-wise VEC operation with its source b in a register, issued where it may issue, queues
for register VD, at its latency after the issue cycle, the value of every lane its mask names, with the flags those lanes raise; the RUN
goes on and nothing else of the machine changes but the number of the next free value. -/
def Obligations.VectorLaneOperations : Prop :=
  ∀ p ∈ laneTable, ∀ (s : State) (core : CoreId) (f : VecF) (r : RunState),
    f.bmem = false → s.Issues core.toNat r (.vec p.1 f) →
    exec (p.2.1 core f) s = .next (s.issuedOp core.toNat r (.vec p.1 f)
      ((s.core core.toNat).emit (vecSlot f) p.2.2.1
        [.v f.vd.toNat ((maskLanes (s.core core.toNat) f.pred f.pneg).map fun i => (i, (p.2.2.2 (s.core core.toNat) f s.free i).1))]
        (Flags.all ((maskLanes (s.core core.toNat) f.pred f.pneg).map fun i => (p.2.2.2 (s.core core.toNat) f s.free i).2))))

namespace Sys2Proof.Machine

/-- The vector compares: on FP32 values by their order, on words as signed numbers (04 Table BDL-8). -/
def compareTable : List (VecOp × (CoreId → VecF → Instr) × (Int → Int → Bool)) :=
  [(.vcmpeq, .vcmpeq, fun x y => decide (x = y)), (.vcmplt, .vcmplt, fun x y => decide (x < y)),
   (.vcmple, .vcmple, fun x y => decide (x ≤ y))]

/-- A lane of a compare: IMM[0] clear compares FP32, a NaN comparing false with INV; set compares signed words. -/
def compareLane (t : Int → Int → Bool) (c : Core) (f : VecF) (i : Nat) : Bool × Flags :=
  if f.imm.toNat % 2 = 1 then (t (laneA c f i).toInt (laneB c f i).toInt, .none)
  else if (fpVal .fp32 (laneA c f i).toNat).isNaN || (fpVal .fp32 (laneB c f i).toNat).isNaN then (false, .I)
  else (t (fpKey .fp32 (laneA c f i).toNat) (fpKey .fp32 (laneB c f i).toNat), .none)

/-- The operations performed whole or not at all (04 R80), with their results (Table BDL-8, R90) and latencies: a permutation, the sums,
maxima and prefix sums of lane groups, and a conversion. -/
def wholeTable : List (VecOp × (CoreId → VecF → Instr) × (VecF → Nat) ×
    (Nat → Core → VecF → Nat → List Dest × Flags)) :=
  [(.vperm, .vperm, fun _ => 2, fun _ c f _ =>
     ([.v f.vd.toNat ((List.range 256).map fun i => (i, laneA c f ((laneB c f i).toNat % 256)))], .none)),
   (.vrsum, .vrsum, fun _ => 6, fun _ c f d =>
     let r := spread (f.imm.toNat % 16)
       ((numbered 0 (laneGroups (f.imm.toNat % 16) (c.vreg f.va.toNat))).map fun p => laneSum d p.1 (p.2.map BitVec.toNat))
     ([.v f.vd.toNat r.1], r.2)),
   (.vrmax, .vrmax, fun _ => 4, fun _ c f d =>
     let r := spread (f.imm.toNat % 16)
       ((numbered 0 (laneGroups (f.imm.toNat % 16) (c.vreg f.va.toNat))).map fun p => maxLanes d p.1 p.2)
     ([.v f.vd.toNat r.1], r.2)),
   (.vscan, .vscan, fun _ => 6, fun _ c f d =>
     let g := f.imm.toNat % 16
     let rs := (List.range 256).map fun i =>
       laneSum d i ((((c.vreg f.va.toNat).drop (i / 2 ^ g * 2 ^ g)).take (i % 2 ^ g + 1)).map BitVec.toNat)
     ([.v f.vd.toNat (numbered 0 (rs.map fun r => (BitVec.ofNat 32 r.1 : Word)))], Flags.all (rs.map Prod.snd))),
   (.vcvt, .vcvt, fun f =>
     (match Fmt.ofCode f.fmt2.toNat, Fmt.ofCode f.fmt.toNat with | some a, some b => cvtLatency a b | _, _ => 3) +
       (if f.rnd = 2 then 1 else 0),
     fun n c f d => vcvt f d (c.rngBits n (vecSlot f - 1)) (c.vreg f.va.toNat) (c.vreg (f.va.toNat + 1)))]

end Sys2Proof.Machine

/-- 04 Table BDL-8: VCMPEQ, VCMPLT and VCMPLE, source b in a register, queue two cycles on the bits of p[VD[2:0]] their mask names. -/
def Obligations.VectorCompares : Prop :=
  ∀ p ∈ compareTable, ∀ (s : State) (core : CoreId) (f : VecF) (r : RunState),
    f.bmem = false → s.Issues core.toNat r (.vec p.1 f) →
    exec (p.2.1 core f) s = .next (s.issuedOp core.toNat r (.vec p.1 f)
      ((s.core core.toNat).emit (vecSlot f) 2
        [.p (f.vd.toNat % 8) ((s.core core.toNat).mask f.pred f.pneg)
          (bitsToPred ((maskLanes (s.core core.toNat) f.pred f.pneg).map fun i => (i, (compareLane p.2.2 (s.core core.toNat) f i).1)))]
        (Flags.all ((maskLanes (s.core core.toNat) f.pred f.pneg).map fun i => (compareLane p.2.2 (s.core core.toNat) f i).2))))

/-- 04 R80, R88, R90: VPERM, VRSUM, VRMAX, VSCAN and VCVT are performed whole when bit 0 of their mask is one, else not at all; performed,
they queue their results at their latency, and a conversion takes its unit's generator one conversion on (02 R41). -/
def Obligations.VectorWholeOperations : Prop :=
  ∀ p ∈ wholeTable, ∀ (s : State) (core : CoreId) (f : VecF) (r : RunState),
    s.Issues core.toNat r (.vec p.1 f) →
    exec (p.2.1 core f) s = .next (s.issuedOp core.toNat r (.vec p.1 f)
      (if (s.core core.toNat).performed f.pred f.pneg then
        (if p.1 = .vcvt then (s.core core.toNat).converted (vecSlot f - 1) else s.core core.toNat).emit (vecSlot f) (p.2.2.1 f)
          (p.2.2.2 core.toNat (s.core core.toNat) f s.free).1 (p.2.2.2 core.toNat (s.core core.toNat) f s.free).2
       else s.core core.toNat))

/-- 04 R89, R81: with BMEM set, an operation marked M reads in cycle t + 1 the 64 bank words from its address, the low 4 bits ignored, with
its other operands captured at issue, and its result is due 3 cycles later than Table BDL-8 gives. A line that leaves the scratchpad faults
the RUN with MEM_UNMAPPED: the RUN ends, no register of the core changes and nothing is read. -/
def Obligations.VectorMemoryOperand : Prop :=
  ∀ p ∈ ((laneTable.filter fun x => x.1.mAllowed).map fun x => (x.1, x.2.1, x.2.2.1)) ++ (compareTable.map fun x => (x.1, x.2.1, 2)),
  ∀ (s : State) (core : CoreId) (f : VecF) (r : RunState),
    f.bmem = true → s.Issues core.toNat r (.vec p.1 f) →
    let c := s.core core.toNat
    let a := ((c.areg (f.imm.toNat / 4096)).toNat + f.imm.toNat % 4096 * 1024) % 2 ^ 23 / 16 * 16
    (a + 1024 ≤ 0x600000 →
      exec (p.2.1 core f) s = .next (s.issuedOp core.toNat r (.vec p.1 f)
        { c with
          loads := c.loads ++ [{ at_ := c.cycle + 1, due := c.cycle + (p.2.2 + 3), slot := vecSlot f, seq := c.seq, pc := c.pc,
                                 kind := .vec p.1 f (c.mask f.pred f.pneg) (c.vreg f.va.toNat) (c.vreg f.vc.toNat) s.free,
                                 offs := (List.range 64).map fun i => a + 16 * i, width := 16 }]
          seq := c.seq + 1 })) ∧
    (0x600000 < a + 1024 → ∃ t, exec (p.2.1 core f) s = .next t ∧ FaultedRun s t core.toNat r cMemUnmapped)

namespace Sys2Proof.Machine

/-- The special functions with their latencies (04 Table BDL-10). -/
def sfuTable : List (SfuOp × (CoreId → SfuF → Instr) × Nat) :=
  [(.rcp, .rcp, 6), (.rsqrt, .rsqrt, 6), (.exp, .expOp, 8), (.exp2, .exp2, 8), (.log, .logOp, 8), (.log2, .log2, 8),
   (.tanh, .tanh, 10), (.sigm, .sigm, 10), (.sin, .sin, 10), (.cos, .cos, 10), (.expd, .expd, 9)]

/-- The lanes of a quarter an SFU operation is performed in (04 R91). -/
def quarterLanes (c : Core) (f : SfuF) : List Nat :=
  ((List.range 64).map fun i => 64 * f.qtr.toNat + i).filter fun i => (c.mask f.pred f.pneg).getLsbD i

end Sys2Proof.Machine

/-- 04 R91 with Table BDL-10: each SFU operation queues, at its latency, the value of its function in the performed lanes of its quarter and
in no other. -/
def Obligations.SpecialFunctions : Prop :=
  ∀ p ∈ sfuTable, ∀ (s : State) (core : CoreId) (f : SfuF) (r : RunState),
    s.Issues core.toNat r (.sfu p.1 f) →
    let c := s.core core.toNat
    let out (i : Nat) : Nat × Flags := sfuLane p.1 s.free i (c.lane f.va.toNat i).toNat (c.lane f.vb.toNat i).toNat
    exec (p.2.1 core f) s = .next (s.issuedOp core.toNat r (.sfu p.1 f)
      (c.emit 3 p.2.2 [.v f.vd.toNat ((quarterLanes c f).map fun i => (i, BitVec.ofNat 32 (out i).1))]
        (Flags.all ((quarterLanes c f).map fun i => (out i).2))))

namespace Sys2Proof.Machine

/-- A scalar result of two 64-bit sources (04 R92): RB is IMM[11:7]. -/
def scaOf (g : DWord → DWord → DWord) : State → Core → ScaF → Dest :=
  fun _ c f => .s f.rd.toNat (g (c.sreg f.ra.toNat) (c.sreg (f.imm.toNat / 128)))
/-- A scalar result of one 64-bit source and the immediate field. -/
def scaImm (g : DWord → BitVec 12 → DWord) : State → Core → ScaF → Dest :=
  fun _ c f => .s f.rd.toNat (g (c.sreg f.ra.toNat) f.imm)
/-- A predicate result: every bit of p[RD[2:0]] takes the test of two 64-bit sources. -/
def scaTest (g : DWord → DWord → Bool) : State → Core → ScaF → Dest :=
  fun _ c f => .p (f.rd.toNat % 8) (BitVec.allOnes 256)
    (if g (c.sreg f.ra.toNat) (c.sreg (f.imm.toNat / 128)) then BitVec.allOnes 256 else 0)

/-- The scalar operations with their latencies and results (04 Table BDL-12). -/
def scaTable : List (ScaOp × (CoreId → ScaF → Instr) × Nat × (State → Core → ScaF → Dest)) :=
  [(.add, .add, 1, scaOf (· + ·)), (.sub, .sub, 1, scaOf (· - ·)), (.addi, .addi, 1, scaImm fun x i => x + i.signExtend 64),
   (.shin, .shin, 1, scaImm fun x i => (x <<< 12) ||| i.setWidth 64), (.and, .andOp, 1, scaOf (· &&& ·)),
   (.or, .orOp, 1, scaOf (· ||| ·)), (.xor, .xorOp, 1, scaOf (· ^^^ ·)), (.shl, .shl, 1, scaOf fun x y => x <<< (y.toNat % 64)),
   (.shr, .shr, 1, scaOf fun x y => x >>> (y.toNat % 64)), (.sra, .sra, 1, scaOf fun x y => x.sshiftRight (y.toNat % 64)),
   (.shli, .shli, 1, scaImm fun x i => x <<< (i.toNat % 64)), (.shri, .shri, 1, scaImm fun x i => x >>> (i.toNat % 64)),
   (.mul, .mul, 3, scaOf (· * ·)), (.cmpeq, .cmpeq, 1, scaTest fun x y => x == y), (.cmplt, .cmplt, 1, scaTest BitVec.slt),
   (.cmpltu, .cmpltu, 1, scaTest BitVec.ult),
   (.aaddi, .aaddi, 1, fun _ c f => .a (f.rd.toNat % 16) (c.areg (f.ra.toNat % 16) + f.imm.signExtend 32 * 16)),
   (.amov, .amov, 1, fun _ c f => .a (f.rd.toNat % 16) ((c.sreg f.ra.toNat).setWidth 32)),
   (.smova, .smova, 1, fun _ c f => .s f.rd.toNat ((c.areg (f.ra.toNat % 16)).setWidth 64)),
   (.getv, .getv, 2, fun _ c f => .s f.rd.toNat ((c.lane (f.imm.toNat % 64) ((c.sreg f.ra.toNat).toNat % 256)).setWidth 64)),
   (.getf, .getf, 1, fun _ c f => .s f.rd.toNat (BitVec.ofNat 64 c.sticky.toNat)),
   (.getlc, .getlc, 1, fun _ c f => .s f.rd.toNat (((c.loops[f.imm.toNat % 4]?).map fun l => l.count.setWidth 64).getD 0)),
   (.gett, .gett, 2, fun s c f => .s f.rd.toNat (BitVec.ofNat 64 (s.copyTick (c.site.toNat / 512))))]

end Sys2Proof.Machine

/-- 04 R92 with Table BDL-12: an SCA operation that is performed queues its one result at its latency, with no flag; one that is not performed
leaves its core alone. Nothing else of the machine changes but the RUN's flow. -/
def Obligations.ScalarOperations : Prop :=
  ∀ p ∈ scaTable, ∀ (s : State) (core : CoreId) (f : ScaF) (r : RunState),
    s.Issues core.toNat r (.sca p.1 f) →
    exec (p.2.1 core f) s = .next (s.issuedOp core.toNat r (.sca p.1 f)
      (if (s.core core.toNat).performed f.pred f.pneg then
        (s.core core.toNat).emit (if f.sca1 then 5 else 4) p.2.2.1 [p.2.2.2 s (s.core core.toNat) f] .none
       else s.core core.toNat))

namespace Sys2Proof.Machine

/-- The loads of the MEM slot: bytes of a word, latency, what the load fills (04 Table BDL-14). -/
def loadTable : List (MemOp × (CoreId → MemF → Instr) × Nat × Nat × (Core → MemF → LoadKind)) :=
  [(.vld, .vld, 16, 4, fun c f => .vld f.reg.toNat (c.mask f.pred f.pneg)), (.sld, .sld, 8, 3, fun _ f => .sld (f.reg.toNat % 32)),
   (.ald, .ald, 4, 3, fun _ f => .ald (f.reg.toNat % 16)), (.pld, .pld, 32, 4, fun _ f => .pld (f.reg.toNat % 8))]

/-- The stores of the MEM slot: bytes of a word, and the bytes written at an address (04 Table BDL-14). -/
def storeTable : List (MemOp × (CoreId → MemF → Instr) × Nat × (Core → MemF → List Nat → List (Nat × List Byte))) :=
  [(.vst, .vst, 16, fun c f as_ => vstChunks c f (c.mask f.pred f.pneg) 0 as_),
   (.sst, .sst, 8, fun c f as_ => as_.map fun a => (a, leBytes 8 (c.sreg (f.reg.toNat % 32)).toNat)),
   (.ast, .ast, 4, fun c f as_ => as_.map fun a => (a, leBytes 4 (c.areg (f.reg.toNat % 16)).toNat)),
   (.pst, .pst, 32, fun c f as_ => as_.map fun a => (a, leBytes 32 (c.preg (f.reg.toNat % 8)).toNat))]

/-- Whether a MEM operation is performed in its lanes, not whole (04 R80). -/
def MemOp.byLane (op : MemOp) : Bool := op == .vld || op == .vst

/-- The word addresses of a MEM operation (04 R81, R93): SIZE + 1 strided words for VLD and VST, one word for the rest, from the address
formed modulo 2^23 with the low bits ignored. -/
def memWords (c : Core) (op : MemOp) (w : Nat) (f : MemF) : List Nat :=
  let a := ((c.areg f.areg.toNat).toNat + f.addr.toNat) % 2 ^ 23 / w * w
  if op.byLane then (List.range (f.size.toNat + 1)).map fun i => a + i * f.stride.toNat * 16 else [a]

end Sys2Proof.Machine

/-- 04 R93, R80, R81: a MEM operation that is performed reads, or writes, in cycle t + 1 the words its address forms; a load's result is due
at its latency, a store writes the register's value of cycle t, and its words are the only bytes it will store. A word that leaves the
scratchpad faults the RUN with MEM_UNMAPPED. SLD, SST, ALD, AST, PLD and PST whose mask bit 0 is zero do nothing. -/
def Obligations.MemOperations : Prop :=
  (∀ p ∈ loadTable, ∀ (s : State) (core : CoreId) (f : MemF) (r : RunState),
    s.Issues core.toNat r (.mem p.1 f) →
    let c := s.core core.toNat
    let as_ := memWords c p.1 p.2.2.1 f
    ((p.1.byLane || c.performed f.pred f.pneg) = true → (∀ a ∈ as_, a + p.2.2.1 ≤ 0x600000) →
      exec (p.2.1 core f) s = .next (s.issuedOp core.toNat r (.mem p.1 f)
        { c with
          loads := c.loads ++ [{ at_ := c.cycle + 1, due := c.cycle + p.2.2.2.1, slot := 6, seq := c.seq, pc := c.pc,
                                 kind := p.2.2.2.2 c f, offs := as_, width := p.2.2.1 }]
          seq := c.seq + 1 })) ∧
    ((p.1.byLane || c.performed f.pred f.pneg) = true → (∃ a ∈ as_, 0x600000 < a + p.2.2.1) →
      ∃ t, exec (p.2.1 core f) s = .next t ∧ FaultedRun s t core.toNat r cMemUnmapped) ∧
    ((p.1.byLane || c.performed f.pred f.pneg) = false → exec (p.2.1 core f) s = .next (s.issuedOp core.toNat r (.mem p.1 f) c))) ∧
  (∀ p ∈ storeTable, ∀ (s : State) (core : CoreId) (f : MemF) (r : RunState),
    s.Issues core.toNat r (.mem p.1 f) →
    let c := s.core core.toNat
    let as_ := memWords c p.1 p.2.2.1 f
    ((p.1.byLane || c.performed f.pred f.pneg) = true → (∀ a ∈ as_, a + p.2.2.1 ≤ 0x600000) →
      exec (p.2.1 core f) s = .next (s.issuedOp core.toNat r (.mem p.1 f)
        { c with stores := c.stores ++ [{ at_ := c.cycle + 1, pc := c.pc, chunks := p.2.2.2 c f as_ }] })) ∧
    ((p.1.byLane || c.performed f.pred f.pneg) = true → (∃ a ∈ as_, 0x600000 < a + p.2.2.1) →
      ∃ t, exec (p.2.1 core f) s = .next t ∧ FaultedRun s t core.toNat r cMemUnmapped) ∧
    ((p.1.byLane || c.performed f.pred f.pneg) = false → exec (p.2.1 core f) s = .next (s.issuedOp core.toNat r (.mem p.1 f) c)))

/-- 04 R94 to R97, R99: a performed CTL operation, alone in its bundle. BR, BRL and BRI redirect fetch three cycles after issue unless a
redirect is already pending; BRL writes its link address to s[RD]; LOOP opens a loop of count COUNT or s[RS], with four open it faults with
CORE_LOOP_OVERFLOW, and with count 0 it goes on after the end bundle, two cycles later; LOOPX closes the innermost loop; END makes its bundle
the RUN's last; CLRF clears the masked flags in the next cycle; TRAP ends the RUN with CORE_SW_TRAP. One that is not performed only lets the RUN go on. -/
def Obligations.ControlOperations : Prop :=
  ∀ (s : State) (core : CoreId) (f : CtlF) (r : RunState),
    let n := core.toNat
    let c := s.core n
    let goes (op : CtlOp) (d : Core) (fl : Flow) : State := s.issuedFlow n r (.ctl op f) d fl
    let fl (op : CtlOp) : Flow := c.flow r (.ctl op f)
    let jump (op : CtlOp) (dest : Nat) : Flow :=
      { fl op with redirect := (fl op).redirect.orElse fun _ => some { at_ := c.cycle + 3, target := dest } }
    let count : Nat := if f.bits.getLsbD 21 then (c.sreg (bitsOf f.bits.toNat 11 5)).toNat % 2 ^ 32 else bitsOf f.bits.toNat 11 10
    let stop : Nat := wrapPc (c.pc + 2 * (f.bits.toNat % 2 ^ 11) : Nat)
    (c.performed f.pred f.pneg = true →
      (s.Issues n r (.ctl .br f) → exec (.br core f) s = .next (goes .br c (jump .br (wrapPc (c.pc + 2 * signedOf 18 (f.bits.toNat / 16)))))) ∧
      (s.Issues n r (.ctl .brl f) → exec (.brl core f) s = .next (goes .brl
        (c.emit 7 1 [.s (f.bits.toNat / 2 ^ 17) (BitVec.ofNat 64 (linkFrom s n c.cycle r.redirect.isNone 2 (fl .brl).loops (c.cycle + 1)
          (if r.redirect.isNone then (fl .brl).next else wrapPc (c.pc + 6 : Nat)) (wrapPc (c.pc + 6 : Nat))))] .none)
        (jump .brl (wrapPc (c.pc + 2 * signedOf 17 (f.bits.toNat % 2 ^ 17)))))) ∧
      (s.Issues n r (.ctl .bri f) →
        exec (.bri core f) s = .next (goes .bri c (jump .bri ((c.sreg (f.bits.toNat / 2 ^ 17)).toNat % 2 ^ 19 / 2 * 2)))) ∧
      (s.Issues n r (.ctl .loop f) → c.loops.length < 4 → count = 0 →
        exec (.loop core f) s = .next (goes .loop c
          { fl .loop with next := wrapPc (stop + (s.headerAt n stop).len : Nat), at_ := c.cycle + 3 })) ∧
      (s.Issues n r (.ctl .loop f) → c.loops.length < 4 → count ≠ 0 →
        exec (.loop core f) s = .next (goes .loop c
          { fl .loop with loops := { start := wrapPc (c.pc + 6 : Nat), stop := stop, count := BitVec.ofNat 32 count } :: (fl .loop).loops })) ∧
      (s.Issues n r (.ctl .loop f) → 4 ≤ c.loops.length →
        ∃ t, exec (.loop core f) s = .next t ∧ FaultedRun s t n r cCoreLoopOverflow) ∧
      (s.Issues n r (.ctl .loopx f) → exec (.loopx core f) s = .next (goes .loopx c { fl .loopx with loops := (fl .loopx).loops.tail })) ∧
      (s.Issues n r (.ctl .endRun f) → exec (.endRun core f) s = .next (goes .endRun c { fl .endRun with ended := true })) ∧
      (s.Issues n r (.ctl .clrf f) →
        exec (.clrf core f) s = .next (goes .clrf { c with clrfAt := some (c.cycle + 1, f.bits.toNat % 16) } (fl .clrf))) ∧
      (s.Issues n r (.ctl .trap f) → ∃ t, exec (.trap core f) s = .next t ∧ FaultedRun s t n r cCoreSwTrap)) ∧
    (c.performed f.pred f.pneg = false →
      ∀ p ∈ ([(.br, .br), (.brl, .brl), (.bri, .bri), (.loop, .loop), (.loopx, .loopx), (.endRun, .endRun), (.clrf, .clrf), (.trap, .trap)] :
        List (CtlOp × (CoreId → CtlF → Instr))),
        s.Issues n r (.ctl p.1 f) → exec (p.2 core f) s = .next (goes p.1 c (fl p.1)))

namespace Sys2Proof.Machine

/-- The operands of a step stay in the scratchpad, and its stream has the step (03 R54; 04 R81, R85, R87). -/
def stepReadable (s : State) (n : Nat) (f : StepF) (fa fb : Fmt) (kf wa wb : Nat) : Prop :=
  let c := s.core n
  (∀ x ∈ (stepA c f fa kf wa).1.filterMap id, x + wa ≤ 0x600000) ∧ (∀ x ∈ (stepA c f fa kf wa).2.1, x < 0x600000) ∧
    (f.bsrc = 0 → (∀ x ∈ (stepB c f fb wb).1, x + wb ≤ 0x600000) ∧ ∀ x ∈ (stepB c f fb wb).2, x < 0x600000) ∧
    (f.bsrc ≠ 0 → streamFault s n (c.ctx (f.bsrc = 2)) wb = none)

/-- The step a STEP or STEPZ puts in flight, and the stream context it takes a line of. -/
def stepIssued (s : State) (c : Core) (z : Bool) (f : StepF) (fa fb : Fmt) (kf wa wb : Nat) : Core :=
  let a := stepA c f fa kf wa
  let b := stepB c f fb wb
  let x := c.ctx (f.bsrc = 2)
  let st : CubeStep :=
    { t := c.cycle, acc := f.acc.toNat, zero := z, fa := fa, fb := fb, ta := f.toffa.toInt, tb := f.toffb.toInt, aFree := a.2.2,
      draw := s.free, pc := c.pc, aUnits := a.1, aPlanes := a.2.1,
      b := if f.bsrc = 0 then .pad b.1 b.2 else .stream x (f.bsrc = 2) x.consumed, units := [] }
  let d := { c with steps := c.steps ++ [st] }
  stepIncr (if f.bsrc = 0 then d else d.setCtx (f.bsrc = 2) { x with consumed := x.consumed + 1 }) f fa fb kf wa wb

end Sys2Proof.Machine

/-- 04 R84 to R87: a performed STEP or STEPZ whose formats pair and whose operands are readable puts one step in flight at the issue cycle, on
accumulator ACC, with its operand addresses fixed and its post-increments due in the next cycle; DRAIN and DRAINZ put a drain of ACC into VD
and VD + 1 in flight; SOPEN opens its stream context from the low 30 bits of two s registers. Not performed, each only lets the RUN go on. -/
def Obligations.CubeOperations : Prop :=
  ∀ (s : State) (core : CoreId) (r : RunState),
    let n := core.toNat
    let c := s.core n
    (∀ p ∈ ([(false, .step), (true, .stepz)] : List (Bool × (CoreId → StepF → Instr))), ∀ (f : StepF) (fa fb : Fmt) (kf wa wb : Nat),
      s.Issues n r (.step p.1 f) → stepShapeOf f = some (fa, fb, kf, wa, wb) →
      (c.performed f.pred f.pneg = true → stepReadable s n f fa fb kf wa wb →
        exec (p.2 core f) s = .next (s.issuedOp n r (.step p.1 f) (stepIssued s c p.1 f fa fb kf wa wb))) ∧
      (c.performed f.pred f.pneg = false → exec (p.2 core f) s = .next (s.issuedOp n r (.step p.1 f) c))) ∧
    (∀ p ∈ ([(false, .drain), (true, .drainz)] : List (Bool × (CoreId → DrainF → Instr))), ∀ (f : DrainF),
      s.Issues n r (.drain p.1 f) →
      exec (p.2 core f) s = .next (s.issuedOp n r (.drain p.1 f)
        (if c.performed f.pred f.pneg then
          { c with
            drains := c.drains ++ [{ t := c.cycle, acc := f.acc.toNat, vd := f.vd.toNat, zero := p.1, seq := c.seq, vals := [] }]
            seq := c.seq + 1 }
         else c))) ∧
    (∀ (f : SopenF), s.Issues n r (.sopen f) →
      exec (.sopen core f) s = .next (s.issuedOp n r (.sopen f)
        (if c.performed f.pred f.pneg then
          ({ c with gens := c.gens + 1 } : Core).setCtx f.ctx
            { opened := true, gen := c.gens + 1,
              base := lineBase ((c.sreg f.sbase.toNat).toNat % 2 ^ 30) (if f.lw then 1024 else 512),
              plane := lineBase ((c.sreg f.splane.toNat).toNat % 2 ^ 30) 64, lw := f.lw, fmtb := f.fmtb.toNat,
              total := f.j.toNat, consumed := 0 }
         else c)))

/-- 04 R78: an operation that has issued keeps its slot busy for its occupancy, counted from its issue cycle; a bundle with an operation whose
slot is still busy executes nothing (every register, accumulator, memory byte and other core stands as it did) and its queue halts with CORE_SLOT_BUSY. -/
def Obligations.BusySlotHaltsQueue : Prop :=
  (∀ (s : State) (n pc len : Nat) (h : Header) (ops : List SlotOp) (r : RunState),
    (s.core n).run = some r → r.stop = none → (∃ o ∈ ops, (s.core n).cycle < Map.get 0 (s.core n).busy o.slot) →
    FaultedRun s (issueLegal s n pc len h ops) n r cCoreSlotBusy) ∧
  (∀ (c : Core) (r : RunState) (op : SlotOp) (fl : Flow), Map.get 0 (c.after r op fl).busy op.slot = c.cycle + op.occ) ∧
  (∀ (op : SlotOp), 1 < op.occ ↔ ∃ v f, op = .vec v f ∧ (v = .vperm ∨ v = .vrsum ∨ v = .vscan))

/-- 04 R73, R74, R98, R99: BUNDLE_ISSUE in the RUN's issue cycle, nothing of before a breakpoint still undelivered (05 R130), the bundle's bytes readable and inside the bundle store. All of its slots
decode: their operations issue together. A slot does not: the RUN ends with CORE_ILLEGAL_BUNDLE. With BKPT_EN set and BKPT in the header, not
yet resumed: the RUN is suspended. An uncorrectable header: all of the core's queues halt. A load or store of an earlier bundle that meets an
uncorrectable word in the cycle ends the RUN before the bundle (the model's reading of R75, log entry 113). -/
def Obligations.BundleIssue : Prop :=
  ∀ (s : State) (core : CoreId) (r : RunState),
    let n := core.toNat
    let c := s.core n
    let hb := s.readSram (bundleMA n c.pc) 2
    let h := Header.ofNat (leNat hb.1)
    let b := s.readSram (bundleMA n c.pc) h.len
    let slots := decodeSlots h.len (onesOf 8 h.slots) (b.1.drop 2)
    let fixed : State := s.setCore n { c with sramFixed := c.sramFixed + b.2.2 }
    c.run = some r → r.suspended = false → r.ended = false → r.stop = none → c.cycle = r.nextIssue → c.undelivered = false →
    (∀ i, s.slotError n = some i → ∃ t, exec (.bundleIssue core) s = .next t ∧ FaultedRun s t n r i.code) ∧
    (s.slotError n = none → hb.2.1.isSome = true → exec (.bundleIssue core) s = .next (s.fetchFail n c.pc)) ∧
    (s.slotError n = none → hb.2.1 = none → (c.bkptEn = true ∧ h.bkpt = true ∧ r.skipBkpt = false) → exec (.bundleIssue core) s = .next (s.suspend n)) ∧
    (s.slotError n = none → hb.2.1 = none → (c.bkptEn = false ∨ h.bkpt = false ∨ r.skipBkpt = true) → (r.oneShot = false ∨ r.skipBkpt = true) →
      c.pc + h.len ≤ 2 ^ 19 → b.2.1 = none →
      ((∀ p ∈ slots, p.2.isSome = true) → exec (.bundleIssue core) s = .next (issueLegal fixed n c.pc h.len h (slots.filterMap Prod.snd))) ∧
      ((∃ p ∈ slots, p.2 = none) → ∃ t, exec (.bundleIssue core) s = .next t ∧ FaultedRun s t n r cCoreIllegalBundle))

namespace Sys2Proof.Machine

/-- A core whose pipeline holds nothing but what a statement names: no load, store or drain in flight, no asynchronous access waiting, no
flag to clear, no feeder hold, every operand of its steps read, clocks running. -/
structure State.Quiet (s : State) (n : Nat) : Prop where
  loads : (s.core n).loads = []
  stores : (s.core n).stores = []
  drains : (s.core n).drains = []
  async : (s.core n).asyncWait = []
  clrf : (s.core n).clrfAt = none
  hold : (s.core n).hold = none
  read : ∀ st ∈ (s.core n).steps, st.t + 14 < (s.core n).cycle
  clocks : s.swallow n < 256
  going : ∃ r, (s.core n).run = some r ∧ r.stop = none ∧ r.suspended = false

end Sys2Proof.Machine

/-- 04 R76, 03 R49: RESULT_VISIBLE with one result due in the next cycle writes its destination and sets the flags it raised (s0, a0 and p0
discard the write); STEP_LAND with the next element due in the next cycle x adds the products of every cell at distance x - t - U of each
landing step into its accumulator element, and of no other. Neither touches memory or another core. -/
def Obligations.ResultsAndLandings : Prop :=
  (∀ (s : State) (core : CoreId) (d : Result),
    let n := core.toNat
    let c := s.core n
    s.Quiet n → c.steps = [] → c.results = [d] → d.due = c.cycle + 1 → (∀ r, c.run = some r → r.ended = true ∨ c.cycle + 1 ≤ r.nextIssue) →
    ∃ t, exec (.resultVisible core) s = .next t ∧
      (let x := c.applyRes d
       (t.core n).v = x.v ∧ (t.core n).s = x.s ∧ (t.core n).a = x.a ∧ (t.core n).p = x.p ∧ (t.core n).sticky = x.sticky ∧
        (t.core n).acc = c.acc ∧ (t.core n).results = [] ∧ (t.core n).cycle = c.cycle + 1 ∧ t.mem = s.mem ∧
        ∀ j, j ≠ n → t.core j = s.core j)) ∧
  (∀ (s : State) (core : CoreId),
    let n := core.toNat
    let c := s.core n
    s.Quiet n → c.results = [] → (∃ st ∈ c.steps, st.t + c.cubeLat ≤ c.cycle + 1) →
    (∀ r, c.run = some r → r.ended = true ∨ c.cycle + 1 ≤ r.nextIssue) →
    ∃ t, exec (.stepLand core) s = .next t ∧
      (let x := c.steps.foldl (fun d st => d.landStep (c.cycle + 1) st) c
       (t.core n).acc = x.acc ∧ (t.core n).sticky = x.sticky ∧ (t.core n).v = c.v ∧ (t.core n).s = c.s ∧ (t.core n).a = c.a ∧
        (t.core n).p = c.p ∧ (t.core n).cycle = c.cycle + 1 ∧ t.mem = s.mem ∧ ∀ j, j ≠ n → t.core j = s.core j))

/-- 04 R97, 05 R109, 03 R55, R56: RUN_COMPLETE after the last bundle, with nothing in flight and every result a cycle old, ends the RUN: loops,
streams and window close, its signal is sent and its queue goes on. QUE_RUN_TIMEOUT at the boundary issue tick + LIMIT ends it with
QUE_RUN_TIMEOUT, and before the boundary does nothing. CORE_FEED_TIMEOUT of a hold that has lasted LIMIT_TICKS by the counter (11 R245) ends it with CORE_FEED_TIMEOUT,
the queue halted or draining.
STREAM_LINE_FILL brings a line of an open stream, from the stream's place in the core's own cistern, into a buffer with room for it. -/
def Obligations.RunEndsAndFeeds : Prop :=
  ∀ (s : State) (core : CoreId) (r : RunState),
    let n := core.toNat
    let c := s.core n
    (c.run = some r → r.ended = true → r.suspended = false → r.stop = none → r.nextIssue ≤ c.cycle → c.lastVis < c.cycle → c.inFlight = false →
      exec (.runComplete core) s = .next (((s.setCore n (({ c.dropRun with lastRunQ := BitVec.ofNat 2 r.queue } : Core).setQueue r.queue
        { c.queue r.queue with running := none, st := .issuing })).signal n r.queue ((c.queue r.queue).running.bind fun x => x.sig)).settle n
          r.queue)) ∧
    (c.run = some r → r.stop = none → r.suspended = false → ∀ l, r.limit = some l →
      (s.reached l = true → ∃ t, exec (.queRunTimeout core) s = .next t ∧ FaultedRun s t n r cQueRunTimeout) ∧
      (s.reached l = false → exec (.queRunTimeout core) s = .next s)) ∧
    (c.run = some r → r.stop = none → ∀ h, c.hold = some h →
      (1024 * max 1 c.feedLimit.toNat ≤ (s.pos + 2 ^ 58 - h.pos) % 2 ^ 58 →
        ∃ t, exec (.coreFeedTimeout core) s = .next t ∧ (t.core n).hold = none ∧ (t.core n).run = none ∧
          (t.queue n r.queue).lastFault = BitVec.ofNat 16 cCoreFeedTimeout ∧
          ((t.queue n r.queue).st = .halted ∨ (t.queue n r.queue).st = .draining) ∧ (∀ j, j ≠ n → t.core j = s.core j)) ∧
      ((s.pos + 2 ^ 58 - h.pos) % 2 ^ 58 < 1024 * max 1 c.feedLimit.toNat → exec (.coreFeedTimeout core) s = .next s)) ∧
    (∀ (b : Bool) (line : BitVec 21),
      let x := c.ctx b
      let rd := s.readCodewords (n * 2 ^ 30 + x.base + line.toNat * x.lineSize) (x.lineSize / 64)
      let pl := if x.hasPlane then rd.1.readCodewords (n * 2 ^ 30 + x.plane + line.toNat * 64) 1 else (rd.1, [])
      c.steps = [] → c.hold = none → x.opened = true → x.consumed ≤ line.toNat → line.toNat < x.total + 14 → c.line x.gen line.toNat = none →
      x.lineCost + c.claimed x (c.ctx !b) + (c.lines.map fun l => l.bytes.length + l.plane.length).sum ≤ 131072 →
      (∀ o ∈ rd.2 ++ pl.2, ∃ bs, o = .data bs) →
      ∃ t fl, exec (.streamLineFill core b line) s = .next t ∧ (t.core n).lines = c.lines ++ [fl] ∧ fl.gen = x.gen ∧ fl.line = line.toNat ∧
        fl.bytes = rd.2.flatMap (fun o => match o with | .data bs => bs | _ => []) ∧
        fl.plane = pl.2.flatMap (fun o => match o with | .data bs => bs | _ => []) ∧ fl.bad = [] ∧ fl.code = 0 ∧
        (t.core n).run = c.run ∧ (t.core n).acc = c.acc)

/-- 03 R61, R62: in a cycle that leaves its bank free, an asynchronous write stores its 16 bytes at its bank word with good check bits and
changes no other byte; a read of a word without bit errors delivers the 16 bytes; in a cycle that needs the bank, the access waits. A bank
that has refused for 64 cycles serves the oldest access waiting for it, an asynchronous port's or a bank word of a master's request, holding the
core for one cycle where the cycle needs the bank. While the core's clock is withheld every access waits (R67). -/
def Obligations.AsyncPorts : Prop :=
  ∀ (s : State) (core : CoreId),
    let n := core.toNat
    let c := s.core n
    (∀ (off : BitVec 23) (data : BitVec 128), Memory.wf s.mem = true → off.toNat < 0x600000 → s.clocked n = true →
      c.bankUsed (bankOf (off.toNat / 16)) = false →
      ∃ t, exec (.asyncScratchpadAccess core true off data) s = .next t ∧
        (∀ a, Map.get 0 t.mem a = if padMA n (off.toNat / 16 * 16) ≤ a ∧ a < padMA n (off.toNat / 16 * 16) + 16 then
            data.extractLsb' (8 * (a - padMA n (off.toNat / 16 * 16))) 8 else Map.get 0 s.mem a) ∧
        (∀ a, Map.get 0 t.sram (a / 8) = if padMA n (off.toNat / 16 * 16) / 8 ≤ a / 8 ∧ a / 8 < padMA n (off.toNat / 16 * 16) / 8 + 2 then 0
          else Map.get 0 s.sram (a / 8)) ∧ Memory.wf t.mem = true) ∧
    (∀ (off : BitVec 23) (data : BitVec 128), off.toNat < 0x600000 → s.clocked n = true → c.bankUsed (bankOf (off.toNat / 16)) = false →
      (∀ i, i < 2 → Map.get 0 s.sram (padMA n (off.toNat / 16 * 16) / 8 + i) = 0) →
      ∃ t, exec (.asyncScratchpadAccess core false off data) s = .next t ∧ t.mem = s.mem ∧ (t.core n).asyncBad = false ∧
        ∀ i, i < 16 → (t.core n).asyncData.extractLsb' (8 * i) 8 = Map.get 0 s.mem (padMA n (off.toNat / 16 * 16) + i)) ∧
    (∀ (wr : Bool) (off : BitVec 23) (data : BitVec 128), off.toNat < 0x600000 →
      (c.bankUsed (bankOf (off.toNat / 16)) = true ∨ s.clocked n = false) →
      c.asyncWait.contains (.port { wr := wr, off := off.toNat, data := data }) = false →
      exec (.asyncScratchpadAccess core wr off data) s =
        .next (s.setCore n { c with asyncWait := c.asyncWait ++ [.port { wr := wr, off := off.toNat, data := data }] })) ∧
    (∀ (bank : BitVec 7) (i : AsyncItem), 64 ≤ Map.get 0 c.refusals bank.toNat → s.clocked n = true →
      (c.asyncWait.find? fun i => decide (i.bank = some bank.toNat)) = some i →
      let held := if c.bankUsed bank.toNat then 1 else 0
      let sw := swallowedIn (s.swallow n) c.clocks held
      let t := s.setCore n
        { c with asyncWait := c.asyncWait.erase i, refusals := Map.set 0 c.refusals bank.toNat 0,
                 cycBank := c.cycBank + BitVec.ofNat 64 (held - sw), cycSwallow := c.cycSwallow + BitVec.ofNat 64 sw, clocks := c.clocks + held }
      exec (.asyncBankForce core bank) s = .next (match i with
        | .port a => t.asyncPerform n a
        | .word q ma k => t.serveWord n q ma k)) ∧
    (∀ (bank : BitVec 7), Map.get 0 c.refusals bank.toNat < 64 → exec (.asyncBankForce core bank) s = .next s)

/-- 05 R103, R109: a RUN at the head of its queue, with the core free, its turn come, the gate stage open and its descriptors good, takes the
next command's place: PTR moves on, s28 to s31 named by its argument mask take the descriptors' bases, the window descriptor is latched, and
the RUN executes from START_PC in the next cycle, with its limit counted from the present tick. With another RUN in progress, or before its
turn, or with its gate stage closed, it waits for the engine. -/
def Obligations.RunStarts : Prop :=
  ∀ (s : State) (core : CoreId) (q : QueueId) (c : Cmd),
    let n := core.toNat
    let w := wordOf c 1
    let args := (List.range 4).filter fun i => w.testBit (32 + i)
    let ds := s.useDescs n ((args.map fun i => (bitsOf (wordOf c 2) (12 * i) 12, [0, 1, 2, 3, 4])) ++
      if w.testBit 19 then [(bitsOf w 20 12, [3])] else [])
    s.head n q.toNat = some c → s.fenced n q.toNat c = false → c.op = 1 → w % 2 = 0 →
    ((s.core n).run = none → s.nextRun n = some q.toNat → s.gateOpen n = true → ds.2.2 = none →
      ∃ t, exec (.runCmd core q) s = .next t ∧
        (t.core n).pc = w % 2 ^ 19 ∧ (t.core n).lastRunQ = q ∧
        (t.core n).run = some
          { queue := q.toNat, limit := if bitsOf w 36 24 = 0 then none else some (ds.1.tick + bitsOf w 36 24), ticks := bitsOf w 36 24,
            left := none, nextIssue := (ds.1.core n).cycle + 1, redirect := none, ended := false, suspended := false, skipBkpt := false,
            oneShot := false, stop := none } ∧
        (t.core n).window = (if w.testBit 19 then ds.2.1.getLast?.map Desc.window else none) ∧
        (t.core n).s = ((args.zip ds.2.1).foldl (fun k p => k.setS (28 + p.1) (BitVec.ofNat 64 p.2.base)) (ds.1.core n)).s ∧
        (t.core n).v = (ds.1.core n).v ∧ (t.core n).acc = (ds.1.core n).acc ∧
        (t.queue n q.toNat).ptr = (ds.1.queue n q.toNat).ptr + 1 ∧ (t.queue n q.toNat).fetched = (ds.1.queue n q.toNat).fetched.tail ∧
        (t.queue n q.toNat).running = some { idx := (ds.1.queue n q.toNat).ptr.toNat, op := 1, sig := c.sig }) ∧
    (((s.core n).run.isSome = true ∨ s.nextRun n ≠ some q.toNat ∨ s.gateOpen n = false) →
      exec (.runCmd core q) s = .next (s.waitEngine n q.toNat))

/-- 05 R105, R108: COMMAND_FETCH of a queue that issues, fewer than 8 commands ahead, not past its count nor past a RUN, FLAG_WAIT or FENCE,
with no fetch under way and its core's clock running (03 R67), takes the 32 bytes at BASE + 32 × index into its fetched commands; a fetch that faults halts the queue. A head command whose OP Table QUE-1 does
not list halts the queue with QUE_BAD_COMMAND, whatever row takes it. -/
def Obligations.CommandsAreFetched : Prop :=
  ∀ (s : State) (core : CoreId) (q : QueueId),
    let n := core.toNat
    let x := s.queue n q.toNat
    let i := x.ptr.toNat + x.fetched.length
    let rd := s.track (.fetch n q.toNat) AccRes.isWait fun s =>
      s.readMA (.fetch n q.toNat) (s.coreMaster n) ((x.base.toNat / 32 * 32 + 32 * i) % 2 ^ 48) 32
    ((x.st = .issuing ∨ x.st = .waitEngine) → x.fetched.length < 8 → i < x.count.toNat → x.wait = none → x.fence = none → x.running = none →
      (x.fetched.any fun c => c.op == 1 || c.op == 8 || c.op == 9) = false → s.coreReset.contains n = false →
      s.accOf (.fetch n q.toNat) = none → s.queueStalled n q.toNat = false → s.clocked n = true →
      (∀ bs, rd.2 = .ok bs →
        exec (.commandFetch core q) s = .next (rd.1.setQueue n q.toNat
          { rd.1.queue n q.toNat with fetched := x.fetched ++ [BitVec.ofNat 256 (leNat bs)] })) ∧
      (∀ code a, rd.2 = .fault code a →
        exec (.commandFetch core q) s = .next (rd.1.haltQueue n q.toNat { cmd := i, code := code, detail := a }))) ∧
    (∀ p ∈ ([.runCmd, .flagSet, .flagAdd, .flagWait, .fence, .copy, .cascade, .gather, .fill, .bank, .send, .recv] : List (CoreId → QueueId → Instr)),
      ∀ c, s.head n q.toNat = some c → s.fenced n q.toNat c = false → (c.op = 0 ∨ 9 < c.op) →
        exec (p core q) s = .next (s.haltQueue n q.toNat { cmd := x.ptr.toNat, code := cQueBadCommand, opcode := c.op, detail := 0 }))

/-- 05 R102, R107, R120: FLAG_SET and FLAG_ADD at the head of a queue of a partition send one update of their flag to its home, with their
completion; FENCE holds its queue until every earlier command has completed, which is at once when none is in flight. -/
def Obligations.FlagSetsAndFences : Prop :=
  ∀ (s : State) (core : CoreId) (q : QueueId) (c : Cmd),
    let n := core.toNat
    let w := wordOf c 1
    s.head n q.toNat = some c → s.fenced n q.toNat c = false →
    (∀ p ∈ ([(0, .flagSet), (1, .flagAdd)] : List (Nat × (CoreId → QueueId → Instr))), ∀ (k : Nat),
      c.op = 7 → bitsOf w 12 2 = p.1 → s.partOf n = some k →
      exec (p.2 core q) s = .next { s.launchCmd n q.toNat c with
        flagUpds := (s.launchCmd n q.toNat c).flagUpds ++
          [{ part := k, flag := w % 4096, add := p.1 == 1, value := BitVec.ofNat 32 (w >>> 32), by_ := .queue n q.toNat,
             done := some (n, q.toNat, (s.queue n q.toNat).ptr.toNat), wcs := none }] }) ∧
    (c.op = 9 →
      exec (.fence core q) s = .next (((s.issued n q.toNat).setQueue n q.toNat
        { (s.issued n q.toNat).queue n q.toNat with
          fence := some { idx := (s.queue n q.toNat).ptr.toNat, dinv := (wordOf c 1).testBit 0, sig := c.sig }, st := .waitEngine }).settle n q.toNat))

/-- 05 R121: a wait holds when the flag minus V, as a signed 32-bit number, is zero or more (COND 0), or when they are equal (COND 1). A
FLAG_WAIT whose condition holds at its home as it issues completes at once, no update of its port being on its way to that home before it
(10 R223); another waits there, and the update after which its condition holds completes it: the flag takes its new value, each of the
partition's queues waiting on it whose condition now holds goes on, while the others wait on, and the waits that were behind this update
move up. An update with an earlier one of its port still on its way to the same home does not pass it. -/
def Obligations.FlagWaits : Prop :=
  (∀ (w : FWait) (v : Word), w.holds v = true ↔ (w.eq = false ∧ 0 ≤ (v - w.target).toInt) ∨ (w.eq = true ∧ v = w.target)) ∧
  (∀ (s : State) (core : CoreId) (q : QueueId) (c : Cmd) (k : Nat),
    let n := core.toNat
    let w := wordOf c 1
    let fw : FWait :=
      { idx := (s.queue n q.toNat).ptr.toNat, flag := w % 4096, eq := w.testBit 12, target := BitVec.ofNat 32 (wordOf c 2),
        ticks := bitsOf w 16 24, expiry := s.tick + bitsOf w 16 24, sig := c.sig,
        behind := (s.flagUpds.filter (s.sameWay (.queue n q.toNat) k (w % 4096))).length,
        peer := if (wordOf c 2).testBit 43 then some (bitsOf (wordOf c 2) 32 9, bitsOf (wordOf c 2) 41 2) else none }
    s.head n q.toNat = some c → s.fenced n q.toNat c = false → c.op = 8 → bitsOf w 16 24 ≠ 0 → s.partOf n = some k →
    (s.issued n q.toNat).homeFenced k (w % 4096) = false →
    (fw.behind = 0 → fw.holds ((s.issued n q.toNat).flag k (w % 4096)).value = true →
      exec (.flagWait core q) s = .next ((s.issued n q.toNat).completeWait n q.toNat fw)) ∧
    ((fw.behind ≠ 0 ∨ fw.holds ((s.issued n q.toNat).flag k (w % 4096)).value = false) →
      exec (.flagWait core q) s = .next ((s.issued n q.toNat).setQueue n q.toNat
        { (s.issued n q.toNat).queue n q.toNat with wait := some fw, st := .waitFlag }))) ∧
  (∀ (s : State) (part : BitVec 5) (flag : BitVec 12) (nth : BitVec 8) (u : FlagUpd),
    (s.flagUpds.filter fun u => u.part = part.toNat ∧ u.flag = flag.toNat)[nth.toNat]? = some u →
    s.partReset.contains part.toNat = false → s.homeFenced part.toNat flag.toNat = false →
    let before := (s.flagUpds.takeWhile (· ≠ u)).any (s.sameWay u.by_ part.toNat flag.toNat)
    let s1 : State := { s with flagUpds := s.flagUpds.erase u }
    let v := if u.add then (s.flag part.toNat flag.toNat).value + u.value else u.value
    let s2 : State := { s1 with flags := Map.set {} s1.flags (4096 * part.toNat + flag.toNat) { value := v, last := u.by_ } }
    (before = true → exec (.flagUpdate part flag nth) s = .next s) ∧
    (before = false → exec (.flagUpdate part flag nth) s = .next
      ((((s2.waiters part.toNat flag.toNat).foldl (fun t w => if w.2.2.holds v then t.completeWait w.1 w.2.1 w.2.2 else t) s2).updateDone
        u).registerWaits u)))

/-- 05 R122, R124, of a wait that has reached its home: QUE_WAIT_TIMEOUT before the expiry boundary does nothing; at the boundary the flag is evaluated once more: a wait that holds
completes, one that does not halts its queue with QUE_WAIT_TIMEOUT, its record naming the flag and no memory byte changing. -/
def Obligations.WaitsTimeOut : Prop :=
  ∀ (s : State) (core : CoreId) (q : QueueId) (w : FWait) (k : Nat),
    let n := core.toNat
    (s.queue n q.toNat).wait = some w → s.partOf n = some k → s.homeFenced k w.flag = false → w.behind = 0 →
    (s.reached w.expiry = false → exec (.queWaitTimeout core q) s = .next s) ∧
    (s.reached w.expiry = true → w.holds (s.flag k w.flag).value = true →
      exec (.queWaitTimeout core q) s = .next (s.completeWait n q.toNat w)) ∧
    (s.reached w.expiry = true → w.holds (s.flag k w.flag).value = false →
      ∃ t, exec (.queWaitTimeout core q) s = .next t ∧ (t.queue n q.toNat).lastFault = BitVec.ofNat 16 cQueWaitTimeout ∧
        ((t.queue n q.toNat).st = .halted ∨ (t.queue n q.toNat).st = .draining) ∧ (t.queue n q.toNat).wait = none ∧
        wordOf (t.queue n q.toNat).record 0 = w.idx % 2 ^ 32 * 2 ^ 32 + n % 512 * 2 ^ 18 + q.toNat % 4 * 2 ^ 16 + cQueWaitTimeout ∧
        wordOf (t.queue n q.toNat).record 4 = (s.flag k w.flag).value.toNat * 2 ^ 32 + w.flag % 4096 ∧ t.mem = s.mem)

/-- 05 R106, R118, R129, R130: START of an idle or halted queue clears its pointer, fault and record, frees its stopped DMA channels, drops a
suspended RUN of its and lets it issue; of another it does nothing. HALT stops a queue without a fault; RESUME lets a suspended RUN go on, for one
bundle with STEP, its limit running again; without a suspended RUN it does nothing. -/
def Obligations.QueueControl : Prop :=
  ∀ (s : State) (core : CoreId) (q : QueueId),
    let n := core.toNat
    let x := s.queue n q.toNat
    ((x.st = .idle ∨ x.st = .halted) →
      exec (.startQueue core q) s = .next ((s.setCore n
        (((if s.suspended n q.toNat then (s.core n).dropRun else s.core n).freeStopped q.toNat).setQueue q.toNat
          { x with ptr := 0, lastFault := 0, st := .issuing, fetched := [], wait := none, fence := none, running := none, record := 0 })).settle
            n q.toNat)) ∧
    (x.st ≠ .idle → x.st ≠ .halted → exec (.startQueue core q) s = .next s) ∧
    (x.st ≠ .halted → x.st ≠ .draining →
      exec (.haltQueue core q) s = .next (((s.stopQueue n q.toNat).setQueue n q.toNat
        { (s.stopQueue n q.toNat).queue n q.toNat with lastFault := 0 }).finishJobs)) ∧
    (∀ p ∈ ([(false, .resumeRun), (true, .resumeStep)] : List (Bool × (CoreId → QueueId → Instr))),
      (s.suspended n q.toNat = false → exec (p.2 core q) s = .next s) ∧
      (∀ r, (s.core n).run = some r → r.suspended = true → r.queue = q.toNat →
        exec (p.2 core q) s = .next (s.setCore n (({ s.core n with
          run := some { r with
            suspended := false, skipBkpt := true, oneShot := p.1, limit := r.left.map fun l => s.tick + l, left := none,
            nextIssue := max r.nextIssue (s.core n).cycle, stop := none } } : Core).setQueue q.toNat { x with st := .issuing }))))

/-- 05 R104, R113, R114, R118: COPY, CASCADE, GATHER and FILL at the head of a queue that holds fewer than 8 channels, with a channel
free, the gate stage open, good descriptors of kinds the mode takes, a shape it accepts and paged sequences of its partition, are issued on
the lowest-numbered free channel, which moves the outer range OUTER_START up to the end its OUTER_COUNT gives (0: the whole extent); with a
paged side its first block's translation comes to the home arbiter. With
no channel free, 8 held, or the stage closed, the queue waits for an engine; MODE or RND reserved halts it with QUE_BAD_COMMAND. -/
def Obligations.DmaCommandsStart : Prop :=
  ∀ p ∈ ([(0, .copy), (1, .cascade), (2, .gather), (3, .fill)] : List (Nat × (CoreId → QueueId → Instr))),
  ∀ (s : State) (core : CoreId) (q : QueueId) (c : Cmd),
    let n := core.toNat
    let ks := dmaKinds p.1
    let ds := s.useDescs n ((if p.1 = 3 then [] else [(c.dsrc, ks.1)]) ++ [(c.ddst, ks.2)])
    let dst := ds.2.1.getLastD 0
    let src := if p.1 = 3 then dst else ds.2.1.headD 0
    s.head n q.toNat = some c → s.fenced n q.toNat c = false → c.op = 2 →
    ((4 ≤ c.dmode ∨ bitsOf (wordOf c 1) 28 2 = 3) → exec (p.2 core q) s = .next (s.refuseCmd n q.toNat c cQueBadCommand 0)) ∧
    (c.dmode = p.1 → bitsOf (wordOf c 1) 28 2 ≠ 3 →
      ((s.gateOpen n = false ∨ (s.core n).freeCh = none ∨ 8 ≤ (s.core n).heldCh q.toNat) →
        exec (p.2 core q) s = .next (s.waitEngine n q.toNat)) ∧
      (∀ i, s.gateOpen n = true → (s.core n).freeCh = some i → (s.core n).heldCh q.toNat < 8 → ds.2.2 = none →
        dmaShape c src dst = none →
        (∀ v ∈ dmaSeqs src dst, ∃ k, ds.1.partOf n = some k ∧ ds.1.seqMine k v = true) →
        let x : DmaCh := { queue := q.toNat, idx := (ds.1.queue n q.toNat).ptr.toNat, cmd := c, src := src, dst := dst, next := c.ostart,
                           stop := c.oend (dst.ext dst.outer), stopped := false }
        exec (p.2 core q) s = .next ((((ds.1.launchCmd n q.toNat c).setDma n i (some x)).askPage n i x).dmaRun n i
          (c.oend (dst.ext dst.outer) - c.ostart + 1))))

/-- 05 R114, R116: a COPY row between tensors of one format without block bytes, whose elements are whole bytes, reads the source's bytes and
writes those bytes at the destination; a FILL row writes the converted fill value at every element; a GATHER row whose every tap lies in the
padding is zeros. Reads and writes are requests of the access of that row. A channel whose outer index faults stops, and its command with it. -/
def Obligations.DmaRows : Prop :=
  ∀ (s : State) (n r x0 len : Nat) (x : DmaCh) (a b : Int × Nat) (who : Who),
    (x.cmd.dmode = 0 → x.src.fm = x.dst.fm → x.src.fm.isBlock = false → x.src.fm.bits % 8 = 0 →
      let w := x.src.fm.bits / 8
      let rd := s.readMA who (s.coreMaster n) (ma48 (a.1 + (x0 * w : Nat))) (len * w)
      let mv := s.moveRow n x r x0 len a b who
      (rd.2 = .wait → mv = (rd.1, .wait)) ∧
      ∀ bs, rd.2 = .ok bs →
        let wr := rd.1.writeMA who (s.coreMaster n) (ma48 (b.1 + (x0 * w : Nat))) (leBytes (len * w) (leNat bs))
        mv.1 = wr.1 ∧ (∀ cs, wr.2 = .ok cs → mv.2 = .ok [] []) ∧ (wr.2 = .wait → mv.2 = .wait) ∧
          (∀ code ma, wr.2 = .fault code ma → mv.2 = .fault code ma)) ∧
    (x.cmd.dmode = 3 → s.accMade who = false →
      let cv := s.convRow n x (List.replicate len (fpVal .fp32 x.cmd.fillv))
      s.moveRow n x r x0 len a b who = cv.1.writeRow (s.coreMaster n) x.dst.fm b x0 cv.2.1 cv.2.2 who) ∧
    (∀ p, (∀ tap, x.src.window.position p tap = none) →
      let w := x.src.window
      let taps := w.kw * (if w.twoD then w.kh else 1)
      s.gatherRow (s.coreMaster n) x p who = (s, .ok (List.replicate (taps * w.chans) 0) (List.replicate (taps * (w.chans / 32)) 0))) ∧
    (∀ i fuel code ma, (s.core n).dmaCh i = some x → x.stopped = false → x.next < x.stop → dmaSeqs x.src x.dst = [] →
      s.accFin (.dma n i x.next) = false → (s.dmaRow n i x x.next).2 = .fault code ma →
      s.dmaRun n i (fuel + 1) = (s.dmaRow n i x x.next).1.dmaStop n i x code ma)

/-- 05 R102, R118: a channel that has moved its range is freed and its command completes, while its core's clock runs (03 R67). 09 R207, R211: a
channel with a paged side obtains the frames of its next block once its translation stands at the head of its sequences' orders, and moves the
block's tokens, as far as memory lets it; then the next block's translation comes to the arbiter. A token at or beyond LEN, or without a page,
or a page to be written that is shared, stops the channel with ATT_BEYOND_LEN or ATT_PAGE_SHARED and the token as detail. -/
def Obligations.DmaCompletes : Prop :=
  (∀ (s : State) (core : CoreId) (ch : BitVec 4) (x : DmaCh),
    (s.core core.toNat).dmaCh ch.toNat = some x → x.stopped = false → x.stop ≤ x.next → s.clocked core.toNat = true →
      exec (.dmaComplete core ch) s = .next ((s.setDma core.toNat ch.toNat none).completeCmd core.toNat x.queue x.idx)) ∧
  (∀ (s : State) (core : CoreId) (ch : BitVec 4), s.clocked core.toNat = false →
    exec (.dmaComplete core ch) s = .next s ∧ exec (.pagedTranslation core ch) s = .next s) ∧
  (∀ (s : State) (core : CoreId) (ch : BitVec 4) (x : DmaCh) (a : AttItem),
    let n := core.toNat
    let len := blockLeft x.dst x.cmd.dadj x.next (blockLeft x.src x.cmd.sadj x.next (x.stop - x.next))
    let u : State := { s with att := s.att.erase a }
    (s.core n).dmaCh ch.toNat = some x → x.stopped = false → x.next < x.stop → dmaSeqs x.src x.dst ≠ [] → s.clocked n = true →
    x.page = none → (s.att.find? fun b => b.transOf n ch.toNat && attAtHead s.att b) = some a →
    (∀ e, x.src.kind = 4 → u.translate x.src x.cmd.sadj x.next len false = .error e →
      exec (.pagedTranslation core ch) s = .next (u.dmaStop n ch.toNat x e (tokenOf x.src x.cmd.sadj x.next))) ∧
    (∀ fs, (if x.src.kind = 4 then u.translate x.src x.cmd.sadj x.next len false else .ok (0, 0)) = .ok fs →
      (∀ e, x.dst.kind = 4 → u.translate x.dst x.cmd.dadj x.next len true = .error e →
        exec (.pagedTranslation core ch) s = .next (u.dmaStop n ch.toNat x e (tokenOf x.dst x.cmd.dadj x.next))) ∧
      (∀ fd, (if x.dst.kind = 4 then u.translate x.dst x.cmd.dadj x.next len true else .ok (0, 0)) = .ok fd →
        let y := { x with page := some (fs, fd, x.next + len) }
        exec (.pagedTranslation core ch) s = .next ((u.setDma n ch.toNat (some y)).movePage n ch.toNat y)))) ∧
  (∀ (s : State) (core : CoreId) (ch : BitVec 4) (x : DmaCh) (fs fd : Nat × Nat) (stop : Nat),
    let n := core.toNat
    let m := s.moveTokens n ch.toNat x fs fd (stop - x.next)
    (s.core n).dmaCh ch.toNat = some x → x.stopped = false → x.next < x.stop → dmaSeqs x.src x.dst ≠ [] → s.clocked n = true →
    x.page = some (fs, fd, stop) →
    (∀ code ma, m.2.2 = .fault code ma → ∃ y : DmaCh, y.next = x.next + m.2.1 ∧ y.queue = x.queue ∧ y.idx = x.idx ∧ y.cmd = x.cmd ∧
      exec (.pagedTranslation core ch) s = .next (m.1.dmaStop n ch.toNat y code ma)) ∧
    (m.2.2 = .wait → exec (.pagedTranslation core ch) s = .next (m.1.setDma n ch.toNat (some { x with next := x.next + m.2.1 }))) ∧
    (∀ cs bs, m.2.2 = .ok cs bs →
      let y := { x with next := x.next + (stop - x.next), page := none }
      exec (.pagedTranslation core ch) s = .next ((m.1.setDma n ch.toNat (some y)).askPage n ch.toNat y))) ∧
  (∀ (s : State) (d : Desc) (adj : Int) (x1 len : Nat) (wr : Bool),
    let t := tokenOf d adj x1
    let c := s.seqAt d.seq
    ((c.isOpen = false ∨ c.len.toNat < t + len ∨ c.page d.layer (t / 64) = none) → s.translate d adj x1 len wr = .error cAttBeyondLen) ∧
    (∀ f e, c.isOpen = true → t + len ≤ c.len.toNat → d.layer < c.layers.toNat → c.page d.layer (t / 64) = some f →
      s.frame (t / 64 % 8) f = some e →
      s.translate d adj x1 len wr = if wr = true ∧ 1 < e.refs then .error cAttPageShared else .ok (t / 64 % 8, f)))

/-- 08 R191, R192: BANK at the head of its queue, with masks that name channels, a 64-byte aligned status address, the compute licence, the
stage open, room in every staging, good descriptors, its channels all in its partition's set and active, is accepted: its program is read once
and legal, and it is in flight as a launch ordered nowhere yet, its vector still to be fetched by each reservoir. A channel outside the
partition's set refuses it with RSV_CHANNEL_DENIED, a full staging holds it at issue, and an absent engine halts the queue with
QUE_ENGINE_ABSENT. -/
def Obligations.BankAccepts : Prop :=
  ∀ (s : State) (core : CoreId) (q : QueueId) (c : Cmd) (p : Nat),
    let n := core.toNat
    let w1 := wordOf c 1
    let w2 := wordOf c 2
    let cm := w1 >>> 32
    let rm := bitsOf w1 24 8
    let sma := w2 % 2 ^ 48
    let vecEn := w2.testBit 63
    let ds := s.useDescs n ((if vecEn then [(bitsOf w1 12 12, [0])] else []) ++ [(bitsOf w1 0 12, [0])])
    let prog := ds.2.1.getLast?.getD 0
    let vec := ds.2.1.headD 0
    s.head n q.toNat = some c → s.fenced n q.toNat c = false → c.op = 3 →
    ((cm = 0 ∨ rm = 0 ∨ sma % 64 ≠ 0) → exec (.bank core q) s = .next (s.refuseCmd n q.toNat c cQueBadCommand 0)) ∧
    (cm ≠ 0 → rm ≠ 0 → sma % 64 = 0 → ((∃ k ∈ onesOf 8 rm, s.rsvFused k = true) ∨ s.licCompute = false) →
      ∃ d, exec (.bank core q) s = .next (s.refuseCmd n q.toNat c cQueEngineAbsent d)) ∧
    (cm ≠ 0 → rm ≠ 0 → sma % 64 = 0 → (∀ k ∈ onesOf 8 rm, s.rsvFused k = false) → s.licCompute = true →
      ((s.gateOpen n = false ∨ ∃ k ∈ onesOf 8 rm, 16 ≤ s.staged k) → exec (.bank core q) s = .next (s.waitEngine n q.toNat)) ∧
      (s.gateOpen n = true → (∀ k ∈ onesOf 8 rm, s.staged k < 16) → s.partOf n = some p → ds.2.2 = none →
        (vecEn = true → vec.ndim = 1 ∧ vec.fmt = some .l8 ∧ vec.ext 0 ≤ 131072) →
        prog.ndim = 1 → prog.fmt = some .int8 → prog.ext 0 % 8 = 0 → prog.ext 0 ≤ 4096 →
        (∀ x, firstChannel rm cm (fun k ch => !(ds.1.chsetOf k p).testBit ch) = some x →
          exec (.bank core q) s = .next (ds.1.refuseCmd n q.toNat c cRsvChannelDenied (bankDetail x.1 x.2 0 0))) ∧
        (firstChannel rm cm (fun k ch => !(ds.1.chsetOf k p).testBit ch) = none →
          firstChannel rm cm (fun k ch => (ds.1.chan k ch).st != .active || !(ds.1.activeCh k).testBit ch) = none →
          let im := ds.1.track (.bankImage n q.toNat) AccRes.isWait fun s =>
            s.readMA (.bankImage n q.toNat) (rsvMaster ((onesOf 8 rm).headD 0) (some p)) prog.base (prog.ext 0)
          let v := im.1.launchCmd n q.toNat c
          let idx := (im.1.queue n q.toNat).ptr.toNat
          (im.2 = .wait → exec (.bank core q) s = .next im.1) ∧
          (∀ code ma, im.2 = .fault code ma → exec (.bank core q) s = .next (v.faultCmd n q.toNat idx { code := code })) ∧
          (∀ bs, im.2 = .ok bs →
            let img := (List.range (bs.length / 8)).map fun i => BitVec.ofNat 64 (leNat ((bs.drop (8 * i)).take 8))
            (∀ i, imageBad img = some i →
              exec (.bank core q) s = .next (im.1.refuseCmd n q.toNat c cRsvBankIllegal (bankDetail 0 0 0 i))) ∧
            (imageBad img = none →
            exec (.bank core q) s = .next ({ v with launchNo := v.launchNo + 1 }.setLaunch v.launchNo
              { kind := .bank, core := n, queue := q.toNat, idx := idx, part := p, image := img,
                chMask := BitVec.ofNat 32 cm, rsvMask := BitVec.ofNat 8 rm, statusMA := sma,
                arg0 := BitVec.ofNat 32 (wordOf c 3), arg1 := BitVec.ofNat 32 (wordOf c 3 >>> 32),
                vec := if vecEn then some (vec.base, vec.ext 0) else none, vecs := [], ordered := 0,
                left := [], units := [], fault := none, runNs := 0, tainted := 0, pauses := 0, flags := {} }))))))

/-- 08 R192: a reservoir's staging ends with its fetch of the vector, and the launch joins the arrival order of each of its channels there: behind
every item of an earlier bank-clock cycle and, of its own, behind requests and lower partitions (07 R162); a fetch that faults or a channel that
retires ends the launch. 07 R162: a launch at the head of its channel's order
takes the channel, and the units of a bank program start with g1, g2 the arguments, g3 the channel, g4 the bank group and g5 the
reservoir (08 R179), every other register, the buffer and the accumulators clear. 08 R195: a program past the reservoir's budget is stopped
with RSV_BANK_BUDGET. 08 R193: a channel whose units have all ended returns to memory mode; once all have, the status record is written and
the command completes, or faults with the launch's fault. -/
def Obligations.LaunchLife : Prop :=
  (∀ (s : State) (rsv : BitVec 3) (m : Nat) (l : Launch),
    let k := rsv.toNat
    let f := s.fetchVec k m l
    s.launch m = some l → l.kind = .bank → l.rsvMask.toNat.testBit k = true → l.ordered.toNat.testBit k = false → l.fault = none →
    (∀ code ma, f.2 = .fault code ma →
      exec (.bankLaunchOrder rsv m) s = .next (f.1.stopLaunch m (some (code, bankDetail k 0 0 0)))) ∧
    (f.2 = .wait → exec (.bankLaunchOrder rsv m) s = .next f.1) ∧
    (∀ bs v, f.2 = .ok bs → f.1.launch m = some v →
      let cs := onesOf 32 v.chMask.toNat
      (∀ c, (cs.find? fun c => (f.1.chan k c).st != .active) = some c →
        exec (.bankLaunchOrder rsv m) s = .next (f.1.stopLaunch m (some (cRsvChannelRetired, bankDetail k c 0 0)))) ∧
      ((∀ c ∈ cs, (f.1.chan k c).st = .active) →
        let t := cs.foldl (fun s c => s.order k c (64 + v.part) (.launch m)) f.1
        exec (.bankLaunchOrder rsv m) s = .next ((t.setRsv k { t.rsv k with launches := (t.rsv k).launches + 1 }).setLaunch m
          { v with ordered := v.ordered ||| BitVec.ofNat 8 (2 ^ k), left := Map.set 0 v.left k v.chMask })))) ∧
  (∀ (s : State) (m k : Nat) (l : Launch), l.vec = none → s.fetchVec k m l = (s, .ok [])) ∧
  (∀ (s : State) (k c rank : Nat) (i : ArbItem), ∃ a b : List ArbEntry, (s.chan k c).ops = a ++ b ∧
    ((s.order k c rank i).chan k c).ops = a ++ { cycle := nsIn s.time, rank := rank, item := i } :: b ∧
    (∀ e ∈ a, ¬(nsIn s.time < e.cycle ∨ (nsIn s.time = e.cycle ∧ rank < e.rank))) ∧
    (∀ e ∈ b.head?, nsIn s.time < e.cycle ∨ (nsIn s.time = e.cycle ∧ rank < e.rank))) ∧
  (∀ (s : State) (rsv : BitVec 3) (ch : BitVec 5) (m : Nat) (l : Launch) (e : ArbEntry) (rest : List ArbEntry),
    let k := rsv.toNat
    let c := ch.toNat
    (s.chan k c).ops = e :: rest → e.item = .launch m → (s.chan k c).current = none → (s.chan k c).proc = false →
    s.launch m = some l → l.kind = .bank →
    ∃ t, exec (.channelSwitch rsv ch) s = .next t ∧ (t.chan k c).current = some (.launch m) ∧ (t.chan k c).proc = true ∧
      (t.chan k c).ops = rest ∧ t.mem = s.mem ∧ t.cores = s.cores ∧
      ∃ l', t.launch m = some l' ∧ ∀ b < 8,
        let u := Map.get {} l'.units (256 * k + 8 * c + b)
        u.reg 1 = l.arg0.toNat ∧ u.reg 2 = l.arg1.toNat ∧ u.reg 3 = c ∧ u.reg 4 = b ∧ u.reg 5 = k ∧
          (∀ r, 5 < r → u.reg r = 0) ∧ u.pc = 0 ∧ u.acc = [] ∧ u.vb = [] ∧ u.ended = false) ∧
  (∀ (s : State) (rsv : BitVec 3) (ch : BitVec 5) (m : Nat) (l : Launch),
    let k := rsv.toNat
    let c := ch.toNat
    (s.chan k c).current = some (.launch m) → s.launch m = some l →
    (l.chanEnded k c = false → (s.rsv k).budgetUs.toNat * 1000 ≤ l.chanNs k c →
      exec (.rsvBankBudget rsv ch) s = .next ((s.setRsv k { s.rsv k with budgetStops := satAdd (s.rsv k).budgetStops 1 }).stopLaunch m
        (some (cRsvBankBudget, bankDetail k c 0 0)) (some ((s.rsv k).budgetUs.toNat * 1000)))) ∧
    (l.kind = .bank → l.chanEnded k c = true → exec (.channelProgramEnd rsv ch) s = .next (s.endChannel k c m l))) ∧
  (∀ (s : State) (m : Nat) (l : Launch),
    s.launch m = some l → l.kind = .bank → l.left = [] → (l.ordered = l.rsvMask ∨ l.fault.isSome = true) →
    let w := if l.statusMA = 0 then (s, .ok []) else s.track (.bankStatus m) AccRes.isWait fun s =>
      s.writeMA (.bankStatus m) (rsvMaster ((onesOf 8 l.rsvMask.toNat).headD 0) (some l.part)) l.statusMA ((statusWords l).flatMap (leBytes 8))
    let t := { w.1 with launches := Map.set none w.1.launches m none }
    (w.2 = .wait → exec (.bankComplete m) s = .next w.1) ∧
    (w.2 ≠ .wait → ∀ f, l.fault = some f →
      exec (.bankComplete m) s = .next (t.faultCmd l.core l.queue l.idx { code := f.1, detail := f.2 })) ∧
    (l.fault = none →
      (∀ bs, w.2 = .ok bs → exec (.bankComplete m) s = .next (t.completeCmd l.core l.queue l.idx)) ∧
      (∀ code ma, w.2 = .fault code ma → exec (.bankComplete m) s = .next (t.faultCmd l.core l.queue l.idx { code := code, detail := ma }))))

namespace Sys2Proof.Machine

/-- Unit `b` of channel `c` of reservoir `k` stands before the instruction `w` of bank launch `m`, within its budget (08 R187, R195). -/
structure State.AtInstr (s : State) (k c b m : Nat) (l : Launch) (w : DWord) : Prop where
  current : (s.chan k c).current = some (.launch m)
  launch : s.launch m = some l
  kind : l.kind = .bank
  live : l.fault = none
  here : l.image[(Map.get {} l.units (256 * k + 8 * c + b)).pc]? = some w
  going : (Map.get {} l.units (256 * k + 8 * c + b)).ended = false
  budget : (Map.get {} l.units (256 * k + 8 * c + b)).cycles + 110 * (Map.get {} l.units (256 * k + 8 * c + b)).pauses <
    (s.rsv k).budgetUs.toNat * 1000 + if bOp w = 6 then 1 else 0

/-- The unit of bank group `b` of channel `c` of reservoir `k` in a launch. -/
def Launch.unitOf (l : Launch) (k c b : Nat) : BUnit := Map.get {} l.units (256 * k + 8 * c + b)
/-- The vector a launch staged in a reservoir. -/
def Launch.vecOf (l : Launch) (k : Nat) : List Byte := ((l.vecs.find? fun v => v.1 = k).map Prod.snd).getD []

/-- The row of each bank instruction by its OP (08 Table BNK-4). -/
def bankRows : List (Nat × (BitVec 3 → BitVec 5 → BitVec 3 → Instr)) :=
  [(1, .bnkMovi), (2, .bnkAddi), (3, .bnkAdd), (4, .bnkSub), (5, .bnkLoop), (6, .bnkEnd), (8, .bnkClr), (16, .bnkMac), (17, .bnkMact),
   (18, .bnkSmax), (19, .bnkExpl), (24, .bnkSt), (25, .bnkLvb)]

end Sys2Proof.Machine

/-- 08 R181 to R188: a unit before an instruction of its program, within its budget (END may begin at its end), performs it, the granule writes
of its last ST made first: its effect and flow, its occupancy and result
waits, the flags and tainted granules counted in the reservoir and the launch; an instruction out of range stops the launch with
RSV_BANK_RANGE and its place. Another operation's row leaves the machine as it was. The instructions END, MOVI, ADDI, ADD, SUB and CLR
touch no bank, and a stream instruction of N = 0 does nothing to unit or bank. -/
def Obligations.BankInstructions : Prop :=
  ∀ p ∈ bankRows, ∀ (s : State) (rsv : BitVec 3) (ch : BitVec 5) (bg : BitVec 3) (m : Nat) (l : Launch) (w : DWord),
    let k := rsv.toNat
    let c := ch.toNat
    let b := bg.toNat
    let u := l.unitOf k c b
    let o := bStep s u (l.vecOf k) l.image k c b ((s.rsv k).budgetUs.toNat * 1000) w
    s.AtInstr k c b m l w →
    (bOp w ≠ p.1 → exec (p.2 rsv ch bg) s = .next s) ∧
    (bOp w = p.1 → exec (p.2 rsv ch bg) s = exec (p.2 rsv ch bg) (s.pastWrites k c b)) ∧
    (bOp w = p.1 → u.writes = [] → o.range = false → exec (p.2 rsv ch bg) s = .next (o.done k c b m l)) ∧
    (bOp w = p.1 → u.writes = [] → o.range = true →
      exec (p.2 rsv ch bg) s = .next ((o.done k c b m l).stopLaunch m (some (cRsvBankRange, bankDetail k c b u.pc))
        (some (u.cycles + 110 * u.pauses)))) ∧
    (bOp w < 16 → o.s = s) ∧
    ((16 ≤ bOp w ∧ bOp w < 20 ∨ bOp w = 25) → u.reg (bF w 36 4) = 0 → o.s = s ∧ o.u.acc = u.acc ∧ o.u.vb = u.vb ∧ o.u.g = u.g)

/-- 08 R181: MOVI, ADDI, ADD and SUB write gd modulo 2^32 (a write to g0 is discarded) and go on to the next instruction, or to the start of
the innermost loop whose last instruction they are while repetitions remain; END ends the unit; CLR zeroes its K accumulators (0 standing for
1,024) and clears their taint, and stops the program past accumulator 1,023; LOOP with a count opens a loop over the indices up to its
END, with count 0 goes to END + 1, and a third loop stops the program. -/
def Obligations.BankIntegers : Prop :=
  ∀ (s : State) (rsv : BitVec 3) (ch : BitVec 5) (bg : BitVec 3) (m : Nat) (l : Launch) (w : DWord),
    let k := rsv.toNat
    let c := ch.toNat
    let b := bg.toNat
    let u := l.unitOf k c b
    let ga := u.reg (bF w 50 4)
    let gb := u.reg (bF w 46 4)
    let after : BUnit → Prop := fun v =>
      (∀ lp ls, u.loops = lp :: ls → lp.stop = u.pc → 1 < lp.count.toNat →
        v.pc = lp.start ∧ v.loops = { lp with count := lp.count - 1 } :: ls) ∧
      (∀ lp ls, u.loops = lp :: ls → lp.stop = u.pc → lp.count.toNat ≤ 1 → v.pc = u.pc + 1 ∧ v.loops = ls) ∧
      (∀ lp ls, u.loops = lp :: ls → lp.stop ≠ u.pc → v.pc = u.pc + 1 ∧ v.loops = u.loops) ∧
      (u.loops = [] → v.pc = u.pc + 1 ∧ v.loops = [])
    s.AtInstr k c b m l w → u.writes = [] → u.pc + 1 < l.image.length → (∀ lp ∈ u.loops, lp.start < l.image.length) →
    (∀ p ∈ ([(1, .bnkMovi, bF w 0 32), (2, .bnkAddi, ga + bF w 0 32), (3, .bnkAdd, ga + gb), (4, .bnkSub, ga + 2 ^ 32 - gb)] :
        List (Nat × (BitVec 3 → BitVec 5 → BitVec 3 → Instr) × Nat)),
      bOp w = p.1 → ∃ t l', exec (p.2.1 rsv ch bg) s = .next t ∧ t.launch m = some l' ∧ t.mem = s.mem ∧
        (∀ r, (l'.unitOf k c b).reg r = if r = bF w 54 4 ∧ r ≠ 0 then p.2.2 % 2 ^ 32 else u.reg r) ∧
        (l'.unitOf k c b).acc = u.acc ∧ (l'.unitOf k c b).vb = u.vb ∧ (l'.unitOf k c b).flags = u.flags ∧ after (l'.unitOf k c b) ∧
        (∀ key, key ≠ 256 * k + 8 * c + b → Map.get {} l'.units key = Map.get {} l.units key)) ∧
    (bOp w = 6 → ∃ t l', exec (.bnkEnd rsv ch bg) s = .next t ∧ t.launch m = some l' ∧ t.mem = s.mem ∧
      (l'.unitOf k c b).ended = true ∧ (l'.unitOf k c b).g = u.g ∧ (l'.unitOf k c b).acc = u.acc ∧ (l'.unitOf k c b).vb = u.vb) ∧
    (bOp w = 8 →
      let cnt := if bF w 10 11 = 0 then 1024 else bF w 10 11
      (bF w 0 10 + cnt ≤ 1024 → ∃ t l', exec (.bnkClr rsv ch bg) s = .next t ∧ t.launch m = some l' ∧ t.mem = s.mem ∧
        (∀ i, (l'.unitOf k c b).accAt i = if bF w 0 10 ≤ i ∧ i < bF w 0 10 + cnt then {} else u.accAt i) ∧
        (∀ i, (l'.unitOf k c b).accBad i = if bF w 0 10 ≤ i ∧ i < bF w 0 10 + cnt then false else u.accBad i) ∧
        (l'.unitOf k c b).g = u.g ∧ after (l'.unitOf k c b)) ∧
      (1024 < bF w 0 10 + cnt → ∃ t l', exec (.bnkClr rsv ch bg) s = .next t ∧ t.launch m = some l' ∧
        l'.fault = some (cRsvBankRange, bankDetail k c b u.pc) ∧ (l'.unitOf k c b).ended = true)) ∧
    (bOp w = 5 → u.loops = [] →
      let cnt := if bF w 50 4 = 0 then bF w 16 16 else ga
      (cnt ≠ 0 → ∃ t l', exec (.bnkLoop rsv ch bg) s = .next t ∧ t.launch m = some l' ∧ t.mem = s.mem ∧
        (l'.unitOf k c b).loops = [{ start := u.pc + 1, stop := bF w 0 9, count := BitVec.ofNat 32 cnt }] ∧
        (l'.unitOf k c b).pc = u.pc + 1 ∧ (l'.unitOf k c b).g = u.g) ∧
      (cnt = 0 → bF w 0 9 + 1 < l.image.length → ∃ t l', exec (.bnkLoop rsv ch bg) s = .next t ∧ t.launch m = some l' ∧ t.mem = s.mem ∧
        (l'.unitOf k c b).loops = [] ∧ (l'.unitOf k c b).pc = bF w 0 9 + 1 ∧ (l'.unitOf k c b).g = u.g))

/-- 08 R182, R185: a MAC of L8 lines within its ranges reads N lines of the banks, and each of its accumulators, one for each row of RLEN lines
and each of 2^GLOG vectors, takes the products of the row's codes with the buffer codes of its vector, merged in groups of eight lines in
order; every other accumulator, the general registers and the buffer stay (MREG with INC: advanced by N). Of a MAC that the budget stops after
`room` cycles the whole rows read by then act (R195; the model's choice, log entry 47). -/
def Obligations.BankMac : Prop :=
  ∀ (s : State) (u : BUnit) (vec : List Byte) (k c b room : Nat) (f : BStr),
    let n := u.reg f.nreg
    let g := 2 ^ f.glog
    let rows := n / f.rlen
    let per := (128 * g + 1023) / 1024
    let done := if n * per ≤ room then rows else min rows (room / per / f.rlen)
    let o := bMac s u vec k c b f room
    let rd := s.readTerms k c b false f.tm (u.reg f.mreg) (u.reg (f.mreg + 1)) (done * f.rlen)
    let products : Nat → Nat → Nat → List (Bool × Int) := fun row gg j =>
      ((List.range (min 8 (f.rlen - 8 * j))).flatMap fun i =>
        ((rd.2.getD (row * f.rlen + 8 * j + i) []).zipIdx).map fun e =>
          termMul e.1.1 (l8Term (u.vbAt vec (u.reg f.vreg + gg * u.reg f.sreg + (8 * j + i) * 128 + e.2)) f.tv)).filterMap id
    f.fmt = 0 → 1 ≤ f.rlen → n ≠ 0 → n % f.rlen = 0 → u.reg f.mreg + n ≤ bLines → f.acc + rows * g ≤ 1024 →
    u.reg f.vreg + (g - 1) * u.reg f.sreg + f.rlen * 128 ≤ 131072 →
      o.range = false ∧ o.s = rd.1 ∧
      (∀ row gg, row < done → gg < g → o.u.accAt (f.acc + row * g + gg) =
        (List.range ((f.rlen + 7) / 8)).foldl
          (fun a j => match accGroup (products row gg j) with | none => a | some x => (a.merge x).1) (u.accAt (f.acc + row * g + gg))) ∧
      (∀ i, (i < f.acc ∨ f.acc + done * g ≤ i) → o.u.accAt i = u.accAt i) ∧
      o.u.vb = u.vb ∧ o.u.pc = u.pc ∧ (f.inc = false → o.u.g = u.g) ∧
      (f.inc = true → ∀ r, o.u.reg r = if r = f.mreg ∧ r ≠ 0 then (u.reg r + n) % 2 ^ 32 else u.reg r)

namespace Sys2Proof.Machine

/-- The rows of Table ATT-1 by their AOP (09 R205). -/
def attRows : List (Nat × (CoreId → QueueId → Bool → Instr)) :=
  [(1, .poolAdd), (2, .seqOpen), (3, .seqClose), (4, .append), (5, .share), (6, .truncate), (8, .score), (9, .apply), (10, .abortPass)]

/-- The accepted commands of a queue and an operation that stand at the head of their orders (09 R207). -/
def State.attReady (s : State) (core : CoreId) (q : QueueId) (aop : Nat) : List AttItem :=
  s.att.filter fun i => i.core == core.toNat && i.queue == q.toNat && i.trans == none && i.cmd.aop == aop && attAtHead s.att i
/-- An item faults (09 Table ATT-2): it is taken out, and its command's queue halts with the code. -/
def AttItem.fails (i : AttItem) (s : State) (core : CoreId) (q : QueueId) (code detail : Nat) : Host.Outcome State Fault Refusal :=
  .next ((s.dropAtt i).faultCmd core.toNat q.toNat i.idx { code := code, detail := detail })
/-- An item is performed, with `u` the machine its effect leaves: it is taken out, and its command completes (09 R206). -/
def AttItem.ends (i : AttItem) (u : State) (core : CoreId) (q : QueueId) : Host.Outcome State Fault Refusal :=
  .next (({ u with att := u.att.erase i } : State).completeCmd core.toNat q.toNat i.idx)
/-- Every byte of memory outside the reservoirs stands as it did. -/
def State.belowStacks (s u : State) : Prop := ∀ a, a < 2 ^ 40 → Map.get 0 u.mem a = Map.get 0 s.mem a

/-- The launch of a read of pass slot `sl` in stripe `k`, with what the stripe fetched (09 R212, R214, R216). -/
def Pass.launchOf (x : Pass) (p sl k : Nat) (mask : Word) (bs : List Byte) : Launch :=
  let cmd := x.cmd.getD (0, 0, 0)
  { kind := if x.read = 1 then .score p sl else .apply p sl, core := cmd.1, queue := cmd.2.1, idx := cmd.2.2, part := p,
    image := [], chMask := mask, rsvMask := BitVec.ofNat 8 (2 ^ k), statusMA := 0, arg0 := 0, arg1 := 0, vecs := [(k, bs)],
    ordered := BitVec.ofNat 8 (2 ^ k), left := [(k, mask)], units := [], fault := none, runNs := 0, tainted := 0, pauses := 0, flags := {} }
/-- The channels of a stripe that hold a page of a pass, in ascending order. -/
def State.passChans (s : State) (x : Pass) (k : Nat) : List Nat :=
  (onesOf 32 (s.activeCh k)).filter fun c => x.pages.any fun g => g.k == k && (s.frameUnit k g.frame).1 == c
/-- A read launched in a stripe: on every channel that holds a page of the pass it joins the arrival order, behind requests and lower
partitions of its cycle (07 R162; 09 R216). -/
def State.passLaunched (s : State) (x : Pass) (p sl k : Nat) (bs : List Byte) : State :=
  let cs := s.passChans x k
  let no := s.launchNo
  let u := cs.foldl (fun s c => s.order k c (64 + p) (.launch no)) s
  let mask : Word := BitVec.ofNat 32 (cs.foldl (fun m c => m + 2 ^ c) 0)
  ((({ u with launchNo := no + 1 }.setRsv k { u.rsv k with launches := (u.rsv k).launches + 1 })).setLaunch no
    (x.launchOf p sl k mask bs)).setPass p sl { x with launched := x.launched ||| BitVec.ofNat 8 (2 ^ k) }

end Sys2Proof.Machine

/-- 09 R205, R206: each ATT command with a legal body at the head of its queue, with the gate stage open, its home walker holding fewer than 64
commands of the partition, and for SCORE and APPLY the compute licence and good descriptors, is issued and accepted at the end of the
walker's order. A walker with 64 holds it at issue; an illegal body halts the queue with QUE_BAD_COMMAND; without the licence, or with a
stripe's reservoir fused off, SCORE and APPLY halt it with QUE_ENGINE_ABSENT. -/
def Obligations.AttAccepts : Prop :=
  ∀ p ∈ attRows, ∀ (s : State) (core : CoreId) (q : QueueId) (c : Cmd) (k : Nat),
    let n := core.toNat
    let reads := p.1 = 8 ∨ p.1 = 9
    let ds := s.useDescs n (if reads then [(bitsOf (wordOf c 1) 0 12, [0]), (bitsOf (wordOf c 1) 12 12, [0])] else [])
    s.head n q.toNat = some c → s.fenced n q.toNat c = false → c.op = 4 →
    (attLegal c = false → exec (p.2 core q true) s = .next (s.refuseCmd n q.toNat c cQueBadCommand 0)) ∧
    (attLegal c = true → c.aop = p.1 →
      (reads → (s.licCompute = false ∨ (List.range 8).any s.rsvFused = true) → ∃ d, exec (p.2 core q true) s = .next (s.refuseCmd n q.toNat c cQueEngineAbsent d)) ∧
      ((reads → s.licCompute = true ∧ (List.range 8).any s.rsvFused = false) → s.partOf n = some k →
        ((s.gateOpen n = false ∨ 64 ≤ s.attHeld k (s.attHome k c)) → exec (p.2 core q true) s = .next (s.waitEngine n q.toNat)) ∧
        (s.gateOpen n = true → s.attHeld k (s.attHome k c) < 64 → ds.2.2 = none →
          exec (p.2 core q true) s = .next { ds.1.launchCmd n q.toNat c with
            att := (ds.1.launchCmd n q.toNat c).att ++
              [{ core := n, queue := q.toNat, idx := (ds.1.queue n q.toNat).ptr.toNat, part := k, cmd := c,
                 ha := ds.2.1.getD 0 0, hb := ds.2.1.getD 1 0 }] })))

/-- 09 R201, R202, R209: POOL_ADD pools the named frames that lie in the partition's channel set, each free, and refuses the command with
ATT_POOL_DENIED where one lies past the reservoir, is pooled already or lies in the walker area; of memory only the frames' counts in the area
change. SEQ_OPEN opens a closed context of the partition with its layers, TOFF and capacity, length 0 and an invalid table, where the area has
room (where in it is the model's choice, log entry 51), and else faults. SEQ_CLOSE of an open context drops its references and closes it; while
the context has an open pass it waits. -/
def Obligations.AttContexts : Prop :=
  ∀ (s : State) (core : CoreId) (q : QueueId) (i : AttItem),
    let c := i.cmd
    let x := s.seqAt c.seq
    ((s.attReady core q 1).head? = some i →
      let k := c.arg % 8
      let fs := ((List.range c.n).map fun j => c.arg2 % 2 ^ 22 + j).filter fun f => (s.chsetOf k i.part).testBit (s.rsvCh k (f * 32768))
      ((s.rsvSize k < (c.arg2 % 2 ^ 22 + c.n) * 32768 ∨ ∃ f ∈ fs, (s.frame k f).isSome = true ∨ s.inArea k f = true) →
        exec (.poolAdd core q false) s = i.fails s core q cAttPoolDenied 0) ∧
      ((c.arg2 % 2 ^ 22 + c.n) * 32768 ≤ s.rsvSize k → (∀ f ∈ fs, s.frame k f = none ∧ s.inArea k f = false) →
        ∃ u : State, exec (.poolAdd core q false) s = i.ends u core q ∧
          (∀ f ∈ fs, u.frame k f = some { part := i.part, refs := 0, pins := 0 }) ∧
          (∀ j f, f < 2 ^ 22 → ¬ (j = k ∧ f ∈ fs) → u.frame j f = s.frame j f) ∧
          (∀ a, (∀ f ∈ fs, ∀ b, s.countAt k f = some b → a < b ∨ b + 8 ≤ a) → Map.get 0 u.mem a = Map.get 0 s.mem a) ∧
          u.seqs = s.seqs ∧ u.passes = s.passes ∧ u.cores = s.cores)) ∧
    ((s.attReady core q 2).head? = some i →
      let size := 4 * (c.arg % 256) * c.n
      (s.seqMine i.part c.seq = false → exec (.seqOpen core q false) s = i.fails s core q cAttSeqDenied 0) ∧
      (s.seqMine i.part c.seq = true → x.isOpen = true → exec (.seqOpen core q false) s = i.fails s core q cAttSeqState 0) ∧
      (s.seqMine i.part c.seq = true → x.isOpen = false → s.tableRoom i.part (c.seq % 8) size = none →
        exec (.seqOpen core q false) s = i.fails s core q cAttAreaFull 0) ∧
      (∀ a, s.seqMine i.part c.seq = true → x.isOpen = false → x.openPasses = 0 → s.tableRoom i.part (c.seq % 8) size = some a →
        exec (.seqOpen core q false) s = i.ends ((s.areaZero a size).setSeq c.seq
          { isOpen := true, part := BitVec.ofNat 5 i.part, layers := BitVec.ofNat 8 c.arg, toff := BitVec.ofNat 8 (c.arg / 256),
            openPasses := 0, len := 0, cap := BitVec.ofNat 17 c.n, tableMA := BitVec.ofNat 48 a, table := [] }) core q)) ∧
    ((s.attReady core q 3).head? = some i →
      (s.seqMine i.part c.seq = false → exec (.seqClose core q false) s = i.fails s core q cAttSeqDenied 0) ∧
      (s.seqMine i.part c.seq = true → x.isOpen = false → exec (.seqClose core q false) s = i.fails s core q cAttSeqState 0) ∧
      (s.seqMine i.part c.seq = true → x.isOpen = true → x.openPasses = 0 →
        exec (.seqClose core q false) s = i.ends ((s.dropBlocks c.seq 0 (blocksOf x.len.toNat)).setSeq c.seq {}) core q) ∧
      (s.seqMine i.part c.seq = true → x.isOpen = true → x.openPasses ≠ 0 → s.attReady core q 3 = [i] →
        exec (.seqClose core q false) s = .next s)) ∧
    (∀ (v : SeqCtx), ((s.setSeq c.seq v).seqAt c.seq = v) ∧ (∀ w, w ≠ c.seq → (s.setSeq c.seq v).seqAt w = s.seqAt w) ∧
      s.belowStacks (s.setSeq c.seq v))

/-- 09 R209: APPEND of N tokens within the capacity, with frames for every new page, reserves a page for each layer and block that has none or a
shared one, copies the shared ones, and once all copies are done enters the pages and leaves the length N greater; past the capacity it
faults with ATT_SEQ_FULL, without frames with ATT_POOL_EMPTY, and appends nothing. SHARE into an empty context of the same layers and TOFF
makes its length N and names in each of its blocks the source's frames. TRUNCATE to no more than the length makes it N and drops the
references of the blocks past it. Each waits while its context has an open pass. -/
def Obligations.AttEdits : Prop :=
  ∀ (s : State) (core : CoreId) (q : QueueId) (i : AttItem),
    let c := i.cmd
    let x := s.seqAt c.seq
    s.seqMine i.part c.seq = true → x.isOpen = true →
    ((s.attReady core q 4).head? = some i →
      let b0 := x.len.toNat / 64
      let b1 := blocksOf (x.len.toNat + c.n)
      let grow : State → State := fun v =>
        v.setSeq c.seq { v.seqAt c.seq with len := BitVec.ofNat 32 ((v.seqAt c.seq).len.toNat + c.n) }
      (i.plan = none →
        (64 * x.cap.toNat < x.len.toNat + c.n → exec (.append core q false) s = i.fails s core q cAttSeqFull 0) ∧
        (x.len.toNat + c.n ≤ 64 * x.cap.toNat → (∃ k < 8, (s.freeFrames i.part k).length < s.appendNeeds c.seq b0 b1 k) →
          exec (.append core q false) s = i.fails s core q cAttPoolEmpty 0) ∧
        (∀ u plan, x.len.toNat + c.n ≤ 64 * x.cap.toNat → (∀ k < 8, s.appendNeeds c.seq b0 b1 k ≤ (s.freeFrames i.part k).length) →
          s.reserve i.part (s.appendBlocks c.seq b0 b1) = some (u, plan) →
          let r := u.copyPlan (.attCopy c.seq) i.part plan
          (x.openPasses ≠ 0 → s.attReady core q 4 = [i] → exec (.append core q false) s = .next s) ∧
          (x.openPasses = 0 → r.2 = true → exec (.append core q false) s = i.ends (grow (r.1.enterPlan c.seq plan)) core q) ∧
          (x.openPasses = 0 → r.2 = false → s.attReady core q 4 = [i] →
            exec (.append core q false) s = .next { r.1 with att := r.1.att.map fun j => if j = i then { i with plan := some plan } else j }))) ∧
      (∀ plan, i.plan = some plan →
        let r := s.copyPlan (.attCopy c.seq) i.part plan
        r.2 = true → exec (.append core q false) s = i.ends (grow (r.1.enterPlan c.seq plan)) core q)) ∧
    ((s.attReady core q 5).head? = some i →
      let src := c.arg2 % 65536
      let y := s.seqAt src
      (s.seqMine i.part src = false → exec (.share core q false) s = i.fails s core q cAttSeqDenied 0) ∧
      (s.seqMine i.part src = true → (y.isOpen = false ∨ x.len ≠ 0 ∨ x.layers ≠ y.layers ∨ x.toff ≠ y.toff ∨ y.len.toNat < c.n) →
        exec (.share core q false) s = i.fails s core q cAttSeqState 0) ∧
      (s.seqMine i.part src = true → y.isOpen = true → x.len = 0 → x.layers = y.layers → x.toff = y.toff → c.n ≤ y.len.toNat →
        64 * x.cap.toNat < c.n → exec (.share core q false) s = i.fails s core q cAttSeqFull 0) ∧
      (s.seqMine i.part src = true → y.isOpen = true → x.len = 0 → x.layers = y.layers → x.toff = y.toff → c.n ≤ y.len.toNat →
        c.n ≤ 64 * x.cap.toNat →
        (∀ l b f e, l < x.layers.toNat → b < blocksOf c.n → y.page l b = some f → s.frame (b % 8) f = some e → e.refs < 65535) →
        (x.openPasses ≠ 0 → s.attReady core q 5 = [i] → exec (.share core q false) s = .next s) ∧
        (x.openPasses = 0 → ∃ u : State, exec (.share core q false) s = i.ends u core q ∧ (u.seqAt c.seq).len.toNat = c.n % 2 ^ 32 ∧
          (∀ l b f, l < x.layers.toNat → b < blocksOf c.n → y.page l b = some f → (u.seqAt c.seq).page l b = some f) ∧
          (∀ v, v ≠ c.seq → u.seqAt v = s.seqAt v) ∧ s.belowStacks u ∧ u.passes = s.passes ∧ u.cores = s.cores))) ∧
    ((s.attReady core q 6).head? = some i →
      (x.len.toNat < c.n → exec (.truncate core q false) s = i.fails s core q cAttSeqState 0) ∧
      (c.n ≤ x.len.toNat → x.openPasses ≠ 0 → s.attReady core q 6 = [i] → exec (.truncate core q false) s = .next s) ∧
      (c.n ≤ x.len.toNat → x.openPasses = 0 →
        let u := s.dropBlocks c.seq (blocksOf c.n) (blocksOf x.len.toNat)
        exec (.truncate core q false) s = i.ends (u.setSeq c.seq { u.seqAt c.seq with len := BitVec.ofNat 32 c.n }) core q))

/-- 09 R206, R212, R216, R217: SCORE on a free or expired slot, with its layer, first token, slot and descriptors in range, opens the pass: the
pages of its tokens are pinned, the context's open passes and the reservoir's pass count rise. APPLY on a pass whose SCORE has completed starts
the second read; on a free slot it faults with ATT_PASS_STATE, on an expired one with ATT_PASS_EXPIRED. ABORT of an open pass closes it,
of an expired slot frees it. -/
def Obligations.AttPasses : Prop :=
  ∀ (s : State) (core : CoreId) (q : QueueId) (i : AttItem),
    let c := i.cmd
    let x := s.seqAt c.seq
    let y := s.pass i.part c.slot
    c.slot < (s.part i.part).passSlots.toNat →
    ((s.attReady core q 8).head? = some i → s.seqMine i.part c.seq = true → x.isOpen = true → c.layer < x.layers.toNat → c.arg ≤ x.len.toNat →
      (y.st = .opened → exec (.score core q false) s = i.fails s core q cAttPassBusy 0) ∧
      (∀ h, y.st ≠ .opened → scoreShape c i.ha i.hb = some h → exec (.score core q false) s = i.fails s core q cQueDescShape h) ∧
      (y.st ≠ .opened → scoreShape c i.ha i.hb = none →
        let bs := (List.range (blocksOf x.len.toNat)).filter fun b => decide (c.arg < 64 * b + 64)
        let pages := bs.filterMap fun b => (x.page c.layer b).map fun f => ({ block := b, k := b % 8, frame := f } : PassPage)
        let z : Pass :=
          { st := .opened, owner := some (i.core, i.queue), seq := c.seq, layer := c.layer, first := c.arg, len := x.len.toNat,
            tick := s.tick, heads := (queryHeads i.ha).getD 0, pages := if c.arg < x.len.toNat then pages else [], read := 1,
            cmd := some (i.core, i.queue, i.idx), ha := i.ha, hb := i.hb }
        (∀ g ∈ z.pages, (s.unitPages z g.k (s.frameUnit g.k g.frame).1 (s.frameUnit g.k g.frame).2).length ≤ 32) →
        ∃ u : State, exec (.score core q false) s = .next u ∧ u.pass i.part c.slot = z ∧
          u.seqAt c.seq = { x with openPasses := x.openPasses + 1 } ∧
          (∀ v, v ≠ c.seq → u.seqAt v = s.seqAt v) ∧
          (u.rsv (c.seq % 8)).passes = (s.rsv (c.seq % 8)).passes + 1 ∧
          s.belowStacks u ∧ u.cores = s.cores ∧ u.att = s.att.erase i)) ∧
    ((s.attReady core q 9).head? = some i →
      (y.st = .free → exec (.apply core q false) s = i.fails s core q cAttPassState 0) ∧
      (y.st = .expired → exec (.apply core q false) s = i.fails s core q cAttPassExpired 0) ∧
      (y.st = .opened → applyShape c y.heads i.ha i.hb = none → y.read = 3 → exec (.apply core q false) s = i.fails s core q cAttPassState 0) ∧
      (y.st = .opened → applyShape c y.heads i.ha i.hb = none → y.read = 2 →
        exec (.apply core q false) s = .next { s.setPass i.part c.slot
          { y with read := 3, cmd := some (i.core, i.queue, i.idx), ha := i.ha, hb := i.hb, launched := 0, done := 0, poison := none } with
          att := s.att.erase i })) ∧
    ((s.attReady core q 10).head? = some i →
      (y.st = .free → exec (.abortPass core q false) s = i.fails s core q cAttPassState 0) ∧
      (y.st = .expired → exec (.abortPass core q false) s = i.ends (s.setPass i.part c.slot {}) core q) ∧
      (y.st = .opened → exec (.abortPass core q false) s = i.ends (s.failPass i.part c.slot cAttPassState 0) core q))

/-- 09 R212, R214, R216: a stripe of a pass in its read, not yet launched, fetches the queries or pairs once (a fetch already answered is not made
again) and orders the read's launch on every channel that holds a page of the pass; a stripe without one needs no launch, and a fetch that
faults or a channel that is not active ends the pass. A stripe whose launch has ended writes its outputs; before the last stripe the pass goes
on, after the last the SCORE completes and the pass waits for its APPLY, or the APPLY completes and the pass closes. 09 R217: a pass still open
LIMIT_TICKS after it opened is closed as expired, its command faults with ATT_PASS_EXPIRED and the event is posted. -/
def Obligations.PassReads : Prop :=
  ∀ (s : State) (part : BitVec 5) (slot : BitVec 6) (stripe : BitVec 3),
    let p := part.toNat
    let sl := slot.toNat
    let k := stripe.toNat
    let x := s.pass p sl
    x.st = .opened →
    ((x.read = 1 ∨ x.read = 3) → x.launched.toNat.testBit k = false →
      let w : Who := .pass p sl k
      let size := if x.read = 1 then 512 * x.heads else 4 * x.heads
      let rd := s.track w AccRes.isWait fun s => s.readMA w (rsvMaster k (some p)) x.ha.base size
      -- the fetch has been answered with its data
      (∀ (a : HeldAcc) (e : AccReq) (ma : Nat) (bs : List Byte), s.accOf w = some a → a.reqs[0]? = some e → e.ma = x.ha.base → e.len = size →
        e.res = some (0, ma, bs) →
        (∀ c ∈ s.passChans x k, (s.chan k c).st = .active) → s.passChans x k ≠ [] →
        exec (.passLaunchOrder part slot stripe) s = .next ((s.dropAcc w).passLaunched x p sl k bs)) ∧
      -- the fetch is made, and what it comes to
      (rd.2 = .wait → exec (.passLaunchOrder part slot stripe) s = .next rd.1) ∧
      (∀ code ma, rd.2 = .fault code ma → exec (.passLaunchOrder part slot stripe) s = .next (rd.1.failPass p sl code ma)) ∧
      (∀ bs, rd.2 = .ok bs →
        (rd.1.passChans x k = [] →
          exec (.passLaunchOrder part slot stripe) s = .next (rd.1.setPass p sl { x with launched := x.launched ||| BitVec.ofNat 8 (2 ^ k) })) ∧
        (rd.1.passChans x k ≠ [] → (∀ c ∈ rd.1.passChans x k, (rd.1.chan k c).st = .active) →
          exec (.passLaunchOrder part slot stripe) s = .next (rd.1.passLaunched x p sl k bs)) ∧
        ((∃ c ∈ rd.1.passChans x k, (rd.1.chan k c).st ≠ .active) →
          exec (.passLaunchOrder part slot stripe) s = .next (rd.1.failPass p sl cRsvChannelRetired 0)))) ∧
    ((x.read = 1 ∨ x.read = 3) → x.launched.toNat.testBit k = true → x.done.toNat.testBit k = false →
      (∀ e, s.passLaunch p sl k = some e → e.2.left = [] ∧ e.2.fault = none) →
      let o := passOutputs s x k
      let w := s.track (.passOut p sl k) AccRes.isWait fun s => s.writeAll (.passOut p sl k) (rsvMaster k (some p)) o.1
      let v := match w.1.passLaunch p sl k with | some e => w.1.dropIfDone e.1 | none => w.1
      let u := (v.setRsv k { v.rsv k with bnkFlags := (v.rsv k).bnkFlags.or o.2 }).draw
      let y := { x with done := x.done ||| BitVec.ofNat 8 (2 ^ k) }
      (w.2 = .wait → exec (.passReadEnd part slot stripe) s = .next w.1) ∧
      (∀ code ma, w.2 = .fault code ma → exec (.passReadEnd part slot stripe) s = .next (w.1.failPass p sl code ma)) ∧
      (∀ bs, w.2 = .ok bs →
        (y.done.toNat ≠ 255 → exec (.passReadEnd part slot stripe) s = .next (u.setPass p sl y)) ∧
        (∀ d, y.done.toNat = 255 → x.poison = some d →
          exec (.passReadEnd part slot stripe) s = .next ((u.setPass p sl y).failPass p sl cAttPagePoisoned (d + x.layer * 2 ^ 8))) ∧
        (∀ n q i, y.done.toNat = 255 → x.poison = none → x.cmd = some (n, q, i) → x.read = 1 →
          exec (.passReadEnd part slot stripe) s =
            .next ((((u.setPass p sl y).setPass p sl { y with read := 2, cmd := none, launched := 0, done := 0 })).completeCmd n q i)) ∧
        (∀ n q i, y.done.toNat = 255 → x.poison = none → x.cmd = some (n, q, i) → x.read = 3 →
          exec (.passReadEnd part slot stripe) s = .next (((u.setPass p sl y).closePass p sl .free).completeCmd n q i)))) ∧
    (s.reached (x.tick + max 1 (s.rsv (x.seq % 8)).passLimit.toNat) = true →
      let v := s.rsv (x.seq % 8)
      exec (.attPassExpired part slot) s = .next (((s.setRsv (x.seq % 8) { v with expired := satAdd v.expired 1 }).failPass p sl cAttPassExpired 0
        .expired).postEv (5 + x.seq % 8) cAttPassExpired (some p) [sl + x.seq * 2 ^ 16, 0, 0, 0]))

/-- 12 R264 to R268: SEND at the head of its queue on a port that is enabled and UP, with a free context of its partition, a descriptor without
plane and a rate that fits at every tick it needs, is issued: its stream takes the context and asks its peer for admission. RECV with good
descriptors on such a port arms its context under the next EPOCH, and a request already kept for it is answered. A context outside the
partition's, one in use or a port that is not UP refuses either command with its code. A further command offered to a port whose engine holds 64
waits for the engine; one whose descriptors have to wait is held there. -/
def Obligations.LinkCommands : Prop :=
  ∀ (s : State) (core : CoreId) (q : QueueId) (c : Cmd) (part : Nat),
    let n := core.toNat
    let w1 := wordOf c 1
    let w2 := wordOf c 2
    let w3 := wordOf c 3
    s.head n q.toNat = some c → s.fenced n q.toNat c = false → s.partOf n = some part →
    (c.op = 5 →
      let p := bitsOf w3 59 5
      let ctx := bitsOf w3 44 15
      let rate := bitsOf w3 19 10
      let start := w1 % 2 ^ 58
      let ds := s.useDescs n [(w2 % 4096, [0])]
      let t := ds.1.offer p n q.toNat false
      let src := ds.2.1.headD 0
      let cells := (src.streamBytes + 511) / 512
      let t0 := if start = 0 then t.tick else start / 1024
      let n0 := (cells + rate - 1) / rate
      s.gateOpen n = true → bitsOf w2 16 16 ≠ 0 → rate ≠ 0 → p < 20 → rate ≤ (s.lport p).capacity → s.portOn p = true →
      (s.offerRoom p n q.toNat = false → exec (.send core q) s = .next (s.waitEngine n q.toNat)) ∧
      (s.offerRoom p n q.toNat = true → ds.2.2 = some .wait → exec (.send core q) s = .next (ds.1.offer p n q.toNat true)) ∧
      (s.offerRoom p n q.toNat = true → ds.2.2 = none → planeFault (w2 % 4096) src = none →
      (∀ code, t.linkChecks part p ctx = some code → exec (.send core q) s = .next (t.refuseCmd n q.toNat c code 0)) ∧
      (t.linkChecks part p ctx = none → (start ≠ 0 → (t.lport p).sync = true ∧ t.ahead start ≤ (t.horizon * 1024 : Nat)) →
        (t.licLong = true ∨ n0 ≤ 65536) →
        let fits := t.rateFits p rate (t.ticksAhead t0) (max (t.ticksAhead t0 + n0) n0)
        ((fits = false ∨ 256 ≤ (t.txOn p).length) →
          exec (.send core q) s = .next (t.refuseCmd n q.toNat c cLnkAdmitNoRate 0)) ∧
        (fits = true → (t.txOn p).length < 256 →
          exec (.send core q) s = .next ((((t.launchCmd n q.toNat c).setTx ctx (some
            { port := p, core := n, queue := q.toNat, idx := (t.queue n q.toNat).ptr.toNat, peer := bitsOf w3 29 15,
              tag := BitVec.ofNat 32 (w2 >>> 32), bytes := src.streamBytes, cells := cells, rate := rate, start := start, startTick := t0,
              gap := bitsOf w2 16 16, src := src, feed := if w3.testBit 18 then some (w3 % 4096) else none, admitted := none,
              epoch := 0, sent := 0, lastTick := none, cancel := none, dead := false })).sendMsg p
            (.admitReq (BitVec.ofNat 15 ctx) (BitVec.ofNat 15 (bitsOf w3 29 15)) (BitVec.ofNat 32 (w2 >>> 32)) src.streamBytes
              (BitVec.ofNat 10 rate) (BitVec.ofNat 58 start))).admitKept ctx))))) ∧
    (c.op = 6 →
      let p := bitsOf w2 11 5
      let comb := bitsOf w2 9 2
      let ctx := w3 >>> 49
      let ds := s.useDescs n ([(bitsOf w1 36 12, [0]), (bitsOf w1 24 12, [0])] ++ if comb = 0 then [] else [(bitsOf w1 12 12, [0])])
      let t := ds.1.offer p n q.toNat false
      let dst := ds.2.1.headD 0
      let e := Map.get 0 t.epochs ctx + 1
      bitsOf w1 48 12 ≠ 0 → bitsOf w2 16 16 ≠ 0 → comb ≠ 3 → 2 ≤ bitsOf w2 4 4 → p < 20 → s.portOn p = true →
      (comb = 0 ∨ s.licMulti = true) →
      (s.offerRoom p n q.toNat = false → exec (.recv core q) s = .next (s.waitEngine n q.toNat)) ∧
      (s.offerRoom p n q.toNat = true → ds.2.2 = some .wait → exec (.recv core q) s = .next (ds.1.offer p n q.toNat true)) ∧
      (s.offerRoom p n q.toNat = true → ds.2.2 = none → recvShape c ds.2.1 = none →
      (∀ code, t.linkChecks part p ctx = some code → exec (.recv core q) s = .next (t.refuseCmd n q.toNat c code 0)) ∧
      (t.linkChecks part p ctx = none → (t.rxOn p).length < 256 →
        exec (.recv core q) s = .next ((({ t.launchCmd n q.toNat c with epochs := Map.set 0 t.epochs ctx e } : State).setRx ctx (some
          { port := p, core := n, queue := q.toNat, idx := (t.queue n q.toNat).ptr.toNat, tag := BitVec.ofNat 32 (w2 >>> 32),
            gap := bitsOf w2 16 16, dst := dst, spill := ds.2.1.getD 1 0, opnd := ds.2.1.getD 2 0, comb := comb,
            burst := bitsOf w1 48 12, spilln := bitsOf w2 4 4, bflag := if w2.testBit 8 then some (w1 % 4096) else none,
            armTick := t.tick, armLimit := bitsOf w3 24 24, epoch := e, sctx := 0, admitted := false, bytes := dst.streamBytes,
            cells := (dst.streamBytes + 511) / 512, gapFrom := 0, next := 0, committed := 0, out := none, waiting := [],
            drain := none, dead := false })).admitKept ctx)))) ∧
    (∀ (t : State) (p ctx : Nat),
      t.linkChecks part p ctx = if t.ctxMine part ctx = false then some cLnkCtxDenied
        else if (t.tx ctx).isSome ∨ (t.rx ctx).isSome then some cLnkCtxBusy
        else if (t.lport p).st ≠ .up then some cLnkPortDown else none)

/-- 12 R258, R269: once in a tick an UP port sends: of an admitted stream whose START is reached up to RATE cells into the places of its frames, then
the headers of the tick's frames; a training port sends headers alone (R262). A cell goes out with the peer's context, the receiver's EPOCH, its
sequence number and whether it is the last, holding up to 512 bytes of the source, once its feed flag has passed its number and its data have
been fetched. A stream's fetch that faults ends its SEND with that code. R261: a message goes out in the headers of two consecutive
frames. 11 R249: a scheduled action of a port is its sender reaching a START. -/
def Obligations.PortSends : Prop :=
  (∀ (s : State) (port : BitVec 5) (i : Instr), (i = .sendTick port ∨ i = .scheduledAction (some port)) →
    let p := port.toNat
    let x := s.lport p
    let t := s.setPort p { x with lastTick := some s.tick }
    (x.lastTick = some s.tick → exec i s = .next s) ∧
    (x.lastTick ≠ some s.tick →
      ((x.st = .disabled ∨ x.st = .down) → exec i s = .next t) ∧
      (x.st = .training → exec i s = .next (t.sendHdrs p)) ∧
      (∀ c y, x.st = .up → s.txOn p = [(c, y)] → y.cancel = none → s.txDue y = true →
        exec i s = .next (((t.sendCells c y.rate x.places).1.rxAll p).sendHdrs p)) ∧
      (∀ c y, x.st = .up → s.txOn p = [(c, y)] → y.cancel = none → s.txDue y = false →
        exec i s = .next ((t.rxAll p).sendHdrs p)) ∧
      (x.st = .up → s.txOn p = [] → exec i s = .next ((t.rxAll p).sendHdrs p)))) ∧
  (∀ (s : State) (c : Nat) (x : TxStream) (place : Nat × Nat),
    let d := x.src
    let e0 := d.elemsIn (512 * x.sent)
    let r := s.track (.linkTx c) RowRes.isWait fun s =>
      s.readElems (.linkTx c) (linkMaster x.port (s.partOf x.core)) d e0 (d.elemsIn (512 * (x.sent + 1)) - e0)
    let passed : Nat → Prop := fun f => 0 ≤ ((s.flag ((s.partOf x.core).getD 0) f).value - BitVec.ofNat 32 (x.sent + 1)).toInt
    (∀ f, x.feed = some f → ¬ passed f → s.sendCell c x place = .notReady s) ∧
    ((∀ f, x.feed = some f → passed f) →
      (∀ cs bs, r.2 = .ok cs bs → s.sendCell c x place = .sent (r.1.linkSend x.port (.cell place.1 place.2
        { ctx := BitVec.ofNat 15 x.peer, epoch := x.epoch, bytes := BitVec.ofNat 10 (min 512 (x.bytes - 512 * x.sent)),
          last := x.sent + 1 == x.cells, seq := BitVec.ofNat 32 x.sent, data := packCodes d.fm.bits cs }))) ∧
      (r.2 = .wait → s.sendCell c x place = .notReady r.1) ∧
      (∀ code ma, r.2 = .fault code ma → s.sendCell c x place = .fault r.1 code ma))) ∧
  (∀ (s t : State) (c n : Nat) (place : Nat × Nat) (places : List (Nat × Nat)) (x : TxStream), s.tx c = some x → x.sent < x.cells →
    (s.sendCell c x place = .sent t → s.sendCells c (n + 1) (place :: places) = (t.setTx c (some { x with
      sent := x.sent + 1, lastTick := if x.sent + 1 = x.cells then some s.tick else none })).sendCells c n places) ∧
    (s.sendCell c x place = .notReady t → s.sendCells c (n + 1) (place :: places) = (t, place :: places)) ∧
    (∀ code det, s.sendCell c x place = .fault t code det → s.sendCells c (n + 1) (place :: places) =
      ((t.sendMsg x.port (.streamReset (BitVec.ofNat 15 x.peer) x.epoch t.resetCause)).draw.txFault c x code det, place :: places)) ∧
    s.sendCells c (n + 1) [] = (s, [])) ∧
  (∀ (s : State) (p f g : Nat) (m : OutMsg), (s.lport p).outbox = [m] → m.left = 2 → m.cmd = none →
    let t := (s.sendHdr p f).sendHdr p g
    (t.lport p).outbox = [] ∧ ∃ bad, t.linkOut = s.linkOut ++
      [{ port := p, tick := s.tick, bad := bad, what := .hdr (s.frameHdr p f [m]) },
       { port := p, tick := s.tick, bad := bad, what := .hdr (s.frameHdr p g [m]) }])

/-- 12 R260, R270, R272: a cell with a bad header check counts and is lost; a cell of no stream admitted on its port under its EPOCH, or of a
number already received, counts as stale; a cell past the next number breaks the stream with LNK_STREAM_BROKEN; the next one, with its burst
within the spillway, is taken, and its bytes wait for the spillway. No cell reaches a port that is not UP. -/
def Obligations.CellsArrive : Prop :=
  ∀ (s : State) (port : BitVec 5) (cell : Cell),
    let p := port.toNat
    let x := s.lport p
    let got := fun (o : Option Cell) (h : Bool) => exec (.cellReceive port [] none h o) s
    let c := cell.ctx.toNat
    (x.st ≠ .up → ∀ corr bad h o, exec (.cellReceive port corr bad h o) s = .next s) ∧
    (x.st = .up → x.laneCorr = [] →
      let t := s.setPort p { x with laneCorr := [], corrected := satAdd x.corrected 0 }
      (∀ o, got o false = .next (t.setPort p { t.lport p with hdrBad := satAdd x.hdrBad 1 })) ∧
      (got none true = .next t) ∧
      (x.dropCells = 0 → s.rx c = none → got (some cell) true = .next (t.countStale p)) ∧
      (∀ y, x.dropCells = 0 → s.rx c = some y → (y.port ≠ p ∨ y.admitted = false ∨ y.epoch ≠ cell.epoch) →
        got (some cell) true = .next (t.countStale p)) ∧
      (∀ y, x.dropCells = 0 → s.rx c = some y → y.port = p → y.admitted = true → y.epoch = cell.epoch →
        t.rxRun c y.fuel = t → y.drain = none →
        (cell.seq.toNat < y.next → got (some cell) true = .next (t.countStale p)) ∧
        (y.next < cell.seq.toNat → got (some cell) true = .next (t.closeRx c y cLnkStreamBroken 2 2)) ∧
        (y.next = cell.seq.toNat → y.next / y.burst < y.committed + y.spilln →
          got (some cell) true = .next ((t.setRx c (some { y with
            next := y.next + 1, gapFrom := t.tick, waiting := y.waiting ++ [(y.next, cell.data.take cell.bytes.toNat)] })).rxRun c
              y.fuel))))

/-- 12 R261, R267, R271, R274, R275, R278: a control message on an UP port whose number is new is remembered and acted on; a copy does nothing, and no
message reaches a port that is not UP. ADMIT_REQ for an armed context is granted when tag and length agree and refused with its reason when
not; ADMIT_GRANT admits the stream, one whose START has passed late, from the next tick (11 R249); ADMIT_REFUSE and STREAM_RESET fault its command; CLOSE completes the SEND; CANCEL makes the receiver drain;
a reset request is refused and counted where it is not enabled; LANE_PLAN is kept for its turn. -/
def Obligations.MessagesAct : Prop :=
  (∀ (s : State) (p : BitVec 5) (no : BitVec 16), ((s.lport p.toNat).st ≠ .up ∨ no ∈ (s.lport p.toNat).seen) →
    (∀ a b tg n r st, exec (.admitReq p no a b tg n r st) s = .next s) ∧ (∀ a e, exec (.admitGrant p no a e) s = .next s) ∧
    (∀ a r, exec (.admitRefuse p no a r) s = .next s) ∧ (∀ a e l, exec (.cancel p no a e l) s = .next s) ∧
    (∀ a e k, exec (.streamReset p no a e k) s = .next s) ∧ (∀ a e n, exec (.close p no a e n) s = .next s) ∧
    (∀ w, exec (.peerResetMsg p no w) s = .next s) ∧ (∀ a m w tn, exec (.lanePlan p no a m w tn) s = .next s)) ∧
  (∀ (s : State) (port : BitVec 5) (no : BitVec 16),
    let p := port.toNat
    let x := s.lport p
    let t := s.setPort p { x with seen := (no :: x.seen).take 256 }
    x.st = .up → no ∉ x.seen →
    (∀ (sctx rctx : BitVec 15) tag bytes rate start y, s.rx rctx.toNat = some y → y.admitted = false →
      let req := fun r => exec (.admitReq port no sctx rctx tag bytes rate start) s = .next (t.sendMsg p r)
      (y.port ≠ p → req (.admitRefuse sctx 4)) ∧
      (y.port = p → y.tag ≠ tag → req (.admitRefuse sctx 1)) ∧
      (y.port = p → y.tag = tag → y.bytes ≠ bytes → req (.admitRefuse sctx 2)) ∧
      (y.port = p → y.tag = tag → y.bytes = bytes →
        exec (.admitReq port no sctx rctx tag bytes rate start) s = .next ((t.setRx rctx.toNat (some { y with
          admitted := true, sctx := sctx.toNat,
          gapFrom := if start = 0 ∨ s.reached (start.toNat / 1024) = true then s.tick else start.toNat / 1024 })).sendMsg p
            (.admitGrant sctx y.epoch)))) ∧
    (∀ (sctx : BitVec 15) epoch y, s.tx sctx.toNat = some y → y.port = p → y.admitted = none →
      (y.start = 0 → exec (.admitGrant port no sctx epoch) s = .next (({ t with admNo := t.admNo + 1 } : State).setTx sctx.toNat (some { y with
        admitted := some s.admNo, epoch := epoch, startTick := s.tick }))) ∧
      (y.start ≠ 0 → s.ahead y.start ≤ 0 → exec (.admitGrant port no sctx epoch) s =
        .next (({ t with admNo := t.admNo + 1, clp := { t.clp with late := satAdd t.clp.late 1 } } : State).setTx sctx.toNat (some { y with
          admitted := some s.admNo, epoch := epoch, startTick := s.tick + 1 }))) ∧
      (y.start ≠ 0 → 0 < s.ahead y.start → exec (.admitGrant port no sctx epoch) s =
        .next (({ t with admNo := t.admNo + 1 } : State).setTx sctx.toNat (some { y with admitted := some s.admNo, epoch := epoch }))) ∧
      (∀ r, exec (.admitRefuse port no sctx r) s = .next (t.txFault sctx.toNat y cLnkAdmitRefused r))) ∧
    (∀ (ctx : BitVec 15) epoch y, s.tx ctx.toNat = some y → y.port = p → y.admitted.isSome = true → y.epoch = epoch →
      (∀ k, k ≠ 3 → exec (.streamReset port no ctx epoch k) s = .next (t.txFault ctx.toNat y cLnkStreamReset 0)) ∧
      (∀ n, y.dead = false →
        exec (.close port no ctx epoch n) s = .next ((t.freeCtx ctx.toNat).completeCmd y.core y.queue y.idx))) ∧
    (∀ (ctx : BitVec 15) epoch y, s.rx ctx.toNat = some y → y.port = p → y.admitted = true → y.epoch = epoch →
      (s.tx ctx.toNat = none → ∀ k, exec (.streamReset port no ctx epoch k) s = .next (t.rxFault ctx.toNat y cLnkStreamReset 0)) ∧
      (∀ last : BitVec 32, exec (.cancel port no ctx epoch (some last)) s =
        .next ((t.setRx ctx.toNat (some { y with drain := some (last.toNat + 1) })).rxRun ctx.toNat y.fuel)) ∧
      exec (.cancel port no ctx epoch none) s = .next ((t.setRx ctx.toNat (some { y with drain := some 0 })).rxRun ctx.toNat y.fuel)) ∧
    (∀ w, (s.licMulti = false ∨ x.peerResetEn = false) →
      exec (.peerResetMsg port no w) s = .next ((t.setPort p { t.lport p with refused := satAdd x.refused 1 }).post (3 + portHome p) .change
        [{ origin := 5, oclass := 0x0A, object := (if w = true then 1 else 0) * 2 ^ 40, old := 0, new := 0, odetail := p }])) ∧
    (∀ w, s.licMulti = true → x.peerResetEn = true → exec (.peerResetMsg port no w) s = .next (t.moduleReset 7 (!w) 5 p)) ∧
    (∀ map width turn,
      let lane := (x.txMap.find? fun l => !map.contains l).getD 0
      exec (.lanePlan port no true map width turn) s = .next (t.setPort p { t.lport p with
        txPlan := x.txPlan ++ [{ map := map, width := width, turn := turn, lane := lane }] })))

/-- 12 R272: an admitted receive stream with no newer cell within its gap limit closes with LNK_STREAM_BROKEN, detail 1, unless cancelled. 12 R271: a
SEND whose last cell went out and whose CLOSE does not come within its gap limit faults with LNK_NO_CLOSE. 12 R267: a RECV not admitted within its
arm limit, if it has one, faults with LNK_ARM_TIMEOUT; a request a port keeps is refused with reason 3 once ADMIT_WAIT has passed for it.
Before its time each leaves the machine as it was. -/
def Obligations.StreamTimers : Prop :=
  (∀ (s : State) (ctx : BitVec 15) (x : RxStream), s.rx ctx.toNat = some x →
    (x.admitted = true → s.reached (x.gapFrom + x.gap) = true → x.drain = none →
      exec (.lnkStreamBroken ctx) s = .next (s.closeRx ctx.toNat x cLnkStreamBroken 1 1)) ∧
    (x.admitted = true → s.reached (x.gapFrom + x.gap) = false → exec (.lnkStreamBroken ctx) s = .next s) ∧
    (x.admitted = false → x.armLimit ≠ 0 → s.reached (x.armTick + x.armLimit) = true →
      exec (.lnkArmTimeout ctx) s = .next (s.rxFault ctx.toNat x cLnkArmTimeout 0)) ∧
    ((x.admitted = true ∨ x.armLimit = 0 ∨ s.reached (x.armTick + x.armLimit) = false) → exec (.lnkArmTimeout ctx) s = .next s)) ∧
  (∀ (s : State) (ctx : BitVec 15) (x : TxStream) (t : Nat), s.tx ctx.toNat = some x → x.lastTick = some t →
    exec (.lnkNoClose ctx) s = .next (if s.reached (t + x.gap) = true then s.txFault ctx.toNat x cLnkNoClose 0 else s)) ∧
  (∀ (s : State) (port : BitVec 5) (t : Nat) (sctx rctx : BitVec 15) (tag : BitVec 32) (bytes : Nat) (rate : BitVec 10) (st : BitVec 58),
    let x := s.lport port.toNat
    let e : Nat × LinkMsg := (t, .admitReq sctx rctx tag bytes rate st)
    ((∀ a ∈ x.admits, s.reached (a.1 + max 1 x.admitWait.toNat) = false) → exec (.admitWaitExpiry port) s = .next s) ∧
    ((x.admits.find? fun a => s.reached (a.1 + max 1 x.admitWait.toNat)) = some e →
      exec (.admitWaitExpiry port) s = .next ((s.setPort port.toNat { x with admits := x.admits.erase e }).sendMsg port.toNat
        (.admitRefuse sctx 3))))

/-- 12 R262: training that has seen 256 good headers and has 10 good lanes each way, those of the repair record left out, ends with the port UP at the widest width its lanes give. 12
R277: an UP port with no good header for 16 ticks goes DOWN: its streams fault and its widths are 0. 12 R256: a lane that loses lock on an UP
port is declared failing. 12 R260, R263: a header with a bad check counts; a good one takes over the peer's state and its messages. -/
def Obligations.PortStates : Prop :=
  ∀ (s : State) (port : BitVec 5),
    let p := port.toNat
    let x := s.lport p
    (∀ txFound rxFound peer,
      let txGood := txFound &&& ~~~(s.lanesOut p false)
      let rxGood := rxFound &&& ~~~(s.lanesOut p true)
      x.st = .training → 256 ≤ x.good → 10 ≤ (onesOf 22 txGood.toNat).length → 10 ≤ (onesOf 22 rxGood.toNat).length →
      ∃ t, exec (.portUp port txFound rxFound peer) s = .next t ∧ (t.lport p).st = .up ∧
        (t.lport p).txWidth = widthOf (onesOf 22 txGood.toNat).length ∧ (t.lport p).rxWidth = widthOf (onesOf 22 rxGood.toNat).length ∧
        (t.lport p).txMap = (onesOf 22 txGood.toNat).take (t.lport p).txWidth ∧ (t.lport p).peerPort = peer ∧
        t.txs = s.txs ∧ t.rxs = s.rxs ∧ t.cores = s.cores ∧ t.mem = s.mem) ∧
    ((x.st ≠ .training ∨ x.good < 256) → ∀ a b c, exec (.portUp port a b c) s = .next s) ∧
    (x.st = .up → s.reached (x.lastHdr + 16) = true → exec (.lnkPortDown port) s = .next (s.portDown p)) ∧
    (x.st ≠ .up → exec (.lnkPortDown port) s = .next s) ∧
    (x.st = .up → s.txOn p = [] → s.rxOn p = [] →
      let t := s.portDown p
      (t.lport p).st = .down ∧ (t.lport p).txWidth = 0 ∧ (t.lport p).rxWidth = 0 ∧ (t.lport p).sync = false ∧ (t.lport p).admits = [] ∧
        t.cores = s.cores ∧ t.mem = s.mem) ∧
    (∀ lane, exec (.laneLockLost port lane) s = .next (if x.st = .up then s.declareLane p lane.toNat else s)) ∧
    (∀ h, (x.st = .up ∨ x.st = .training) →
      exec (.frameHeader port false h) s = .next (s.setPort p { x with good := 0, hdrBad := satAdd x.hdrBad 1 })) ∧
    (∀ h, x.st = .up → (x.peerNode ≠ h.node ∨ x.peerLink ≠ h.link) → exec (.frameHeader port true h) s = .next (s.portDown p)) ∧
    (∀ h, (x.st = .training ∨ (x.st = .up ∧ x.peerNode = h.node ∧ x.peerLink = h.link)) → h.msgs = [] →
      exec (.frameHeader port true h) s = .next ((s.setPort p (s.headerState x h)).refreshSync p))

/-- 06 R134: a core's write of one aligned codeword of its cistern, on a populated active sub-channel outside its window with nothing held and the
core neither in reset nor fenced, is performed at once and leaves the 64 bytes stored with good check symbols and every other byte as it
was; its read of a codeword without errors returns the bytes stored and changes none. A read or write of a retired sub-channel, and a write
of one that retires, is answered with MEM_SUBCHANNEL_RETIRED; in a window a request waits, and under a write hold a write is held. -/
def Obligations.CisternAccess : Prop :=
  ∀ (s : State) (port : BitVec 6) (part : BitVec 5) (core : CoreId) (off : Nat) (data : List Byte),
    let n := core.toNat
    let l := (s.cistLoc n off).1
    let g := (s.cistLoc n off).2
    let x := s.sub n l
    let ma := n * 2 ^ 30 + off
    let answered := fun (t : State) (code : Nat) (bs : List Byte) => t.memDone = s.memDone ++ [(.port port.toNat, code, 0, bs)]
    n < s.nCores → off < s.cistSize n → off % 64 = 0 → data.length = 64 → s.targetReset (.cist n off) = false →
    (x.st = .retired →
      (∃ t, exec (.cstRead port part true core off 64) s = .next t ∧ answered t cMemSubchannelRetired [] ∧ t.mem = s.mem) ∧
      (∃ t, exec (.cstWrite port part true core off data) s = .next t ∧ answered t cMemSubchannelRetired [] ∧ t.mem = s.mem)) ∧
    (x.st = .retiring →
      ∃ t, exec (.cstWrite port part true core off data) s = .next t ∧ answered t cMemSubchannelRetired [] ∧ t.mem = s.mem) ∧
    (x.st = .active → x.window = true →
      ∃ t, exec (.cstWrite port part true core off data) s = .next t ∧ t.memDone = s.memDone ∧ t.mem = s.mem ∧
        (t.sub n l).waiting.length = x.waiting.length + 1) ∧
    (x.st = .active → x.window = false → x.whold = true →
      ∃ t, exec (.cstWrite port part true core off data) s = .next t ∧ t.memDone = s.memDone ∧ t.mem = s.mem ∧
        (t.sub n l).held.length = x.held.length + 1) ∧
    (x.st = .active → x.window = false → x.whold = false → x.pendingWrite [(ma, 64)] = false →
      ∃ t, exec (.cstWrite port part true core off data) s = .next t ∧ answered t 0 [] ∧
        t.cw = (s.putCw (Tgt.cist n off).key data).cw ∧ t.cores = s.cores ∧ t.chans = s.chans ∧ t.cisterns = s.cisterns ∧
        (∀ a, Map.get 0 t.mem a = if ma ≤ a ∧ a < ma + 64 then data.getD (a - ma) 0 else Map.get 0 s.mem a)) ∧
    (x.st ≠ .retired → x.window = false → x.pendingWrite [(ma, 64)] = false →
      (∀ e ∈ s.pinInj, e.1 ≠ cistPinKey n l g) → Map.get {} s.cw (ma / 64) = {} →
        ∃ t, exec (.cstRead port part true core off 64) s = .next t ∧ answered t 0 (s.raw ma 64) ∧ t.mem = s.mem ∧ t.cw = s.cw ∧
          t.cores = s.cores ∧ t.chans = s.chans)

/-- 10 R228, R230, R409: a request of one part that goes through the network stands at its port's sluice: barred without a share there, held where it
does not fit or an older one waits for the same account, else let in. 10 R233, R235; 09 R204: at the reservoir a fenced one, another
partition's channel and a walker area answer it with their codes. 07 R162, R163: the channel's arbiter performs it where nothing is ordered
before it, answers RSV_CHANNEL_BUSY with HOLD_FULL where 256 are held behind a launch or hold, and else keeps it in order. A held request that
has waited 100 µs is removed and answered RSV_CHANNEL_BUSY with HOLD_TIMEOUT. -/
def Obligations.ReservoirRequests : Prop :=
  (∀ (s : State) (port : BitVec 6) (part : BitVec 5) (rsv : BitVec 3) (off : Nat) (data : List Byte) (p : ReqPart),
    let k := rsv.toNat
    let m := s.rowMaster port.toNat part.toNat 0 false
    let ma := 2 ^ 40 + k * 2 ^ 37 + off
    let o := s.openReq m (.port port.toNat) false true ma data.length data
    off < s.rsvSize k → 0 < data.length → data.length + off % 512 ≤ 512 → o.2 = [p] →
    p.id = s.reqId ∧ p.runs = [(ma, data.length)] ∧ p.data = data ∧ p.wr = true ∧
    (p.near = [] → exec (.rsvRequest port part rsv true off 0 data) s = .next (o.1.reach p)) ∧
    (p.near ≠ [] → s.masterFenced m.port (.rsv k off) = false →
      exec (.rsvRequest port part rsv true off 0 data) s = .next (o.1.atSluice
        { id := p.id, who := p.who, port := m.port, part := m.part, there := false, parts := [p] } fun t =>
          t.leave { id := p.id, who := p.who, port := m.port, part := m.part, there := false, parts := [p] }))) ∧
  (∀ (s : State) (h : HeldReq) (go : State → State),
    let t := s.clockReq h
    let shares := ∃ n ∈ h.needs, (t.acct n.1.2 n.1.1).weight = 0 ∧ (t.acct n.1.2 n.1.1).guar = 0
    let fits := (∀ n ∈ h.needs, (t.acct n.1.2 n.1.1).fits n.2 = true) ∧ ∀ n ∈ h.needs, n.1 ∉ t.blockedBy t.sluHeld
    (shares → s.atSluice h go = t.refuseHeld h 0) ∧
    (¬ shares → fits → s.atSluice h go = go (h.needs.foldl (fun a n => a.setAcct n.1.2 n.1.1 ((a.acct n.1.2 n.1.1).take n.2)) t)) ∧
    (¬ shares → ¬ fits →
      s.atSluice h go = { h.needs.foldl (fun a n => a.setAcct n.1.2 n.1.1 { a.acct n.1.2 n.1.1 with active := true }) t with
        sluHeld := t.sluHeld ++ [h] })) ∧
  (∀ (s : State) (p : ReqPart) (k x : Nat), s.resolve p.ma = .rsv k x →
    let mine := s.permitted { port := p.port, part := p.part, core := none } (.rsv k x)
    (s.rsvFenced k = true → s.reach p = s.refusePart cNetTargetReset 0 p) ∧
    (s.rsvFenced k = false → mine = false → s.reach p = s.refusePart cNetPartDenied 0 p) ∧
    (s.rsvFenced k = false → mine = true → p.wr = true → (∃ r ∈ p.runs, s.areaBarred p.port (s.resolve r.1) = true) →
      s.reach p = s.refusePart cAttTableProtected 0 p) ∧
    (s.rsvFenced k = false → mine = true → (p.wr = false ∨ ∀ r ∈ p.runs, s.areaBarred p.port (s.resolve r.1) = false) → p.arrived = none →
      s.reach p = State.arbitrate { s with arrNo := s.arrNo + 1 } k (s.rsvCh k x) { p with arrived := some (s.tick, s.time, s.arrNo) })) ∧
  (∀ (s : State) (k c : Nat) (r : ReqPart),
    let ch := s.chan k c
    let behind := s.behindLaunch k c r.via
    let first := ch.ops = [] ∧ ch.window = false ∧ ch.busy = false
    (∀ t, first → s.perform r = some t → s.arbitrate k c r = t) ∧
    (behind = true → 256 ≤ ch.depth → s.arbitrate k c r =
      (s.setRsv k { s.rsv k with busyCount := satAdd (s.rsv k).busyCount 1 }).refusePart cRsvChannelBusy 1 r) ∧
    (¬ first → (behind = false ∨ ch.depth < 256) →
      let t := s.order k c r.via (.req { r with inHold := behind })
      s.arbitrate k c r = (t.setChan k c { t.chan k c with
        held := if behind = true then satAdd (t.chan k c).held 1 else (t.chan k c).held }).serve k c)) ∧
  (∀ (s : State) (rsv : BitVec 3) (ch : BitVec 5) (r : ReqPart) (e : ArbEntry) (a b : List ArbEntry),
    let k := rsv.toNat
    let c := ch.toNat
    let x := s.chan k c
    let early := fun (y : ArbEntry) => ∀ q, y.item = .req q → s.holdLate q = false
    ((∀ y ∈ x.ops, early y) → exec (.holdTimeout rsv ch) s = .next s) ∧
    (x.ops = a ++ e :: b → (∀ y ∈ a, early y) → e.item = .req r → s.holdLate r = true →
      let t := s.setChan k c { x with ops := a ++ b }
      exec (.holdTimeout rsv ch) s =
        .next ((((t.setRsv k { t.rsv k with busyCount := satAdd (t.rsv k).busyCount 1 }).refusePart cRsvChannelBusy 2 r).serve k c).resume)))

/-- 10 R229: an epoch of a target with nothing held gives every account its allowance, with up to 16 unused flits carried and its debt repaid
first, and leaves other targets' accounts. 10 R230: a request starved through 1,024 epochs is removed and answered with NET_SLUICE_BARRED.
10 R237: CLR_MAX clears the largest latency of its pair alone. 10 R225: the next flit of a row is delivered with those that came early behind
it; one with a bad CRC asks for a replay, and the sixteenth replay that fails disables its bundle (R226); nothing passes in a window, and a
window opens only at its tick. -/
def Obligations.SluicesAndBridge : Prop :=
  (∀ (s : State) (target : BitVec 6), s.sluHeld = [] → (∀ a ∈ s.accs, ∀ r ∈ a.reqs, ∀ f, r.res = some f → f.1 = 0) →
    ∃ t, exec (.sluiceEpoch target) s = .next t ∧
      (∀ m < 64, t.acct target.toNat m = if s.acct target.toNat m = {} then {} else
        (s.acct target.toNat m).renew (s.allowance target.toNat m) false) ∧
      (∀ j m, m < 64 → j ≠ target.toNat → t.acct j m = s.acct j m) ∧ t.sluHeld = [] ∧ t.mem = s.mem ∧ t.cores = s.cores) ∧
  (∀ (s : State) (master target : BitVec 6) (h : HeldReq),
    (s.sluHeld.find? fun h => h.counts master.toNat target.toNat && decide (1024 ≤ Map.get 0 h.starved target.toNat)) = some h →
    exec (.sluiceStarved master target) s =
      .next (((({ s with sluHeld := s.sluHeld.erase h } : State).refuseHeld h 3).issueHeld).resume)) ∧
  (∀ (s : State) (h : HeldReq) (p : ReqPart) (sub : Nat), h.parts = [p] →
    s.refuseHeld h sub = if h.there = true then s.answer p cNetSluiceBarred p.ma sub [] else s.partDone p cNetSluiceBarred p.ma sub []) ∧
  (∀ (s : State) (master : BitVec 6) (cls : BitVec 3), cls.toNat < 5 →
    let k := 5 * master.toNat + cls.toNat
    exec (.clrMax master cls) s = .next { s with sluLat := Map.set {} s.sluLat k { Map.get {} s.sluLat k with maxNs := 0 } }) ∧
  (∀ (s : State) (d : BitVec 1) (b : BitVec 6) (n : Nat) (flit : BitVec 512),
    let x := s.bundle d.toNat b.toNat
    let row := 4 * d.toNat + b.toNat / 16
    let r := Map.get {} s.brRows row
    x.st ≠ 2 → s.brWindow.toNat.testBit d.toNat = false →
    (x.inject = 0 → n = r.next → r.early = [] →
      ∃ t, exec (.flitReceive d b n true flit []) s = .next t ∧ (Map.get {} t.brRows row).next = n + 1 ∧
        (Map.get {} t.brRows row).out = r.out ++ [flit] ∧ (n, b.toNat) ∈ (Map.get {} t.brRows row).sent ∧ (∀ j, j ≠ row → Map.get {} t.brRows j = Map.get {} s.brRows j) ∧
        t.mem = s.mem ∧ t.cores = s.cores) ∧
    (x.inject = 0 → n < r.next → r.early = [] →
      ∃ t, exec (.flitReceive d b n true flit []) s = .next t ∧ (Map.get {} t.brRows row).next = r.next ∧
        (Map.get {} t.brRows row).out = r.out) ∧
    ((r.asked.filter fun a => a == (b.toNat, n)).length < 16 →
      ∃ t, exec (.flitReceive d b n false flit []) s = .next t ∧ (Map.get {} t.brRows row).asked = r.asked ++ [(b.toNat, n)] ∧
        (Map.get {} t.brRows row).out = r.out ∧ (t.bundle d.toNat b.toNat).replays = satAdd x.replays 1) ∧
    (16 ≤ (r.asked.filter fun a => a == (b.toNat, n)).length →
      ∃ t, exec (.flitReceive d b n false flit []) s = .next t ∧ (t.bundle d.toNat b.toNat).st = 2 ∧ t.mem = s.mem ∧ t.cores = s.cores)) ∧
  (∀ (s : State) (d : BitVec 1), s.brWindow.toNat.testBit d.toNat = false →
    (s.opensWindow 65536 (32768 + 2 * d.toNat) = false → ∀ f, exec (.bridgeCalWindow d f) s = .next s) ∧
    (s.opensWindow 65536 (32768 + 2 * d.toNat) = true → (∀ b < 64, (s.bundle d.toNat b).failing = []) →
      exec (.bridgeCalWindow d []) s = .next { s with brWindow := s.brWindow ||| BitVec.ofNat 2 (2 ^ d.toNat) }))

/-- 06 R140, R141; 07 R168: a window opens at its first tick's boundary on a sub-channel or channel that has not retired, and closes once its ticks
have passed, making up the refreshes owed and performing what waited. 06 R146; 07 R171: an evacuation goes on as far as its writes are let in;
once all is copied it retires its sub-channel or channel and counts what was poisoned; one without a valid target for a second retires it unevacuated; while a target is missing nothing is done. -/
def Obligations.WindowsAndRetirement : Prop :=
  (∀ (s : State) (core : CoreId) (layer : BitVec 2),
    let n := core.toNat
    let l := layer.toNat
    let x := s.sub n l
    let opens := s.opensWindow 4096 (1024 * l + 2 * n)
    let inside := s.inWindow 4096 (1024 * l + 2 * n) 2
    ((opens = false ∨ x.window = true ∨ x.st = .retired) → ∀ f, exec (.cstCalWindow core layer f) s = .next s) ∧
    (opens = true → x.window = false → x.st ≠ .retired → n < s.nCores → x.dead = [] → x.prov = [] →
      exec (.cstCalWindow core layer []) s = .next (s.setSub n l { x with window := true })) ∧
    (x.window = true → inside = false → exec (.calibrationWindowEnd (.cist core layer)) s =
      .next ((s.setSub n l { x with window := false, waiting := [], refreshes := x.refreshes + x.owed, owed := 0 }).again x.waiting)) ∧
    (x.window = false → exec (.calibrationWindowEnd (.cist core layer)) s = .next s) ∧
    (∀ e w, s.evacOf true n l = some e → e.target = some w →
      let r := s.evacRun e w.toNat (e.total - e.pos)
      (r.2.2 = true → exec (.cstEvacuationDone core layer) s =
        .next (({ r.1 with evacs := r.1.evacs.filter fun x => !x.same e } : State).subRetired n l r.2.1.poisoned true)) ∧
      (r.2.2 = false → exec (.cstEvacuationDone core layer) s = .next (r.1.setEvac r.2.1))) ∧
    ((∀ e, s.evacOf true n l = some e → e.target = none) → exec (.cstEvacuationDone core layer) s = .next s)) ∧
  (∀ (s : State) (rsv : BitVec 3) (ch : BitVec 5),
    let k := rsv.toNat
    let c := ch.toNat
    let x := s.chan k c
    let opens := s.opensWindow 4096 (16 * (32 * k + c))
    let inside := s.inWindow 4096 (16 * (32 * k + c)) 2
    ((opens = false ∨ x.window = true ∨ x.st = .retired) → ∀ f, exec (.rsvCalWindow rsv ch f) s = .next s) ∧
    (opens = true → x.window = false → x.st ≠ .retired → x.dead = [] → x.prov = [] →
      exec (.rsvCalWindow rsv ch []) s = .next (s.setChan k c { x with window := true })) ∧
    (x.window = true → inside = false → exec (.calibrationWindowEnd (.rsv rsv ch)) s =
      .next ((s.setChan k c { x with window := false }).serve k c)) ∧
    (∀ e w, s.evacOf false k c = some e → e.target = some w →
      let r := s.evacRun e w.toNat (e.total - e.pos)
      (r.2.2 = true → exec (.rsvEvacuationDone rsv ch) s =
        .next (({ r.1 with evacs := r.1.evacs.filter fun x => !x.same e } : State).chanRetired k c r.2.1.poisoned true)) ∧
      (r.2.2 = false → exec (.rsvEvacuationDone rsv ch) s = .next (r.1.setEvac r.2.1))) ∧
    ((∀ e, s.evacOf false k c = some e → e.target = none) → exec (.rsvEvacuationDone rsv ch) s = .next s)) ∧
  (∀ (s : State) (cist : Bool) (core : CoreId) (ch : BitVec 5) (e : Evac), s.evacOf cist core.toNat ch.toNat = some e →
    let t := { s with evacs := s.evacs.erase e }
    ((e.target.isSome = true ∨ s.time < e.since + 1600000000) → exec (.evacTargetTimeout cist core ch) s = .next s) ∧
    (e.target = none → e.since + 1600000000 ≤ s.time → exec (.evacTargetTimeout cist core ch) s =
      .next (if cist = true then t.subRetired core.toNat ch.toNat 0 false else t.chanRetired core.toNat ch.toNat 0 false)))

/-- 06 R141, R148: a refresh of a cistern bank counts, or is owed while its window is open. 07 R173, 08 R196: a refresh of a bank group counts, and
in processor mode its running unit pauses. 06 R149: a held write past its limit is answered MEM_CST_WRITE_HOT while the hold lasts, and what
else was held comes again. 07 R174: the skimmer does nothing where it is off or the channel retired, and falls behind in processor mode. -/
def Obligations.Refreshes : Prop :=
  (∀ (s : State) (core : CoreId) (layer : BitVec 2),
    let n := core.toNat
    let l := layer.toNat
    let x := s.sub n l
    (x.window = true → exec (.cstRefresh core layer) s = .next (s.setSub n l { x with owed := x.owed + 1 })) ∧
    (x.window = false → exec (.cstRefresh core layer) s = .next (s.setSub n l { x with refreshes := x.refreshes + 1 })) ∧
    (∀ r, (x.held.find? fun r => r.wr && s.reached (r.arrivedTick s.tick + max 1 (s.cist n).wholdLimit.toNat)) = some r →
      let t := s.setSub n l { x with held := [] }
      (x.whold = true → exec (.memCstWriteHot core layer) s =
        .next (((t.refusePart cMemCstWriteHot 0 r).again (x.held.erase r)).resume)) ∧
      (x.whold = false → exec (.memCstWriteHot core layer) s = .next (t.again x.held))) ∧
    (x.held = [] → exec (.memCstWriteHot core layer) s = .next s)) ∧
  (∀ (s : State) (rsv : BitVec 3) (ch : BitVec 5) (bg : BitVec 3),
    let k := rsv.toNat
    let c := ch.toNat
    let x := s.chan k c
    (x.current = none → exec (.rsvRefresh rsv ch bg) s = .next (s.setChan k c { x with refreshes := x.refreshes + 1 })) ∧
    (∀ m l, x.current = some (.launch m) → s.launch m = some l → l.fault = none →
      let u := Map.get {} l.units (256 * k + 8 * c + bg.toNat)
      u.ended = false → exec (.rsvRefresh rsv ch bg) s =
        .next ((s.setChan k c { x with refreshes := x.refreshes + 1, runPauses := satAdd x.runPauses 1 }).setLaunch m
          { l with units := Map.set {} l.units (256 * k + 8 * c + bg.toNat) { u with pauses := u.pauses + 1 } })) ∧
    (((s.rsv k).skimEnable = false ∨ x.st = .retired) → ∀ e, exec (.skimRead rsv ch e) s = .next s) ∧
    ((s.rsv k).skimEnable = true → x.st ≠ .retired → x.proc = true → exec (.skimRead rsv ch false) s =
      .next ((s.setChan k c { x with skimDue := x.skimDue + 1 }).setRsv k
        { s.rsv k with skimBehind := (s.rsv k).skimBehind ||| BitVec.ofNat 32 (2 ^ c) })) ∧
    ((s.rsv k).skimEnable = true → x.st ≠ .retired → x.proc = false →
      let g := x.skimPos % skimGranules
      let key := (Tgt.rsv k (s.rsvOff k c (g / 64 % 8) (g / 512) (g % 64))).key
      (∀ j < 8, Map.get {} s.cw ((key + 64 * j) / 64) = {}) →
      ∃ t, exec (.skimRead rsv ch false) s = .next t ∧ t.mem = s.mem ∧ t.cw = s.cw ∧ (t.chan k c).skimPos = x.skimPos + 1 ∧
        (t.chan k c).corrected = x.corrected ∧ (t.chan k c).uncorr = x.uncorr ∧ t.events = s.events))

/-- 11 R239, R243 to R248: a pulse one tick after the last counts on, and the 1,025th in a row acquires; a masked one is ignored. In LOCKED
a pulse pulls the counter to the cadence, within 64 drops, over one tick. A missing pulse in ACQUIRE or LOCKED is remembered and counted, the
next missing one puts the counter into HOLDOVER with CLP_CADENCE_LOST; before then it only ends the run. A marker within 16,384 drops starts
the slew, one beyond sets PHASE_ERROR; the slew's end locks. In S2 a marker after pulses sets the counter and locks; without pulses in the
first millisecond it runs free, without a marker in two turns it is in PHASE_ERROR. Two misalignments on consecutive turns set PHASE_ERROR.
Uncertainty past its threshold is posted once. A turn boundary posts CLP_TURN once. That a pull is spread over one tick is the model's choice
(log entry 65). -/
def Obligations.Clepsydra : Prop :=
  ∀ (s : State),
    let c := s.clp
    let off := nearest 1024 s.edgePos
    let t := ((s.edgePos - off) / 1024 % 2 ^ 48).toNat
    let e := nearest (65536 * 1024) s.edgePos
    (c.masked = true → exec .cadencePulse s = .next s ∧ exec .turnMarker s = .next s.s2Watch) ∧
    (c.masked = false → c.s2Lock = false → (c.mode = .freeRun ∨ c.mode = .holdover) →
      (∀ l, c.lastPulse = some l → (l + 1) % 2 ^ 48 = t →
        let u : State := { s with clp := { c with lastPulse := some t, pulseAt := some s.time, run := c.run + 1, missing := false } }
        (c.run + 1 < 1025 → exec .cadencePulse s = .next u) ∧
        (1025 ≤ c.run + 1 → exec .cadencePulse s = .next (u.setClp .acquire))) ∧
      (c.lastPulse = none →
        exec .cadencePulse s = .next { s with clp := { c with lastPulse := some t, pulseAt := some s.time, run := 1, missing := false } })) ∧
    (c.masked = false → c.s2Lock = false → c.mode = .locked → ∃ r,
      let d : Clep := { c with lastPulse := some t, pulseAt := some s.time, run := r, missing := false }
      (off.natAbs ≤ 64 → t % 65536 ≠ 0 → exec .cadencePulse s = .next { s with clp := d.pull off off }) ∧
      ((64 < off.natAbs ∨ t % 65536 = 0) → exec .cadencePulse s = .next (({ s with clp := d } : State).misaligned off))) ∧
    (∀ x : Int,
      ((∀ l, c.lastBad = some l → (l + 1) % 2 ^ 32 ≠ s.turn) →
        s.misaligned x = { s with clp := { c with markerErr := satAdd c.markerErr 1, lastBad := some s.turn } }) ∧
      (∀ l, c.lastBad = some l → (l + 1) % 2 ^ 32 = s.turn → (s.misaligned x).clp.mode = .phaseError ∧
        (s.misaligned x).clp.markerErr = satAdd c.markerErr 1)) ∧
    (∀ x : Int, -64 ≤ x → x ≤ 64 → c.slew = 0 →
      let d := (List.range (1024 + x).toNat).foldl (fun c _ => c.advance) (c.pull x x)
      d.tick = c.tick + 1 ∧ d.drop = c.drop ∧ d.slew = 0) ∧
    ((s.tick % 65536 = 0 ∨ c.lastPulse = some s.tick ∨ c.missTick = some s.tick) → exec .cadenceMissing s = .next s) ∧
    (s.tick % 65536 ≠ 0 → c.lastPulse ≠ some s.tick → c.missTick ≠ some s.tick →
      let d : Clep := { c with missTick := some s.tick }
      ((c.mode = .freeRun ∨ c.mode = .holdover) → exec .cadenceMissing s = .next { s with clp := { d with run := 0 } }) ∧
      ((c.mode = .acquire ∨ c.mode = .locked) →
        (c.missing = false → exec .cadenceMissing s = .next { s with clp := { d with missing := true, missed := satAdd c.missed 1 } }) ∧
        (c.missing = true → exec .cadenceMissing s =
          .next (({ s with clp := d } : State).clpEvent .holdover cClpCadenceLost (s.uncert : Int))))) ∧
    (c.masked = false → c.resyncs = [] → c.s2Lock = false → c.mode = .acquire → c.slewing = false →
      let u : State := { s with clp := { c with phase := BitVec.ofNat 32 (wrapTo 32 e) } }
      (e.natAbs ≤ 16384 → exec .turnMarker s = .next { u with clp := { u.clp with slewing := true }.pull (16 * e.sign) e }) ∧
      (16384 < e.natAbs → exec .turnMarker s = .next (u.clpEvent .phaseError cClpPhaseError e))) ∧
    (c.s2Lock = true → 2 ≤ s.bup.stage.toNat →
      (c.masked = false → s.s2Since ≤ 1600000 → c.mode = .freeRun → ∃ r, exec .cadencePulse s = .next { s with clp :=
        { c with lastPulse := some t, pulseAt := some s.time, run := r, missing := false, s2Pulses := true } }) ∧
      (c.masked = false → c.resyncs = [] → c.s2Pulses = true → s.s2Since ≤ 2 * 65536 * 1024 → ∃ u, exec .turnMarker s = .next u ∧
        u.clp.mode = .locked ∧ u.clp.s2Lock = false ∧ (u.pos : Int) = ((s.pos : Int) - e) % 2 ^ 58 ∧ u.mem = s.mem) ∧
      (c.s2Pulses = false → 1600000 < s.s2Since → s.s2Watch.clp.mode = .freeRun ∧ s.s2Watch.clp.s2Lock = false) ∧
      (c.s2Pulses = true → 2 * 65536 * 1024 < s.s2Since → s.s2Watch.clp.mode = .phaseError ∧ s.s2Watch.clp.s2Lock = false)) ∧
    (c.mode = .acquire → c.slewing = true → c.slew = 0 → exec .slewComplete s =
      .next (({ s with clp := { c with relocks := c.relocks + 1 } } : State).clpEvent .locked cClpRelocked 0)) ∧
    ((c.slewing = false ∨ c.slew ≠ 0) → exec .slewComplete s = .next s) ∧
    (c.mode = .holdover → c.lossTime.isSome = true → c.uncertSent = false → c.thresh ≠ 0 → c.thresh.toNat < s.uncert →
      exec .clpUncertHigh s = .next (({ s with clp := { c with uncertSent := true } } : State).postEv 2 cClpUncertHigh none [0, 3, 3, s.uncert])) ∧
    (c.uncertSent = true → exec .clpUncertHigh s = .next s) ∧
    ((c.lastTurn = some s.turn ∨ s.atDropZero = false) → exec .turnBoundary s = .next s) ∧
    (s.tick % 65536 = 0 → s.atDropZero = true → c.lastTurn ≠ some s.turn → 2 ≤ s.bup.stage.toNat → c.newTurns = [] →
      (∀ p < 20, (s.lport p).rxPlan = [] ∧ (s.lport p).txPlan = []) →
      ∃ u, exec .turnBoundary s = .next u ∧ u.clp = { c with lastTurn := some s.turn } ∧ (∀ b, (Map.get {} u.bundles b).parity = []) ∧
        u.mem = s.mem ∧ u.cores = s.cores ∧
        ∃ evs, u.events = s.events ++ evs ∧
          evs.getLast? = some { post := s.time, src := 2, audits := [], body := .ev cClpTurn none ([0, s.turn - 1, s.turn, 0].map (BitVec.ofNat 64)) })

/-- 13 R291, R292: setting ENABLE on a ring of 16 to 65,536 entries starts it empty with PHASE 1; a tail or head within the ring takes effect, one
outside it, or a head past what was written, halts the ring with HST_RING_BAD; a ring not enabled or halted ignores doorbells. R293: the SQ
whose turn it is gives its next entry, taken as a command. R294: the oldest completion of a CQ with room is written and leaves the list. R296:
entries enough or old enough raise the ring's vector, whose message goes out unless masked; unmasked, a pending one is sent. -/
def Obligations.Rings : Prop :=
  (∀ (s : State) (ring : BitVec 4) (v : BitVec 16),
    let r := ring.toNat
    let x := s.ring r
    let y := s.ring (16 + r)
    s.hubBlocked = false →
    (x.live = false → exec (.sqDoorbell ring v) s = .next s) ∧
    (x.live = true → v.toNat < x.size → exec (.sqDoorbell ring v) s = .next ((s.post 13 (.doorbell 0 r v.toNat)).setRing r
      { x with tail := v, used := x.used + (v.toNat + x.size - x.tail.toNat) % x.size })) ∧
    (x.live = true → x.size ≤ v.toNat →
      exec (.sqDoorbell ring v) s = .next ((s.post 13 (.doorbell 0 r v.toNat)).ringBad r x.tail.toNat v.toNat)) ∧
    (y.live = false → exec (.cqDoorbell ring v) s = .next s) ∧
    (y.live = true → v.toNat < y.size → (v.toNat + y.size - y.head.toNat) % y.size ≤ y.used →
      exec (.cqDoorbell ring v) s = .next ((s.post 13 (.doorbell 1 (16 + r) v.toNat)).setRing (16 + r)
        { y with head := v, used := y.used - (v.toNat + y.size - y.head.toNat) % y.size })) ∧
    (y.live = true → (y.size ≤ v.toNat ∨ y.used < (v.toNat + y.size - y.head.toNat) % y.size) →
      exec (.cqDoorbell ring v) s = .next ((s.post 13 (.doorbell 1 (16 + r) v.toNat)).ringBad (16 + r) y.head.toNat v.toNat))) ∧
  (∀ (s : State) (v : BitVec 16),
    let y := s.ring 32
    s.hubBlocked = false → y.live = true → v.toNat < y.size → (v.toNat + y.size - y.head.toNat) % y.size ≤ y.used →
      exec (.eqDoorbell v) s = .next ((s.post 13 (.doorbell 2 32 v.toNat)).setRing 32
        { y with head := v, used := y.used - (v.toNat + y.size - y.head.toNat) % y.size })) ∧
  (∀ (s : State) (ring : BitVec 6) (cfg : BitVec 32),
    let r := ring.toNat
    s.hubBlocked = false → r < 33 → (s.ring r).enable = false → 4 ≤ (cfg.toNat >>> 16) % 32 → (cfg.toNat >>> 16) % 32 ≤ 16 →
      ∃ t, exec (.ringEnable ring cfg) s = .next t ∧ (t.ring r).enable = true ∧ (t.ring r).halted = false ∧
        (t.ring r).log2n.toNat = (cfg.toNat >>> 16) % 32 ∧ (t.ring r).head = 0 ∧ (t.ring r).tail = 0 ∧ (t.ring r).phase = true ∧
        (t.ring r).used = 0 ∧ (t.ring r).addr = (s.ring r).addr ∧ (∀ j, j ≠ r → t.ring j = s.ring j) ∧ t.mem = s.mem ∧ t.cores = s.cores) ∧
  (∀ (s : State) (ring : BitVec 4) (bs : List Byte),
    let r := ring.toNat
    let x := s.ring r
    s.nextSq = some r → s.host.taken.length < 256 → s.bup.holding = false → s.heldEvents 14 = [] → bs.length = 64 →
      exec (.sqEntryTake ring .failed) s = .next (s.sqFetchFailed r) ∧
      (let w (i : Nat) : Nat := leNat ((bs.drop (8 * i)).take 8)
       let c : WcsCmd := { sq := r, cid := bitsOf (w 0) 16 16, part := bitsOf (w 0) 32 5, opc := w 0 % 256, order := (w 0).testBit 8,
                           w := (List.range 7).map fun i => BitVec.ofNat 64 (w (i + 1)), stage := 0 }
       let t := s.setRing r { x with head := BitVec.ofNat 16 ((x.head.toNat + 1) % x.size), used := x.used - 1 }
       exec (.sqEntryTake ring (.ok bs)) s =
         .next (({ t with host := { t.host with lastSq := r, taken := t.host.taken ++ [c] } } : State).refuseCmds.takeAbort c))) ∧
  (∀ (s : State) (ring : BitVec 4) (w : CqWait),
    let cq := ring.toNat
    (s.host.cqWait.find? fun w => (s.ring w.sq).cq.toNat == cq) = some w → (s.ring (16 + cq)).room = true →
      let w0 := (s.ring w.sq).head.toNat * 2 ^ 48 + w.status % 2 ^ 16 * 2 ^ 32 + w.cid % 2 ^ 16 * 2 ^ 16 + w.sq % 16 * 2 ^ 12 + w.opc % 256
      let t := s.ringWrite (16 + cq)
        ([w0, w.esn.toNat, w.fault % 2 ^ 16 * 2 ^ 48 + w.tick % 2 ^ 48] ++ (List.range 4).map fun i => (w.result.getD i 0).toNat)
      let taken := match t.host.taken.find? fun c => c.sq == w.sq && c.cid == w.cid && c.stage == 3 with
        | some c => t.host.taken.erase c
        | none => t.host.taken
      exec (.cqEntryWrite ring) s =
        .next (({ t with host := { t.host with cqWait := t.host.cqWait.erase w, taken := taken } } : State).refuseCmds)) ∧
  (∀ (s : State) (ring : BitVec 6),
    let r := ring.toNat
    let x := s.ring r
    16 ≤ r → r < 33 → x.fresh ≠ 0 → max 1 x.coalCnt.toNat ≤ x.fresh →
      exec (.msixInterrupt ring) s = .next ((s.setRing r { x with fresh := 0, firstAt := none }).signalVec x.vector.toNat)) ∧
  (∀ (s : State) (v : BitVec 8),
    let m := s.vec v.toNat
    s.hubBlocked = false →
    (m.pending = false → exec (.msixVectorUnmask v) s = .next (s.setVec v.toNat { m with masked := false })) ∧
    (m.pending = true → s.pci.msixMask = false → s.pci.msixEn = true →
      ∃ t, exec (.msixVectorUnmask v) s = .next t ∧ (t.vec v.toNat).pending = false ∧ (t.vec v.toNat).masked = false ∧
        t.hostOut = s.hostOut ++ [.msix m.addr m.data]))

/-- The rows by which the host reaches the hub, and what the hub receives. -/
inductive HubRow : Instr → HubAcc → Prop
  | sq (r : BitVec 4) (v : BitVec 16) : HubRow (.sqDoorbell r v) (.sqDoorbell r.toNat v.toNat)
  | cq (r : BitVec 4) (v : BitVec 16) : HubRow (.cqDoorbell r v) (.headDoorbell 1 (16 + r.toNat) v.toNat)
  | eq (v : BitVec 16) : HubRow (.eqDoorbell v) (.headDoorbell 2 32 v.toNat)
  | enable (r : BitVec 6) (cfg : BitVec 32) : HubRow (.ringEnable r cfg) (.enable r.toNat cfg)
  | unmask (v : BitVec 8) : HubRow (.msixVectorUnmask v) (.unmask v.toNat)
  | read (tag : BitVec 10) (off : BitVec 40) (len : BitVec 13) : HubRow (.hostBar2Read tag off len) (.read tag.toNat off.toNat len.toNat)
  | write (off : BitVec 40) (bs : List Byte) : HubRow (.hostBar2Write off bs) (.write off.toNat bs)
  | bar0 (tag : BitVec 10) (off : BitVec 26) (len : BitVec 4) (d : Option (BitVec 64)) :
      HubRow (.regApertureAccess tag off len d) (.bar0 tag.toNat off.toNat len.toNat d)
  | reg (off : BitVec 36) (len : BitVec 4) (d : BitVec 64) : HubRow (.registerWrite .host false off len d) (.reg off.toNat len.toNat d)
  | hst (off : BitVec 36) (len : BitVec 4) (d : BitVec 64) :
      HubRow (.registerWrite .host true off len d) (.bar0 0 (off.toNat % 2 ^ 25) len.toNat (some d))

/-- 13 R285 to R289: a BAR2 access with the window closed fails with MEM_UNMAPPED, a write of a read-only window with HST_WIN_READONLY, and with it
open goes to BASE and its offset. A BAR0 read of 4 or 8 aligned bytes of HST_ completes with the register; a misaligned one with UR, a
misaligned write is discarded. An access the hub receives while a write posted
earlier still waits in the module is performed after it; with none waiting, at the next drop of time (the
model's choice, log entry 112). A read not complete after 500 µs is
answered with CA. 00 R5: bits written as 1 clear W1C flags and leave the
others. Configuration writes set their fields, an offered BAR2 size only. -/
def Obligations.HostAccesses : Prop :=
  (∀ (s : State) (tag : BitVec 10) (off : BitVec 40) (len : BitVec 13) (bs : List Byte), off.toNat < 2 ^ s.pci.bar2Log.toNat →
    s.hubBlocked = false →
    (s.host.winEn = false →
      (exec (.hostBar2Read tag off len) s = .next (s.hostReadFails tag.toNat (s.bar2MA off.toNat) len.toNat cMemUnmapped) ∧
       exec (.hostBar2Write off bs) s = .next (s.barFault cMemUnmapped (s.bar2MA off.toNat)))) ∧
    (s.host.winEn = true →
      exec (.hostBar2Read tag off len) s = .next (s.hostRead tag.toNat (s.bar2MA off.toNat) (min len.toNat 4096)) ∧
      (s.host.wprot = true → exec (.hostBar2Write off bs) s = .next (s.barFault cHstWinReadonly (s.bar2MA off.toNat))) ∧
      (s.host.wprot = false → exec (.hostBar2Write off bs) s = .next (s.hostWrite (s.bar2MA off.toNat) (bs.take 512))))) ∧
  (∀ (s : State) (code ma : Nat),
    (s.barFault code ma).host.faultCount = satAdd s.host.faultCount 1 ∧ (s.barFault code ma).host.faultValid = true ∧
    (s.host.faultValid = true → (s.barFault code ma).host.faultCode = s.host.faultCode ∧ (s.barFault code ma).host.faultMA = s.host.faultMA ∧
      (s.barFault code ma).events = s.events) ∧
    (s.host.faultValid = false → (s.barFault code ma).host.faultCode = BitVec.ofNat 16 code ∧
      (s.barFault code ma).host.faultMA = BitVec.ofNat 48 ma)) ∧
  (∀ (s : State) (tag : BitVec 10) (off : BitVec 26) (len : BitVec 4) (d : BitVec 64), s.hubBlocked = false →
    ((len ≠ 4 ∧ len ≠ 8 ∨ off.toNat % len.toNat ≠ 0) →
      exec (.regApertureAccess tag off len none) s = .next { s with hostOut := s.hostOut ++ [.cpl tag.toNat .ur []] } ∧
      exec (.regApertureAccess tag off len (some d)) s = .next s) ∧
    ((len = 4 ∨ len = 8) → off.toNat % len.toNat = 0 → off.toNat < 2 ^ 25 →
      exec (.regApertureAccess tag off len none) s = .next { s.draw with hostOut := s.hostOut ++ [.cpl tag.toNat .ok
        (((leBytes 8 ((s.hstSlot (off.toNat / 8 * 8)).value s.free)).drop (off.toNat % 8)).take len.toNat)] } ∧
      exec (.regApertureAccess tag off len (some d)) s =
        .next (s.bar0Store (off.toNat / 8 * 8) (regW (off.toNat % 8) (leBytes len.toNat d.toNat)))) ∧
    ((len = 4 ∨ len = 8) → off.toNat % len.toNat = 0 → 2 ^ 25 ≤ off.toNat →
      let ma := s.regMA (off.toNat % 2 ^ 25)
      (inRegSpace ma = true → exec (.regApertureAccess tag off len none) s = .next (s.hostRead tag.toNat ma len.toNat) ∧
        exec (.regApertureAccess tag off len (some d)) s = .next (s.hostWrite ma (leBytes len.toNat d.toNat))) ∧
      (inRegSpace ma = false → exec (.regApertureAccess tag off len (some d)) s = .next (s.barFault cMemUnmapped ma)))) ∧
  (∀ (s : State) (i : Instr) (a : HubAcc), HubRow i a → s.hostWaits = true →
    exec i s = .next { s with host := { s.host with hub := s.host.hub ++ [(s.time, a)] } }) ∧
  (∀ (s : State) (t : Nat) (a : HubAcc), s.pending = [] → s.partials = [] → s.clp.s2Lock = false → (∀ n, (s.core n).asyncWait = []) →
    s.hostWaits = false → s.host.hub = [(t, a)] →
    step s = .next (({ s with time := s.time + 1, clp := if s.bup.stage.toNat < 2 then s.clp else s.clp.advance,
                              host := { s.host with hub := [] } } : State).hubPerform t a)) ∧
  (∀ (s : State) (tag : BitVec 10) (h : HostRead), (s.host.reads.find? fun h => h.tag = tag.toNat) = some h →
    exec (.hstReadExpired tag) s = .next (if h.since + 800000 ≤ s.time then
      s.endHostRead { h with fault := some (cHstReadExpired, h.ma, 0) } else s)) ∧
  (∀ (s : State) (o : Origin) (b : Bool) (off : BitVec 36) (len : BitVec 4) (d : BitVec 64), (o = .host → s.hubBlocked = false) →
    ((len ≠ 4 ∧ len ≠ 8 ∨ off.toNat % len.toNat ≠ 0) → exec (.registerWrite o b off len d) s = .next s) ∧
    ((len = 4 ∨ len = 8) → off.toNat % len.toNat = 0 →
      let w := s.writeRegs o off.toNat (leBytes len.toNat d.toNat)
      (o = .host → w.2 = 0 → exec (.registerWrite o false off len d) s = .next w.1) ∧
      (o = .host → w.2 ≠ 0 → exec (.registerWrite o false off len d) s = .next (w.1.barFault w.2 (0x03F000000000 + off.toNat))) ∧
      (∀ a, o = .sbm a → exec (.registerWrite o false off len d) s = .next w.1))) ∧
  (∀ (s : State) (n : Nat) (w : RegW),
    let f := (s.core n).sticky
    let g := ((s.coreWrite n 0x200 w).core n).sticky
    g.inv = (f.inv && !w.set 0) ∧ g.ovf = (f.ovf && !w.set 1) ∧ g.sat = (f.sat && !w.set 2) ∧ g.flush = (f.flush && !w.set 3) ∧
      ((s.coreWrite n 0x200 w).core n).wcoll = ((s.core n).wcoll && !w.set 32)) ∧
  (∀ (s : State) (k : BitVec 6) (a : BitVec 64) (e m : Bool),
    exec (.configurationWrite (.bar2Size k)) s = .next (if 28 ≤ k.toNat ∧ k.toNat ≤ 40 then { s with pci := { s.pci with bar2Log := k } } else s) ∧
    exec (.configurationWrite (.bar0 a)) s = .next { s with pci := { s.pci with bar0 := a &&& ~~~(BitVec.ofNat 64 (2 ^ 26 - 1)) } } ∧
    exec (.configurationWrite (.bar2 a)) s =
      .next { s with pci := { s.pci with bar2 := a &&& ~~~(BitVec.ofNat 64 (2 ^ s.pci.bar2Log.toNat - 1)) } } ∧
    (∀ mp mr : BitVec 3, mp.toNat ≤ 2 → mr.toNat ≤ 5 → exec (.configurationWrite (.deviceControl e mp mr)) s =
      .next { s with pci := { s.pci with relaxed := e, maxPayload := mp, maxRead := mr } }) ∧
    (s.host.msix = [] →
      exec (.configurationWrite (.msixControl e m)) s = .next { s with pci := { s.pci with msixEn := e, msixMask := m } }))

namespace Sys2Proof.Machine

/-- `c` is the first taken command of an SQ and a CID that its row finds, of opcode `opc`, unstarted, in its turn and not refused; `t` is the
machine with it started (13 R293, R297). -/
structure State.Starts (s : State) (sq : BitVec 4) (cid : BitVec 16) (opc : Nat) (c : WcsCmd) (t : State) : Prop where
  found : (s.host.taken.find? fun c => c.sq == sq.toNat && c.cid == cid.toNat && (c.stage == 0 || (c.stage == 1 && c.todo.isSome))) = some c
  fresh : c.stage = 0 ∧ c.todo = none
  op : c.opc = opc
  turn : s.startable c = true
  served : s.refusal c = none
  begun : t = s.startCmd c

/-- A WCS row answers with `u`, and commands that were behind it and are refused complete. -/
def rowAnswers (i : Instr) (s u : State) : Prop := exec i s = .next u.refuseCmds

/-- The WCS rows whose PART must name a partition that exists, with their opcodes (13 Table HST-4). -/
def partRows : List (Nat × (BitVec 4 → BitVec 16 → Instr)) :=
  [(0x05, .partDestroy), (0x07, fun q c => .descWrite q c .failed), (0x08, .flagRead), (0x09, .flagWrite), (0x10, fun q c => .load q c .failed),
   (0x11, .unload), (0x12, fun q c => .jobStart q c .failed), (0x1A, .streamCancel)]

end Sys2Proof.Machine

/-- 13 R297 with the rules it names: a command started in its turn answers as Table HST-4 says. A partition that does not exist completes it
with NO_SUCH_PARTITION. GET_PARAM gives the value of a key that exists, SET_PARAM takes a legal one, SET_WALLCLOCK sets the clock, FLAG_READ
reads 1 to 8 flags, FLAG_WRITE sends an update, FAULT_READ writes 64 bytes, SET_SHARES sets a guarantee and a weight that fit, DESC_WRITE
stores descriptors and drops cached copies, TIMEBASE waits for its turn, PEER_RESET sends its message, AUDIT_EXPORT writes entries. The
profile's layout is the model's free value. -/
def Obligations.WcsSettings : Prop :=
  ∀ (s t : State) (sq : BitVec 4) (cid : BitVec 16) (c : WcsCmd),
    (∀ p ∈ partRows, s.Starts sq cid p.1 c t → t.partExists c.part = false → rowAnswers (p.2 sq cid) s (t.ends c stNoPart)) ∧
    (s.Starts sq cid 0x01 c t →
      let bs := Config.profileBytes ([t.profGen.toNat, t.bup.ucl.toNat, t.fuses.grade, t.licWord] ++ t.profMap.flatMap (fun x => [x, x / 128]) ++
        (List.range 32).map t.mapDigest ++ (List.range 7).map fun i => (Map.get 0 t.bup.reports i).toNat)
      (c.arg 1 < bs.length → rowAnswers (.getProfile sq cid) s (t.ends c stNoResource)) ∧
      (bs.length ≤ c.arg 1 → rowAnswers (.getProfile sq cid) s ((t.toHost (c.arg 0) false bs).ok c [t.profGen.toNat]))) ∧
    (s.Starts sq cid 0x02 c t →
      (∀ v, t.paramValue (c.arg 0 % 2 ^ 32) (bitsOf (c.arg 0) 32 5) = some v → rowAnswers (.getParam sq cid) s (t.ok c [v])) ∧
      (t.paramValue (c.arg 0 % 2 ^ 32) (bitsOf (c.arg 0) 32 5) = none → rowAnswers (.getParam sq cid) s (t.ends c stNoObject)) ∧
      t.paramValue 0x10 0 = some (t.param 0x10 0 4800) ∧ t.paramValue 0x11 0 = some (t.param 0x11 0 1440) ∧
      t.paramValue 0x102 0 = some t.licWord ∧ t.paramValue 0x103 0 = some t.host.wallNs.toNat) ∧
    (s.Starts sq cid 0x03 c t →
      let key := c.arg 0 % 2 ^ 32
      let part := bitsOf (c.arg 0) 32 5
      (t.paramValue key part = none → rowAnswers (.setParam sq cid) s (t.ends c stNoObject)) ∧
      (∀ old, t.paramValue key part = some old →
        (t.paramOk key part (c.arg 1) = false → rowAnswers (.setParam sq cid) s (t.ends c stBadArg)) ∧
        (t.paramOk key part (c.arg 1) = true → (key = 0x10 ∨ key = 0x11) → t.flashTemp = false →
          rowAnswers (.setParam sq cid) s (t.ends c stTempForbidden)) ∧
        (t.paramOk key part (c.arg 1) = true → ((key = 0x10 ∨ key = 0x11) → t.flashTemp = true) → ∃ u : State,
          rowAnswers (.setParam sq cid) s (u.ok c [] (if c.arg 1 = old then [] else [c.audit 0x01 (key + part * 2 ^ 32) old (c.arg 1)])) ∧
          Map.get none u.params (key + part * 2 ^ 32) = some (BitVec.ofNat 64 (c.arg 1)) ∧
          ((key = 0x10 ∨ key = 0x11) → Map.get none u.flash.params (key + part * 2 ^ 32) = some (BitVec.ofNat 64 (c.arg 1))) ∧
          (key = 0x10 → u.thm.capW = BitVec.ofNat 16 u.capNow) ∧ u.mem = t.mem ∧ u.host = t.host))) ∧
    (s.Starts sq cid 0x23 c t →
      rowAnswers (.setWallclock sq cid) s (({ t with host := { t.host with wallNs := BitVec.ofNat 64 (c.arg 0) } } : State).ok c []
        (if c.arg 0 = t.host.wallNs.toNat then [] else [c.audit 0x09 0 t.host.wallNs.toNat (c.arg 0)]))) ∧
    (s.Starts sq cid 0x08 c t → t.partExists c.part = true →
      let v (i : Nat) : Nat := if i < c.low 1 then (t.flag c.part (c.low 0 + i)).value.toNat else 0
      ((c.low 1 = 0 ∨ 8 < c.low 1 ∨ 4096 < c.low 0 + c.low 1) → rowAnswers (.flagRead sq cid) s (t.ends c stBadArg)) ∧
      (1 ≤ c.low 1 → c.low 1 ≤ 8 → c.low 0 + c.low 1 ≤ 4096 →
        rowAnswers (.flagRead sq cid) s (t.ok c [v 0 + v 1 * 2 ^ 32, v 2 + v 3 * 2 ^ 32, v 4 + v 5 * 2 ^ 32, v 6 + v 7 * 2 ^ 32]))) ∧
    (s.Starts sq cid 0x09 c t → t.partExists c.part = true →
      ((4096 ≤ c.low 0 ∨ 1 < c.low 1) → rowAnswers (.flagWrite sq cid) s (t.ends c stBadArg)) ∧
      (c.low 0 < 4096 → c.low 1 ≤ 1 → rowAnswers (.flagWrite sq cid) s { t with flagUpds := t.flagUpds ++
        [{ part := c.part, flag := c.low 0, add := c.low 1 == 1, value := BitVec.ofNat 32 (c.arg 2), by_ := .host, done := none,
           wcs := some (c.sq, c.cid) }] })) ∧
    (s.Starts sq cid 0x14 c t →
      ((t.nCores ≤ c.low 0 ∨ 4 ≤ c.low 1) → rowAnswers (.faultRead sq cid) s (t.ends c stNoObject)) ∧
      (c.low 0 < t.nCores → c.low 1 < 4 → rowAnswers (.faultRead sq cid) s ((t.toHost (c.arg 2) false
        ((List.range 8).flatMap fun i => leBytes 8 (wordOf (t.queue (c.low 0) (c.low 1)).record i))).ok c))) ∧
    (s.Starts sq cid 0x06 c t →
      let k := c.arg 0 % 64
      let m := bitsOf (c.arg 0) 8 6
      let g := c.arg 1 % 2 ^ 11
      let w := bitsOf (c.arg 1) 16 8
      let sum := ((List.range 64).map fun i => if i = m then 0 else (t.acct k i).guar.toNat).sum
      let gone := (42 ≤ k ∧ k < 62 ∧ t.portFused (k - 42) = true) ∨ (42 ≤ m ∧ m < 62 ∧ t.portFused (m - 42) = true) ∨
        (10 ≤ k ∧ k < 42 ∧ t.fuses.clusterOff.toNat.testBit (k - 10) = true) ∨ (m < 32 ∧ t.fuses.clusterOff.toNat.testBit m = true)
      ((62 < k ∨ 1024 < g) → rowAnswers (.setShares sq cid) s (t.ends c stBadArg)) ∧
      (k ≤ 62 → g ≤ 1024 → gone → rowAnswers (.setShares sq cid) s (t.ends c stEngineAbsent)) ∧
      (k ≤ 62 → g ≤ 1024 → ¬ gone → 1024 < sum + g → rowAnswers (.setShares sq cid) s (t.ends c stShareOver)) ∧
      (k ≤ 62 → ¬ gone → sum + g ≤ 1024 → (0 < g ∨ 0 < w) → ∃ l : List Audit, rowAnswers (.setShares sq cid) s
        ((t.setAcct k m { t.acct k m with guar := BitVec.ofNat 11 g, weight := BitVec.ofNat 8 w }).ok c [] l))) ∧
    (s.Starts sq cid 0x07 c t → t.partExists c.part = true → ∀ (d : HostData) (bs : List Byte),
      ((4096 ≤ c.low 0 ∨ 4096 < c.low 0 + c.low 1) → rowAnswers (.descWrite sq cid d) s (t.ends c stBadArg)) ∧
      (c.low 0 < 4096 → c.low 0 + c.low 1 ≤ 4096 → bs.length = 128 * c.low 1 →
        rowAnswers (.descWrite sq cid (.ok bs)) s (t.storing c 0 [((t.part c.part).desc.toNat + 128 * c.low 0, bs)] fun u =>
          (u.dropDescs c.part fun i => decide (c.low 0 ≤ i) && decide (i < c.low 0 + c.low 1)).ok c))) ∧
    (∀ (n : Nat) (ws : List (Nat × List Byte)) (fin : State → State),
      let w := Who.wcs c.sq c.cid
      let r := s.track w (fun l => l.any AccRes.isWait) fun s => s.whWrites w ws
      ((∀ x ∈ r.2, ∃ b, x = .ok b) → s.storing c n ws fin = fin r.1) ∧
      ((∃ x ∈ r.2, x = .wait) → ∃ u, s.storing c n ws fin = u ∧ u.mem = r.1.mem ∧ u.reqs = r.1.reqs ∧
        ∀ x ∈ u.host.taken, x.sq = c.sq → x.cid = c.cid → x.stage = 1 → x.todo = some (n, ws))) ∧
    (∀ (d : HostData) (ws : List (Nat × List Byte)), c.stage = 1 → c.todo = some (0, ws) → c.opc = 0x07 → s.partExists c.part = true →
      (s.host.taken.find? fun c => c.sq == sq.toNat && c.cid == cid.toNat && (c.stage == 0 || (c.stage == 1 && c.todo.isSome))) = some c →
      rowAnswers (.descWrite sq cid d) s (s.storing c 0 ws fun u =>
        (u.dropDescs c.part fun i => decide (c.low 0 ≤ i) && decide (i < c.low 0 + c.low 1)).ok c)) ∧
    (s.Starts sq cid 0x21 c t →
      (c.low 0 = 0 → rowAnswers (.timebaseSetTurn sq cid) s
        { t with clp := { t.clp with newTurns := t.clp.newTurns ++ [(c.sq, c.cid, BitVec.ofNat 32 (c.arg 1))] } }) ∧
      (c.low 0 = 1 → rowAnswers (.timebaseResync sq cid) s { t with clp := { t.clp with resyncs := t.clp.resyncs ++ [(c.sq, c.cid)] } })) ∧
    (s.Starts sq cid 0x22 c t →
      ((20 ≤ c.low 0 ∨ 1 < c.low 1) → rowAnswers (.peerReset sq cid) s (t.ends c stBadArg)) ∧
      (c.low 0 < 20 → c.low 1 ≤ 1 → t.portFused (c.low 0) = false → t.portLicensed (c.low 0) = true → t.licMulti = true →
        ((t.lport (c.low 0)).st ≠ .up → rowAnswers (.peerReset sq cid) s (t.ends c stPortDown)) ∧
        ((t.lport (c.low 0)).st = .up →
          rowAnswers (.peerReset sq cid) s (t.sendMsg (c.low 0) (.peerReset (c.low 1 == 1)) (some (c.sq, c.cid)))))) ∧
    (s.Starts sq cid 0x2A c t → (∀ e ∈ t.events, e.audits = []) →
      let es := (t.wh.audit.filter fun e => decide (c.arg 2 ≤ e.esn.toNat)).take (c.arg 1 / 64)
      let u := { t with wh := { t.wh with dropSent := false } }
      (es = [] → rowAnswers (.auditExport sq cid) s (u.ok c [0])) ∧
      (es ≠ [] → rowAnswers (.auditExport sq cid) s
        ((u.toHost (c.arg 0) false (es.flatMap fun e => e.words.flatMap (leBytes 8))).ok c [es.length])))

/-- 10 R232, 13 R299 to R302, 14 R311, R316, R319, R320: PART_CREATE of free clusters that fits creates the partition with its sets and no
flags; PART_DESTROY of a quiet one frees it. LOAD stores the sections of an image with the present stamp under the lowest free handle; UNLOAD
drops one. JOB_START loads and starts the listed queues of its partition, each IDLE or HALTED and in no job; its time-out and abort are
sequenced. STREAM_CANCEL, LICENCE_INSTALL and FW_UPDATE make their checks in order. EVENT_SEQUENCE takes the earliest event, by time, source
and order, gives it the next ESN, logs its changes and hands it on, and an event that found its source's buffer of 1,024 full enters it. While
an event of a queue, of the wellhead or of the hub waits for room, that queue issues and fetches nothing, the wellhead takes and starts no
command, and accesses of the host wait. -/
def Obligations.WcsPartitionsAndJobs : Prop :=
  ∀ (s t : State) (sq : BitVec 4) (cid : BitVec 16) (c : WcsCmd),
    (s.Starts sq cid 0x04 c t →
      (t.partExists c.part = true → rowAnswers (.partCreate sq cid) s (t.ends c stBusy)) ∧
      (let p := c.part
       let mask := c.arg 0 % 2 ^ 32
       let seqs := c.arg 1 % 2 ^ 17
       let strs := bitsOf (c.arg 1) 32 16
       let others := (t.parts.filter fun e => e.2.clusters != 0).map Prod.snd
       ∀ sb tb, t.partExists p = false → mask ≠ 0 → seqs ≤ 65536 → strs ≤ 32768 → bitsOf (c.arg 1) 48 7 ≤ 64 →
         c.arg 2 % 2 ^ 19 = 0 → others.length < t.licParts.toNat → t.fuses.clusterOff.toNat &&& mask = 0 →
         (∀ g ∈ onesOf 32 mask, t.heldOut.contains g = false ∧ Map.get false t.clusterRetired g = false ∧ Map.get none t.clusterPart g = none) →
         (∀ n < t.nCores, (onesOf 32 mask).contains (t.clusterOf n) = true → ∀ q < 4, t.still (n, q) = true) →
         firstFit (others.map fun x => (x.seqBase.toNat, x.seqCount.toNat)) 65536 seqs = some sb →
         firstFit (others.map fun x => (x.strBase.toNat, x.strCount.toNat)) 32768 strs = some tb →
         (∀ k < 8, ∀ q < 32, q ≠ p → c.chset k &&& t.chsetOf k q = 0) → (∀ k < 8, 4 * bitsOf (c.arg 1) 48 7 ≤ (t.rsv k).slotCount.toNat) →
         t.tableFits mask c.chset (c.arg 2 % 2 ^ 48) = true →
         ∃ u : State, rowAnswers (.partCreate sq cid) s (u.ok c [] [c.audit 0x03 p 0 mask]) ∧
           u.part p = { clusters := BitVec.ofNat 32 mask, desc := BitVec.ofNat 48 (c.arg 2), seqBase := BitVec.ofNat 16 sb,
                        seqCount := BitVec.ofNat 17 seqs, strBase := BitVec.ofNat 16 tb, strCount := BitVec.ofNat 16 strs,
                        passSlots := BitVec.ofNat 7 (bitsOf (c.arg 1) 48 7) } ∧
           (∀ q, q ≠ p → u.part q = t.part q) ∧
           (∀ g, Map.get none u.clusterPart g =
             if g < 32 ∧ mask.testBit g = true then some (BitVec.ofNat 5 p) else Map.get none t.clusterPart g) ∧
           (p < 32 → ∀ k < 8, Map.get 0 u.chset (32 * k + p) = BitVec.ofNat 32 (c.chset k)) ∧
           (∀ f < 4096, u.flag p f = {}) ∧ u.mem = t.mem ∧ u.cores = t.cores)) ∧
    (s.Starts sq cid 0x05 c t → t.partExists c.part = true →
      let busy := t.quiet (t.coresOf c.part) = false ∨ ∃ j ∈ t.host.jobs, j.part = c.part
      (busy → rowAnswers (.partDestroy sq cid) s (t.ends c stBusy)) ∧
      (¬ busy → ∃ u : State, rowAnswers (.partDestroy sq cid) s (u.ok c [] [c.audit 0x03 c.part (t.part c.part).clusters.toNat 0]) ∧
        u.partExists c.part = false ∧ (∀ g, g < 32 → (t.part c.part).clusters.toNat.testBit g = true → Map.get none u.clusterPart g = none) ∧
        (∀ f < 4096, u.flag c.part f = {}))) ∧
    (s.Starts sq cid 0x10 c t → t.partExists c.part = true → ∀ d : HostData,
      (t.quiet (t.coresOf c.part) = false → rowAnswers (.load sq cid d) s (t.ends c stBusy)) ∧
      (∀ bs, t.quiet (t.coresOf c.part) = true → d = .ok bs → bs.length = c.arg 1 →
        (imageSections bs = none → rowAnswers (.load sq cid d) s (t.ends c stBadArg)) ∧
        (∀ secs, imageSections bs = some secs →
          (imageStamp bs ≠ t.stampNow c.part → rowAnswers (.load sq cid d) s (t.ends c stMismatch)) ∧
          (imageStamp bs = t.stampNow c.part → (∃ x ∈ secs, t.placeOk c.part x.1 x.2.length = false) →
            rowAnswers (.load sq cid d) s (t.ends c stPlaceDenied)) ∧
          (∀ h, imageStamp bs = t.stampNow c.part → (∀ x ∈ secs, t.placeOk c.part x.1 x.2.length = true) → h < 64 →
            Map.get none t.host.progs (64 * c.part + h) = none → (∀ j < h, Map.get none t.host.progs (64 * c.part + j) ≠ none) →
            let g : Prog := { gen := t.profGen, stamp := (imageStamp bs).map (BitVec.ofNat 64) }
            let w : State := { t with host := { t.host with progs := Map.set none t.host.progs (64 * c.part + h) (some g) } }
            rowAnswers (.load sq cid d) s (w.storing c (64 * c.part + h) secs fun u =>
              (u.dropDescs c.part fun _ => true).ok c [64 * c.part + h]))))) ∧
    (∀ (d : HostData) (h : Nat) (ws : List (Nat × List Byte)), c.stage = 1 → c.todo = some (h, ws) → c.opc = 0x10 → s.partExists c.part = true →
      (s.host.taken.find? fun c => c.sq == sq.toNat && c.cid == cid.toNat && (c.stage == 0 || (c.stage == 1 && c.todo.isSome))) = some c →
      rowAnswers (.load sq cid d) s (s.storing c h ws fun u => (u.dropDescs c.part fun _ => true).ok c [h])) ∧
    (s.Starts sq cid 0x11 c t → t.partExists c.part = true →
      (t.prog c.part c.handle = none → rowAnswers (.unload sq cid) s (t.ends c stNoObject)) ∧
      (t.prog c.part c.handle ≠ none → rowAnswers (.unload sq cid) s
        (({ t with host := { t.host with progs := Map.set none t.host.progs c.handle none } } : State).ok c))) ∧
    (s.Starts sq cid 0x12 c t → (∀ r ∈ t.host.records, r ≠ (c.sq, c.cid)) ∧ t.flags = s.flags ∧ t.mem = s.mem) ∧
    (s.Starts sq cid 0x12 c t → t.partExists c.part = true → 1 ≤ c.low 2 → c.low 2 ≤ 2048 → ∀ d : HostData,
      (t.thm.coolant = .halted → rowAnswers (.jobStart sq cid d) s (t.complete c.sq c.cid stJobFaulted cThmCoolantHalt [])) ∧
      (t.thm.coolant ≠ .halted → t.prog c.part c.handle = none → rowAnswers (.jobStart sq cid d) s (t.ends c stNoObject)) ∧
      (∀ g bs, t.thm.coolant ≠ .halted → t.prog c.part c.handle = some g → g.gen = t.profGen →
        g.stamp = (t.stampNow c.part).map (BitVec.ofNat 64) → d = .ok bs → bs.length = 16 * c.low 2 →
        let es := startList bs (c.low 2)
        let qs := es.map fun e => (e.core, e.queue)
        let good (x : Nat × Nat) : Prop := x.1 < t.nCores ∧ t.partOf x.1 = some c.part ∧ t.still x = true ∧ t.jobOf x.1 x.2 = none
        ((∃ x ∈ qs, ¬ good x) → rowAnswers (.jobStart sq cid d) s (t.ends c stBusy)) ∧
        ((∀ x ∈ qs, good x) → qs.eraseDups.length = qs.length →
          let lim := c.arg 3 % 2 ^ 32
          let j : Job := { sq := c.sq, cid := c.cid, part := c.part, queues := qs, left := qs,
                           limit := if lim = 0 then none else some (t.tick + lim), ended := none, aborts := [] }
          let u := { t with
            events := t.events.map (Event.stale qs)
            host := { t.host with jobs := t.host.jobs ++ [j] } }
          rowAnswers (.jobStart sq cid d) s (es.foldl
            (fun u e => startQ (u.setQueue e.core e.queue
              { u.queue e.core e.queue with base := BitVec.ofNat 48 e.ma, count := BitVec.ofNat 32 e.count }) e.core e.queue) u)))) ∧
    (∀ j lim, (s.host.jobs.find? fun j => j.sq == sq.toNat && j.cid == cid.toNat) = some j → j.limit = some lim → j.ended = none →
      (s.reached lim = false → exec (.jobTimeout sq cid) s = .next s) ∧
      (s.reached lim = true → ∃ u : State, exec (.jobTimeout sq cid) s = .next (u.post 14 (.jobEnd sq.toNat cid.toNat stJobTimeout 0)) ∧
        u.host.jobs = s.host.jobs.map (fun x => if x = j then { x with limit := none } else x) ∧ u.mem = s.mem ∧ u.events = s.events)) ∧
    (s.Starts sq cid 0x13 c t → rowAnswers (.jobAbort sq cid) s (t.post 14 (.abort c.sq c.cid))) ∧
    (s.Starts sq cid 0x1A c t → t.partExists c.part = true →
      let x := c.arg 0 % 2 ^ 15
      ((t.ctxMine c.part x = false ∨ t.ctxOpen x = false) → rowAnswers (.streamCancel sq cid) s (t.ends c stNoObject)) ∧
      (t.ctxMine c.part x = true → t.ctxOpen x = true → rowAnswers (.streamCancel sq cid) s
        (({ t with host := { t.host with cancels := t.host.cancels ++ [(x, c.sq, c.cid)] } } : State).cancelStream x
          (some cLnkStreamCancelled)))) ∧
    (s.Starts sq cid 0x28 c t → ∀ (d : HostData) (bs : List Byte),
      (c.arg 1 ≠ 4691 → rowAnswers (.licenceInstall sq cid d) s (t.ends c stBadArg)) ∧
      (c.arg 1 = 4691 → bs.length = 4691 →
        let f := licFeature bs
        let v := wordAt bs 8
        (t.licFormOk bs = false → rowAnswers (.licenceInstall sq cid (.ok bs)) s (t.ends c stBadArg)) ∧
        (t.licFormOk bs = true → t.licSigned bs = false → rowAnswers (.licenceInstall sq cid (.ok bs)) s (t.ends c stBadSig)) ∧
        (t.licFormOk bs = true → t.licSigned bs = true → v ≤ t.licValue f → rowAnswers (.licenceInstall sq cid (.ok bs)) s (t.ok c)) ∧
        (t.licFormOk bs = true → t.licSigned bs = true → t.licValue f < v → t.flashTemp = false →
          rowAnswers (.licenceInstall sq cid (.ok bs)) s (t.ends c stTempForbidden)) ∧
        (t.licFormOk bs = true → t.licSigned bs = true → t.licValue f < v → t.flashTemp = true → ∃ u : State,
          rowAnswers (.licenceInstall sq cid (.ok bs)) s ((u.ok c [] [c.audit 0x02 f (t.licValue f) v]).profileChanged 14 6 f 0 0) ∧
          u.licValue f = v ∧ Map.get [] u.flash.licences f = bs ∧ (∀ g, g ≠ f → u.licValue g = t.licValue g)))) ∧
    (s.Starts sq cid 0x29 c t → ∀ bs : List Byte, bs.length = c.arg 1 →
      (t.fwCheck bs = some 2 → rowAnswers (.fwUpdate sq cid (.ok bs)) s (t.ends c stBadArg)) ∧
      (t.fwCheck bs = some 4 → rowAnswers (.fwUpdate sq cid (.ok bs)) s (t.ends c stRevoked)) ∧
      ((t.fwCheck bs = some 3 ∨ t.fwCheck bs = some 5) → rowAnswers (.fwUpdate sq cid (.ok bs)) s (t.ends c stBadSig)) ∧
      (t.fwCheck bs = none → t.flashTemp = false → rowAnswers (.fwUpdate sq cid (.ok bs)) s (t.ends c stTempForbidden)) ∧
      (t.fwCheck bs = none → t.flashTemp = true → rowAnswers (.fwUpdate sq cid (.ok bs)) s
        (({ t with flash := { t.flash with image := bs } } : State).ok c [] [c.audit 0x06 0 (wordAt t.flash.image 8) (wordAt bs 8)]))) ∧
    (∀ l e r, s.events = l ++ e :: r → (∀ f ∈ l, e.post < f.post ∨ (e.post = f.post ∧ e.src < f.src)) →
      (∀ f ∈ r, e.post < f.post ∨ (e.post = f.post ∧ e.src ≤ f.src)) →
      let es := s.events.erase e
      let u := { s with events := if s.heldEvents e.src = [] then es else enterBuffer e.src s.time 1023 es,
                        wh := { s.wh with esn := s.wh.esn + 1 } }
      exec .eventSequence s = .next ((e.audits.foldl State.writeAudit u).consume e)) ∧
    (s.heldEvents 14 ≠ [] → (∀ x, s.startable x = false) ∧ ∀ d, exec (.sqEntryTake sq d) s = .next s) ∧
    (s.heldEvents 13 ≠ [] → s.hubBlocked = true) ∧
    (∀ (core : CoreId) (q : QueueId), s.queueStalled core.toNat q.toNat = true →
      s.head core.toNat q.toNat = none ∧ exec (.commandFetch core q) s = .next s)

/-- 13 R303: a legal HOST_DMA begins with nothing committed. Into the module, data within the four bursts in flight is kept, whole bursts
are committed in order, an unsuccessful completion or GAP_US without data breaks the transfer with DMA_BROKEN and the bytes committed. Out of
the module each return writes the next burst to host memory and the last one ends it with OK; a read that faults ends it with DMA_FAULT. 17
R382: SCRUB of one memory starts a pass, a second one of that memory is BUSY; the end of the pass completes with its four words. -/
def Obligations.HostDmaAndScrub : Prop :=
  (∀ (s t : State) (sq : BitVec 4) (cid : BitVec 16) (c : WcsCmd),
    (s.Starts sq cid 0x18 c t →
      let log2 := bitsOf (c.arg 0) 8 4
      let gap := c.arg 4 % 2 ^ 16
      let sig := (c.arg 5).testBit 63
      let p := bitsOf (c.arg 5) 32 5
      ((log2 < 2 ∨ 10 < log2 ∨ c.arg 3 = 0 ∨ 2 ^ 40 < c.arg 3 ∨ gap = 0) → rowAnswers (.hostDma sq cid) s (t.ends c stBadArg)) ∧
      (2 ≤ log2 → log2 ≤ 10 → 0 < c.arg 3 → c.arg 3 ≤ 2 ^ 40 → 0 < gap → (sig = true → t.partExists p = true) →
        rowAnswers (.hostDma sq cid) s { t with host := { t.host with hdma := t.host.hdma ++
          [{ sq := c.sq, cid := c.cid, out := (c.arg 0).testBit 0, log2 := log2, host := BitVec.ofNat 64 (c.arg 1),
             ma := c.arg 2 % 2 ^ 48, len := c.arg 3, gapUs := gap, sig := if sig then some (p, c.arg 5 % 4096) else none,
             got := [], committed := 0, lastAt := t.time }] } })) ∧
    (s.Starts sq cid 0x19 c t →
      let ma := c.arg 1 % 2 ^ 48
      let n := c.arg 2
      (t.scrubTarget ma n = none → c.low 0 < t.nCores → rowAnswers (.scrub sq cid) s (t.ends c stBadArg)) ∧
      (∀ y m, t.scrubTarget ma n = some (y, m) →
        (y ≠ 3 → t.nCores ≤ c.low 0 → rowAnswers (.scrub sq cid) s (t.ends c stNoObject)) ∧
        (y ≠ 3 → c.low 0 < t.nCores → c.low 0 ≠ m → rowAnswers (.scrub sq cid) s (t.ends c stBadArg)) ∧
        ((y = 3 ∨ (c.low 0 < t.nCores ∧ c.low 0 = m)) → (∃ x ∈ t.scrubs, t.scrubTarget x.start x.len = some (y, m)) →
          rowAnswers (.scrub sq cid) s (t.ends c stBusy)) ∧
        ((y = 3 ∨ (c.low 0 < t.nCores ∧ c.low 0 = m)) → (∀ x ∈ t.scrubs, t.scrubTarget x.start x.len ≠ some (y, m)) →
          rowAnswers (.scrub sq cid) s
            { t with scrubs := t.scrubs ++ [{ sq := c.sq, cid := c.cid, start := ma, len := n, poison := (c.arg 3).testBit 0 }] })))) ∧
  (∀ (s : State) (sq : BitVec 4) (cid : BitVec 16) (h : Hdma), s.hdma sq.toNat cid.toNat = some h →
    let who := Who.hostDma sq.toNat cid.toNat
    (h.out = false →
      (∀ off, exec (.hostDmaData sq cid off .failed) s = .next (s.endHdma h stDmaBroken cHstDmaBroken)) ∧
      (exec (.completionTimeout sq (some cid)) s = .next (s.endHdma h stDmaBroken cHstDmaBroken)) ∧
      (h.got.length < h.len - h.committed → h.lastAt + 1600 * h.gapUs ≤ s.time →
        exec (.hstDmaBroken sq cid) s = .next (s.endHdma h stDmaBroken cHstDmaBroken)) ∧
      (s.time < h.lastAt + 1600 * h.gapUs → exec (.hstDmaBroken sq cid) s = .next s) ∧
      (∀ off bs, (off < h.committed ∨ min h.len ((h.committed / h.burst + 4) * h.burst) < off + bs.length) →
        exec (.hostDmaData sq cid off (.ok bs)) s = .next s) ∧
      (∀ bs r m, bs ≠ [] → h.got = [] → h.committed = 0 → bs.length = h.len → h.len ≤ h.burst →
        (s.putHdma { h with got := Map.setRange none [] 0 (bs.map some), lastAt := s.time }).track who AccRes.isWait
          (fun u => u.writeMA who hubMaster h.ma bs) = (m, .ok r) → ∃ g : Hdma, g.committed = h.len ∧ g.sq = h.sq ∧ g.cid = h.cid ∧ g.sig = h.sig ∧
          exec (.hostDmaData sq cid 0 (.ok bs)) s = .next (((m.putHdma g).hdmaSignal g).endHdma g stOk 0))) ∧
    (h.out = true →
      let n := min h.burst (h.len - h.committed)
      let r := s.track who AccRes.isWait fun u => u.readMA who hubMaster (h.ma + h.committed) n
      (r.2 = .wait → exec (.hostDmaReadReturn sq cid) s = .next r.1) ∧
      (∀ code a, r.2 = .fault code a → exec (.hostDmaReadReturn sq cid) s = .next (r.1.endHdma h stDmaFault code)) ∧
      (∀ bs, r.2 = .ok bs →
        let g := { h with committed := h.committed + n }
        let u := ((r.1.toHost (h.host.toNat + h.committed) r.1.pci.relaxed bs).putHdma g).hdmaSignal g
        exec (.hostDmaReadReturn sq cid) s = .next (if g.committed = g.len then u.endHdma g stOk 0 else u)))) ∧
  (∀ (s : State) (sq : BitVec 4), s.nextSq = some sq.toNat → s.host.taken.length < 256 →
    exec (.completionTimeout sq none) s = .next (s.sqFetchFailed sq.toNat)) ∧
  (∀ (s : State) (sq : BitVec 4) (cid : BitVec 16) (x : Scrub) (k : Nat × Nat),
    (s.scrubs.find? fun x => x.sq == sq.toNat && x.cid == cid.toNat) = some x → s.scrubTarget x.start x.len = some k → s.scrubGone k = false →
    (s.scrubPass x k).2.wait = false →
    let r := s.scrubPass x k
    exec (.scrubComplete sq cid) s =
      .next (({ r.1 with scrubs := r.1.scrubs.erase x } : State).complete sq.toNat cid.toNat stOk 0 r.2.words)) ∧
  (∀ (s : State) (m : ScrubSum) (hold : Bool) (ma key fixed : Nat) (bs : List Byte),
    (s.scrubCw m false hold ma key false (.data bs) 0 = (s, m)) ∧
    (fixed ≠ 0 → s.scrubCw m false false ma key false (.data bs) fixed = (s.putCw key bs, { m with corrected := m.corrected + 1 })) ∧
    (s.scrubCw m false hold ma key false .uncorr fixed =
      (s, { m with uncorr := m.uncorr + 1, first := m.first.orElse fun _ => some ma })) ∧
    (s.scrubCw m true false ma key false .uncorr fixed =
      (s.putPoison key, { m with uncorr := m.uncorr + 1, first := m.first.orElse fun _ => some ma, poisoned := m.poisoned + 1 })))

namespace Sys2Proof.Machine

/-- The RESET rows of partial scope by the scope their W0 names (15 R326). -/
def resetRows : List (Nat × (BitVec 4 → BitVec 16 → Instr)) := [(2, .resetDie), (3, .resetReservoir), (4, .resetPartition), (5, .resetCore)]

/-- The row of the table for an INJECT of a type (17 Table ERR-6). -/
inductive InjRow : Nat → (BitVec 4 → BitVec 16 → Instr) → Prop where
  | cwSymbols : InjRow 1 .cwSymbols
  | cwPoison : InjRow 2 .cwPoison
  | sramBits : InjRow 3 .sramBits
  | pinErrors : InjRow 4 .pinErrors
  | channelHold : InjRow 5 .channelHold
  | writeHold : InjRow 6 .writeHold
  | cellDrop : InjRow 7 .cellDrop
  | laneFail : InjRow 8 .laneFail
  | frameSilence : InjRow 9 .frameSilence
  | flitCrc : InjRow 10 .flitCrc
  | sensorOffset : InjRow 11 .sensorOffset
  | cadenceMask : InjRow 12 .cadenceMask

/-- The registers of a core as a reset of it leaves them: every register file, the RUN, the DMA channels and the descriptor cache empty, the
program counter at 0. -/
structure Core.IsReset (c : Core) : Prop where
  files : c.v = [] ∧ c.s = [] ∧ c.a = [] ∧ c.p = [] ∧ c.acc = []
  flow : c.pc = 0 ∧ c.loops = [] ∧ c.run = none ∧ c.sticky = {} ∧ c.window = none
  work : c.results = [] ∧ c.loads = [] ∧ c.stores = [] ∧ c.steps = [] ∧ c.drains = [] ∧ c.dma = [] ∧ c.descs = []

end Sys2Proof.Machine

/-- 15 R326, R345 to R347, 10 R236: RESET of a die, reservoir, partition or core runs one at a time; a missing object completes it with
NO_SUCH_OBJECT. A core reset empties the core and keeps its site, cube configuration and fault records; a die's does so for all its cores,
records too, fences it and clears the flags of partitions on it; a partition's drops its flags, pass slots, frames and programs; a
reservoir's fences it and empties its pool. A fence sets its bit and posts NET_DIE_FENCED. A rejoin whose clock fails retires the die. -/
def Obligations.PartialResets : Prop :=
  (∀ (s t : State) (sq : BitVec 4) (cid : BitVec 16) (c : WcsCmd), s.Starts sq cid 0x20 c t →
    let x := c.arg 1 % 256
    let n := c.arg 1 % 512
    (∀ p ∈ resetRows, (c.low 0 ≠ p.1 ∨ t.partials ≠ []) → exec (p.2 sq cid) s = .next s) ∧
    (t.partials = [] →
      (c.low 0 = 2 → (2 ≤ x ∨ t.isRetired 0x0E x = true) → (t.dieFenced 0 && t.dieFenced 1) = false →
        rowAnswers (.resetDie sq cid) s (t.ends c stNoObject)) ∧
      (c.low 0 = 3 → (8 ≤ x ∨ t.present x = 0 ∨ t.isRetired 0x0F x = true) → rowAnswers (.resetReservoir sq cid) s (t.ends c stNoObject)) ∧
      (c.low 0 = 4 → t.partExists c.part = false → rowAnswers (.resetPartition sq cid) s (t.ends c stNoObject)) ∧
      (c.low 0 = 5 → (t.nCores ≤ n ∨ (t.cist n).present = 0) → rowAnswers (.resetCore sq cid) s (t.ends c stNoObject)) ∧
      (c.low 0 = 2 → x < 2 → t.isRetired 0x0E x = false → t.dieFenced (1 - x) = false → ∃ u : State, rowAnswers (.resetDie sq cid) s u ∧
        u.dieFenced x = true ∧ (∀ k ∈ t.dieCores x, (u.core k).IsReset ∧ (u.core k).queues = [] ∧ (u.core k).site = (t.core k).site) ∧
        (∀ p f, f < 4096 → (∃ g, g < 32 ∧ (t.part p).clusters.toNat.testBit g = true ∧ g / 16 = x) → u.flag p f = {})) ∧
      (c.low 0 = 3 → x < 8 → t.present x ≠ 0 → t.isRetired 0x0F x = false → ∃ u : State, rowAnswers (.resetReservoir sq cid) s u ∧
        (∀ f, f < 2 ^ 22 → u.frame x f = none) ∧ (∀ ch < 32, (u.chan x ch).ops = [] ∧ (u.chan x ch).current = none)) ∧
      (c.low 0 = 4 → t.partExists c.part = true → ∃ u : State, rowAnswers (.resetPartition sq cid) s u ∧
        (∀ f < 4096, u.flag c.part f = {}) ∧ (∀ i < 64, u.pass c.part i = {}) ∧
        (∀ e ∈ u.pool, ∀ f, e.2 = some f → f.part ≠ c.part) ∧ (∀ h, h / 64 = c.part → Map.get none u.host.progs h = none)) ∧
      (c.low 0 = 5 → n < t.nCores → (t.cist n).present ≠ 0 → ∃ u : State, rowAnswers (.resetCore sq cid) s u ∧
        (u.core n).IsReset ∧ (u.cist n).active = (u.cist n).present))) ∧
  (∀ (c : Core) (die : Bool) (at_ : Nat), let r := c.afterReset die at_
    r.IsReset ∧ r.site = c.site ∧ r.siteLogical = c.siteLogical ∧ r.rowMap = c.rowMap ∧ r.eqMode = c.eqMode ∧ r.cubeLock = c.cubeLock ∧
    (∀ q < 4, (r.queue q).record = (if die then 0 else (c.queue q).record) ∧ (r.queue q).st = .idle)) ∧
  (∀ (s : State) (p : Nat → Bool) (a : Nat), Map.get 0 (s.zeroMem p).mem a = if p a then 0 else Map.get 0 s.mem a) ∧
  (∀ (s : State) (obj cause : BitVec 3), 2 ≤ s.bup.stage.toNat → s.bup.holding = false → (cause = 1 ∨ cause = 2) →
    (s.rsvFenced obj.toNat = true → exec (.dieFence true obj cause) s = .next s) ∧
    (s.rsvFenced obj.toNat = false → ∃ u : State, exec (.dieFence true obj cause) s = .next u ∧ u.rsvFenced obj.toNat = true ∧
      (∀ k < 8, k ≠ obj.toNat → u.rsvFenced k = s.rsvFenced k) ∧ u.mem = s.mem ∧
      { post := u.time, src := 14, body := .ev cNetDieFenced none [BitVec.ofNat 64 (0x0F * 2 ^ 32 + obj.toNat), 0, cause.setWidth 64, 0],
        audits := [] } ∈ u.events) ∧
    (∀ d, obj.toNat = d → d < 2 → s.dieFenced d = false → s.dieFenced (1 - d) = false → ∃ u : State,
      exec (.dieFence false obj cause) s = .next u ∧ u.dieFenced d = true ∧ u.dieFenced (1 - d) = false ∧ u.mem = s.mem)) ∧
  (∀ (s : State) (d : BitVec 1) (k : BitVec 3) (ok : Bool) (found : List (BitVec 8 × BitVec 32)),
    (s.partialOf 2 d.toNat = none → exec (.dieRejoin d ok found) s = .next s) ∧
    (s.partialOf 3 k.toNat = none → exec (.reservoirRejoin k ok found) s = .next s) ∧
    (∀ p, s.partialOf 2 d.toNat = some p →
      let u := s.settleFindings 3 (dieElem d.toNat) (testedFindings p.full s.startNo.toNat found)
      (ok = false → exec (.dieRejoin d ok found) s = .next (u.rejoinFails p 0x0E)) ∧
      (ok = true → u.isRetired 0x0E d.toNat = false → (d = 0 ∨ u.rowLost = false) →
        let w0 := u.dieFresh d.toNat
        let w : State := { w0 with profMap := (List.range w0.nCores).map fun n => (w0.core n).site.toNat }
        exec (.dieRejoin d ok found) s = .next ((if w.dieMap d.toNat = u.dieMap d.toNat then w
          else w.profileChanged 14 7 (0x0E * 2 ^ 32 + d.toNat) 0 0).rejoined p) ∧ w.dieFenced d.toNat = false)) ∧
    (∀ p, s.partialOf 3 k.toNat = some p → ok = false →
      exec (.reservoirRejoin k ok found) s =
        .next ((s.settleFindings 3 (fun c e => decide (7 ≤ c) && decide (c ≤ 9) && e / 2 ^ 29 == k.toNat) (testedFindings p.full s.startNo.toNat found)).rejoinFails p 0x0F)) ∧
    (∀ p, s.partialOf 3 k.toNat = some p →
      let u := s.settleFindings 3 (fun c e => decide (7 ≤ c) && decide (c ≤ 9) && e / 2 ^ 29 == k.toNat) (testedFindings p.full s.startNo.toNat found)
      ok = true → u.isRetired 0x0F k.toNat = false → ∃ w : State, exec (.reservoirRejoin k ok found) s = .next (w.rejoined p) ∧
        w.rsvFenced k.toNat = false ∧ ∀ a, inRsv k.toNat a = true → Map.get 0 w.mem a = 0))

/-- 17 R385 to R388: INJECT is BAD_OPCODE unless enabled. Its target and parameter are checked (an
address of another kind of memory than the type takes is BAD_ARGUMENT, the model's reading, log entry 110), a position beyond the horizon is refused with
CLP_BEYOND_TURN, a seventeenth pending one with NO_RESOURCE, one whose target is taken with BUSY. A legal one is held until its position, or
applied at once: WHD_INJECTED is posted, the count rises, the command completes with its number, and the effect of its type takes place.
Applications go by position, then by entry; one that has run out ends and its effect is taken away. -/
def Obligations.Injections : Prop :=
  (∀ (s : State) (c : WcsCmd), s.serving = true → c.opc = 0x2B → s.wh.injEn = false → s.refusal c = some stBadOpcode) ∧
  (∀ (s t : State) (sq : BitVec 4) (cid : BitVec 16) (c : WcsCmd) (ty : Nat) (row : BitVec 4 → BitVec 16 → Instr),
    InjRow ty row → s.Starts sq cid 0x2B c t → c.arg 0 % 256 = ty →
    let w1 := if ty ≤ 3 then c.ma 1 else c.arg 1
    let w2 := c.arg 2
    let lo := w2 % 65536
    let pos := c.arg 3 % 2 ^ 58
    let i : Inj := { sq := c.sq, cid := c.cid, ty := ty, w1 := w1, w2 := w2, pos := pos, applied := none, stop := 0 }
    let same (x : Inj) : Prop := x.ty = ty ∧ x.applied ≠ none ∧ injTarget ty x.w1 = injTarget ty w1 ∧ t.injOver x = false
    let held : State := { t with wh := { t.wh with injs := t.wh.injs ++ [i] } }
    let far : Prop := pos ≠ 0 ∧ ((t.horizon * 1024 : Nat) : Int) < t.ahead pos
    (ty ≤ 3 → t.injKind ty w1 = false → rowAnswers (row sq cid) s (t.ends c stBadArg)) ∧
    ((ty ≤ 3 → t.injKind ty w1 = true) → t.injExists ty w1 = false → rowAnswers (row sq cid) s (t.ends c stNoObject)) ∧
    (t.injExists ty w1 = true → t.injParam ty w1 w2 = false → rowAnswers (row sq cid) s (t.ends c stBadArg)) ∧
    (t.injExists ty w1 = true → t.injParam ty w1 w2 = true →
      (far → rowAnswers (row sq cid) s (t.complete c.sq c.cid stBadArg cClpBeyondTurn [])) ∧
      (¬ far → 16 ≤ t.injPending → rowAnswers (row sq cid) s (t.ends c stNoResource)) ∧
      (¬ far → t.injPending < 16 → (∃ x ∈ t.wh.injs, same x) → rowAnswers (row sq cid) s (t.ends c stBusy)) ∧
      (¬ far → t.injPending < 16 → (∀ x ∈ t.wh.injs, ¬ same x) →
        (pos ≠ 0 → 0 < t.ahead pos → rowAnswers (row sq cid) s held) ∧
        (pos = 0 → ty ≤ 2 → t.cwWaits w1 = true → rowAnswers (row sq cid) s held) ∧
        (pos = 0 → (ty ≤ 2 → t.cwWaits w1 = false) → ∃ (u : State) (l : List Event),
          let no := (satAdd t.wh.injCount 1).toNat
          rowAnswers (row sq cid) s (u.complete c.sq c.cid 0 0 [no]) ∧ u.wh.injCount = satAdd t.wh.injCount 1 ∧
          u.events = t.events ++ { post := t.time, src := 14, body := .ev cWhdInjected none ([ty, w1, w2, no].map (BitVec.ofNat 64)),
                                   audits := [] } :: l ∧
          (ty ≠ 2 → u.mem = t.mem) ∧ (3 ≤ ty → u.cw = t.cw) ∧
          (ty = 1 → u.cw = Map.set {} t.cw ((t.resolve w1).key / 64)
            ((Map.get {} t.cw ((t.resolve w1).key / 64)).flip (w2 % 128) (bitsOf w2 8 4) (bitsOf w2 16 8))) ∧
          (ty = 2 → u.mem = (t.putPoison (t.resolve w1).key).mem ∧ u.cw = (t.putPoison (t.resolve w1).key).cw) ∧
          (ty = 3 → Map.get 0 u.sram ((t.resolve w1).key / 8) = Map.get 0 t.sram ((t.resolve w1).key / 8) ^^^
            (BitVec.ofNat 72 (2 ^ (w2 % 128)) ^^^ (if bitsOf w2 8 7 = 0x7F then 0 else BitVec.ofNat 72 (2 ^ bitsOf w2 8 7)))) ∧
          (ty = 4 → u.pinInj = t.pinInj ++ [((t.injPin w1).1, (t.injPin w1).2, lo)]) ∧
          (ty = 5 → (u.chan (w1 % 8) (bitsOf w1 8 5)).ops =
            orderIn { cycle := nsIn t.time, rank := 128, item := .hold no } (t.chan (w1 % 8) (bitsOf w1 8 5)).ops) ∧
          (ty = 6 → (u.sub (w1 % 512) (bitsOf w1 16 2)).whold = true) ∧
          (ty = 7 → (u.lport (w1 % 32)).dropCells = lo) ∧
          (ty = 8 → (u.lport (w1 % 32)).rxFailed.toNat.testBit (bitsOf w1 8 5) = true) ∧
          (ty = 9 → (u.lport (w1 % 32)).silentTo = some (t.tick + lo)) ∧
          (ty = 10 → (u.bundle (w1 % 2) (bitsOf w1 1 6)).inject = w2 % 128) ∧
          (ty = 11 → w1.testBit 9 = false → (u.site (w1 % 512)).off0 = signedOf 16 lo ∧ (u.site (w1 % 512)).offN0 = bitsOf w2 32 16) ∧
          (ty = 11 → w1.testBit 9 = true → (u.site (w1 % 512)).off1 = signedOf 16 lo ∧ (u.site (w1 % 512)).offN1 = bitsOf w2 32 16) ∧
          (ty = 12 → u.clp.masked = true))))) ∧
  (∀ s : State,
    (s.nextInj = none → exec .injectionApply s = .next s ∧ exec (.scheduledAction none) s = .next s) ∧
    (∀ i, s.nextInj = some i → i ∈ s.wh.injs ∧ i.applied = none ∧ s.injDue i = true ∧
      (∀ j ∈ s.wh.injs, j.applied = none → s.injDue j = true → (if i.pos = 0 then 0 else s.ahead i.pos) ≤ if j.pos = 0 then 0 else s.ahead j.pos) ∧
      (∀ u, s.applyInj i = some u → exec .injectionApply s = .next u ∧ exec (.scheduledAction none) s = .next u) ∧
      (s.applyInj i = none → exec .injectionApply s = .next s ∧ exec (.scheduledAction none) s = .next s))) ∧
  (∀ (s : State) (n : Nat) (i : Inj), (s.wh.injs.find? fun i => i.applied == some n) = some i →
    (s.injOver i = false → exec (.injectionEnd n) s = .next s) ∧
    (s.injOver i = true → ∃ u : State, exec (.injectionEnd n) s = .next u ∧ u.wh.injs = s.wh.injs.erase i ∧
      (i.ty = 7 → (u.lport (i.w1 % 32)).dropCells = 0) ∧ (i.ty = 9 → (u.lport (i.w1 % 32)).silentTo = none) ∧
      (i.ty = 10 → (u.bundle (i.w1 % 2) (bitsOf i.w1 1 6)).inject = 0) ∧ (i.ty = 12 → u.clp.masked = false) ∧
      (i.ty = 4 → ∀ p ∈ u.pinInj, (p.1, p.2.1) ≠ s.injPin i.w1)))

namespace Sys2Proof.Machine

/-- `u` is what a module reset from source `src` leaves of `s`, with the start under way unless a contact or the trip latch holds the module
(15 R326, R327; 14 Table WHD-9). -/
structure State.ResetBy (s u : State) (src : Nat) (cold : Bool) : Prop where
  start : u.bup.running = (!u.held && u.pins.rails)
  going : u.bup.running = true → u.bup.holding = false ∧ u.bup.source = BitVec.ofNat 4 src ∧ u.bup.cold = cold
  waiting : u.bup.running = false → u.bup.holding = true ∧ u.bup.nextSource = BitVec.ofNat 4 src ∧ u.bup.nextCold = cold
  stage : u.bup.stage = 0 ∧ u.bup.ready = false ∧ u.bup.failed = false
  cores : u.cores = [] ∧ u.nCores = 0 ∧ u.parts = [] ∧ u.clusterPart = [] ∧ u.flags = [] ∧ u.cisterns = [] ∧ u.chans = []
  work : u.launches = [] ∧ u.seqs = [] ∧ u.pool = [] ∧ u.passes = [] ∧ u.att = [] ∧ u.ports = [] ∧ u.txs = [] ∧ u.rxs = [] ∧ u.clp = {}
  requests : u.reqs = [] ∧ u.accs = [] ∧ u.sluHeld = [] ∧ u.brWait = [] ∧ u.ingress = [] ∧ u.flagUpds = []
  host : u.host.rings = [] ∧ u.host.taken = [] ∧ u.host.jobs = [] ∧ u.host.progs = [] ∧ u.host.wallNs = if cold then 0 else s.host.wallNs
  logs : u.wh.esn = (if cold then 0 else s.wh.esn) ∧ u.wh.audit = (if cold then [] else s.wh.audit) ∧ u.wh.injs = []
  kept : u.flash = s.flash ∧ u.fuses = s.fuses ∧ u.time = s.time ∧ u.pending = s.pending
  memory : ∀ a, Map.get 0 u.mem a = if a < 0x030000000000 then Map.get 0 s.mem a else 0

end Sys2Proof.Machine

/-- 15 R326 to R330, R334, 14 R313, 16 R369, R371, 18 R402, R404: each source resets the module, cold or warm; the start begins at S0 with
that source unless a contact or the trip holds it. A warm reset keeps the ESN and the audit log. A glitch below 1 µs does nothing. Within S1
a source restarts S1 with the firmware kept. A trip drops the rails and holds the module; PWR_OK low holds it and clears the trip; loss of the
input leaves flash and fuses. RESET_RELEASE starts what was held. TRST_N resets the test port's instruction. -/
def Obligations.ModuleResets : Prop :=
  (∀ s : State, s.bup.holding = false → s.bup.stage ≠ 1 → s.pins.pwrOk = true →
    (∃ u, exec .hotReset s = .next u ∧ s.ResetBy u 4 false) ∧
    (∀ cold, s.bup.stage ≠ 0 → ∃ u, exec (.sbmReset cold) s = .next u ∧ s.ResetBy u 6 cold) ∧
    (s.wh.recovery = false → ∃ u, exec .watchdogExpiry s = .next u ∧ s.ResetBy u 8 false ∧ u.wh.wdogExpiries = satAdd s.wh.wdogExpiries 1) ∧
    (s.pins.modResetN = true → ∀ cool, ∃ u, exec (.modResetN .low cool) s = .next u ∧ s.ResetBy u 2 true ∧ u.pins.modResetN = false) ∧
    (s.pins.perstN = true → ∃ u, exec (.perstN .low) s = .next u ∧ s.ResetBy u 3 true ∧ u.pins.perstN = false) ∧
    (∀ n, 10000 ≤ n →
      (s.pins.modResetN = true → ∀ cool, ∃ u, exec (.modResetN (.pulse n) cool) s = .next u ∧ s.ResetBy u 2 true ∧ u.pins.modResetN = true) ∧
      (s.pins.perstN = true → ∃ u, exec (.perstN (.pulse n)) s = .next u ∧ s.ResetBy u 3 true ∧ u.pins.perstN = true)) ∧
    (∀ (i : BitVec 9) (k : BitVec 1), i.toNat < 266 → (i.toNat < 264 → (siteStack i.toNat).2.1 = 0) → s.pins.trip = false → s.pins.vin48 = true →
      (if k = 0 then (s.site i.toNat).d0 else (s.site i.toNat).d1).ejected = false →
      ∃ u, exec (.thermalTrip i k) s = .next u ∧ s.ResetBy u 9 true ∧ u.pins.trip = true ∧ u.pins.rails = false ∧ u.pins.thermTripN = false ∧
        u.thm.tripSite = i ∧ u.thm.tripValid = true)) ∧
  (∀ (s t : State) (sq : BitVec 4) (cid : BitVec 16) (c : WcsCmd), s.Starts sq cid 0x20 c t → t.bup.holding = false → t.bup.stage ≠ 1 →
    (c.low 0 = 0 → ∃ u, exec (.resetModuleCold sq cid) s = .next u ∧ t.ResetBy u 5 true) ∧
    (c.low 0 = 1 → ∃ u, exec (.resetModuleWarm sq cid) s = .next u ∧ t.ResetBy u 5 false)) ∧
  (∀ (s : State) (n : Nat) (cool : Bool), n < 1000 →
    exec (.modResetN (.pulse n) cool) s = .next s ∧ exec (.perstN (.pulse n)) s = .next s) ∧
  (∀ (s : State) (cool : Bool), exec (.modResetN .high cool) s = .next { s with pins := { s.pins with modResetN := true } } ∧
    exec (.perstN .high) s = .next { s with pins := { s.pins with perstN := true } }) ∧
  (∀ s : State, s.bup.stage = 1 → s.bup.running = true → s.bup.resumeS1 = false → s.bup.s1Restarts.toNat < 2 → s.pins.pwrOk = true →
    ∃ u, exec .hotReset s = .next u ∧ u.bup.stage = 1 ∧ u.bup.s1Restarts = s.bup.s1Restarts + 1 ∧ u.bup.source = s.bup.source ∧
      u.wh.fw = s.wh.fw ∧ u.cores = [] ∧ u.flash = s.flash) ∧
  (∀ s : State,
    (s.pins.vin48 = false → exec .vin48Arrival s = .next { s with pins := { s.pins with vin48 := true } }) ∧
    (s.pins.vin48 = true → s.pins.pwrOk = false → ∃ u, exec .powerOn s = .next u ∧ s.ResetBy u 1 true ∧ u.pins.pwrOk = true ∧
      u.pins.rails = true) ∧
    (s.pins.pwrOk = true → ∃ u, exec (.pwrOkFall none) s = .next u ∧ u.pins.pwrOk = false ∧ u.pins.rails = false ∧ u.pins.trip = false ∧
      u.pins.thermTripN = true ∧ u.bup = {} ∧ u.cores = [] ∧ u.flash = s.flash ∧ u.fuses = s.fuses) ∧
    (s.pins.vin48 = true → ∃ u, exec .inputUndervoltage s = .next u ∧ u.mem = [] ∧ u.cores = [] ∧ u.bup = {} ∧ u.pins.vin48 = false ∧
      u.pins.pwrOk = false ∧ u.flash = s.flash ∧ u.fuses = s.fuses) ∧
    (exec .trstN s = .next { s with tapReset := true }) ∧
    (s.bup.holding = true → s.bup.nextSource ≠ 0 → s.bup.resumeS1 = false → s.held = false → s.pins.rails = true → ∃ u,
      exec .resetRelease s = .next u ∧ u.bup.running = true ∧ u.bup.stage = 0 ∧ u.bup.source = s.bup.nextSource ∧
      u.bup.cold = s.bup.nextCold ∧ u.bup.bootMode = s.pins.bootMode ∧ u.bup.modId = s.pins.modId ∧ u.mem = s.mem ∧
      (∀ h r, s.flash.record = some (h, r) → u.startNo = r.startNo + 1)) ∧
    (s.held = true → exec .resetRelease s = .next s))

/-- 15 R331 to R336, R341, R344, 14 R309 to R312: the stage in progress ends in its order. S0 checks the image or enters recovery; S1
takes the parameters and the board's configuration and locks it; S2 goes on with a die that clocks, or fails; S3 leaves memory zero; S5 numbers
the cores on their sites with the cube configuration locked, or fails with none; S6 raises the profile's generation and sets READY. A stage
beyond four times its duration fails and the start stops. The record is written into the half not in use; the counter is blown up to the
image's SVN. -/
def Obligations.StartStages : Prop :=
  (∀ (s : State) (st : BitVec 3) (x : StageIn),
    ((s.bup.running = false ∨ s.bup.stage.toNat ≠ st.toNat ∨ tooLong st.toNat s.bup.full x.durationMs = true) →
      exec (.stageEnd st x) s = .next s) ∧
    (s.bup.running = true → s.bup.stage.toNat = st.toNat → tooLong st.toNat s.bup.full x.durationMs = false →
      (st = 0 → s.bup.bootMode ≠ 0 → x.flashOk = true → s.fwCheck s.flash.image = none → ∃ u, exec (.stageEnd st x) s = .next u ∧
        u.wh.fw = fwOf s.flash.image ∧ u.bup.stage = 1 ∧ u.bup.running = true) ∧
      (∀ k, st = 0 → ((s.bup.bootMode = 0 ∧ k = 6) ∨ (s.bup.bootMode ≠ 0 ∧ x.flashOk = false ∧ k = 1) ∨
          (s.bup.bootMode ≠ 0 ∧ x.flashOk = true ∧ s.fwCheck s.flash.image = some k)) →
        ∃ u, exec (.stageEnd st x) s = .next u ∧ u.wh.recovery = true ∧ u.wh.cause = BitVec.ofNat 4 k ∧ u.bup.running = false ∧ u.bup.stage = 0 ∧
          u.events = s.events ++ [{ post := s.time, src := 14, body := .ev cWhdBootRecovery none ([0, 0, k, 0].map (BitVec.ofNat 64)),
                                    audits := [] }]) ∧
      (st = 1 → ∃ u, exec (.stageEnd st x) s = .next u ∧ u.bup.stage = 2 ∧ u.params = s.flash.params ∧ u.clp.cfgLock = true ∧
        u.wh.injLock = true ∧ u.thm.gateLock = true ∧ u.wh.injEn = (if s.wh.injLock then s.wh.injEn else (x.board.map Board.injectEn).getD false) ∧ u.bup.s1Restarts = 0 ∧
        (∀ h r, s.flash.record = some (h, r) → u.repairs = r.ents) ∧ (s.flash.record = none → u.repairs = [])) ∧
      (st = 2 → ∃ u, exec (.stageEnd st x) s = .next u ∧ u.mem = s.mem ∧
        ((u.bup.failed = true ∧ u.bup.running = false) ∨ u.bup.stage = 3) ∧
        (x.dies = 3 → s.isRetired 0x0E 0 = false → s.isRetired 0x0E 1 = false → u.bup.stage = 3) ∧
        (x.dies = 0 → s.repairs = [] → u.bup.failed = true)) ∧
      (st = 3 → ∃ u, exec (.stageEnd st x) s = .next u ∧ u.mem = [] ∧ u.cw = [] ∧ u.bup.stage = 4) ∧
      (st = 4 → ∃ u, exec (.stageEnd st x) s = .next u ∧ (u.bup.failed = true ∨ u.bup.stage = 5) ∧ u.mem = s.mem) ∧
      (st = 5 → ∃ u, exec (.stageEnd st x) s = .next u ∧ ((u.bup.failed = true ∧ u.nCores = 0) ∨
        (u.bup.stage = 6 ∧ 0 < u.nCores ∧ u.nCores % 16 = 0 ∧ u.nCores ≤ 512 ∧ (u.bup.ucl = 12 ∨ u.bup.ucl = 13) ∧
          ∀ n < u.nCores, (u.core n).siteLogical = BitVec.ofNat 9 n ∧ (u.core n).cubeLock = true ∧
            ((u.core n).eqMode = true ↔ u.bup.ucl = 13) ∧ u.profMap[n]? = some (u.core n).site.toNat))) ∧
      (st = 6 → ∃ u, exec (.stageEnd st x) s = .next u ∧ u.bup.ready = true ∧ u.bup.running = false ∧ u.profGen = s.profGen + 1 ∧
        u.gate.target = s.thm.sampleW ∧ u.gate.opened = 0))) ∧
  (∀ (s : State) (st : BitVec 3) (ms : Nat),
    (s.bup.running = true → s.bup.stage.toNat = st.toNat → tooLong st.toNat s.bup.full ms = true → ∃ u,
      exec (.stageTimeout st ms) s = .next u ∧ u.bup.failed = true ∧ u.bup.running = false ∧ u.bup.stage = s.bup.stage ∧ u.mem = s.mem) ∧
    (tooLong st.toNat s.bup.full ms = false → exec (.stageTimeout st ms) s = .next s)) ∧
  (∀ (s : State) (rb : Bool), s.bup.ready = true → s.flashTemp = true →
    ((s.bup.recPending = true ∧ s.bup.recRetry + 96000000000 ≤ s.time) ∨ (s.bup.recPending = false ∧ s.repDirty ≠ none)) →
    ∃ (u : State) (h : RecHalf), exec (.recordWrite rb) s = .next u ∧ h.valid = rb ∧ h.gen = s.bup.recGen + 1 ∧ h.startNo = s.startNo ∧
      h.ents = s.repairs.take 524284 ∧ u.repDirty = none ∧ u.bup.recPending = !rb ∧
      (∀ r, s.flash.record = some (false, r) → u.flash = { s.flash with recB := h }) ∧
      (∀ r, s.flash.record = some (true, r) → u.flash = { s.flash with recA := h }) ∧
      (s.flash.record = none → u.flash = { s.flash with recA := h })) ∧
  (∀ (s : State) (rb : Bool), (s.bup.ready = false ∨ (s.bup.recPending = false ∧ s.repDirty = none)) → exec (.recordWrite rb) s = .next s) ∧
  (∀ (s : State) (a : Nat), s.wh.counterRetry = some a →
    (s.time < a + 96000000000 → exec .revocationCounterRetry s = .next s) ∧
    (a + 96000000000 ≤ s.time → s.wh.fw.commit = true → s.fuses.counter.toNat < s.wh.fw.svn.toNat →
      (s.flashTemp = false → exec .revocationCounterRetry s = .next { s with wh := { s.wh with counterRetry := some s.time } }) ∧
      (s.flashTemp = true → ∃ u, exec .revocationCounterRetry s = .next u ∧ u.fuses = { s.fuses with counter := s.wh.fw.svn } ∧
        u.wh = { s.wh with counterRetry := none })))

/-- 16 R351 to R361, R370, 06 R148: a sample counts, sets each region's swallow from its largest excess, each sub-channel's refresh rate from
its layer's temperature, and CAP_W. Eight samples out of band make a diode suspect, 256 in band clear it, 656 suspect eject it. A spare
takes an ejected diode's place in its window. The weir escalates where the excess grew over 5 ms and recovers by 200 W. Five misses lose a
tray sensor. Two flows below 3 L/min make the coolant state EMERGENCY, 100 ms below 6 L/min ALARM, with ALERT_N low. -/
def Obligations.SamplesAndCoolant : Prop :=
  (∀ (s : State) (x : SampleIn),
    ((s.tick % 100 ≠ 0 ∨ s.thm.lastSample = some s.tick ∨ s.bup.stage.toNat < 1) → exec (.sensorSample x) s = .next s) ∧
    (s.tick % 100 = 0 → s.thm.lastSample ≠ some s.tick → 1 ≤ s.bup.stage.toNat → ∃ u, exec (.sensorSample x) s = .next u ∧
      u.thm.samples = s.thm.samples + 1 ∧ u.thm.lastSample = some s.tick ∧ u.thm.sampleW = BitVec.ofNat 16 x.inputW ∧
      u.thm.capW = BitVec.ofNat 16 u.capNow ∧
      (∀ j < 8,
        let e := match u.hottest j with | some n => u.excess n | none => 0
        (Map.get {} u.weirs j).engaged = decide (0 < e) ∧ (Map.get {} u.weirs j).swallow = BitVec.ofNat 8 (swallowOf e) ∧
        ∀ n ∈ u.regionCores j, ∀ l < 4, (u.sub n l).refRate = BitVec.ofNat 2 (refNext (s.sub n l).refRate.toNat (u.layerTemp j l))))) ∧
  (∀ (d : Diode) (v : Int) (out inj : Bool),
    (d.ejected = true → d.sample v out false inj = d) ∧
    (d.ejected = false → (d.sample v out true inj) = { d with value := v }) ∧
    (d.ejected = false → d.suspect = false → d.outRun = 7 → (d.sample v true false inj).suspect = true) ∧
    (d.ejected = false → d.suspect = false → out = false → (d.sample v out false inj).suspect = false ∧ (d.sample v out false inj).outRun = 0) ∧
    (d.ejected = false → d.suspect = true → d.inRun = 255 → (d.sample v false false inj).suspect = false) ∧
    (d.ejected = false → d.suspect = true → out = true → d.susRun = 655 → (d.sample v out false false).ejected = true ∧
      (d.sample v out false true).ejected = false)) ∧
  (∀ t : Int, (t ≤ 0 → swallowOf t = 0) ∧ (1 ≤ t → swallowOf t = min 230 (8 * t / 5).toNat) ∧
    (∀ r, 760 < t → refNext r t = 2) ∧ (680 < t → t ≤ 743 → ∀ r, refNext r t = 1) ∧ (t < 664 → ∀ r, refNext r t = 0) ∧
    (744 ≤ t → t ≤ 760 → refNext 2 t = 2 ∧ refNext 1 t = 1 ∧ refNext 0 t = 1) ∧
    (664 ≤ t → t ≤ 680 → refNext 2 t = 1 ∧ refNext 1 t = 1 ∧ refNext 0 t = 0)) ∧
  (∀ (s : State) (g : BitVec 4), s.opensWindow 65536 (49152 + 4 * g.toNat) = true → 1 ≤ s.bup.stage.toNat →
    ∃ u, exec (.sensorRecalWindow g) s = .next u ∧
      (∀ i < 266, i % 16 = g.toNat → (s.site i).spareUsed = false → (s.site i).d0.ejected = true →
        (u.site i).d0 = {} ∧ (u.site i).d1 = (s.site i).d1 ∧ (u.site i).spareUsed = true) ∧
      (∀ i < 266, i % 16 = g.toNat → (s.site i).spareUsed = false → (s.site i).d0.ejected = false → (s.site i).d1.ejected = true →
        (u.site i).d0 = (s.site i).d0 ∧ (u.site i).d1 = {} ∧ (u.site i).spareUsed = true) ∧
      (∀ i, (i % 16 ≠ g.toNat ∨ (s.site i).spareUsed = true) → u.site i = s.site i)) ∧
  (∀ (s : State) (j : BitVec 3) (e : Engage), Map.get none s.thm.engaged j.toNat = some e →
    let x := match s.hottest j.toNat with | some n => s.excess n | none => 0
    (s.time < e.due → exec (.thmWeirEscalated j) s = .next s) ∧
    (e.due ≤ s.time → ∃ u, exec (.thmWeirEscalated j) s = .next u ∧
      Map.get none u.thm.engaged j.toNat = some { e with last := x, due := e.due + 8000000 } ∧
      (x ≤ e.last → u.thm.escW = s.thm.escW ∧ u.weirs = s.weirs) ∧
      (e.last < x → u.thm.escW = BitVec.ofNat 16 (max 600 (s.thm.slotW.toNat - 200)) ∧
        (Map.get {} u.weirs j.toNat).escalations = satAdd (Map.get {} s.weirs j.toNat).escalations 1 ∧
        u.thm.capW = BitVec.ofNat 16 u.capNow))) ∧
  (∀ (s : State) (a : Nat), s.thm.quietSince = some a →
    let b := max (a + 1600000000) ((s.thm.escAt.map fun x => x + 1600000000).getD 0)
    ((s.time < b ∨ 4800 ≤ s.thm.escW.toNat) → exec .escWRecovery s = .next s) ∧
    (b ≤ s.time → s.thm.escW.toNat < 4800 → ∃ u, exec .escWRecovery s = .next u ∧
      u.thm.escW = BitVec.ofNat 16 (min 4800 (s.thm.escW.toNat + 200)) ∧ u.thm.escAt = some s.time ∧ u.thm.capW = BitVec.ofNat 16 u.capNow)) ∧
  (∀ (s : State) (k b : Nat), k < 3 → b < 3 → s.thm.trayLost.getLsbD b = false →
    (s.thm.missRuns.getD k 0 = 4 → (s.traySensor k b false).thm.trayLost.getLsbD b = true) ∧
    (s.thm.missRuns.getD k 0 < 4 → (s.traySensor k b false).thm.trayLost.getLsbD b = false) ∧
    (s.traySensor k b true).thm.trayLost.getLsbD b = false) ∧
  (∀ (s : State) (a c : Int) (f : Nat), 1 ≤ s.bup.stage.toNat → s.thm.trayLost = 0 → s.thm.coolant = .normal →
    let prev := (s.thm.flows.head?.map Prod.snd).getD 65535
    let top := ((s.thm.flows.filter fun e => decide (s.time ≤ e.1 + 320000000)).map Prod.snd).foldl max 0
    (f < 768 → prev < 768 → ∃ u, exec (.trayReading { inlet := some a, outlet := some c, flow := some f }) s = .next u ∧
      u.thm.coolant = .emergency ∧ u.thm.emAct = true ∧ u.thm.capW = 800 ∧ u.pins.alertN = false ∧ u.thm.flow = f ∧ u.thm.inlet = a) ∧
    (∀ w, 768 ≤ f → f < 1536 → 6 * top ≤ 10 * f → s.thm.lowSince = some w → w + 160000000 ≤ s.time →
      ∃ u, exec (.trayReading { inlet := some a, outlet := some c, flow := some f }) s = .next u ∧ u.thm.coolant = .alarm ∧
        u.pins.alertN = false ∧ u.allSwallowed = false) ∧
    (1536 ≤ f → 6 * top ≤ 10 * f → ∃ u, exec (.trayReading { inlet := some a, outlet := some c, flow := some f }) s = .next u ∧
      u.thm.coolant = .normal ∧ u.thm.lowSince = none ∧ u.pins.alertN = !s.thm.inputRange ∧ u.mem = s.mem ∧ u.cores = s.cores))

/-- 16 R362 to R364, R370, R371: once a second at a step slot the cap law sets LAW_W, falling at once and rising by 200 W at most, and
CAP_W is formed anew, with an event where it falls. At each step slot the gate moves its target by 25 W toward CAP_W, swallows 16 more above
it, swallows 16 less or opens two stages 50 W below it, and closes idle stages. An input outside 44 to 56 V drives ALERT_N until it
returns; the second converter lost sets ESC_W to 4,400 W. -/
def Obligations.PowerAndGate : Prop :=
  (∀ s : State,
    (s.capNow = s.thm.capW.toNat → s.refreshCap = s) ∧ s.refreshCap.thm.capW = BitVec.ofNat 16 s.capNow ∧ s.refreshCap.mem = s.mem ∧
    s.refreshCap.cores = s.cores ∧
    (s.capNow < s.thm.capW.toNat → ∃ l,
      let d := [0, s.thm.capW.toNat, s.capNow, 0].map (BitVec.ofNat 64)
      s.refreshCap.events = s.events ++ [{ post := s.time, src := 1, body := .ev cThmCapChanged none d, audits := l }])) ∧
  (∀ s : State, s.tick % 1024 = 512 → s.atDropZero = true → 1 ≤ s.bup.stage.toNat → (∀ a, s.thm.lawAt = some a → a + 1600000000 ≤ s.time) →
    let guard : Int := if s.thm.trayLost.getLsbD 0 then 64 else 32
    let new := max 600 ((784 - s.inletNow - guard) * 125000 / max 1 (s.thm.rth.toNat : Int)).toNat
    ∃ u, exec .capLaw s = .next u ∧ u.thm.lawAt = some s.time ∧ u.thm.capW = BitVec.ofNat 16 u.capNow ∧ u.mem = s.mem ∧ u.cores = s.cores ∧
      (new ≤ s.thm.lawW.toNat → u.thm.lawW = BitVec.ofNat 16 new) ∧
      (s.thm.lawW.toNat < new → u.thm.lawW = BitVec.ofNat 16 (min (min new (s.thm.lawW.toNat + 200)) 65535))) ∧
  (∀ s : State, (s.tick % 1024 ≠ 512 ∨ s.atDropZero = false) → exec .capLaw s = .next s ∧ exec .gateStepSlot s = .next s) ∧
  (∀ s : State, s.tick % 1024 = 512 → s.atDropZero = true → s.thm.slotAt ≠ some s.tick → 6 ≤ s.bup.stage.toNat →
    let p := if s.thm.slotN = 0 then 0 else s.thm.slotSum / s.thm.slotN
    let target := toward s.gate.target.toNat s.thm.capW.toNat 25
    ∃ u, exec .gateStepSlot s = .next u ∧ u.gate.target = BitVec.ofNat 16 target ∧ u.thm.slotW = BitVec.ofNat 16 p ∧ u.thm.slotSum = 0 ∧
      u.thm.slotN = 0 ∧ u.thm.slotAt = some s.tick ∧ u.mem = s.mem ∧ u.cores = s.cores ∧
      (target < p → u.gate.sg = BitVec.ofNat 8 (min 230 (s.gate.sg.toNat + 16)) ∧ u.gate.opened &&& ~~~s.gate.opened = 0) ∧
      (p ≤ target → target ≤ p + 50 → u.gate.sg = s.gate.sg ∧ u.gate.opened &&& ~~~s.gate.opened = 0) ∧
      (p + 50 < target → 0 < s.gate.sg.toNat → u.gate.sg = BitVec.ofNat 8 (s.gate.sg.toNat - 16) ∧ u.gate.opened &&& ~~~s.gate.opened = 0) ∧
      (p + 50 < target → s.gate.sg = 0 → u.gate.sg = 0 ∧ ∀ i < 256, u.gate.opened.getLsbD i = true →
        (({ s.gate with target := BitVec.ofNat 16 target } : Gate).openOne.openOne).opened.getLsbD i = true)) ∧
  (∀ g : Gate,
    (g.opened = BitVec.allOnes 256 → g.openOne = g) ∧
    (∀ i, g.next = BitVec.ofNat 8 i → i < 256 → g.opened.getLsbD i = false →
      g.openOne = { g with opened := g.opened ||| BitVec.ofNat 256 (2 ^ i), next := BitVec.ofNat 8 (i + 1), idle := Map.set 0 g.idle i 0 })) ∧
  (∀ (s : State) (v : BitVec 16),
    ((s.thm.inputRange = true ∨ (11264 ≤ v.toNat ∧ v.toNat ≤ 14336)) → exec (.thmInputRange v) s = .next s) ∧
    (s.thm.inputRange = false → (v.toNat < 11264 ∨ 14336 < v.toNat) → 1 ≤ s.bup.stage.toNat → ∃ u, exec (.thmInputRange v) s = .next u ∧
      u.thm.inputRange = true ∧ u.thm.vin = v ∧ u.pins.alertN = false ∧ u.thm.capW = BitVec.ofNat 16 u.capNow) ∧
    ((s.thm.inputRange = false ∨ v.toNat < 11264 ∨ 14336 < v.toNat) → exec (.inputRangeReturn v) s = .next s) ∧
    (s.thm.inputRange = true → 11264 ≤ v.toNat → v.toNat ≤ 14336 → ∃ u, exec (.inputRangeReturn v) s = .next u ∧
      u.thm.inputRange = false ∧ u.thm.vin = v ∧ u.thm.capW = BitVec.ofNat 16 u.capNow ∧
      (s.thm.coolant = .normal → s.thm.trayLost = 0 → u.pins.alertN = true))) ∧
  (∀ (s : State) (c : BitVec 4),
    (s.thm.convLost ≠ 1 → exec (.thmConverterLost c) s = .next { s with thm := { s.thm with convLost := s.thm.convLost + 1 } }) ∧
    (s.thm.convLost = 1 → ∃ u, exec (.thmConverterLost c) s = .next u ∧ u.thm.convLost = 2 ∧ u.thm.escW = 4400 ∧
      u.thm.capW = BitVec.ofNat 16 u.capNow ∧ u.mem = s.mem))

/-- A step with a command waiting is the effect of the command at the front of the queue on the state with the rest of the queue. With none
waiting one drop of true time passes (the model's choice, log entry 2): time rises by one, memory, cores and registers outside the clepsydra
stand where no partial reset is in progress, no host access waits in the hub, nothing waits for a core's banks and S2 does not wait for the
cadence. Every command answers a next state in every state: none ends in a fault or a refusal. -/
def Obligations.StepTakesTheFront : Prop :=
  (∀ (s : State) (c : Instr) (cs : List Instr), s.pending = c :: cs → step s = exec c { s with pending := cs }) ∧
  (∀ s : State, s.pending = [] → s.host.hub = [] → s.clp.s2Lock = false → (∀ n, (s.core n).asyncWait = []) → ∃ t, step s = .next t ∧ t.time = s.time + 1 ∧ t.mem = s.mem ∧ t.cores = s.cores ∧ t.pending = [] ∧
    (s.bup.stage.toNat < 2 → t.clp = s.clp) ∧ (2 ≤ s.bup.stage.toNat → t.clp = s.clp.advance) ∧
    (s.partials = [] → t = { s with time := s.time + 1, clp := if s.bup.stage.toNat < 2 then s.clp else s.clp.advance })) ∧
  (∀ c : Clep, c.slew = 0 →
    (c.drop.toNat < 1023 → c.advance.tick = c.tick ∧ c.advance.drop = c.drop + 1) ∧
    (c.drop.toNat = 1023 → c.advance.tick = c.tick + 1 ∧ c.advance.drop = 0) ∧ c.advance.slew = 0) ∧
  (∀ (i : Instr) (s : State), completes i s)

/-- At reset every register has the value its block's table gives: the limits of the feeder, write holds, passes and admission 0x0040 and 0x061A,
the budget 0x0032, all channels present and active, CAP as Table NET-3, CLP_STAT FREE_RUN with UNCERT all ones, PERIOD_MIN 1,440, ESC_W 4,800 W,
RTH 0x3E80, straps open, queues IDLE with empty records. No command waits, no core is numbered, memory lists nothing and is canonical; that
unlisted bytes read as 0 is the model's choice before S3 (log entry 35). -/
def Obligations.ResetValues : Prop :=
  let s := State.reset
  s.pending = [] ∧ s.nCores = 0 ∧ Memory.wf s.mem = true ∧ (∀ a, Map.get 0 s.mem a = 0) ∧
  (∀ n q, (s.core n).feedLimit = 0x0040 ∧ (s.core n).lastRunQ = 3 ∧ (s.core n).pc = 0 ∧ (s.core n).run = none ∧
    (∀ r, Map.get 0 (s.core n).v r = 0 ∧ Map.get 0 (s.core n).s r = 0 ∧ Map.get 0 (s.core n).a r = 0) ∧
    (s.core n).sticky = {} ∧ (s.queue n q).st = .idle ∧ (s.queue n q).record = 0 ∧ (s.queue n q).ptr = 0) ∧
  (∀ n, (s.cist n).present = 0xF ∧ (s.cist n).active = 0xF ∧ (s.cist n).wholdLimit = 0x061A) ∧
  (∀ k, s.present k = 2 ^ 32 - 1 ∧ s.activeCh k = 2 ^ 32 - 1 ∧ (s.rsv k).budgetUs = 0x0032 ∧ (s.rsv k).passLimit = 0x061A ∧
    (s.rsv k).skimPeriod = 0x005A0) ∧
  (s.capOf 0 = 28672 ∧ s.capOf 8 = 114688 ∧ s.capOf 10 = 32768 ∧ s.capOf 42 = 7168 ∧ s.capOf 62 = 4096) ∧
  (s.clp.tick = 0 ∧ s.clp.mode = .freeRun ∧ s.clp.thresh = 0x00400 ∧ s.clp.cfgLock = false) ∧
  (∀ p, (s.lport p).st = .disabled ∧ (s.lport p).admitWait = 0x061A) ∧
  (s.host.regWin.toNat * 2 ^ 25 = 0x03F000000000 ∧ s.host.winEn = false ∧ s.pci.bar2Log = 34 ∧ (∀ r, (s.ring r).enable = false)) ∧
  (s.licParts = 1 ∧ s.licCompute = false ∧ s.licMulti = false ∧ s.licLong = false ∧ s.linkPorts = 0 ∧ s.wh.wdogMs = 0x07D0 ∧ s.wh.esn = 0) ∧
  (s.param 0x10 0 4800 = 4800 ∧ s.param 0x11 0 1440 = 1440) ∧
  (s.bup.stage = 0 ∧ s.bup.ready = false ∧ s.bup.bootMode = 0b11 ∧ s.bup.modId = 0xF) ∧
  (s.thm.capW = 0 ∧ s.thm.lawW = 0 ∧ s.thm.escW = 0x12C0 ∧ s.thm.rth = 0x3E80 ∧ s.thm.idleSlots = 0x05F6 ∧ s.thm.coolant = .normal)

/-- 04 R71 to R74 and the tables of fields: every operation of every slot, with every operand at every value its fields admit, is decoded back
from its word, which fits the slot's bytes. A bundle of any operations in ascending slots, each legal there, is decoded back whole from its
bytes: its header field by field, its length, and each slot's operation in its place; and its bytes are as many as the header says. -/
def Obligations.BundleWords : Prop :=
  (∀ op : SlotOp, decodeSlot op.slot (encodeSlot op) = some op ∧ encodeSlot op < 2 ^ (8 * slotBytes op.slot)) ∧
  (∀ (idle : Nat) (bkpt mark last : Bool) (ops : List SlotOp), idle < 16 → (ops.map SlotOp.slot).Pairwise (· < ·) →
    let bs := encodeBundle idle bkpt mark last ops
    let h := Header.ofNat (leNat (bs.take 2))
    h = { slots := (ops.map fun o => 2 ^ o.slot).sum, idle := idle, bkpt := bkpt, mark := mark, last := last } ∧
    h.len = bs.length ∧ onesOf 8 h.slots = ops.map SlotOp.slot ∧
    ((∀ o ∈ ops, o.legal h.len = true) → decodeSlots h.len (onesOf 8 h.slots) (bs.drop 2) = ops.map fun o => (o.slot, some o)))

/-- From every state whose memory is in the canonical form (addresses rising, no entry equal to what an unlisted address reads as), every
command, and every step, leaves it in that form, so that equal memories are equal data. That reset has the form is ResetValues. -/
def Obligations.MemoryStaysCanonical : Prop :=
  (∀ (i : Instr) (s t : State), Memory.wf s.mem = true → exec i s = .next t → Memory.wf t.mem = true) ∧
  (∀ s t : State, Memory.wf s.mem = true → step s = .next t → Memory.wf t.mem = true)
end

