-- ==== Sys2Proof/Laws/Map.lean ====
section
/-! SUPPORT. What the sparse maps do: a read after a write, and that every operation keeps the canonical form. -/

namespace Sys2Proof.Machine

variable {α : Type}

/-- What dropping entries leaves at a key. -/
theorem Map.get_drop (d : α) (p : Nat → Bool) (m : Map α) (j : Nat) :
    Map.get d (Map.drop p m) j = if p j then d else Map.get d m j := by
  induction m with
  | nil => simp [Map.drop, Map.get]
  | cons q m ih =>
    obtain ⟨a, w⟩ := q
    by_cases h : p a = true
    · simp only [Map.drop, h, if_true, ih, Map.get]
      by_cases e : a = j
      · subst e; simp [h]
      · simp [e]
    · rw [Map.drop, if_neg h]
      simp only [Map.get, ih]
      by_cases e : a = j
      · subst e; simp [h]
      · simp [e]

/-- What putting an entry leaves at a key. -/
theorem Map.get_put (d : α) (m : Map α) (k j : Nat) (v : α) :
    Map.get d (Map.put m k v) j = if k = j then v else Map.get d m j := by
  induction m with
  | nil => simp [Map.put, Map.get]
  | cons q m ih =>
    obtain ⟨a, w⟩ := q
    simp only [Map.put]
    by_cases h1 : a < k
    · simp only [h1, if_true, Map.get, ih]
      by_cases e : a = j
      · subst e; simp [Nat.ne_of_gt h1]
      · simp [e]
    · by_cases h2 : a = k
      · subst h2; by_cases e : a = j <;> simp [Map.get, e]
      · simp [h1, h2, Map.get]

/-- What a write leaves at a key: the value written, or what was there. -/
theorem Map.get_set [DecidableEq α] (d : α) (m : Map α) (k j : Nat) (v : α) :
    Map.get d (Map.set d m k v) j = if k = j then v else Map.get d m j := by
  unfold Map.set
  split
  · next h =>
    subst h
    rw [Map.get_drop]
    by_cases e : k = j
    · simp [e]
    · simp [e, Ne.symm e]
  · rw [Map.get_put]

/-- A read after a write to the same key gives the value written. -/
@[simp] theorem Map.get_set_same [DecidableEq α] (d : α) (m : Map α) (k : Nat) (v : α) :
    Map.get d (Map.set d m k v) k = v := by simp [Map.get_set d m k k v]
/-- A write leaves every other key alone. -/
theorem Map.get_set_other [DecidableEq α] (d : α) (m : Map α) (k j : Nat) (v : α) (e : k ≠ j) :
    Map.get d (Map.set d m k v) j = Map.get d m j := by simp [Map.get_set d m k j v, e]

/-- The canonical form from a bound below every key holds from any smaller bound. -/
theorem Map.okFrom_mono [DecidableEq α] (d : α) (m : Map α) (a b : Nat) (h : a ≤ b) (hm : Map.okFrom d (some b) m = true) :
    Map.okFrom d (some a) m = true := by
  cases m with
  | nil => rfl
  | cons p m =>
    simp only [Map.okFrom, Bool.and_eq_true, decide_eq_true_eq] at hm ⊢
    exact ⟨⟨by omega, hm.1.2⟩, hm.2⟩

/-- The canonical form from a bound is the canonical form. -/
theorem Map.okFrom_none [DecidableEq α] (d : α) (m : Map α) (a : Nat) (hm : Map.okFrom d (some a) m = true) :
    Map.okFrom d none m = true := by
  cases m with
  | nil => rfl
  | cons p m =>
    simp only [Map.okFrom, Bool.and_eq_true, decide_eq_true_eq] at hm ⊢
    exact ⟨⟨trivial, hm.1.2⟩, hm.2⟩

/-- Dropping entries keeps the canonical form from any bound. -/
theorem Map.okFrom_drop [DecidableEq α] (d : α) (p : Nat → Bool) (m : Map α) (lo : Option Nat) (hm : Map.okFrom d lo m = true) :
    Map.okFrom d lo (Map.drop p m) = true := by
  induction m generalizing lo with
  | nil => rfl
  | cons q m ih =>
    obtain ⟨a, w⟩ := q
    simp only [Map.okFrom, Bool.and_eq_true, decide_eq_true_eq] at hm
    simp only [Map.drop]
    split
    · apply ih
      cases lo with
      | none => exact Map.okFrom_none d m a hm.2
      | some x => exact Map.okFrom_mono d m x a (by simpa using Nat.le_of_lt (by simpa using hm.1.1)) hm.2
    · simp only [Map.okFrom, Bool.and_eq_true, decide_eq_true_eq]
      exact ⟨hm.1, ih _ hm.2⟩

/-- Dropping entries keeps the canonical form. -/
theorem Map.wf_drop [DecidableEq α] (d : α) (p : Nat → Bool) (m : Map α) (h : Map.wf d m = true) :
    Map.wf d (Map.drop p m) = true := Map.okFrom_drop d p m none h

/-- Putting a value other than the default keeps the canonical form from any bound below its key. -/
theorem Map.okFrom_put [DecidableEq α] (d : α) (m : Map α) (lo : Option Nat) (k : Nat) (v : α) (hv : v ≠ d)
    (hk : ∀ x, lo = some x → x < k) (hm : Map.okFrom d lo m = true) : Map.okFrom d lo (Map.put m k v) = true := by
  induction m generalizing lo with
  | nil =>
    cases lo with
    | none => simp [Map.put, Map.okFrom, hv]
    | some x => simp [Map.put, Map.okFrom, hv, hk x rfl]
  | cons p m ih =>
    obtain ⟨a, w⟩ := p
    simp only [Map.okFrom, Bool.and_eq_true, decide_eq_true_eq] at hm
    obtain ⟨⟨hlo, hw⟩, hm⟩ := hm
    simp only [Map.put]
    split
    · next h1 =>
      simp only [Map.okFrom, Bool.and_eq_true, decide_eq_true_eq]
      exact ⟨⟨hlo, hw⟩, ih (some a) (fun x hx => by cases hx; exact h1) hm⟩
    · split
      · next h2 =>
        subst h2
        simp only [Map.okFrom, Bool.and_eq_true, decide_eq_true_eq]
        exact ⟨⟨hlo, hv⟩, hm⟩
      · next h1 h2 =>
        simp only [Map.okFrom, Bool.and_eq_true, decide_eq_true_eq]
        refine ⟨⟨?_, hv⟩, ⟨by omega, hw⟩, hm⟩
        cases lo with
        | none => rfl
        | some x => simpa using hk x rfl

/-- A write keeps the canonical form from any bound below its key. -/
theorem Map.okFrom_set [DecidableEq α] (d : α) (m : Map α) (lo : Option Nat) (k : Nat) (v : α)
    (hk : ∀ x, lo = some x → x < k) (hm : Map.okFrom d lo m = true) : Map.okFrom d lo (Map.set d m k v) = true := by
  unfold Map.set
  split
  · exact Map.okFrom_drop d _ m lo hm
  · next hv => exact Map.okFrom_put d m lo k v hv hk hm

/-- A write keeps the canonical form. -/
theorem Map.wf_set [DecidableEq α] (d : α) (m : Map α) (k : Nat) (v : α) (h : Map.wf d m = true) :
    Map.wf d (Map.set d m k v) = true := Map.okFrom_set d m none k v (fun _ hx => by cases hx) h

/-! ### Runs of values -/

/-- What a run of values holds at a key. -/
theorem Map.get_run [DecidableEq α] (d : α) (k j : Nat) (vs : List α) :
    Map.get d (Map.run d k vs) j = if k ≤ j then vs.getD (j - k) d else d := by
  induction vs generalizing k with
  | nil => simp [Map.run, Map.get]
  | cons v vs ih =>
    have e : k ≤ j → k ≠ j → j - k = (j - (k + 1)) + 1 := by omega
    by_cases hk : k = j
    · subst hk
      by_cases hv : v = d
      · simp [Map.run, hv, ih]
      · simp [Map.run, hv, Map.get]
    · have h : Map.get d (Map.run d k (v :: vs)) j = Map.get d (Map.run d (k + 1) vs) j := by
        simp only [Map.run]; split <;> simp [Map.get, hk]
      rw [h, ih]
      by_cases hl : k ≤ j
      · rw [if_pos hl, if_pos (by omega), e hl hk]; simp
      · rw [if_neg hl, if_neg (by omega)]

/-- The keys of a run of values. -/
theorem Map.mem_run [DecidableEq α] (d : α) (k : Nat) (vs : List α) (p : Nat × α) (h : p ∈ Map.run d k vs) :
    k ≤ p.1 ∧ p.1 < k + vs.length := by
  induction vs generalizing k with
  | nil => simp [Map.run] at h
  | cons v vs ih =>
    have := ih (k + 1)
    simp only [Map.run] at h
    simp only [List.length_cons]
    split at h
    · have := this h; omega
    · rcases List.mem_cons.mp h with rfl | h
      · simp
      · have := this h; omega

/-- A key no entry has reads as the default. -/
theorem Map.get_absent (d : α) (m : Map α) (j : Nat) (h : ∀ p ∈ m, p.1 ≠ j) : Map.get d m j = d := by
  induction m with
  | nil => rfl
  | cons p m ih =>
    rw [Map.get, if_neg (h p (by simp))]
    exact ih fun q hq => h q (by simp [hq])

/-- A map followed by another: the first that lists the key holds. -/
theorem Map.get_append (d : α) (m o : Map α) (j : Nat) :
    Map.get d (m ++ o) j = if ∃ p ∈ m, p.1 = j then Map.get d m j else Map.get d o j := by
  induction m with
  | nil => simp
  | cons p m ih =>
    obtain ⟨a, w⟩ := p
    by_cases e : a = j
    · simp [Map.get, e]
    · have h : (∃ p ∈ (a, w) :: m, p.1 = j) ↔ ∃ p ∈ m, p.1 = j := by simp [e]
      simp only [List.cons_append, Map.get, if_neg e, ih, h]

/-- Splicing entries leaves a key alone that they do not list. -/
theorem Map.get_splice_other (d : α) (k : Nat) (es m : Map α) (j : Nat) (h : ∀ p ∈ es, p.1 ≠ j) :
    Map.get d (Map.splice k es m) j = Map.get d m j := by
  induction m with
  | nil => exact Map.get_absent d es j h
  | cons p m ih =>
    obtain ⟨a, w⟩ := p
    simp only [Map.splice]
    split
    · simp [Map.get, ih]
    · rw [Map.get_append, if_neg (by rintro ⟨p, hp, e⟩; exact h p hp e)]

/-- Splicing entries gives a key that only they list what they hold. -/
theorem Map.get_splice (d : α) (k : Nat) (es m : Map α) (j : Nat) (h : ∀ p ∈ m, p.1 ≠ j) :
    Map.get d (Map.splice k es m) j = Map.get d es j := by
  induction m with
  | nil => rfl
  | cons p m ih =>
    obtain ⟨a, w⟩ := p
    have ha : a ≠ j := h (a, w) (by simp)
    simp only [Map.splice]
    split
    · simp [Map.get, ha, ih fun q hq => h q (by simp [hq])]
    · rw [Map.get_append]
      split
      · rfl
      · next e =>
        rw [Map.get_absent d _ j h]
        exact (Map.get_absent d es j fun p hp he => e ⟨p, hp, he⟩).symm

/-- The entries that dropping leaves. -/
theorem Map.mem_drop (p : Nat → Bool) (m : Map α) (q : Nat × α) (h : q ∈ Map.drop p m) : q ∈ m ∧ p q.1 = false := by
  induction m with
  | nil => simp [Map.drop] at h
  | cons r m ih =>
    obtain ⟨a, w⟩ := r
    simp only [Map.drop] at h
    split at h
    · exact ⟨by simp [(ih h).1], (ih h).2⟩
    · next hp =>
      rcases List.mem_cons.mp h with rfl | h
      · exact ⟨by simp, by simpa using hp⟩
      · exact ⟨by simp [(ih h).1], (ih h).2⟩

/-- What a run of writes leaves at a key: the value of the run there, or what was there. -/
theorem Map.get_setRange [DecidableEq α] (d : α) (m : Map α) (k j : Nat) (vs : List α) :
    Map.get d (Map.setRange d m k vs) j =
      if k ≤ j ∧ j < k + vs.length then vs.getD (j - k) d else Map.get d m j := by
  unfold Map.setRange
  by_cases h : k ≤ j ∧ j < k + vs.length
  · rw [Map.get_splice _ _ _ _ _ (fun p hp e => ?_), Map.get_run, if_pos h.1, if_pos h]
    have := (Map.mem_drop _ _ _ hp).2
    simp [e, h.1, h.2] at this
  · rw [Map.get_splice_other _ _ _ _ _ (fun p hp e => ?_), Map.get_drop, if_neg (by simpa using h), if_neg h]
    have := Map.mem_run _ _ _ _ hp
    exact h (e ▸ this)

/-- A run of values before a map with no smaller key is in the canonical form. -/
theorem Map.okFrom_run [DecidableEq α] (d : α) (k : Nat) (vs : List α) (m : Map α) (lo : Option Nat) (hm : Map.okFrom d none m = true)
    (hk : ∀ p ∈ m, k + vs.length ≤ p.1) (hlo : ∀ x, lo = some x → x < k) : Map.okFrom d lo (Map.run d k vs ++ m) = true := by
  induction vs generalizing k lo with
  | nil =>
    cases m with
    | nil => rfl
    | cons p m =>
      simp only [Map.run, List.nil_append, Map.okFrom, Bool.and_eq_true, decide_eq_true_eq] at hm ⊢
      refine ⟨⟨?_, hm.1.2⟩, hm.2⟩
      have h := hk p (by simp)
      cases lo with
      | none => rfl
      | some x => have := hlo x rfl; simp at h ⊢; omega
  | cons v vs ih =>
    simp only [List.length_cons] at hk
    simp only [Map.run]
    split
    · exact ih (k + 1) lo (fun p hp => by have := hk p hp; omega) (fun x hx => by have := hlo x hx; omega)
    · next hv =>
      simp only [List.cons_append, Map.okFrom, Bool.and_eq_true, decide_eq_true_eq]
      refine ⟨⟨?_, hv⟩, ih (k + 1) (some k) (fun p hp => by have := hk p hp; omega) (fun x hx => by cases hx; omega)⟩
      cases lo with
      | none => rfl
      | some x => simpa using hlo x rfl

/-- Every key of a map in the canonical form from a bound lies above it. -/
theorem Map.okFrom_above [DecidableEq α] (d : α) (m : Map α) (a : Nat) (hm : Map.okFrom d (some a) m = true) (p : Nat × α) (h : p ∈ m) :
    a < p.1 := by
  induction m generalizing a with
  | nil => simp at h
  | cons q m ih =>
    simp only [Map.okFrom, Bool.and_eq_true, decide_eq_true_eq] at hm
    rcases List.mem_cons.mp h with rfl | h
    · exact hm.1.1
    · exact Nat.lt_trans hm.1.1 (ih _ hm.2 h)

/-- Writing a run of values keeps the canonical form. -/
theorem Map.wf_setRange [DecidableEq α] (d : α) (m : Map α) (k : Nat) (vs : List α) (h : Map.wf d m = true) :
    Map.wf d (Map.setRange d m k vs) = true := by
  unfold Map.setRange Map.wf
  have hd := Map.okFrom_drop d (fun j => decide (k ≤ j) && decide (j < k + vs.length)) m none h
  have hr : ∀ p ∈ Map.drop (fun j => decide (k ≤ j) && decide (j < k + vs.length)) m, k ≤ p.1 → k + vs.length ≤ p.1 := by
    intro p hp hk
    have := (Map.mem_drop _ _ _ hp).2
    simp [hk] at this
    exact this
  generalize Map.drop _ m = o at hd hr
  have gen : ∀ (lo : Option Nat), Map.okFrom d lo o = true → (∀ x, lo = some x → x < k) →
      Map.okFrom d lo (Map.splice k (Map.run d k vs) o) = true := by
    clear hd
    induction o with
    | nil => intro lo _ hlo; simpa [Map.splice] using Map.okFrom_run d k vs [] lo rfl (by simp) hlo
    | cons p o ih =>
      obtain ⟨a, w⟩ := p
      intro lo ho hlo
      simp only [Map.splice]
      by_cases ha : a < k
      · rw [if_pos ha]
        simp only [Map.okFrom, Bool.and_eq_true, decide_eq_true_eq] at ho ⊢
        exact ⟨ho.1, ih (fun q hq => hr q (by simp [hq])) (some a) ho.2 (fun x hx => by cases hx; exact ha)⟩
      · rw [if_neg ha]
        have hn : Map.okFrom d none ((a, w) :: o) = true := by
          simp only [Map.okFrom, Bool.and_eq_true, decide_eq_true_eq] at ho ⊢
          exact ⟨⟨trivial, ho.1.2⟩, ho.2⟩
        refine Map.okFrom_run d k vs _ lo hn (fun q hq => hr q hq ?_) hlo
        rcases List.mem_cons.mp hq with rfl | hq
        · exact Nat.not_lt.mp ha
        · simp only [Map.okFrom, Bool.and_eq_true, decide_eq_true_eq] at ho
          have := Map.okFrom_above d o a ho.2 q hq
          omega
  exact gen none hd (fun _ hx => by cases hx)

/-- What changing every listed value leaves at a key, where the change keeps the default. -/
theorem Map.get_mapAll [DecidableEq α] (d : α) (f : α → α) (hf : f d = d) (m : Map α) (j : Nat) :
    Map.get d (Map.mapAll d f m) j = f (Map.get d m j) := by
  induction m with
  | nil => simp [Map.mapAll, Map.get, hf]
  | cons p m ih =>
    obtain ⟨k, v⟩ := p
    show Map.get d (Map.set d (Map.mapAll d f m) k (f v)) j = _
    rw [Map.get_set]
    by_cases e : k = j <;> simp [Map.get, e, ih]

/-- Changing every listed value gives a map in the canonical form. -/
theorem Map.wf_mapAll [DecidableEq α] (d : α) (f : α → α) (m : Map α) : Map.wf d (Map.mapAll d f m) = true := by
  induction m with
  | nil => rfl
  | cons p m ih => exact Map.wf_set d _ p.1 (f p.2) ih

/-- Entries outside a range removed leave the keys of the range alone. -/
theorem Map.get_filter (d : α) (p : Nat → Bool) (m : Map α) (j : Nat) (h : p j = true) :
    Map.get d (m.filter fun q => p q.1) j = Map.get d m j := by
  induction m with
  | nil => rfl
  | cons q m ih =>
    obtain ⟨a, w⟩ := q
    by_cases e : a = j
    · simp [List.filter, e, h, Map.get]
    · rw [List.filter]
      split <;> simp [Map.get, e, ih]

/-- A run of reads reads each key. -/
theorem Map.getRange_eq (d : α) (m : Map α) (k n : Nat) : Map.getRange d m k n = (List.range n).map fun i => Map.get d m (k + i) := by
  unfold Map.getRange
  refine List.map_congr_left fun i hi => ?_
  exact Map.get_filter d (fun j => decide (k ≤ j) && decide (j < k + n)) m (k + i) (by simp [List.mem_range.mp hi])

/-- A run of reads has the length asked for. -/
@[simp] theorem Map.length_getRange (d : α) (m : Map α) (k n : Nat) : (Map.getRange d m k n).length = n := by
  simp [Map.getRange]

end Sys2Proof.Machine
end

