-- ==== Sys2Proof/Laws/State.lean ====
section
/-! SUPPORT. What the updates of a state leave alone, field by field, and what they write. -/

namespace Sys2Proof.Machine

variable (s : State) (n k c : Nat)

/-! ### State.setCore -/

@[simp] theorem State.setCore_pending (x : Core) : (s.setCore n x).pending = s.pending := rfl
@[simp] theorem State.setCore_time (x : Core) : (s.setCore n x).time = s.time := rfl
@[simp] theorem State.setCore_free (x : Core) : (s.setCore n x).free = s.free := rfl
@[simp] theorem State.setCore_mem (x : Core) : (s.setCore n x).mem = s.mem := rfl
@[simp] theorem State.setCore_cw (x : Core) : (s.setCore n x).cw = s.cw := rfl
@[simp] theorem State.setCore_sram (x : Core) : (s.setCore n x).sram = s.sram := rfl
@[simp] theorem State.setCore_cores (x : Core) : (s.setCore n x).cores = Map.set {} s.cores n x := rfl
@[simp] theorem State.setCore_nCores (x : Core) : (s.setCore n x).nCores = s.nCores := rfl
@[simp] theorem State.setCore_clockFrom (x : Core) : (s.setCore n x).clockFrom = s.clockFrom := rfl
@[simp] theorem State.setCore_cisterns (x : Core) : (s.setCore n x).cisterns = s.cisterns := rfl
@[simp] theorem State.setCore_chans (x : Core) : (s.setCore n x).chans = s.chans := rfl
@[simp] theorem State.setCore_events (x : Core) : (s.setCore n x).events = s.events := rfl
@[simp] theorem State.setCore_rsvs (x : Core) : (s.setCore n x).rsvs = s.rsvs := rfl
@[simp] theorem State.setCore_memDone (x : Core) : (s.setCore n x).memDone = s.memDone := rfl
@[simp] theorem State.setCore_launches (x : Core) : (s.setCore n x).launches = s.launches := rfl
@[simp] theorem State.setCore_launchNo (x : Core) : (s.setCore n x).launchNo = s.launchNo := rfl
@[simp] theorem State.setCore_seqs (x : Core) : (s.setCore n x).seqs = s.seqs := rfl
@[simp] theorem State.setCore_pool (x : Core) : (s.setCore n x).pool = s.pool := rfl
@[simp] theorem State.setCore_passes (x : Core) : (s.setCore n x).passes = s.passes := rfl
@[simp] theorem State.setCore_att (x : Core) : (s.setCore n x).att = s.att := rfl
@[simp] theorem State.setCore_parts (x : Core) : (s.setCore n x).parts = s.parts := rfl
@[simp] theorem State.setCore_licPorts (x : Core) : (s.setCore n x).licPorts = s.licPorts := rfl
@[simp] theorem State.setCore_licCompute (x : Core) : (s.setCore n x).licCompute = s.licCompute := rfl
@[simp] theorem State.setCore_licMulti (x : Core) : (s.setCore n x).licMulti = s.licMulti := rfl
@[simp] theorem State.setCore_licLong (x : Core) : (s.setCore n x).licLong = s.licLong := rfl
@[simp] theorem State.setCore_licParts (x : Core) : (s.setCore n x).licParts = s.licParts := rfl
@[simp] theorem State.setCore_clp (x : Core) : (s.setCore n x).clp = s.clp := rfl
@[simp] theorem State.setCore_bundles (x : Core) : (s.setCore n x).bundles = s.bundles := rfl
@[simp] theorem State.setCore_brRows (x : Core) : (s.setCore n x).brRows = s.brRows := rfl
@[simp] theorem State.setCore_brWindow (x : Core) : (s.setCore n x).brWindow = s.brWindow := rfl
@[simp] theorem State.setCore_evacs (x : Core) : (s.setCore n x).evacs = s.evacs := rfl
@[simp] theorem State.setCore_heldOut (x : Core) : (s.setCore n x).heldOut = s.heldOut := rfl
@[simp] theorem State.setCore_profGen (x : Core) : (s.setCore n x).profGen = s.profGen := rfl
@[simp] theorem State.setCore_profMap (x : Core) : (s.setCore n x).profMap = s.profMap := rfl
@[simp] theorem State.setCore_params (x : Core) : (s.setCore n x).params = s.params := rfl
@[simp] theorem State.setCore_flags (x : Core) : (s.setCore n x).flags = s.flags := rfl
@[simp] theorem State.setCore_flagUpds (x : Core) : (s.setCore n x).flagUpds = s.flagUpds := rfl
@[simp] theorem State.setCore_clusterPart (x : Core) : (s.setCore n x).clusterPart = s.clusterPart := rfl
@[simp] theorem State.setCore_clusterRetired (x : Core) : (s.setCore n x).clusterRetired = s.clusterRetired := rfl
@[simp] theorem State.setCore_netFence (x : Core) : (s.setCore n x).netFence = s.netFence := rfl
@[simp] theorem State.setCore_partReset (x : Core) : (s.setCore n x).partReset = s.partReset := rfl
@[simp] theorem State.setCore_coreReset (x : Core) : (s.setCore n x).coreReset = s.coreReset := rfl
@[simp] theorem State.setCore_sluCap (x : Core) : (s.setCore n x).sluCap = s.sluCap := rfl
@[simp] theorem State.setCore_slu (x : Core) : (s.setCore n x).slu = s.slu := rfl
@[simp] theorem State.setCore_fwShares (x : Core) : (s.setCore n x).fwShares = s.fwShares := rfl
@[simp] theorem State.setCore_sluLat (x : Core) : (s.setCore n x).sluLat = s.sluLat := rfl
@[simp] theorem State.setCore_sluHeld (x : Core) : (s.setCore n x).sluHeld = s.sluHeld := rfl
@[simp] theorem State.setCore_brWait (x : Core) : (s.setCore n x).brWait = s.brWait := rfl
@[simp] theorem State.setCore_reqs (x : Core) : (s.setCore n x).reqs = s.reqs := rfl
@[simp] theorem State.setCore_reqNo (x : Core) : (s.setCore n x).reqNo = s.reqNo := rfl
@[simp] theorem State.setCore_arrNo (x : Core) : (s.setCore n x).arrNo = s.arrNo := rfl
@[simp] theorem State.setCore_ingress (x : Core) : (s.setCore n x).ingress = s.ingress := rfl
@[simp] theorem State.setCore_accs (x : Core) : (s.setCore n x).accs = s.accs := rfl
@[simp] theorem State.setCore_rsvPresent (x : Core) : (s.setCore n x).rsvPresent = s.rsvPresent := rfl
@[simp] theorem State.setCore_rsvActive (x : Core) : (s.setCore n x).rsvActive = s.rsvActive := rfl
@[simp] theorem State.setCore_chset (x : Core) : (s.setCore n x).chset = s.chset := rfl
@[simp] theorem State.setCore_pinInj (x : Core) : (s.setCore n x).pinInj = s.pinInj := rfl
@[simp] theorem State.setCore_repairs (x : Core) : (s.setCore n x).repairs = s.repairs := rfl
@[simp] theorem State.setCore_repDirty (x : Core) : (s.setCore n x).repDirty = s.repDirty := rfl
@[simp] theorem State.setCore_startNo (x : Core) : (s.setCore n x).startNo = s.startNo := rfl
@[simp] theorem State.setCore_weirs (x : Core) : (s.setCore n x).weirs = s.weirs := rfl
@[simp] theorem State.setCore_gate (x : Core) : (s.setCore n x).gate = s.gate := rfl
@[simp] theorem State.setCore_allSwallowed (x : Core) : (s.setCore n x).allSwallowed = s.allSwallowed := rfl
@[simp] theorem State.setCore_ports (x : Core) : (s.setCore n x).ports = s.ports := rfl
@[simp] theorem State.setCore_txs (x : Core) : (s.setCore n x).txs = s.txs := rfl
@[simp] theorem State.setCore_rxs (x : Core) : (s.setCore n x).rxs = s.rxs := rfl
@[simp] theorem State.setCore_epochs (x : Core) : (s.setCore n x).epochs = s.epochs := rfl
@[simp] theorem State.setCore_admNo (x : Core) : (s.setCore n x).admNo = s.admNo := rfl
@[simp] theorem State.setCore_linkOut (x : Core) : (s.setCore n x).linkOut = s.linkOut := rfl
@[simp] theorem State.setCore_host (x : Core) : (s.setCore n x).host = s.host := rfl
@[simp] theorem State.setCore_hostOut (x : Core) : (s.setCore n x).hostOut = s.hostOut := rfl
@[simp] theorem State.setCore_pci (x : Core) : (s.setCore n x).pci = s.pci := rfl
@[simp] theorem State.setCore_wh (x : Core) : (s.setCore n x).wh = s.wh := rfl
@[simp] theorem State.setCore_fuses (x : Core) : (s.setCore n x).fuses = s.fuses := rfl
@[simp] theorem State.setCore_flash (x : Core) : (s.setCore n x).flash = s.flash := rfl
@[simp] theorem State.setCore_scrubs (x : Core) : (s.setCore n x).scrubs = s.scrubs := rfl
@[simp] theorem State.setCore_pins (x : Core) : (s.setCore n x).pins = s.pins := rfl
@[simp] theorem State.setCore_bup (x : Core) : (s.setCore n x).bup = s.bup := rfl
@[simp] theorem State.setCore_partials (x : Core) : (s.setCore n x).partials = s.partials := rfl
@[simp] theorem State.setCore_thm (x : Core) : (s.setCore n x).thm = s.thm := rfl
@[simp] theorem State.setCore_tapReset (x : Core) : (s.setCore n x).tapReset = s.tapReset := rfl

/-! ### State.setCist -/

@[simp] theorem State.setCist_pending (x : Cistern) : (s.setCist n x).pending = s.pending := rfl
@[simp] theorem State.setCist_time (x : Cistern) : (s.setCist n x).time = s.time := rfl
@[simp] theorem State.setCist_free (x : Cistern) : (s.setCist n x).free = s.free := rfl
@[simp] theorem State.setCist_mem (x : Cistern) : (s.setCist n x).mem = s.mem := rfl
@[simp] theorem State.setCist_cw (x : Cistern) : (s.setCist n x).cw = s.cw := rfl
@[simp] theorem State.setCist_sram (x : Cistern) : (s.setCist n x).sram = s.sram := rfl
@[simp] theorem State.setCist_cores (x : Cistern) : (s.setCist n x).cores = s.cores := rfl
@[simp] theorem State.setCist_nCores (x : Cistern) : (s.setCist n x).nCores = s.nCores := rfl
@[simp] theorem State.setCist_clockFrom (x : Cistern) : (s.setCist n x).clockFrom = s.clockFrom := rfl
@[simp] theorem State.setCist_cisterns (x : Cistern) : (s.setCist n x).cisterns = Map.set {} s.cisterns n x := rfl
@[simp] theorem State.setCist_chans (x : Cistern) : (s.setCist n x).chans = s.chans := rfl
@[simp] theorem State.setCist_events (x : Cistern) : (s.setCist n x).events = s.events := rfl
@[simp] theorem State.setCist_rsvs (x : Cistern) : (s.setCist n x).rsvs = s.rsvs := rfl
@[simp] theorem State.setCist_memDone (x : Cistern) : (s.setCist n x).memDone = s.memDone := rfl
@[simp] theorem State.setCist_launches (x : Cistern) : (s.setCist n x).launches = s.launches := rfl
@[simp] theorem State.setCist_launchNo (x : Cistern) : (s.setCist n x).launchNo = s.launchNo := rfl
@[simp] theorem State.setCist_seqs (x : Cistern) : (s.setCist n x).seqs = s.seqs := rfl
@[simp] theorem State.setCist_pool (x : Cistern) : (s.setCist n x).pool = s.pool := rfl
@[simp] theorem State.setCist_passes (x : Cistern) : (s.setCist n x).passes = s.passes := rfl
@[simp] theorem State.setCist_att (x : Cistern) : (s.setCist n x).att = s.att := rfl
@[simp] theorem State.setCist_parts (x : Cistern) : (s.setCist n x).parts = s.parts := rfl
@[simp] theorem State.setCist_licPorts (x : Cistern) : (s.setCist n x).licPorts = s.licPorts := rfl
@[simp] theorem State.setCist_licCompute (x : Cistern) : (s.setCist n x).licCompute = s.licCompute := rfl
@[simp] theorem State.setCist_licMulti (x : Cistern) : (s.setCist n x).licMulti = s.licMulti := rfl
@[simp] theorem State.setCist_licLong (x : Cistern) : (s.setCist n x).licLong = s.licLong := rfl
@[simp] theorem State.setCist_licParts (x : Cistern) : (s.setCist n x).licParts = s.licParts := rfl
@[simp] theorem State.setCist_clp (x : Cistern) : (s.setCist n x).clp = s.clp := rfl
@[simp] theorem State.setCist_bundles (x : Cistern) : (s.setCist n x).bundles = s.bundles := rfl
@[simp] theorem State.setCist_brRows (x : Cistern) : (s.setCist n x).brRows = s.brRows := rfl
@[simp] theorem State.setCist_brWindow (x : Cistern) : (s.setCist n x).brWindow = s.brWindow := rfl
@[simp] theorem State.setCist_evacs (x : Cistern) : (s.setCist n x).evacs = s.evacs := rfl
@[simp] theorem State.setCist_heldOut (x : Cistern) : (s.setCist n x).heldOut = s.heldOut := rfl
@[simp] theorem State.setCist_profGen (x : Cistern) : (s.setCist n x).profGen = s.profGen := rfl
@[simp] theorem State.setCist_profMap (x : Cistern) : (s.setCist n x).profMap = s.profMap := rfl
@[simp] theorem State.setCist_params (x : Cistern) : (s.setCist n x).params = s.params := rfl
@[simp] theorem State.setCist_flags (x : Cistern) : (s.setCist n x).flags = s.flags := rfl
@[simp] theorem State.setCist_flagUpds (x : Cistern) : (s.setCist n x).flagUpds = s.flagUpds := rfl
@[simp] theorem State.setCist_clusterPart (x : Cistern) : (s.setCist n x).clusterPart = s.clusterPart := rfl
@[simp] theorem State.setCist_clusterRetired (x : Cistern) : (s.setCist n x).clusterRetired = s.clusterRetired := rfl
@[simp] theorem State.setCist_netFence (x : Cistern) : (s.setCist n x).netFence = s.netFence := rfl
@[simp] theorem State.setCist_partReset (x : Cistern) : (s.setCist n x).partReset = s.partReset := rfl
@[simp] theorem State.setCist_coreReset (x : Cistern) : (s.setCist n x).coreReset = s.coreReset := rfl
@[simp] theorem State.setCist_sluCap (x : Cistern) : (s.setCist n x).sluCap = s.sluCap := rfl
@[simp] theorem State.setCist_slu (x : Cistern) : (s.setCist n x).slu = s.slu := rfl
@[simp] theorem State.setCist_fwShares (x : Cistern) : (s.setCist n x).fwShares = s.fwShares := rfl
@[simp] theorem State.setCist_sluLat (x : Cistern) : (s.setCist n x).sluLat = s.sluLat := rfl
@[simp] theorem State.setCist_sluHeld (x : Cistern) : (s.setCist n x).sluHeld = s.sluHeld := rfl
@[simp] theorem State.setCist_brWait (x : Cistern) : (s.setCist n x).brWait = s.brWait := rfl
@[simp] theorem State.setCist_reqs (x : Cistern) : (s.setCist n x).reqs = s.reqs := rfl
@[simp] theorem State.setCist_reqNo (x : Cistern) : (s.setCist n x).reqNo = s.reqNo := rfl
@[simp] theorem State.setCist_arrNo (x : Cistern) : (s.setCist n x).arrNo = s.arrNo := rfl
@[simp] theorem State.setCist_ingress (x : Cistern) : (s.setCist n x).ingress = s.ingress := rfl
@[simp] theorem State.setCist_accs (x : Cistern) : (s.setCist n x).accs = s.accs := rfl
@[simp] theorem State.setCist_rsvPresent (x : Cistern) : (s.setCist n x).rsvPresent = s.rsvPresent := rfl
@[simp] theorem State.setCist_rsvActive (x : Cistern) : (s.setCist n x).rsvActive = s.rsvActive := rfl
@[simp] theorem State.setCist_chset (x : Cistern) : (s.setCist n x).chset = s.chset := rfl
@[simp] theorem State.setCist_pinInj (x : Cistern) : (s.setCist n x).pinInj = s.pinInj := rfl
@[simp] theorem State.setCist_repairs (x : Cistern) : (s.setCist n x).repairs = s.repairs := rfl
@[simp] theorem State.setCist_repDirty (x : Cistern) : (s.setCist n x).repDirty = s.repDirty := rfl
@[simp] theorem State.setCist_startNo (x : Cistern) : (s.setCist n x).startNo = s.startNo := rfl
@[simp] theorem State.setCist_weirs (x : Cistern) : (s.setCist n x).weirs = s.weirs := rfl
@[simp] theorem State.setCist_gate (x : Cistern) : (s.setCist n x).gate = s.gate := rfl
@[simp] theorem State.setCist_allSwallowed (x : Cistern) : (s.setCist n x).allSwallowed = s.allSwallowed := rfl
@[simp] theorem State.setCist_ports (x : Cistern) : (s.setCist n x).ports = s.ports := rfl
@[simp] theorem State.setCist_txs (x : Cistern) : (s.setCist n x).txs = s.txs := rfl
@[simp] theorem State.setCist_rxs (x : Cistern) : (s.setCist n x).rxs = s.rxs := rfl
@[simp] theorem State.setCist_epochs (x : Cistern) : (s.setCist n x).epochs = s.epochs := rfl
@[simp] theorem State.setCist_admNo (x : Cistern) : (s.setCist n x).admNo = s.admNo := rfl
@[simp] theorem State.setCist_linkOut (x : Cistern) : (s.setCist n x).linkOut = s.linkOut := rfl
@[simp] theorem State.setCist_host (x : Cistern) : (s.setCist n x).host = s.host := rfl
@[simp] theorem State.setCist_hostOut (x : Cistern) : (s.setCist n x).hostOut = s.hostOut := rfl
@[simp] theorem State.setCist_pci (x : Cistern) : (s.setCist n x).pci = s.pci := rfl
@[simp] theorem State.setCist_wh (x : Cistern) : (s.setCist n x).wh = s.wh := rfl
@[simp] theorem State.setCist_fuses (x : Cistern) : (s.setCist n x).fuses = s.fuses := rfl
@[simp] theorem State.setCist_flash (x : Cistern) : (s.setCist n x).flash = s.flash := rfl
@[simp] theorem State.setCist_scrubs (x : Cistern) : (s.setCist n x).scrubs = s.scrubs := rfl
@[simp] theorem State.setCist_pins (x : Cistern) : (s.setCist n x).pins = s.pins := rfl
@[simp] theorem State.setCist_bup (x : Cistern) : (s.setCist n x).bup = s.bup := rfl
@[simp] theorem State.setCist_partials (x : Cistern) : (s.setCist n x).partials = s.partials := rfl
@[simp] theorem State.setCist_thm (x : Cistern) : (s.setCist n x).thm = s.thm := rfl
@[simp] theorem State.setCist_tapReset (x : Cistern) : (s.setCist n x).tapReset = s.tapReset := rfl

/-! ### State.setChan -/

@[simp] theorem State.setChan_pending (x : Chan) : (s.setChan k c x).pending = s.pending := rfl
@[simp] theorem State.setChan_time (x : Chan) : (s.setChan k c x).time = s.time := rfl
@[simp] theorem State.setChan_free (x : Chan) : (s.setChan k c x).free = s.free := rfl
@[simp] theorem State.setChan_mem (x : Chan) : (s.setChan k c x).mem = s.mem := rfl
@[simp] theorem State.setChan_cw (x : Chan) : (s.setChan k c x).cw = s.cw := rfl
@[simp] theorem State.setChan_sram (x : Chan) : (s.setChan k c x).sram = s.sram := rfl
@[simp] theorem State.setChan_cores (x : Chan) : (s.setChan k c x).cores = s.cores := rfl
@[simp] theorem State.setChan_nCores (x : Chan) : (s.setChan k c x).nCores = s.nCores := rfl
@[simp] theorem State.setChan_clockFrom (x : Chan) : (s.setChan k c x).clockFrom = s.clockFrom := rfl
@[simp] theorem State.setChan_cisterns (x : Chan) : (s.setChan k c x).cisterns = s.cisterns := rfl
@[simp] theorem State.setChan_chans (x : Chan) : (s.setChan k c x).chans = Map.set {} s.chans (32 * k + c) x := rfl
@[simp] theorem State.setChan_events (x : Chan) : (s.setChan k c x).events = s.events := rfl
@[simp] theorem State.setChan_rsvs (x : Chan) : (s.setChan k c x).rsvs = s.rsvs := rfl
@[simp] theorem State.setChan_memDone (x : Chan) : (s.setChan k c x).memDone = s.memDone := rfl
@[simp] theorem State.setChan_launches (x : Chan) : (s.setChan k c x).launches = s.launches := rfl
@[simp] theorem State.setChan_launchNo (x : Chan) : (s.setChan k c x).launchNo = s.launchNo := rfl
@[simp] theorem State.setChan_seqs (x : Chan) : (s.setChan k c x).seqs = s.seqs := rfl
@[simp] theorem State.setChan_pool (x : Chan) : (s.setChan k c x).pool = s.pool := rfl
@[simp] theorem State.setChan_passes (x : Chan) : (s.setChan k c x).passes = s.passes := rfl
@[simp] theorem State.setChan_att (x : Chan) : (s.setChan k c x).att = s.att := rfl
@[simp] theorem State.setChan_parts (x : Chan) : (s.setChan k c x).parts = s.parts := rfl
@[simp] theorem State.setChan_licPorts (x : Chan) : (s.setChan k c x).licPorts = s.licPorts := rfl
@[simp] theorem State.setChan_licCompute (x : Chan) : (s.setChan k c x).licCompute = s.licCompute := rfl
@[simp] theorem State.setChan_licMulti (x : Chan) : (s.setChan k c x).licMulti = s.licMulti := rfl
@[simp] theorem State.setChan_licLong (x : Chan) : (s.setChan k c x).licLong = s.licLong := rfl
@[simp] theorem State.setChan_licParts (x : Chan) : (s.setChan k c x).licParts = s.licParts := rfl
@[simp] theorem State.setChan_clp (x : Chan) : (s.setChan k c x).clp = s.clp := rfl
@[simp] theorem State.setChan_bundles (x : Chan) : (s.setChan k c x).bundles = s.bundles := rfl
@[simp] theorem State.setChan_brRows (x : Chan) : (s.setChan k c x).brRows = s.brRows := rfl
@[simp] theorem State.setChan_brWindow (x : Chan) : (s.setChan k c x).brWindow = s.brWindow := rfl
@[simp] theorem State.setChan_evacs (x : Chan) : (s.setChan k c x).evacs = s.evacs := rfl
@[simp] theorem State.setChan_heldOut (x : Chan) : (s.setChan k c x).heldOut = s.heldOut := rfl
@[simp] theorem State.setChan_profGen (x : Chan) : (s.setChan k c x).profGen = s.profGen := rfl
@[simp] theorem State.setChan_profMap (x : Chan) : (s.setChan k c x).profMap = s.profMap := rfl
@[simp] theorem State.setChan_params (x : Chan) : (s.setChan k c x).params = s.params := rfl
@[simp] theorem State.setChan_flags (x : Chan) : (s.setChan k c x).flags = s.flags := rfl
@[simp] theorem State.setChan_flagUpds (x : Chan) : (s.setChan k c x).flagUpds = s.flagUpds := rfl
@[simp] theorem State.setChan_clusterPart (x : Chan) : (s.setChan k c x).clusterPart = s.clusterPart := rfl
@[simp] theorem State.setChan_clusterRetired (x : Chan) : (s.setChan k c x).clusterRetired = s.clusterRetired := rfl
@[simp] theorem State.setChan_netFence (x : Chan) : (s.setChan k c x).netFence = s.netFence := rfl
@[simp] theorem State.setChan_partReset (x : Chan) : (s.setChan k c x).partReset = s.partReset := rfl
@[simp] theorem State.setChan_coreReset (x : Chan) : (s.setChan k c x).coreReset = s.coreReset := rfl
@[simp] theorem State.setChan_sluCap (x : Chan) : (s.setChan k c x).sluCap = s.sluCap := rfl
@[simp] theorem State.setChan_slu (x : Chan) : (s.setChan k c x).slu = s.slu := rfl
@[simp] theorem State.setChan_fwShares (x : Chan) : (s.setChan k c x).fwShares = s.fwShares := rfl
@[simp] theorem State.setChan_sluLat (x : Chan) : (s.setChan k c x).sluLat = s.sluLat := rfl
@[simp] theorem State.setChan_sluHeld (x : Chan) : (s.setChan k c x).sluHeld = s.sluHeld := rfl
@[simp] theorem State.setChan_brWait (x : Chan) : (s.setChan k c x).brWait = s.brWait := rfl
@[simp] theorem State.setChan_reqs (x : Chan) : (s.setChan k c x).reqs = s.reqs := rfl
@[simp] theorem State.setChan_reqNo (x : Chan) : (s.setChan k c x).reqNo = s.reqNo := rfl
@[simp] theorem State.setChan_arrNo (x : Chan) : (s.setChan k c x).arrNo = s.arrNo := rfl
@[simp] theorem State.setChan_ingress (x : Chan) : (s.setChan k c x).ingress = s.ingress := rfl
@[simp] theorem State.setChan_accs (x : Chan) : (s.setChan k c x).accs = s.accs := rfl
@[simp] theorem State.setChan_rsvPresent (x : Chan) : (s.setChan k c x).rsvPresent = s.rsvPresent := rfl
@[simp] theorem State.setChan_rsvActive (x : Chan) : (s.setChan k c x).rsvActive = s.rsvActive := rfl
@[simp] theorem State.setChan_chset (x : Chan) : (s.setChan k c x).chset = s.chset := rfl
@[simp] theorem State.setChan_pinInj (x : Chan) : (s.setChan k c x).pinInj = s.pinInj := rfl
@[simp] theorem State.setChan_repairs (x : Chan) : (s.setChan k c x).repairs = s.repairs := rfl
@[simp] theorem State.setChan_repDirty (x : Chan) : (s.setChan k c x).repDirty = s.repDirty := rfl
@[simp] theorem State.setChan_startNo (x : Chan) : (s.setChan k c x).startNo = s.startNo := rfl
@[simp] theorem State.setChan_weirs (x : Chan) : (s.setChan k c x).weirs = s.weirs := rfl
@[simp] theorem State.setChan_gate (x : Chan) : (s.setChan k c x).gate = s.gate := rfl
@[simp] theorem State.setChan_allSwallowed (x : Chan) : (s.setChan k c x).allSwallowed = s.allSwallowed := rfl
@[simp] theorem State.setChan_ports (x : Chan) : (s.setChan k c x).ports = s.ports := rfl
@[simp] theorem State.setChan_txs (x : Chan) : (s.setChan k c x).txs = s.txs := rfl
@[simp] theorem State.setChan_rxs (x : Chan) : (s.setChan k c x).rxs = s.rxs := rfl
@[simp] theorem State.setChan_epochs (x : Chan) : (s.setChan k c x).epochs = s.epochs := rfl
@[simp] theorem State.setChan_admNo (x : Chan) : (s.setChan k c x).admNo = s.admNo := rfl
@[simp] theorem State.setChan_linkOut (x : Chan) : (s.setChan k c x).linkOut = s.linkOut := rfl
@[simp] theorem State.setChan_host (x : Chan) : (s.setChan k c x).host = s.host := rfl
@[simp] theorem State.setChan_hostOut (x : Chan) : (s.setChan k c x).hostOut = s.hostOut := rfl
@[simp] theorem State.setChan_pci (x : Chan) : (s.setChan k c x).pci = s.pci := rfl
@[simp] theorem State.setChan_wh (x : Chan) : (s.setChan k c x).wh = s.wh := rfl
@[simp] theorem State.setChan_fuses (x : Chan) : (s.setChan k c x).fuses = s.fuses := rfl
@[simp] theorem State.setChan_flash (x : Chan) : (s.setChan k c x).flash = s.flash := rfl
@[simp] theorem State.setChan_scrubs (x : Chan) : (s.setChan k c x).scrubs = s.scrubs := rfl
@[simp] theorem State.setChan_pins (x : Chan) : (s.setChan k c x).pins = s.pins := rfl
@[simp] theorem State.setChan_bup (x : Chan) : (s.setChan k c x).bup = s.bup := rfl
@[simp] theorem State.setChan_partials (x : Chan) : (s.setChan k c x).partials = s.partials := rfl
@[simp] theorem State.setChan_thm (x : Chan) : (s.setChan k c x).thm = s.thm := rfl
@[simp] theorem State.setChan_tapReset (x : Chan) : (s.setChan k c x).tapReset = s.tapReset := rfl

/-! ### State.setRsv -/

@[simp] theorem State.setRsv_pending (x : Rsv) : (s.setRsv k x).pending = s.pending := rfl
@[simp] theorem State.setRsv_time (x : Rsv) : (s.setRsv k x).time = s.time := rfl
@[simp] theorem State.setRsv_free (x : Rsv) : (s.setRsv k x).free = s.free := rfl
@[simp] theorem State.setRsv_mem (x : Rsv) : (s.setRsv k x).mem = s.mem := rfl
@[simp] theorem State.setRsv_cw (x : Rsv) : (s.setRsv k x).cw = s.cw := rfl
@[simp] theorem State.setRsv_sram (x : Rsv) : (s.setRsv k x).sram = s.sram := rfl
@[simp] theorem State.setRsv_cores (x : Rsv) : (s.setRsv k x).cores = s.cores := rfl
@[simp] theorem State.setRsv_nCores (x : Rsv) : (s.setRsv k x).nCores = s.nCores := rfl
@[simp] theorem State.setRsv_clockFrom (x : Rsv) : (s.setRsv k x).clockFrom = s.clockFrom := rfl
@[simp] theorem State.setRsv_cisterns (x : Rsv) : (s.setRsv k x).cisterns = s.cisterns := rfl
@[simp] theorem State.setRsv_chans (x : Rsv) : (s.setRsv k x).chans = s.chans := rfl
@[simp] theorem State.setRsv_events (x : Rsv) : (s.setRsv k x).events = s.events := rfl
@[simp] theorem State.setRsv_rsvs (x : Rsv) : (s.setRsv k x).rsvs = Map.set {} s.rsvs k x := rfl
@[simp] theorem State.setRsv_memDone (x : Rsv) : (s.setRsv k x).memDone = s.memDone := rfl
@[simp] theorem State.setRsv_launches (x : Rsv) : (s.setRsv k x).launches = s.launches := rfl
@[simp] theorem State.setRsv_launchNo (x : Rsv) : (s.setRsv k x).launchNo = s.launchNo := rfl
@[simp] theorem State.setRsv_seqs (x : Rsv) : (s.setRsv k x).seqs = s.seqs := rfl
@[simp] theorem State.setRsv_pool (x : Rsv) : (s.setRsv k x).pool = s.pool := rfl
@[simp] theorem State.setRsv_passes (x : Rsv) : (s.setRsv k x).passes = s.passes := rfl
@[simp] theorem State.setRsv_att (x : Rsv) : (s.setRsv k x).att = s.att := rfl
@[simp] theorem State.setRsv_parts (x : Rsv) : (s.setRsv k x).parts = s.parts := rfl
@[simp] theorem State.setRsv_licPorts (x : Rsv) : (s.setRsv k x).licPorts = s.licPorts := rfl
@[simp] theorem State.setRsv_licCompute (x : Rsv) : (s.setRsv k x).licCompute = s.licCompute := rfl
@[simp] theorem State.setRsv_licMulti (x : Rsv) : (s.setRsv k x).licMulti = s.licMulti := rfl
@[simp] theorem State.setRsv_licLong (x : Rsv) : (s.setRsv k x).licLong = s.licLong := rfl
@[simp] theorem State.setRsv_licParts (x : Rsv) : (s.setRsv k x).licParts = s.licParts := rfl
@[simp] theorem State.setRsv_clp (x : Rsv) : (s.setRsv k x).clp = s.clp := rfl
@[simp] theorem State.setRsv_bundles (x : Rsv) : (s.setRsv k x).bundles = s.bundles := rfl
@[simp] theorem State.setRsv_brRows (x : Rsv) : (s.setRsv k x).brRows = s.brRows := rfl
@[simp] theorem State.setRsv_brWindow (x : Rsv) : (s.setRsv k x).brWindow = s.brWindow := rfl
@[simp] theorem State.setRsv_evacs (x : Rsv) : (s.setRsv k x).evacs = s.evacs := rfl
@[simp] theorem State.setRsv_heldOut (x : Rsv) : (s.setRsv k x).heldOut = s.heldOut := rfl
@[simp] theorem State.setRsv_profGen (x : Rsv) : (s.setRsv k x).profGen = s.profGen := rfl
@[simp] theorem State.setRsv_profMap (x : Rsv) : (s.setRsv k x).profMap = s.profMap := rfl
@[simp] theorem State.setRsv_params (x : Rsv) : (s.setRsv k x).params = s.params := rfl
@[simp] theorem State.setRsv_flags (x : Rsv) : (s.setRsv k x).flags = s.flags := rfl
@[simp] theorem State.setRsv_flagUpds (x : Rsv) : (s.setRsv k x).flagUpds = s.flagUpds := rfl
@[simp] theorem State.setRsv_clusterPart (x : Rsv) : (s.setRsv k x).clusterPart = s.clusterPart := rfl
@[simp] theorem State.setRsv_clusterRetired (x : Rsv) : (s.setRsv k x).clusterRetired = s.clusterRetired := rfl
@[simp] theorem State.setRsv_netFence (x : Rsv) : (s.setRsv k x).netFence = s.netFence := rfl
@[simp] theorem State.setRsv_partReset (x : Rsv) : (s.setRsv k x).partReset = s.partReset := rfl
@[simp] theorem State.setRsv_coreReset (x : Rsv) : (s.setRsv k x).coreReset = s.coreReset := rfl
@[simp] theorem State.setRsv_sluCap (x : Rsv) : (s.setRsv k x).sluCap = s.sluCap := rfl
@[simp] theorem State.setRsv_slu (x : Rsv) : (s.setRsv k x).slu = s.slu := rfl
@[simp] theorem State.setRsv_fwShares (x : Rsv) : (s.setRsv k x).fwShares = s.fwShares := rfl
@[simp] theorem State.setRsv_sluLat (x : Rsv) : (s.setRsv k x).sluLat = s.sluLat := rfl
@[simp] theorem State.setRsv_sluHeld (x : Rsv) : (s.setRsv k x).sluHeld = s.sluHeld := rfl
@[simp] theorem State.setRsv_brWait (x : Rsv) : (s.setRsv k x).brWait = s.brWait := rfl
@[simp] theorem State.setRsv_reqs (x : Rsv) : (s.setRsv k x).reqs = s.reqs := rfl
@[simp] theorem State.setRsv_reqNo (x : Rsv) : (s.setRsv k x).reqNo = s.reqNo := rfl
@[simp] theorem State.setRsv_arrNo (x : Rsv) : (s.setRsv k x).arrNo = s.arrNo := rfl
@[simp] theorem State.setRsv_ingress (x : Rsv) : (s.setRsv k x).ingress = s.ingress := rfl
@[simp] theorem State.setRsv_accs (x : Rsv) : (s.setRsv k x).accs = s.accs := rfl
@[simp] theorem State.setRsv_rsvPresent (x : Rsv) : (s.setRsv k x).rsvPresent = s.rsvPresent := rfl
@[simp] theorem State.setRsv_rsvActive (x : Rsv) : (s.setRsv k x).rsvActive = s.rsvActive := rfl
@[simp] theorem State.setRsv_chset (x : Rsv) : (s.setRsv k x).chset = s.chset := rfl
@[simp] theorem State.setRsv_pinInj (x : Rsv) : (s.setRsv k x).pinInj = s.pinInj := rfl
@[simp] theorem State.setRsv_repairs (x : Rsv) : (s.setRsv k x).repairs = s.repairs := rfl
@[simp] theorem State.setRsv_repDirty (x : Rsv) : (s.setRsv k x).repDirty = s.repDirty := rfl
@[simp] theorem State.setRsv_startNo (x : Rsv) : (s.setRsv k x).startNo = s.startNo := rfl
@[simp] theorem State.setRsv_weirs (x : Rsv) : (s.setRsv k x).weirs = s.weirs := rfl
@[simp] theorem State.setRsv_gate (x : Rsv) : (s.setRsv k x).gate = s.gate := rfl
@[simp] theorem State.setRsv_allSwallowed (x : Rsv) : (s.setRsv k x).allSwallowed = s.allSwallowed := rfl
@[simp] theorem State.setRsv_ports (x : Rsv) : (s.setRsv k x).ports = s.ports := rfl
@[simp] theorem State.setRsv_txs (x : Rsv) : (s.setRsv k x).txs = s.txs := rfl
@[simp] theorem State.setRsv_rxs (x : Rsv) : (s.setRsv k x).rxs = s.rxs := rfl
@[simp] theorem State.setRsv_epochs (x : Rsv) : (s.setRsv k x).epochs = s.epochs := rfl
@[simp] theorem State.setRsv_admNo (x : Rsv) : (s.setRsv k x).admNo = s.admNo := rfl
@[simp] theorem State.setRsv_linkOut (x : Rsv) : (s.setRsv k x).linkOut = s.linkOut := rfl
@[simp] theorem State.setRsv_host (x : Rsv) : (s.setRsv k x).host = s.host := rfl
@[simp] theorem State.setRsv_hostOut (x : Rsv) : (s.setRsv k x).hostOut = s.hostOut := rfl
@[simp] theorem State.setRsv_pci (x : Rsv) : (s.setRsv k x).pci = s.pci := rfl
@[simp] theorem State.setRsv_wh (x : Rsv) : (s.setRsv k x).wh = s.wh := rfl
@[simp] theorem State.setRsv_fuses (x : Rsv) : (s.setRsv k x).fuses = s.fuses := rfl
@[simp] theorem State.setRsv_flash (x : Rsv) : (s.setRsv k x).flash = s.flash := rfl
@[simp] theorem State.setRsv_scrubs (x : Rsv) : (s.setRsv k x).scrubs = s.scrubs := rfl
@[simp] theorem State.setRsv_pins (x : Rsv) : (s.setRsv k x).pins = s.pins := rfl
@[simp] theorem State.setRsv_bup (x : Rsv) : (s.setRsv k x).bup = s.bup := rfl
@[simp] theorem State.setRsv_partials (x : Rsv) : (s.setRsv k x).partials = s.partials := rfl
@[simp] theorem State.setRsv_thm (x : Rsv) : (s.setRsv k x).thm = s.thm := rfl
@[simp] theorem State.setRsv_tapReset (x : Rsv) : (s.setRsv k x).tapReset = s.tapReset := rfl

/-! ### State.setPort -/

@[simp] theorem State.setPort_pending (x : Port) : (s.setPort n x).pending = s.pending := rfl
@[simp] theorem State.setPort_time (x : Port) : (s.setPort n x).time = s.time := rfl
@[simp] theorem State.setPort_free (x : Port) : (s.setPort n x).free = s.free := rfl
@[simp] theorem State.setPort_mem (x : Port) : (s.setPort n x).mem = s.mem := rfl
@[simp] theorem State.setPort_cw (x : Port) : (s.setPort n x).cw = s.cw := rfl
@[simp] theorem State.setPort_sram (x : Port) : (s.setPort n x).sram = s.sram := rfl
@[simp] theorem State.setPort_cores (x : Port) : (s.setPort n x).cores = s.cores := rfl
@[simp] theorem State.setPort_nCores (x : Port) : (s.setPort n x).nCores = s.nCores := rfl
@[simp] theorem State.setPort_clockFrom (x : Port) : (s.setPort n x).clockFrom = s.clockFrom := rfl
@[simp] theorem State.setPort_cisterns (x : Port) : (s.setPort n x).cisterns = s.cisterns := rfl
@[simp] theorem State.setPort_chans (x : Port) : (s.setPort n x).chans = s.chans := rfl
@[simp] theorem State.setPort_events (x : Port) : (s.setPort n x).events = s.events := rfl
@[simp] theorem State.setPort_rsvs (x : Port) : (s.setPort n x).rsvs = s.rsvs := rfl
@[simp] theorem State.setPort_memDone (x : Port) : (s.setPort n x).memDone = s.memDone := rfl
@[simp] theorem State.setPort_launches (x : Port) : (s.setPort n x).launches = s.launches := rfl
@[simp] theorem State.setPort_launchNo (x : Port) : (s.setPort n x).launchNo = s.launchNo := rfl
@[simp] theorem State.setPort_seqs (x : Port) : (s.setPort n x).seqs = s.seqs := rfl
@[simp] theorem State.setPort_pool (x : Port) : (s.setPort n x).pool = s.pool := rfl
@[simp] theorem State.setPort_passes (x : Port) : (s.setPort n x).passes = s.passes := rfl
@[simp] theorem State.setPort_att (x : Port) : (s.setPort n x).att = s.att := rfl
@[simp] theorem State.setPort_parts (x : Port) : (s.setPort n x).parts = s.parts := rfl
@[simp] theorem State.setPort_licPorts (x : Port) : (s.setPort n x).licPorts = s.licPorts := rfl
@[simp] theorem State.setPort_licCompute (x : Port) : (s.setPort n x).licCompute = s.licCompute := rfl
@[simp] theorem State.setPort_licMulti (x : Port) : (s.setPort n x).licMulti = s.licMulti := rfl
@[simp] theorem State.setPort_licLong (x : Port) : (s.setPort n x).licLong = s.licLong := rfl
@[simp] theorem State.setPort_licParts (x : Port) : (s.setPort n x).licParts = s.licParts := rfl
@[simp] theorem State.setPort_clp (x : Port) : (s.setPort n x).clp = s.clp := rfl
@[simp] theorem State.setPort_bundles (x : Port) : (s.setPort n x).bundles = s.bundles := rfl
@[simp] theorem State.setPort_brRows (x : Port) : (s.setPort n x).brRows = s.brRows := rfl
@[simp] theorem State.setPort_brWindow (x : Port) : (s.setPort n x).brWindow = s.brWindow := rfl
@[simp] theorem State.setPort_evacs (x : Port) : (s.setPort n x).evacs = s.evacs := rfl
@[simp] theorem State.setPort_heldOut (x : Port) : (s.setPort n x).heldOut = s.heldOut := rfl
@[simp] theorem State.setPort_profGen (x : Port) : (s.setPort n x).profGen = s.profGen := rfl
@[simp] theorem State.setPort_profMap (x : Port) : (s.setPort n x).profMap = s.profMap := rfl
@[simp] theorem State.setPort_params (x : Port) : (s.setPort n x).params = s.params := rfl
@[simp] theorem State.setPort_flags (x : Port) : (s.setPort n x).flags = s.flags := rfl
@[simp] theorem State.setPort_flagUpds (x : Port) : (s.setPort n x).flagUpds = s.flagUpds := rfl
@[simp] theorem State.setPort_clusterPart (x : Port) : (s.setPort n x).clusterPart = s.clusterPart := rfl
@[simp] theorem State.setPort_clusterRetired (x : Port) : (s.setPort n x).clusterRetired = s.clusterRetired := rfl
@[simp] theorem State.setPort_netFence (x : Port) : (s.setPort n x).netFence = s.netFence := rfl
@[simp] theorem State.setPort_partReset (x : Port) : (s.setPort n x).partReset = s.partReset := rfl
@[simp] theorem State.setPort_coreReset (x : Port) : (s.setPort n x).coreReset = s.coreReset := rfl
@[simp] theorem State.setPort_sluCap (x : Port) : (s.setPort n x).sluCap = s.sluCap := rfl
@[simp] theorem State.setPort_slu (x : Port) : (s.setPort n x).slu = s.slu := rfl
@[simp] theorem State.setPort_fwShares (x : Port) : (s.setPort n x).fwShares = s.fwShares := rfl
@[simp] theorem State.setPort_sluLat (x : Port) : (s.setPort n x).sluLat = s.sluLat := rfl
@[simp] theorem State.setPort_sluHeld (x : Port) : (s.setPort n x).sluHeld = s.sluHeld := rfl
@[simp] theorem State.setPort_brWait (x : Port) : (s.setPort n x).brWait = s.brWait := rfl
@[simp] theorem State.setPort_reqs (x : Port) : (s.setPort n x).reqs = s.reqs := rfl
@[simp] theorem State.setPort_reqNo (x : Port) : (s.setPort n x).reqNo = s.reqNo := rfl
@[simp] theorem State.setPort_arrNo (x : Port) : (s.setPort n x).arrNo = s.arrNo := rfl
@[simp] theorem State.setPort_ingress (x : Port) : (s.setPort n x).ingress = s.ingress := rfl
@[simp] theorem State.setPort_accs (x : Port) : (s.setPort n x).accs = s.accs := rfl
@[simp] theorem State.setPort_rsvPresent (x : Port) : (s.setPort n x).rsvPresent = s.rsvPresent := rfl
@[simp] theorem State.setPort_rsvActive (x : Port) : (s.setPort n x).rsvActive = s.rsvActive := rfl
@[simp] theorem State.setPort_chset (x : Port) : (s.setPort n x).chset = s.chset := rfl
@[simp] theorem State.setPort_pinInj (x : Port) : (s.setPort n x).pinInj = s.pinInj := rfl
@[simp] theorem State.setPort_repairs (x : Port) : (s.setPort n x).repairs = s.repairs := rfl
@[simp] theorem State.setPort_repDirty (x : Port) : (s.setPort n x).repDirty = s.repDirty := rfl
@[simp] theorem State.setPort_startNo (x : Port) : (s.setPort n x).startNo = s.startNo := rfl
@[simp] theorem State.setPort_weirs (x : Port) : (s.setPort n x).weirs = s.weirs := rfl
@[simp] theorem State.setPort_gate (x : Port) : (s.setPort n x).gate = s.gate := rfl
@[simp] theorem State.setPort_allSwallowed (x : Port) : (s.setPort n x).allSwallowed = s.allSwallowed := rfl
@[simp] theorem State.setPort_ports (x : Port) : (s.setPort n x).ports = Map.set {} s.ports n x := rfl
@[simp] theorem State.setPort_txs (x : Port) : (s.setPort n x).txs = s.txs := rfl
@[simp] theorem State.setPort_rxs (x : Port) : (s.setPort n x).rxs = s.rxs := rfl
@[simp] theorem State.setPort_epochs (x : Port) : (s.setPort n x).epochs = s.epochs := rfl
@[simp] theorem State.setPort_admNo (x : Port) : (s.setPort n x).admNo = s.admNo := rfl
@[simp] theorem State.setPort_linkOut (x : Port) : (s.setPort n x).linkOut = s.linkOut := rfl
@[simp] theorem State.setPort_host (x : Port) : (s.setPort n x).host = s.host := rfl
@[simp] theorem State.setPort_hostOut (x : Port) : (s.setPort n x).hostOut = s.hostOut := rfl
@[simp] theorem State.setPort_pci (x : Port) : (s.setPort n x).pci = s.pci := rfl
@[simp] theorem State.setPort_wh (x : Port) : (s.setPort n x).wh = s.wh := rfl
@[simp] theorem State.setPort_fuses (x : Port) : (s.setPort n x).fuses = s.fuses := rfl
@[simp] theorem State.setPort_flash (x : Port) : (s.setPort n x).flash = s.flash := rfl
@[simp] theorem State.setPort_scrubs (x : Port) : (s.setPort n x).scrubs = s.scrubs := rfl
@[simp] theorem State.setPort_pins (x : Port) : (s.setPort n x).pins = s.pins := rfl
@[simp] theorem State.setPort_bup (x : Port) : (s.setPort n x).bup = s.bup := rfl
@[simp] theorem State.setPort_partials (x : Port) : (s.setPort n x).partials = s.partials := rfl
@[simp] theorem State.setPort_thm (x : Port) : (s.setPort n x).thm = s.thm := rfl
@[simp] theorem State.setPort_tapReset (x : Port) : (s.setPort n x).tapReset = s.tapReset := rfl

/-! ### State.setRaw -/

@[simp] theorem State.setRaw_pending (bs : List Byte) : (s.setRaw k bs).pending = s.pending := rfl
@[simp] theorem State.setRaw_time (bs : List Byte) : (s.setRaw k bs).time = s.time := rfl
@[simp] theorem State.setRaw_free (bs : List Byte) : (s.setRaw k bs).free = s.free := rfl
@[simp] theorem State.setRaw_mem (bs : List Byte) : (s.setRaw k bs).mem = Map.setRange 0 s.mem k bs := rfl
@[simp] theorem State.setRaw_cw (bs : List Byte) : (s.setRaw k bs).cw = s.cw := rfl
@[simp] theorem State.setRaw_sram (bs : List Byte) : (s.setRaw k bs).sram = s.sram := rfl
@[simp] theorem State.setRaw_cores (bs : List Byte) : (s.setRaw k bs).cores = s.cores := rfl
@[simp] theorem State.setRaw_nCores (bs : List Byte) : (s.setRaw k bs).nCores = s.nCores := rfl
@[simp] theorem State.setRaw_clockFrom (bs : List Byte) : (s.setRaw k bs).clockFrom = s.clockFrom := rfl
@[simp] theorem State.setRaw_cisterns (bs : List Byte) : (s.setRaw k bs).cisterns = s.cisterns := rfl
@[simp] theorem State.setRaw_chans (bs : List Byte) : (s.setRaw k bs).chans = s.chans := rfl
@[simp] theorem State.setRaw_events (bs : List Byte) : (s.setRaw k bs).events = s.events := rfl
@[simp] theorem State.setRaw_rsvs (bs : List Byte) : (s.setRaw k bs).rsvs = s.rsvs := rfl
@[simp] theorem State.setRaw_memDone (bs : List Byte) : (s.setRaw k bs).memDone = s.memDone := rfl
@[simp] theorem State.setRaw_launches (bs : List Byte) : (s.setRaw k bs).launches = s.launches := rfl
@[simp] theorem State.setRaw_launchNo (bs : List Byte) : (s.setRaw k bs).launchNo = s.launchNo := rfl
@[simp] theorem State.setRaw_seqs (bs : List Byte) : (s.setRaw k bs).seqs = s.seqs := rfl
@[simp] theorem State.setRaw_pool (bs : List Byte) : (s.setRaw k bs).pool = s.pool := rfl
@[simp] theorem State.setRaw_passes (bs : List Byte) : (s.setRaw k bs).passes = s.passes := rfl
@[simp] theorem State.setRaw_att (bs : List Byte) : (s.setRaw k bs).att = s.att := rfl
@[simp] theorem State.setRaw_parts (bs : List Byte) : (s.setRaw k bs).parts = s.parts := rfl
@[simp] theorem State.setRaw_licPorts (bs : List Byte) : (s.setRaw k bs).licPorts = s.licPorts := rfl
@[simp] theorem State.setRaw_licCompute (bs : List Byte) : (s.setRaw k bs).licCompute = s.licCompute := rfl
@[simp] theorem State.setRaw_licMulti (bs : List Byte) : (s.setRaw k bs).licMulti = s.licMulti := rfl
@[simp] theorem State.setRaw_licLong (bs : List Byte) : (s.setRaw k bs).licLong = s.licLong := rfl
@[simp] theorem State.setRaw_licParts (bs : List Byte) : (s.setRaw k bs).licParts = s.licParts := rfl
@[simp] theorem State.setRaw_clp (bs : List Byte) : (s.setRaw k bs).clp = s.clp := rfl
@[simp] theorem State.setRaw_bundles (bs : List Byte) : (s.setRaw k bs).bundles = s.bundles := rfl
@[simp] theorem State.setRaw_brRows (bs : List Byte) : (s.setRaw k bs).brRows = s.brRows := rfl
@[simp] theorem State.setRaw_brWindow (bs : List Byte) : (s.setRaw k bs).brWindow = s.brWindow := rfl
@[simp] theorem State.setRaw_evacs (bs : List Byte) : (s.setRaw k bs).evacs = s.evacs := rfl
@[simp] theorem State.setRaw_heldOut (bs : List Byte) : (s.setRaw k bs).heldOut = s.heldOut := rfl
@[simp] theorem State.setRaw_profGen (bs : List Byte) : (s.setRaw k bs).profGen = s.profGen := rfl
@[simp] theorem State.setRaw_profMap (bs : List Byte) : (s.setRaw k bs).profMap = s.profMap := rfl
@[simp] theorem State.setRaw_params (bs : List Byte) : (s.setRaw k bs).params = s.params := rfl
@[simp] theorem State.setRaw_flags (bs : List Byte) : (s.setRaw k bs).flags = s.flags := rfl
@[simp] theorem State.setRaw_flagUpds (bs : List Byte) : (s.setRaw k bs).flagUpds = s.flagUpds := rfl
@[simp] theorem State.setRaw_clusterPart (bs : List Byte) : (s.setRaw k bs).clusterPart = s.clusterPart := rfl
@[simp] theorem State.setRaw_clusterRetired (bs : List Byte) : (s.setRaw k bs).clusterRetired = s.clusterRetired := rfl
@[simp] theorem State.setRaw_netFence (bs : List Byte) : (s.setRaw k bs).netFence = s.netFence := rfl
@[simp] theorem State.setRaw_partReset (bs : List Byte) : (s.setRaw k bs).partReset = s.partReset := rfl
@[simp] theorem State.setRaw_coreReset (bs : List Byte) : (s.setRaw k bs).coreReset = s.coreReset := rfl
@[simp] theorem State.setRaw_sluCap (bs : List Byte) : (s.setRaw k bs).sluCap = s.sluCap := rfl
@[simp] theorem State.setRaw_slu (bs : List Byte) : (s.setRaw k bs).slu = s.slu := rfl
@[simp] theorem State.setRaw_fwShares (bs : List Byte) : (s.setRaw k bs).fwShares = s.fwShares := rfl
@[simp] theorem State.setRaw_sluLat (bs : List Byte) : (s.setRaw k bs).sluLat = s.sluLat := rfl
@[simp] theorem State.setRaw_sluHeld (bs : List Byte) : (s.setRaw k bs).sluHeld = s.sluHeld := rfl
@[simp] theorem State.setRaw_brWait (bs : List Byte) : (s.setRaw k bs).brWait = s.brWait := rfl
@[simp] theorem State.setRaw_reqs (bs : List Byte) : (s.setRaw k bs).reqs = s.reqs := rfl
@[simp] theorem State.setRaw_reqNo (bs : List Byte) : (s.setRaw k bs).reqNo = s.reqNo := rfl
@[simp] theorem State.setRaw_arrNo (bs : List Byte) : (s.setRaw k bs).arrNo = s.arrNo := rfl
@[simp] theorem State.setRaw_ingress (bs : List Byte) : (s.setRaw k bs).ingress = s.ingress := rfl
@[simp] theorem State.setRaw_accs (bs : List Byte) : (s.setRaw k bs).accs = s.accs := rfl
@[simp] theorem State.setRaw_rsvPresent (bs : List Byte) : (s.setRaw k bs).rsvPresent = s.rsvPresent := rfl
@[simp] theorem State.setRaw_rsvActive (bs : List Byte) : (s.setRaw k bs).rsvActive = s.rsvActive := rfl
@[simp] theorem State.setRaw_chset (bs : List Byte) : (s.setRaw k bs).chset = s.chset := rfl
@[simp] theorem State.setRaw_pinInj (bs : List Byte) : (s.setRaw k bs).pinInj = s.pinInj := rfl
@[simp] theorem State.setRaw_repairs (bs : List Byte) : (s.setRaw k bs).repairs = s.repairs := rfl
@[simp] theorem State.setRaw_repDirty (bs : List Byte) : (s.setRaw k bs).repDirty = s.repDirty := rfl
@[simp] theorem State.setRaw_startNo (bs : List Byte) : (s.setRaw k bs).startNo = s.startNo := rfl
@[simp] theorem State.setRaw_weirs (bs : List Byte) : (s.setRaw k bs).weirs = s.weirs := rfl
@[simp] theorem State.setRaw_gate (bs : List Byte) : (s.setRaw k bs).gate = s.gate := rfl
@[simp] theorem State.setRaw_allSwallowed (bs : List Byte) : (s.setRaw k bs).allSwallowed = s.allSwallowed := rfl
@[simp] theorem State.setRaw_ports (bs : List Byte) : (s.setRaw k bs).ports = s.ports := rfl
@[simp] theorem State.setRaw_txs (bs : List Byte) : (s.setRaw k bs).txs = s.txs := rfl
@[simp] theorem State.setRaw_rxs (bs : List Byte) : (s.setRaw k bs).rxs = s.rxs := rfl
@[simp] theorem State.setRaw_epochs (bs : List Byte) : (s.setRaw k bs).epochs = s.epochs := rfl
@[simp] theorem State.setRaw_admNo (bs : List Byte) : (s.setRaw k bs).admNo = s.admNo := rfl
@[simp] theorem State.setRaw_linkOut (bs : List Byte) : (s.setRaw k bs).linkOut = s.linkOut := rfl
@[simp] theorem State.setRaw_host (bs : List Byte) : (s.setRaw k bs).host = s.host := rfl
@[simp] theorem State.setRaw_hostOut (bs : List Byte) : (s.setRaw k bs).hostOut = s.hostOut := rfl
@[simp] theorem State.setRaw_pci (bs : List Byte) : (s.setRaw k bs).pci = s.pci := rfl
@[simp] theorem State.setRaw_wh (bs : List Byte) : (s.setRaw k bs).wh = s.wh := rfl
@[simp] theorem State.setRaw_fuses (bs : List Byte) : (s.setRaw k bs).fuses = s.fuses := rfl
@[simp] theorem State.setRaw_flash (bs : List Byte) : (s.setRaw k bs).flash = s.flash := rfl
@[simp] theorem State.setRaw_scrubs (bs : List Byte) : (s.setRaw k bs).scrubs = s.scrubs := rfl
@[simp] theorem State.setRaw_pins (bs : List Byte) : (s.setRaw k bs).pins = s.pins := rfl
@[simp] theorem State.setRaw_bup (bs : List Byte) : (s.setRaw k bs).bup = s.bup := rfl
@[simp] theorem State.setRaw_partials (bs : List Byte) : (s.setRaw k bs).partials = s.partials := rfl
@[simp] theorem State.setRaw_thm (bs : List Byte) : (s.setRaw k bs).thm = s.thm := rfl
@[simp] theorem State.setRaw_tapReset (bs : List Byte) : (s.setRaw k bs).tapReset = s.tapReset := rfl

/-! ### State.draw -/

@[simp] theorem State.draw_pending : s.draw.pending = s.pending := rfl
@[simp] theorem State.draw_time : s.draw.time = s.time := rfl
@[simp] theorem State.draw_free : s.draw.free = s.free + 1 := rfl
@[simp] theorem State.draw_mem : s.draw.mem = s.mem := rfl
@[simp] theorem State.draw_cw : s.draw.cw = s.cw := rfl
@[simp] theorem State.draw_sram : s.draw.sram = s.sram := rfl
@[simp] theorem State.draw_cores : s.draw.cores = s.cores := rfl
@[simp] theorem State.draw_nCores : s.draw.nCores = s.nCores := rfl
@[simp] theorem State.draw_clockFrom : s.draw.clockFrom = s.clockFrom := rfl
@[simp] theorem State.draw_cisterns : s.draw.cisterns = s.cisterns := rfl
@[simp] theorem State.draw_chans : s.draw.chans = s.chans := rfl
@[simp] theorem State.draw_events : s.draw.events = s.events := rfl
@[simp] theorem State.draw_rsvs : s.draw.rsvs = s.rsvs := rfl
@[simp] theorem State.draw_memDone : s.draw.memDone = s.memDone := rfl
@[simp] theorem State.draw_launches : s.draw.launches = s.launches := rfl
@[simp] theorem State.draw_launchNo : s.draw.launchNo = s.launchNo := rfl
@[simp] theorem State.draw_seqs : s.draw.seqs = s.seqs := rfl
@[simp] theorem State.draw_pool : s.draw.pool = s.pool := rfl
@[simp] theorem State.draw_passes : s.draw.passes = s.passes := rfl
@[simp] theorem State.draw_att : s.draw.att = s.att := rfl
@[simp] theorem State.draw_parts : s.draw.parts = s.parts := rfl
@[simp] theorem State.draw_licPorts : s.draw.licPorts = s.licPorts := rfl
@[simp] theorem State.draw_licCompute : s.draw.licCompute = s.licCompute := rfl
@[simp] theorem State.draw_licMulti : s.draw.licMulti = s.licMulti := rfl
@[simp] theorem State.draw_licLong : s.draw.licLong = s.licLong := rfl
@[simp] theorem State.draw_licParts : s.draw.licParts = s.licParts := rfl
@[simp] theorem State.draw_clp : s.draw.clp = s.clp := rfl
@[simp] theorem State.draw_bundles : s.draw.bundles = s.bundles := rfl
@[simp] theorem State.draw_brRows : s.draw.brRows = s.brRows := rfl
@[simp] theorem State.draw_brWindow : s.draw.brWindow = s.brWindow := rfl
@[simp] theorem State.draw_evacs : s.draw.evacs = s.evacs := rfl
@[simp] theorem State.draw_heldOut : s.draw.heldOut = s.heldOut := rfl
@[simp] theorem State.draw_profGen : s.draw.profGen = s.profGen := rfl
@[simp] theorem State.draw_profMap : s.draw.profMap = s.profMap := rfl
@[simp] theorem State.draw_params : s.draw.params = s.params := rfl
@[simp] theorem State.draw_flags : s.draw.flags = s.flags := rfl
@[simp] theorem State.draw_flagUpds : s.draw.flagUpds = s.flagUpds := rfl
@[simp] theorem State.draw_clusterPart : s.draw.clusterPart = s.clusterPart := rfl
@[simp] theorem State.draw_clusterRetired : s.draw.clusterRetired = s.clusterRetired := rfl
@[simp] theorem State.draw_netFence : s.draw.netFence = s.netFence := rfl
@[simp] theorem State.draw_partReset : s.draw.partReset = s.partReset := rfl
@[simp] theorem State.draw_coreReset : s.draw.coreReset = s.coreReset := rfl
@[simp] theorem State.draw_sluCap : s.draw.sluCap = s.sluCap := rfl
@[simp] theorem State.draw_slu : s.draw.slu = s.slu := rfl
@[simp] theorem State.draw_fwShares : s.draw.fwShares = s.fwShares := rfl
@[simp] theorem State.draw_sluLat : s.draw.sluLat = s.sluLat := rfl
@[simp] theorem State.draw_sluHeld : s.draw.sluHeld = s.sluHeld := rfl
@[simp] theorem State.draw_brWait : s.draw.brWait = s.brWait := rfl
@[simp] theorem State.draw_reqs : s.draw.reqs = s.reqs := rfl
@[simp] theorem State.draw_reqNo : s.draw.reqNo = s.reqNo := rfl
@[simp] theorem State.draw_arrNo : s.draw.arrNo = s.arrNo := rfl
@[simp] theorem State.draw_ingress : s.draw.ingress = s.ingress := rfl
@[simp] theorem State.draw_accs : s.draw.accs = s.accs := rfl
@[simp] theorem State.draw_rsvPresent : s.draw.rsvPresent = s.rsvPresent := rfl
@[simp] theorem State.draw_rsvActive : s.draw.rsvActive = s.rsvActive := rfl
@[simp] theorem State.draw_chset : s.draw.chset = s.chset := rfl
@[simp] theorem State.draw_pinInj : s.draw.pinInj = s.pinInj := rfl
@[simp] theorem State.draw_repairs : s.draw.repairs = s.repairs := rfl
@[simp] theorem State.draw_repDirty : s.draw.repDirty = s.repDirty := rfl
@[simp] theorem State.draw_startNo : s.draw.startNo = s.startNo := rfl
@[simp] theorem State.draw_weirs : s.draw.weirs = s.weirs := rfl
@[simp] theorem State.draw_gate : s.draw.gate = s.gate := rfl
@[simp] theorem State.draw_allSwallowed : s.draw.allSwallowed = s.allSwallowed := rfl
@[simp] theorem State.draw_ports : s.draw.ports = s.ports := rfl
@[simp] theorem State.draw_txs : s.draw.txs = s.txs := rfl
@[simp] theorem State.draw_rxs : s.draw.rxs = s.rxs := rfl
@[simp] theorem State.draw_epochs : s.draw.epochs = s.epochs := rfl
@[simp] theorem State.draw_admNo : s.draw.admNo = s.admNo := rfl
@[simp] theorem State.draw_linkOut : s.draw.linkOut = s.linkOut := rfl
@[simp] theorem State.draw_host : s.draw.host = s.host := rfl
@[simp] theorem State.draw_hostOut : s.draw.hostOut = s.hostOut := rfl
@[simp] theorem State.draw_pci : s.draw.pci = s.pci := rfl
@[simp] theorem State.draw_wh : s.draw.wh = s.wh := rfl
@[simp] theorem State.draw_fuses : s.draw.fuses = s.fuses := rfl
@[simp] theorem State.draw_flash : s.draw.flash = s.flash := rfl
@[simp] theorem State.draw_scrubs : s.draw.scrubs = s.scrubs := rfl
@[simp] theorem State.draw_pins : s.draw.pins = s.pins := rfl
@[simp] theorem State.draw_bup : s.draw.bup = s.bup := rfl
@[simp] theorem State.draw_partials : s.draw.partials = s.partials := rfl
@[simp] theorem State.draw_thm : s.draw.thm = s.thm := rfl
@[simp] theorem State.draw_tapReset : s.draw.tapReset = s.tapReset := rfl

/-! ### State.post -/

@[simp] theorem State.post_pending (b : EvBody) (l : List Audit) : (s.post k b l).pending = s.pending := rfl
@[simp] theorem State.post_time (b : EvBody) (l : List Audit) : (s.post k b l).time = s.time := rfl
@[simp] theorem State.post_free (b : EvBody) (l : List Audit) : (s.post k b l).free = s.free := rfl
@[simp] theorem State.post_mem (b : EvBody) (l : List Audit) : (s.post k b l).mem = s.mem := rfl
@[simp] theorem State.post_cw (b : EvBody) (l : List Audit) : (s.post k b l).cw = s.cw := rfl
@[simp] theorem State.post_sram (b : EvBody) (l : List Audit) : (s.post k b l).sram = s.sram := rfl
@[simp] theorem State.post_cores (b : EvBody) (l : List Audit) : (s.post k b l).cores = s.cores := rfl
@[simp] theorem State.post_nCores (b : EvBody) (l : List Audit) : (s.post k b l).nCores = s.nCores := rfl
@[simp] theorem State.post_clockFrom (b : EvBody) (l : List Audit) : (s.post k b l).clockFrom = s.clockFrom := rfl
@[simp] theorem State.post_cisterns (b : EvBody) (l : List Audit) : (s.post k b l).cisterns = s.cisterns := rfl
@[simp] theorem State.post_chans (b : EvBody) (l : List Audit) : (s.post k b l).chans = s.chans := rfl
@[simp] theorem State.post_events (b : EvBody) (l : List Audit) : (s.post k b l).events = s.events ++ [{ post := s.time, src := k, body := b, audits := l }] := rfl
@[simp] theorem State.post_rsvs (b : EvBody) (l : List Audit) : (s.post k b l).rsvs = s.rsvs := rfl
@[simp] theorem State.post_memDone (b : EvBody) (l : List Audit) : (s.post k b l).memDone = s.memDone := rfl
@[simp] theorem State.post_launches (b : EvBody) (l : List Audit) : (s.post k b l).launches = s.launches := rfl
@[simp] theorem State.post_launchNo (b : EvBody) (l : List Audit) : (s.post k b l).launchNo = s.launchNo := rfl
@[simp] theorem State.post_seqs (b : EvBody) (l : List Audit) : (s.post k b l).seqs = s.seqs := rfl
@[simp] theorem State.post_pool (b : EvBody) (l : List Audit) : (s.post k b l).pool = s.pool := rfl
@[simp] theorem State.post_passes (b : EvBody) (l : List Audit) : (s.post k b l).passes = s.passes := rfl
@[simp] theorem State.post_att (b : EvBody) (l : List Audit) : (s.post k b l).att = s.att := rfl
@[simp] theorem State.post_parts (b : EvBody) (l : List Audit) : (s.post k b l).parts = s.parts := rfl
@[simp] theorem State.post_licPorts (b : EvBody) (l : List Audit) : (s.post k b l).licPorts = s.licPorts := rfl
@[simp] theorem State.post_licCompute (b : EvBody) (l : List Audit) : (s.post k b l).licCompute = s.licCompute := rfl
@[simp] theorem State.post_licMulti (b : EvBody) (l : List Audit) : (s.post k b l).licMulti = s.licMulti := rfl
@[simp] theorem State.post_licLong (b : EvBody) (l : List Audit) : (s.post k b l).licLong = s.licLong := rfl
@[simp] theorem State.post_licParts (b : EvBody) (l : List Audit) : (s.post k b l).licParts = s.licParts := rfl
@[simp] theorem State.post_clp (b : EvBody) (l : List Audit) : (s.post k b l).clp = s.clp := rfl
@[simp] theorem State.post_bundles (b : EvBody) (l : List Audit) : (s.post k b l).bundles = s.bundles := rfl
@[simp] theorem State.post_brRows (b : EvBody) (l : List Audit) : (s.post k b l).brRows = s.brRows := rfl
@[simp] theorem State.post_brWindow (b : EvBody) (l : List Audit) : (s.post k b l).brWindow = s.brWindow := rfl
@[simp] theorem State.post_evacs (b : EvBody) (l : List Audit) : (s.post k b l).evacs = s.evacs := rfl
@[simp] theorem State.post_heldOut (b : EvBody) (l : List Audit) : (s.post k b l).heldOut = s.heldOut := rfl
@[simp] theorem State.post_profGen (b : EvBody) (l : List Audit) : (s.post k b l).profGen = s.profGen := rfl
@[simp] theorem State.post_profMap (b : EvBody) (l : List Audit) : (s.post k b l).profMap = s.profMap := rfl
@[simp] theorem State.post_params (b : EvBody) (l : List Audit) : (s.post k b l).params = s.params := rfl
@[simp] theorem State.post_flags (b : EvBody) (l : List Audit) : (s.post k b l).flags = s.flags := rfl
@[simp] theorem State.post_flagUpds (b : EvBody) (l : List Audit) : (s.post k b l).flagUpds = s.flagUpds := rfl
@[simp] theorem State.post_clusterPart (b : EvBody) (l : List Audit) : (s.post k b l).clusterPart = s.clusterPart := rfl
@[simp] theorem State.post_clusterRetired (b : EvBody) (l : List Audit) : (s.post k b l).clusterRetired = s.clusterRetired := rfl
@[simp] theorem State.post_netFence (b : EvBody) (l : List Audit) : (s.post k b l).netFence = s.netFence := rfl
@[simp] theorem State.post_partReset (b : EvBody) (l : List Audit) : (s.post k b l).partReset = s.partReset := rfl
@[simp] theorem State.post_coreReset (b : EvBody) (l : List Audit) : (s.post k b l).coreReset = s.coreReset := rfl
@[simp] theorem State.post_sluCap (b : EvBody) (l : List Audit) : (s.post k b l).sluCap = s.sluCap := rfl
@[simp] theorem State.post_slu (b : EvBody) (l : List Audit) : (s.post k b l).slu = s.slu := rfl
@[simp] theorem State.post_fwShares (b : EvBody) (l : List Audit) : (s.post k b l).fwShares = s.fwShares := rfl
@[simp] theorem State.post_sluLat (b : EvBody) (l : List Audit) : (s.post k b l).sluLat = s.sluLat := rfl
@[simp] theorem State.post_sluHeld (b : EvBody) (l : List Audit) : (s.post k b l).sluHeld = s.sluHeld := rfl
@[simp] theorem State.post_brWait (b : EvBody) (l : List Audit) : (s.post k b l).brWait = s.brWait := rfl
@[simp] theorem State.post_reqs (b : EvBody) (l : List Audit) : (s.post k b l).reqs = s.reqs := rfl
@[simp] theorem State.post_reqNo (b : EvBody) (l : List Audit) : (s.post k b l).reqNo = s.reqNo := rfl
@[simp] theorem State.post_arrNo (b : EvBody) (l : List Audit) : (s.post k b l).arrNo = s.arrNo := rfl
@[simp] theorem State.post_ingress (b : EvBody) (l : List Audit) : (s.post k b l).ingress = s.ingress := rfl
@[simp] theorem State.post_accs (b : EvBody) (l : List Audit) : (s.post k b l).accs = s.accs := rfl
@[simp] theorem State.post_rsvPresent (b : EvBody) (l : List Audit) : (s.post k b l).rsvPresent = s.rsvPresent := rfl
@[simp] theorem State.post_rsvActive (b : EvBody) (l : List Audit) : (s.post k b l).rsvActive = s.rsvActive := rfl
@[simp] theorem State.post_chset (b : EvBody) (l : List Audit) : (s.post k b l).chset = s.chset := rfl
@[simp] theorem State.post_pinInj (b : EvBody) (l : List Audit) : (s.post k b l).pinInj = s.pinInj := rfl
@[simp] theorem State.post_repairs (b : EvBody) (l : List Audit) : (s.post k b l).repairs = s.repairs := rfl
@[simp] theorem State.post_repDirty (b : EvBody) (l : List Audit) : (s.post k b l).repDirty = s.repDirty := rfl
@[simp] theorem State.post_startNo (b : EvBody) (l : List Audit) : (s.post k b l).startNo = s.startNo := rfl
@[simp] theorem State.post_weirs (b : EvBody) (l : List Audit) : (s.post k b l).weirs = s.weirs := rfl
@[simp] theorem State.post_gate (b : EvBody) (l : List Audit) : (s.post k b l).gate = s.gate := rfl
@[simp] theorem State.post_allSwallowed (b : EvBody) (l : List Audit) : (s.post k b l).allSwallowed = s.allSwallowed := rfl
@[simp] theorem State.post_ports (b : EvBody) (l : List Audit) : (s.post k b l).ports = s.ports := rfl
@[simp] theorem State.post_txs (b : EvBody) (l : List Audit) : (s.post k b l).txs = s.txs := rfl
@[simp] theorem State.post_rxs (b : EvBody) (l : List Audit) : (s.post k b l).rxs = s.rxs := rfl
@[simp] theorem State.post_epochs (b : EvBody) (l : List Audit) : (s.post k b l).epochs = s.epochs := rfl
@[simp] theorem State.post_admNo (b : EvBody) (l : List Audit) : (s.post k b l).admNo = s.admNo := rfl
@[simp] theorem State.post_linkOut (b : EvBody) (l : List Audit) : (s.post k b l).linkOut = s.linkOut := rfl
@[simp] theorem State.post_host (b : EvBody) (l : List Audit) : (s.post k b l).host = s.host := rfl
@[simp] theorem State.post_hostOut (b : EvBody) (l : List Audit) : (s.post k b l).hostOut = s.hostOut := rfl
@[simp] theorem State.post_pci (b : EvBody) (l : List Audit) : (s.post k b l).pci = s.pci := rfl
@[simp] theorem State.post_wh (b : EvBody) (l : List Audit) : (s.post k b l).wh = s.wh := rfl
@[simp] theorem State.post_fuses (b : EvBody) (l : List Audit) : (s.post k b l).fuses = s.fuses := rfl
@[simp] theorem State.post_flash (b : EvBody) (l : List Audit) : (s.post k b l).flash = s.flash := rfl
@[simp] theorem State.post_scrubs (b : EvBody) (l : List Audit) : (s.post k b l).scrubs = s.scrubs := rfl
@[simp] theorem State.post_pins (b : EvBody) (l : List Audit) : (s.post k b l).pins = s.pins := rfl
@[simp] theorem State.post_bup (b : EvBody) (l : List Audit) : (s.post k b l).bup = s.bup := rfl
@[simp] theorem State.post_partials (b : EvBody) (l : List Audit) : (s.post k b l).partials = s.partials := rfl
@[simp] theorem State.post_thm (b : EvBody) (l : List Audit) : (s.post k b l).thm = s.thm := rfl
@[simp] theorem State.post_tapReset (b : EvBody) (l : List Audit) : (s.post k b l).tapReset = s.tapReset := rfl

/-! ### Core.setQueue -/

@[simp] theorem Core.setQueue_v (c : Core) (x : Queue) : (c.setQueue n x).v = c.v := rfl
@[simp] theorem Core.setQueue_s (c : Core) (x : Queue) : (c.setQueue n x).s = c.s := rfl
@[simp] theorem Core.setQueue_a (c : Core) (x : Queue) : (c.setQueue n x).a = c.a := rfl
@[simp] theorem Core.setQueue_p (c : Core) (x : Queue) : (c.setQueue n x).p = c.p := rfl
@[simp] theorem Core.setQueue_acc (c : Core) (x : Queue) : (c.setQueue n x).acc = c.acc := rfl
@[simp] theorem Core.setQueue_loops (c : Core) (x : Queue) : (c.setQueue n x).loops = c.loops := rfl
@[simp] theorem Core.setQueue_pc (c : Core) (x : Queue) : (c.setQueue n x).pc = c.pc := rfl
@[simp] theorem Core.setQueue_sticky (c : Core) (x : Queue) : (c.setQueue n x).sticky = c.sticky := rfl
@[simp] theorem Core.setQueue_rng (c : Core) (x : Queue) : (c.setQueue n x).rng = c.rng := rfl
@[simp] theorem Core.setQueue_clrfAt (c : Core) (x : Queue) : (c.setQueue n x).clrfAt = c.clrfAt := rfl
@[simp] theorem Core.setQueue_bkptEn (c : Core) (x : Queue) : (c.setQueue n x).bkptEn = c.bkptEn := rfl
@[simp] theorem Core.setQueue_wcoll (c : Core) (x : Queue) : (c.setQueue n x).wcoll = c.wcoll := rfl
@[simp] theorem Core.setQueue_wcollFile (c : Core) (x : Queue) : (c.setQueue n x).wcollFile = c.wcollFile := rfl
@[simp] theorem Core.setQueue_wcollReg (c : Core) (x : Queue) : (c.setQueue n x).wcollReg = c.wcollReg := rfl
@[simp] theorem Core.setQueue_wcollWin (c : Core) (x : Queue) : (c.setQueue n x).wcollWin = c.wcollWin := rfl
@[simp] theorem Core.setQueue_wcollLose (c : Core) (x : Queue) : (c.setQueue n x).wcollLose = c.wcollLose := rfl
@[simp] theorem Core.setQueue_markCount (c : Core) (x : Queue) : (c.setQueue n x).markCount = c.markCount := rfl
@[simp] theorem Core.setQueue_markPc (c : Core) (x : Queue) : (c.setQueue n x).markPc = c.markPc := rfl
@[simp] theorem Core.setQueue_cycle (c : Core) (x : Queue) : (c.setQueue n x).cycle = c.cycle := rfl
@[simp] theorem Core.setQueue_seq (c : Core) (x : Queue) : (c.setQueue n x).seq = c.seq := rfl
@[simp] theorem Core.setQueue_lastVis (c : Core) (x : Queue) : (c.setQueue n x).lastVis = c.lastVis := rfl
@[simp] theorem Core.setQueue_busy (c : Core) (x : Queue) : (c.setQueue n x).busy = c.busy := rfl
@[simp] theorem Core.setQueue_results (c : Core) (x : Queue) : (c.setQueue n x).results = c.results := rfl
@[simp] theorem Core.setQueue_loads (c : Core) (x : Queue) : (c.setQueue n x).loads = c.loads := rfl
@[simp] theorem Core.setQueue_stores (c : Core) (x : Queue) : (c.setQueue n x).stores = c.stores := rfl
@[simp] theorem Core.setQueue_steps (c : Core) (x : Queue) : (c.setQueue n x).steps = c.steps := rfl
@[simp] theorem Core.setQueue_drains (c : Core) (x : Queue) : (c.setQueue n x).drains = c.drains := rfl
@[simp] theorem Core.setQueue_ctx0 (c : Core) (x : Queue) : (c.setQueue n x).ctx0 = c.ctx0 := rfl
@[simp] theorem Core.setQueue_ctx1 (c : Core) (x : Queue) : (c.setQueue n x).ctx1 = c.ctx1 := rfl
@[simp] theorem Core.setQueue_gens (c : Core) (x : Queue) : (c.setQueue n x).gens = c.gens := rfl
@[simp] theorem Core.setQueue_lines (c : Core) (x : Queue) : (c.setQueue n x).lines = c.lines := rfl
@[simp] theorem Core.setQueue_hold (c : Core) (x : Queue) : (c.setQueue n x).hold = c.hold := rfl
@[simp] theorem Core.setQueue_window (c : Core) (x : Queue) : (c.setQueue n x).window = c.window := rfl
@[simp] theorem Core.setQueue_run (c : Core) (x : Queue) : (c.setQueue n x).run = c.run := rfl
@[simp] theorem Core.setQueue_lastRunQ (c : Core) (x : Queue) : (c.setQueue n x).lastRunQ = c.lastRunQ := rfl
@[simp] theorem Core.setQueue_cycExec (c : Core) (x : Queue) : (c.setQueue n x).cycExec = c.cycExec := rfl
@[simp] theorem Core.setQueue_cycSwallow (c : Core) (x : Queue) : (c.setQueue n x).cycSwallow = c.cycSwallow := rfl
@[simp] theorem Core.setQueue_cycFeed (c : Core) (x : Queue) : (c.setQueue n x).cycFeed = c.cycFeed := rfl
@[simp] theorem Core.setQueue_cycBank (c : Core) (x : Queue) : (c.setQueue n x).cycBank = c.cycBank := rfl
@[simp] theorem Core.setQueue_clocks (c : Core) (x : Queue) : (c.setQueue n x).clocks = c.clocks := rfl
@[simp] theorem Core.setQueue_clockFrom (c : Core) (x : Queue) : (c.setQueue n x).clockFrom = c.clockFrom := rfl
@[simp] theorem Core.setQueue_feedLimit (c : Core) (x : Queue) : (c.setQueue n x).feedLimit = c.feedLimit := rfl
@[simp] theorem Core.setQueue_refusals (c : Core) (x : Queue) : (c.setQueue n x).refusals = c.refusals := rfl
@[simp] theorem Core.setQueue_asyncWait (c : Core) (x : Queue) : (c.setQueue n x).asyncWait = c.asyncWait := rfl
@[simp] theorem Core.setQueue_asyncData (c : Core) (x : Queue) : (c.setQueue n x).asyncData = c.asyncData := rfl
@[simp] theorem Core.setQueue_asyncBad (c : Core) (x : Queue) : (c.setQueue n x).asyncBad = c.asyncBad := rfl
@[simp] theorem Core.setQueue_sramFixed (c : Core) (x : Queue) : (c.setQueue n x).sramFixed = c.sramFixed := rfl
@[simp] theorem Core.setQueue_siteLogical (c : Core) (x : Queue) : (c.setQueue n x).siteLogical = c.siteLogical := rfl
@[simp] theorem Core.setQueue_site (c : Core) (x : Queue) : (c.setQueue n x).site = c.site := rfl
@[simp] theorem Core.setQueue_cubeLock (c : Core) (x : Queue) : (c.setQueue n x).cubeLock = c.cubeLock := rfl
@[simp] theorem Core.setQueue_cubeRepaired (c : Core) (x : Queue) : (c.setQueue n x).cubeRepaired = c.cubeRepaired := rfl
@[simp] theorem Core.setQueue_eqMode (c : Core) (x : Queue) : (c.setQueue n x).eqMode = c.eqMode := rfl
@[simp] theorem Core.setQueue_rowMap (c : Core) (x : Queue) : (c.setQueue n x).rowMap = c.rowMap := rfl
@[simp] theorem Core.setQueue_queues (c : Core) (x : Queue) : (c.setQueue n x).queues = Map.set {} c.queues n x := rfl
@[simp] theorem Core.setQueue_dma (c : Core) (x : Queue) : (c.setQueue n x).dma = c.dma := rfl
@[simp] theorem Core.setQueue_descs (c : Core) (x : Queue) : (c.setQueue n x).descs = c.descs := rfl

/-! ### Core.emit -/

@[simp] theorem Core.emit_v (c : Core) (ds : List Dest) (fl : Flags) : (c.emit n k ds fl).v = c.v := rfl
@[simp] theorem Core.emit_s (c : Core) (ds : List Dest) (fl : Flags) : (c.emit n k ds fl).s = c.s := rfl
@[simp] theorem Core.emit_a (c : Core) (ds : List Dest) (fl : Flags) : (c.emit n k ds fl).a = c.a := rfl
@[simp] theorem Core.emit_p (c : Core) (ds : List Dest) (fl : Flags) : (c.emit n k ds fl).p = c.p := rfl
@[simp] theorem Core.emit_acc (c : Core) (ds : List Dest) (fl : Flags) : (c.emit n k ds fl).acc = c.acc := rfl
@[simp] theorem Core.emit_loops (c : Core) (ds : List Dest) (fl : Flags) : (c.emit n k ds fl).loops = c.loops := rfl
@[simp] theorem Core.emit_pc (c : Core) (ds : List Dest) (fl : Flags) : (c.emit n k ds fl).pc = c.pc := rfl
@[simp] theorem Core.emit_sticky (c : Core) (ds : List Dest) (fl : Flags) : (c.emit n k ds fl).sticky = c.sticky := rfl
@[simp] theorem Core.emit_rng (c : Core) (ds : List Dest) (fl : Flags) : (c.emit n k ds fl).rng = c.rng := rfl
@[simp] theorem Core.emit_clrfAt (c : Core) (ds : List Dest) (fl : Flags) : (c.emit n k ds fl).clrfAt = c.clrfAt := rfl
@[simp] theorem Core.emit_bkptEn (c : Core) (ds : List Dest) (fl : Flags) : (c.emit n k ds fl).bkptEn = c.bkptEn := rfl
@[simp] theorem Core.emit_wcoll (c : Core) (ds : List Dest) (fl : Flags) : (c.emit n k ds fl).wcoll = c.wcoll := rfl
@[simp] theorem Core.emit_wcollFile (c : Core) (ds : List Dest) (fl : Flags) : (c.emit n k ds fl).wcollFile = c.wcollFile := rfl
@[simp] theorem Core.emit_wcollReg (c : Core) (ds : List Dest) (fl : Flags) : (c.emit n k ds fl).wcollReg = c.wcollReg := rfl
@[simp] theorem Core.emit_wcollWin (c : Core) (ds : List Dest) (fl : Flags) : (c.emit n k ds fl).wcollWin = c.wcollWin := rfl
@[simp] theorem Core.emit_wcollLose (c : Core) (ds : List Dest) (fl : Flags) : (c.emit n k ds fl).wcollLose = c.wcollLose := rfl
@[simp] theorem Core.emit_markCount (c : Core) (ds : List Dest) (fl : Flags) : (c.emit n k ds fl).markCount = c.markCount := rfl
@[simp] theorem Core.emit_markPc (c : Core) (ds : List Dest) (fl : Flags) : (c.emit n k ds fl).markPc = c.markPc := rfl
@[simp] theorem Core.emit_cycle (c : Core) (ds : List Dest) (fl : Flags) : (c.emit n k ds fl).cycle = c.cycle := rfl
@[simp] theorem Core.emit_seq (c : Core) (ds : List Dest) (fl : Flags) : (c.emit n k ds fl).seq = c.seq + 1 := rfl
@[simp] theorem Core.emit_lastVis (c : Core) (ds : List Dest) (fl : Flags) : (c.emit n k ds fl).lastVis = c.lastVis := rfl
@[simp] theorem Core.emit_busy (c : Core) (ds : List Dest) (fl : Flags) : (c.emit n k ds fl).busy = c.busy := rfl
@[simp] theorem Core.emit_results (c : Core) (ds : List Dest) (fl : Flags) : (c.emit n k ds fl).results = c.results ++ mkResults (c.cycle + k) n c.seq ds fl := rfl
@[simp] theorem Core.emit_loads (c : Core) (ds : List Dest) (fl : Flags) : (c.emit n k ds fl).loads = c.loads := rfl
@[simp] theorem Core.emit_stores (c : Core) (ds : List Dest) (fl : Flags) : (c.emit n k ds fl).stores = c.stores := rfl
@[simp] theorem Core.emit_steps (c : Core) (ds : List Dest) (fl : Flags) : (c.emit n k ds fl).steps = c.steps := rfl
@[simp] theorem Core.emit_drains (c : Core) (ds : List Dest) (fl : Flags) : (c.emit n k ds fl).drains = c.drains := rfl
@[simp] theorem Core.emit_ctx0 (c : Core) (ds : List Dest) (fl : Flags) : (c.emit n k ds fl).ctx0 = c.ctx0 := rfl
@[simp] theorem Core.emit_ctx1 (c : Core) (ds : List Dest) (fl : Flags) : (c.emit n k ds fl).ctx1 = c.ctx1 := rfl
@[simp] theorem Core.emit_gens (c : Core) (ds : List Dest) (fl : Flags) : (c.emit n k ds fl).gens = c.gens := rfl
@[simp] theorem Core.emit_lines (c : Core) (ds : List Dest) (fl : Flags) : (c.emit n k ds fl).lines = c.lines := rfl
@[simp] theorem Core.emit_hold (c : Core) (ds : List Dest) (fl : Flags) : (c.emit n k ds fl).hold = c.hold := rfl
@[simp] theorem Core.emit_window (c : Core) (ds : List Dest) (fl : Flags) : (c.emit n k ds fl).window = c.window := rfl
@[simp] theorem Core.emit_run (c : Core) (ds : List Dest) (fl : Flags) : (c.emit n k ds fl).run = c.run := rfl
@[simp] theorem Core.emit_lastRunQ (c : Core) (ds : List Dest) (fl : Flags) : (c.emit n k ds fl).lastRunQ = c.lastRunQ := rfl
@[simp] theorem Core.emit_cycExec (c : Core) (ds : List Dest) (fl : Flags) : (c.emit n k ds fl).cycExec = c.cycExec := rfl
@[simp] theorem Core.emit_cycSwallow (c : Core) (ds : List Dest) (fl : Flags) : (c.emit n k ds fl).cycSwallow = c.cycSwallow := rfl
@[simp] theorem Core.emit_cycFeed (c : Core) (ds : List Dest) (fl : Flags) : (c.emit n k ds fl).cycFeed = c.cycFeed := rfl
@[simp] theorem Core.emit_cycBank (c : Core) (ds : List Dest) (fl : Flags) : (c.emit n k ds fl).cycBank = c.cycBank := rfl
@[simp] theorem Core.emit_clocks (c : Core) (ds : List Dest) (fl : Flags) : (c.emit n k ds fl).clocks = c.clocks := rfl
@[simp] theorem Core.emit_clockFrom (c : Core) (ds : List Dest) (fl : Flags) : (c.emit n k ds fl).clockFrom = c.clockFrom := rfl
@[simp] theorem Core.emit_feedLimit (c : Core) (ds : List Dest) (fl : Flags) : (c.emit n k ds fl).feedLimit = c.feedLimit := rfl
@[simp] theorem Core.emit_refusals (c : Core) (ds : List Dest) (fl : Flags) : (c.emit n k ds fl).refusals = c.refusals := rfl
@[simp] theorem Core.emit_asyncWait (c : Core) (ds : List Dest) (fl : Flags) : (c.emit n k ds fl).asyncWait = c.asyncWait := rfl
@[simp] theorem Core.emit_asyncData (c : Core) (ds : List Dest) (fl : Flags) : (c.emit n k ds fl).asyncData = c.asyncData := rfl
@[simp] theorem Core.emit_asyncBad (c : Core) (ds : List Dest) (fl : Flags) : (c.emit n k ds fl).asyncBad = c.asyncBad := rfl
@[simp] theorem Core.emit_sramFixed (c : Core) (ds : List Dest) (fl : Flags) : (c.emit n k ds fl).sramFixed = c.sramFixed := rfl
@[simp] theorem Core.emit_siteLogical (c : Core) (ds : List Dest) (fl : Flags) : (c.emit n k ds fl).siteLogical = c.siteLogical := rfl
@[simp] theorem Core.emit_site (c : Core) (ds : List Dest) (fl : Flags) : (c.emit n k ds fl).site = c.site := rfl
@[simp] theorem Core.emit_cubeLock (c : Core) (ds : List Dest) (fl : Flags) : (c.emit n k ds fl).cubeLock = c.cubeLock := rfl
@[simp] theorem Core.emit_cubeRepaired (c : Core) (ds : List Dest) (fl : Flags) : (c.emit n k ds fl).cubeRepaired = c.cubeRepaired := rfl
@[simp] theorem Core.emit_eqMode (c : Core) (ds : List Dest) (fl : Flags) : (c.emit n k ds fl).eqMode = c.eqMode := rfl
@[simp] theorem Core.emit_rowMap (c : Core) (ds : List Dest) (fl : Flags) : (c.emit n k ds fl).rowMap = c.rowMap := rfl
@[simp] theorem Core.emit_queues (c : Core) (ds : List Dest) (fl : Flags) : (c.emit n k ds fl).queues = c.queues := rfl
@[simp] theorem Core.emit_dma (c : Core) (ds : List Dest) (fl : Flags) : (c.emit n k ds fl).dma = c.dma := rfl
@[simp] theorem Core.emit_descs (c : Core) (ds : List Dest) (fl : Flags) : (c.emit n k ds fl).descs = c.descs := rfl

/-! ### Reading back what was written -/

/-- A core written reads back. -/
@[simp] theorem State.core_setCore (x : Core) : (s.setCore n x).core n = x := Map.get_set_same _ _ _ _
/-- Writing a core leaves every other core alone. -/
theorem State.core_setCore_other (x : Core) (j : Nat) (h : n ≠ j) : (s.setCore n x).core j = s.core j := Map.get_set_other _ _ _ _ _ h
/-- A queue written reads back. -/
@[simp] theorem Core.queue_setQueue (c : Core) (x : Queue) : (c.setQueue n x).queue n = x := Map.get_set_same _ _ _ _
/-- Writing a queue leaves every other queue of the core alone. -/
theorem Core.queue_setQueue_other (c : Core) (x : Queue) (j : Nat) (h : n ≠ j) : (c.setQueue n x).queue j = c.queue j :=
  Map.get_set_other _ _ _ _ _ h
/-- A channel written reads back. -/
@[simp] theorem State.chan_setChan (x : Chan) : (s.setChan k c x).chan k c = x := Map.get_set_same _ _ _ _
/-- Bytes written read back. -/
theorem State.get_setRaw (bs : List Byte) (j : Nat) :
    Map.get 0 (s.setRaw k bs).mem j = if k ≤ j ∧ j < k + bs.length then bs.getD (j - k) 0 else Map.get 0 s.mem j :=
  Map.get_setRange _ _ _ _ _

end Sys2Proof.Machine
end

