-- ==== Sys2Proof/Laws/Core.lean ====
section
/-! SUPPORT. What the issue of one operation does, once for every slot: the provers cite these and unfold no issue logic. -/

namespace Sys2Proof.Machine

/-- Writing a core twice is writing it once, where the first core written is not the reset one. -/
theorem Map.set_set {α : Type} [DecidableEq α] (d : α) (m : Map α) (k : Nat) (v w : α) (hv : v ≠ d) :
    Map.set d (Map.set d m k v) k w = Map.set d m k w := by
  have hd : Map.drop (fun j => j == k) (Map.put m k v) = Map.drop (fun j => j == k) m := by
    induction m with
    | nil => simp [Map.put, Map.drop]
    | cons p m ih =>
      obtain ⟨a, x⟩ := p
      by_cases h1 : a < k
      · simp [Map.put, Map.drop, h1, ih, Nat.ne_of_lt h1]
      · by_cases h2 : a = k
        · subst h2; simp [Map.put, Map.drop]
        · simp [Map.put, Map.drop, h1, h2]
  have hp : Map.put (Map.put m k v) k w = Map.put m k w := by
    induction m with
    | nil => simp [Map.put]
    | cons p m ih =>
      obtain ⟨a, x⟩ := p
      by_cases h1 : a < k
      · have hd' : Map.drop (fun j => j == k) (Map.put m k v) = Map.drop (fun j => j == k) m := by
          simpa [Map.put, Map.drop, h1, Nat.ne_of_lt h1] using hd
        simp [Map.put, h1, ih hd']
      · by_cases h2 : a = k
        · subst h2; simp [Map.put]
        · simp [Map.put, h1, h2]
  unfold Map.set
  rw [if_neg hv]
  split
  · exact hd
  · exact hp

/-- Writing a core twice is writing it once. -/
theorem State.setCore_setCore (s : State) (n : Nat) (c d : Core) (h : c ≠ {}) : (s.setCore n c).setCore n d = s.setCore n d := by
  simp only [State.setCore, Map.set_set _ _ _ _ _ h]

/-- A core with a RUN is not the reset core. -/
theorem Core.ne_of_run {c : Core} {r : RunState} (h : c.run = some r) : c ≠ {} := by
  intro e; rw [e] at h; exact nomatch h

/-- With no stop pending nothing is done about one. -/
theorem State.checkStop_none (s : State) (n : Nat) (h : ((s.core n).run.bind fun r => r.stop) = none) : s.checkStop n = s := by
  unfold State.checkStop
  cases hr : (s.core n).run with
  | none => rfl
  | some r => rw [hr] at h; simp only [Option.bind_some] at h; simp [State.haltStop, hr, h]

/-- A core already at its issue cycle is brought nowhere. -/
theorem State.toIssue_now (s : State) (n : Nat) (r : RunState) (h : (s.core n).run = some r) (hs : r.stop = none)
    (hc : (s.core n).cycle = r.nextIssue) (hu : (s.core n).undelivered = false) : s.toIssue n = s := by
  have : s.advanceTo n r.nextIssue (r.nextIssue + 1 - (s.core n).cycle) = s := by
    rw [hc]; cases h' : r.nextIssue + 1 - r.nextIssue with
    | zero => rfl
    | succ k => simp [State.advanceTo, hc]
  have hr : s.settleResumed n = s := by simp [State.settleResumed, hu]
  simp only [State.toIssue, hr, h]
  rw [this]
  exact State.checkStop_none s n (by simp [h, hs])

/-- A slot row that may issue is the issue of a legal bundle of one operation. -/
theorem issueRow_legal {s : State} {n : Nat} {r : RunState} {op : SlotOp} (h : s.Issues n r op) :
    issueRow s n op = issueLegal s n (s.core n).pc (2 + slotBytes op.slot)
      { slots := 1 <<< op.slot, idle := 0, bkpt := false, mark := false, last := false } [op] := by
  have hc : (s.core n).canIssue = true := by simp [Core.canIssue, h.run, h.live]
  have ha : (s.core n).atIssue = true := by simp [Core.atIssue, h.run, h.live, h.now, h.delivered]
  have hst : (s.core n).stepped = false := by simpa [Core.stepped, h.run] using h.more
  have hp : (op.legal (2 + slotBytes op.slot) && decide ((s.core n).pc + (2 + slotBytes op.slot) ≤ 2 ^ 19)) = true := by
    simp only [h.legal, Bool.true_and, decide_eq_true_eq]; exact h.room
  unfold issueRow
  rw [State.toIssue_now s n r h.run h.live.2.2 h.now h.delivered]
  simp only [hc, ha, hst, hp, h.sound, Bool.not_true, Bool.false_eq_true, if_false, Bool.or_false, if_true]
  simp [issueBundle]

/-- An operation that issues without a fault, with effect `d` on its core and flow `fl`: the RUN goes on. -/
theorem issueRow_flow {s s' : State} {n : Nat} {r : RunState} {op : SlotOp} {d : Core} {fl : Flow} (h : s.Issues n r op)
    (he : issueAll s n (s.core n).pc [op] = (s', none))
    (hf : s'.ctlFlow n (s.core n).pc (2 + slotBytes op.slot) 0 [op] ((s.core n).flow r op) = (s'', fl, none))
    (hd : s''.core n = d) (hset : ∀ e : Core, s''.setCore n e = (s.setCore n e).draw)
    (hr : d.run = some r) (hcy : d.cycle = (s.core n).cycle) :
    issueRow s n op = s.issuedFlow n r op d fl := by
  have hfree : ¬ (s.core n).cycle < Map.get 0 (s.core n).busy op.slot := Nat.not_lt.mpr h.free
  rw [issueRow_legal h]
  simp only [issueLegal, h.run, List.find?_cons, hfree, decide_false, List.find?_nil, he]
  have hf' := hf
  simp only [Core.flow] at hf'
  simp only [Nat.add_zero, hf', hd, hset, Option.map_none, Option.orElse_none]
  have hdone : d.bundleDone r (s.core n).cycle (s.core n).pc
      { slots := 1 <<< op.slot, idle := 0, bkpt := false, mark := false, last := false } [op] fl = d.after r op fl := by
    simp [Core.bundleDone, Core.after, hr, hcy, h.live.2.2]
  rw [hdone]
  have hs : ((s.setCore n (d.after r op fl)).draw).core n = d.after r op fl :=
    State.core_setCore s n _
  exact State.checkStop_none _ _ (by rw [hs]; exact h.live.2.2)

/-- Only a CTL operation touches the flow. -/
theorem ctlOf_other {op : SlotOp} (h : ∀ o f, op ≠ .ctl o f) : ctlOf [op] = none := by
  cases op with
  | ctl o f => exact absurd rfl (h o f)
  | _ => rfl

/-- An operation outside the control slot that issues without a fault, with effect `d` on its core. -/
theorem issueRow_slot {s : State} {n : Nat} {r : RunState} {op : SlotOp} {d : Core} (h : s.Issues n r op)
    (hctl : ∀ o f, op ≠ .ctl o f) (he : issueSlot s n (s.core n).pc op = (s.setCore n d, none)) (hr : d.run = some r)
    (hcy : d.cycle = (s.core n).cycle) : issueRow s n op = s.issuedOp n r op d := by
  have hne := Core.ne_of_run hr
  refine issueRow_flow (s' := (s.setCore n d).draw) (s'' := (s.setCore n d).draw) h ?_ ?_
    (State.core_setCore s n d) ?_ hr hcy
  · simp [issueAll, he]
  · simp [State.ctlFlow, ctlOf_other hctl]
  · intro e
    show ((s.setCore n d).setCore n e).draw = _
    rw [State.setCore_setCore _ _ _ _ hne]

/-- An operation outside the control slot that is not performed. -/
theorem issueRow_skip {s : State} {n : Nat} {r : RunState} {op : SlotOp} (h : s.Issues n r op)
    (hctl : ∀ o f, op ≠ .ctl o f) (he : issueSlot s n (s.core n).pc op = (s, none)) :
    issueRow s n op = s.issuedOp n r op (s.core n) := by
  refine issueRow_flow (s' := s.draw) (s'' := s.draw) h ?_ ?_ rfl (fun _ => rfl) h.run rfl
  · simp [issueAll, he]
  · simp [State.ctlFlow, ctlOf_other hctl]

/-! ### Faults -/

/-- What ending the jobs whose queues stand still leaves alone. -/
theorem State.finishJobs_keeps (s : State) :
    s.finishJobs.cores = s.cores ∧ s.finishJobs.mem = s.mem ∧ s.finishJobs.cw = s.cw ∧ s.finishJobs.sram = s.sram ∧
      s.finishJobs.flags = s.flags ∧ s.finishJobs.pending = s.pending ∧ s.finishJobs.clp = s.clp := by
  unfold State.finishJobs
  refine List.foldlRecOn s.host.jobs _ (motive := fun t : State =>
    t.cores = s.cores ∧ t.mem = s.mem ∧ t.cw = s.cw ∧ t.sram = s.sram ∧ t.flags = s.flags ∧ t.pending = s.pending ∧ t.clp = s.clp)
    (by simp) ?_
  intro t ht j _
  dsimp only
  split
  · exact ht
  · split
    · rename_i st fl c q _ _
      refine List.foldlRecOn j.aborts _ (motive := fun t : State =>
        t.cores = s.cores ∧ t.mem = s.mem ∧ t.cw = s.cw ∧ t.sram = s.sram ∧ t.flags = s.flags ∧ t.pending = s.pending ∧
        t.clp = s.clp) ?_ ?_
      · exact ht
      · intro u hu a _; exact hu
    · exact ht

/-- Ending jobs leaves every core alone. -/
@[simp] theorem State.finishJobs_core (s : State) (n : Nat) : s.finishJobs.core n = s.core n := by
  simp only [State.core, s.finishJobs_keeps.1]

/-- A queue written reads back in the state it was written to. -/
@[simp] theorem State.queue_setQueue (s : State) (n q : Nat) (x : Queue) : (s.setQueue n q x).queue n q = x := by
  show ((s.setCore n ((s.core n).setQueue q x)).core n).queue q = x
  simp

/-- A core with a queue written. -/
@[simp] theorem State.core_setQueue (s : State) (n q : Nat) (x : Queue) : (s.setQueue n q x).core n = (s.core n).setQueue q x :=
  State.core_setCore s n _

/-- A queue that halts on a fault: the core, with the queue's new state, and everything beside the core, the events and the jobs. -/
theorem State.haltQueue_eq (s : State) (n q : Nat) (f : RecF) :
    ∃ x : Queue, ((s.haltQueue n q f).core n) = ((match (s.core n).run with
        | some r => if r.queue = q then (s.core n).dropRun else s.core n
        | none => s.core n).setQueue q x) ∧
      x.lastFault = BitVec.ofNat 16 f.code ∧ (x.st = .halted ∨ x.st = .draining) ∧
      (s.haltQueue n q f).mem = s.mem ∧ (∀ j, j ≠ n → (s.haltQueue n q f).core j = s.core j) := by
  let y : Queue := { (s.core n).queue q with
    st := if ((s.core n).queue q).inflight = [] ∧ !s.updInFlight n q then .halted else .draining, wait := none, fence := none, running := none, fetched := [] }
  let c : Core := match (s.core n).run with
    | some r => if r.queue = q then (s.core n).dropRun else s.core n
    | none => s.core n
  have hst : y.st = .halted ∨ y.st = .draining := by
    by_cases h : ((s.core n).queue q).inflight = [] ∧ !s.updInFlight n q <;> simp [y, h]
  have hy : y ≠ {} := by intro e; rw [e] at hst; simp at hst
  have hstop : s.stopQueue n q = (s.dropWaits n q).setCore n (c.setQueue q y) := by
    unfold State.stopQueue
    simp only [c, y]
    all_goals rfl
  have hcq : (c.setQueue q y).queue q = y := Core.queue_setQueue q c y
  have hcore : (s.stopQueue n q).core n = c.setQueue q y := by rw [hstop]; exact State.core_setCore _ n _
  let z : Queue := { y with lastFault := BitVec.ofNat 16 f.code, record := f.encode n q s.tick }
  have hsplit : s.haltQueue n q f =
      (((s.stopQueue n q).setQueue n q z).post (3 + ((s.stopQueue n q).setQueue n q z).dieOf n)
        (.queueFault n q f.code (f.encode n q s.tick))).finishJobs := by
    unfold State.haltQueue
    simp only [State.queue, hcore, hcq, z]
  refine ⟨z, ?_, rfl, hst, ?_, ?_⟩
  · rw [hsplit, State.finishJobs_core]
    show ((s.stopQueue n q).setQueue n q z).core n = _
    rw [State.core_setQueue, hcore]
    show (c.setQueue q y).setQueue q z = c.setQueue q z
    simp only [Core.setQueue, Map.set_set _ _ _ _ _ hy]
  · rw [hsplit, (State.finishJobs_keeps _).2.1]
    show (s.stopQueue n q).mem = s.mem
    rw [hstop]; rfl
  · intro j hj
    rw [hsplit, State.finishJobs_core]
    show ((s.stopQueue n q).setCore n _).core j = s.core j
    rw [State.core_setCore_other _ _ _ _ (Ne.symm hj), hstop, State.core_setCore_other _ _ _ _ (Ne.symm hj)]
    rfl

/-- A RUN told to stop ends in its fault. -/
theorem stopNow_faulted {s : State} {n : Nat} {r : RunState} (i : StopInfo) (h : (s.core n).run = some r) (hs : r.stop = none) :
    FaultedRun s (s.stopNow n i) n r i.code := by
  let c' : Core := { s.core n with run := some { r with stop := some i } }
  have hstop : (s.core n).stopRun i = c' := by simp [Core.stopRun, h, hs, c']
  have hc : (s.setCore n c').core n = c' := State.core_setCore s n c'
  have heq : s.stopNow n i = (s.setCore n c').haltQueue n r.queue
      { cmd := (((s.setCore n c').queue n r.queue).running.map fun c => c.idx).getD ((s.setCore n c').queue n r.queue).ptr.toNat,
        code := i.code, opcode := 1, pc := some (i.slot, i.pc), detail := i.detail } := by
    simp only [State.stopNow, State.haltStop, hstop, hc, c']
  obtain ⟨x, h1, h2, h3, h4, h5⟩ := State.haltQueue_eq (s.setCore n c') n r.queue
    { cmd := (((s.setCore n c').queue n r.queue).running.map fun c => c.idx).getD ((s.setCore n c').queue n r.queue).ptr.toNat,
      code := i.code, opcode := 1, pc := some (i.slot, i.pc), detail := i.detail }
  rw [← heq] at h1 h4 h5
  simp only [hc, c', if_true] at h1
  refine ⟨⟨?_, ?_⟩, ?_, ?_, ?_, ?_⟩
  · show ((s.stopNow n i).core n |>.queue r.queue).lastFault = _
    rw [h1, Core.queue_setQueue]; exact h2
  · show ((s.stopNow n i).core n |>.queue r.queue).st = .halted ∨ ((s.stopNow n i).core n |>.queue r.queue).st = .draining
    rw [h1, Core.queue_setQueue]; exact h3
  · rw [h1]; rfl
  · rw [h1]; exact ⟨rfl, rfl, rfl, rfl, rfl⟩
  · rw [h4]; rfl
  · intro j hj
    rw [h5 j hj, State.core_setCore_other _ _ _ _ (Ne.symm hj)]

/-- A RUN that stops with nothing else of its core's files changed since `s`. -/
theorem FaultedRun.from {s s' t : State} {n : Nat} {r : RunState} {code : Nat} (h : FaultedRun s' t n r code)
    (hf : (s'.core n).v = (s.core n).v ∧ (s'.core n).s = (s.core n).s ∧ (s'.core n).a = (s.core n).a ∧ (s'.core n).p = (s.core n).p ∧
      (s'.core n).acc = (s.core n).acc) (hm : s'.mem = s.mem) (ho : ∀ j, j ≠ n → s'.core j = s.core j) : FaultedRun s t n r code :=
  ⟨h.queue, h.ended,
    ⟨h.files.1.trans hf.1, h.files.2.1.trans hf.2.1, h.files.2.2.1.trans hf.2.2.1, h.files.2.2.2.1.trans hf.2.2.2.1,
      h.files.2.2.2.2.trans hf.2.2.2.2⟩, h.memory.trans hm, fun j hj => (h.others j hj).trans (ho j hj)⟩

/-- An operation outside the control slot that faults at issue ends its RUN. -/
theorem issueRow_fault {s : State} {n : Nat} {r : RunState} {op : SlotOp} {code det : Nat} (h : s.Issues n r op)
    (hctl : ∀ o f, op ≠ .ctl o f) (he : issueSlot s n (s.core n).pc op = (s, some (code, det))) :
    FaultedRun s (issueRow s n op) n r code := by
  have hfree : ¬ (s.core n).cycle < Map.get 0 (s.core n).busy op.slot := Nat.not_lt.mpr h.free
  let d : Core := (s.core n).bundleDone r (s.core n).cycle (s.core n).pc
    { slots := 1 <<< op.slot, idle := 0, bkpt := false, mark := false, last := false } [op] ((s.core n).flow r op)
  let r' : RunState := { r with
    nextIssue := ((s.core n).flow r op).at_, redirect := ((s.core n).flow r op).later, ended := false, skipBkpt := false, stop := none }
  have hd : d.run = some r' := by simp [d, r', Core.bundleDone, Core.flow, h.run, h.live.2.2]
  have heq : issueRow s n op = (s.draw.setCore n d).stopNow n ⟨code, (s.core n).pc, op.slot, det⟩ := by
    rw [issueRow_legal h]
    simp only [issueLegal, h.run, List.find?_cons, hfree, decide_false, List.find?_nil, issueAll, List.foldl_cons, List.foldl_nil, he,
      State.ctlFlow, ctlOf_other hctl, Option.map_none, Option.map_some, Option.orElse_none, Option.orElse_some]
    have hs : d.stopRun ⟨code, (s.core n).pc, op.slot, det⟩ = { d with run := some { r' with stop := some ⟨code, (s.core n).pc, op.slot, det⟩ } } := by
      simp [Core.stopRun, hd, r']
    show (((s.draw.setCore n d).setCore n (((s.draw.setCore n d).core n).stopRun _)).checkStop n) = _
    rw [State.core_setCore s.draw n d, hs]
    unfold State.checkStop State.stopNow
    rw [State.core_setCore (s.draw.setCore n d) n, State.core_setCore s.draw n d, hs]
    have : r'.nextIssue ≤ d.cycle + 1 := Nat.le_refl _
    simp [this]
  have hc : (s.draw.setCore n d).core n = d := State.core_setCore s.draw n d
  rw [heq]
  have := stopNow_faulted (s := s.draw.setCore n d) (n := n) (r := r') ⟨code, (s.core n).pc, op.slot, det⟩ (by rw [hc]; exact hd) rfl
  have hq : FaultedRun (s.draw.setCore n d) ((s.draw.setCore n d).stopNow n ⟨code, (s.core n).pc, op.slot, det⟩) n r code :=
    ⟨this.queue, this.ended, this.files, this.memory, this.others⟩
  refine hq.from ?_ rfl ?_
  · rw [hc]; exact ⟨rfl, rfl, rfl, rfl, rfl⟩
  · intro j hj; exact State.core_setCore_other s.draw n d j (Ne.symm hj)

end Sys2Proof.Machine
end

