-- ==== Sys2Proof/Laws/Memory.lean ====
section
/-! SUPPORT. What the operations over memory do: reads leave it alone, and every write keeps its canonical form. -/

namespace Sys2Proof.Machine

/-- What each step of a fold keeps, the fold keeps. -/
theorem foldl_keeps {α β : Type} (P : α → Prop) (f : α → β → α) (h : ∀ a b, P a → P (f a b)) (l : List β) (a : α) (ha : P a) :
    P (l.foldl f a) := by
  induction l generalizing a with
  | nil => exact ha
  | cons b l ih => exact ih _ (h a b ha)

/-- A fold whose steps leave memory alone leaves it alone. -/
theorem mem_foldl {β : Type} (f : State → β → State) (hf : ∀ s b, (f s b).mem = s.mem) (l : List β) (s : State) :
    (l.foldl f s).mem = s.mem := foldl_keeps (fun t : State => t.mem = s.mem) f (fun t b h => (hf t b).trans h) l s rfl

/-! ### Operations that leave memory alone -/

@[simp] theorem State.mem_draw (s : State) : s.draw.mem = s.mem := rfl
@[simp] theorem State.mem_post (s : State) (src : Nat) (b : EvBody) (l : List Audit) : (s.post src b l).mem = s.mem := rfl
@[simp] theorem State.mem_postEv (s : State) (src code : Nat) (p : Option Nat) (d : List Nat) : (s.postEv src code p d).mem = s.mem := rfl
@[simp] theorem State.mem_complete (s : State) (q i st f : Nat) (r : List Nat) (l : List Audit) : (s.complete q i st f r l).mem = s.mem := rfl
@[simp] theorem State.mem_completeFree (s : State) (q i f : Nat) : (s.completeFree q i f).mem = s.mem := rfl
@[simp] theorem State.mem_repair (s : State) (src cls e st a : Nat) (p : Option Nat) (code o x : Nat) :
    (s.repair src cls e st a p code o x).mem = s.mem := rfl
@[simp] theorem State.mem_takePins (s : State) (k : Nat) : (s.takePins k).1.mem = s.mem := rfl
@[simp] theorem State.mem_setCore (s : State) (n : Nat) (c : Core) : (s.setCore n c).mem = s.mem := rfl
@[simp] theorem State.mem_setQueue (s : State) (n q : Nat) (x : Queue) : (s.setQueue n q x).mem = s.mem := rfl
@[simp] theorem State.mem_setSub (s : State) (n l : Nat) (x : SubCh) : (s.setSub n l x).mem = s.mem := rfl
@[simp] theorem State.mem_setChan (s : State) (k c : Nat) (x : Chan) : (s.setChan k c x).mem = s.mem := rfl
@[simp] theorem State.mem_setAcct (s : State) (t m : Nat) (a : SluAcct) : (s.setAcct t m a).mem = s.mem := rfl

/-- Decoding a cistern codeword leaves memory alone. -/
@[simp] theorem State.mem_cistDecodeN (s : State) (n x : Nat) (e : List Nat) : (s.cistDecodeN n x e).1.mem = s.mem := by
  unfold State.cistDecodeN
  dsimp only
  rw [State.mem_draw, mem_foldl]
  · rfl
  · intro s b; rfl
/-- Decoding a cistern codeword leaves memory alone. -/
@[simp] theorem State.mem_cistDecode (s : State) (n x : Nat) (e : List Nat) : (s.cistDecode n x e).1.mem = s.mem := s.mem_cistDecodeN n x e
/-- Decoding a reservoir codeword leaves memory alone. -/
@[simp] theorem State.mem_rsvDecodeN (s : State) (k x : Nat) (e : List Nat) : (s.rsvDecodeN k x e).1.mem = s.mem := by
  unfold State.rsvDecodeN
  dsimp only
  rw [State.mem_draw, mem_foldl]
  · rfl
  · intro s b; rfl
/-- Decoding a reservoir codeword leaves memory alone. -/
@[simp] theorem State.mem_rsvDecode (s : State) (k x : Nat) (e : List Nat) : (s.rsvDecode k x e).1.mem = s.mem := s.mem_rsvDecodeN k x e

/-- Decoding a codeword in a base die leaves memory alone. -/
@[simp] theorem State.mem_baseCw (s : State) (k c key : Nat) : (s.baseCw k c key).1.mem = s.mem := rfl

/-- Reading codewords leaves memory alone where decoding one does. -/
theorem State.mem_readCws (s : State) (dec : State → Nat → State × CwOut) (hd : ∀ s x, (dec s x).1.mem = s.mem) (x n : Nat) (u : Bool) :
    (s.readCws dec x n u).1.mem = s.mem := by
  have h := foldl_keeps (fun a : State × List Byte × List Nat => a.1.mem = s.mem)
    (fun acc p =>
      let o := dec acc.1 p.1
      match o.2 with
      | .data bs => (o.1, acc.2.1 ++ (bs.drop (p.1 % 64)).take p.2, acc.2.2)
      | .poison => (o.1, acc.2.1, acc.2.2 ++ [cMemPoison])
      | .uncorr => (o.1, acc.2.1, acc.2.2 ++ [cMemUncorrectable]))
    (fun a p ha => by dsimp only; split <;> simp [hd, ha]) (pieces 64 (n / 64 + 2) x n) (s, [], []) rfl
  unfold State.readCws
  dsimp only
  split <;> exact h

/-- Reading runs leaves memory alone where reading one does. -/
theorem mem_readRuns (one : State → Nat × Nat → State × Except Nat (List Byte)) (ho : ∀ s p, (one s p).1.mem = s.mem) (s : State)
    (runs : List (Nat × Nat)) : (readRuns one s runs).1.mem = s.mem := by
  have h := foldl_keeps (fun a : State × List Byte × Option (Nat × Nat) => a.1.mem = s.mem)
    (fun acc p =>
      let o := one acc.1 p
      match o.2 with
      | .ok bs => (o.1, acc.2.1 ++ bs, acc.2.2)
      | .error c => (o.1, acc.2.1, acc.2.2.orElse fun _ => some (c, p.1)))
    (fun a p ha => by dsimp only; split <;> simp [ho, ha]) runs (s, [], none) rfl
  unfold readRuns
  dsimp only
  split <;> exact h

/-- A read at its target leaves memory alone. -/
@[simp] theorem State.mem_readAt (s : State) (runs : List (Nat × Nat)) : (s.readAt runs).1.mem = s.mem := by
  unfold State.readAt
  dsimp only
  split
  · rfl
  · rfl
  · exact mem_readRuns _ (fun _ _ => rfl) _ _
  · exact mem_readRuns _ (fun _ _ => rfl) _ _
  · split
    · rfl
    · split
      · rfl
      · exact mem_readRuns _ (fun _ _ => State.mem_readCws _ _ (fun _ _ => by simp) _ _ _) _ _
  · split
    · rfl
    · split
      · rfl
      · refine mem_readRuns _ (fun t p => ?_) _ _
        dsimp only
        exact State.mem_readCws t (fun s y => s.rsvDecode _ y []) (fun _ _ => by simp) _ _ _

/-! ### Requests and their answers leave memory alone -/

@[simp] theorem State.mem_setRsv (s : State) (k : Nat) (x : Rsv) : (s.setRsv k x).mem = s.mem := rfl
@[simp] theorem State.mem_dropAcc (s : State) (w : Who) : (s.dropAcc w).mem = s.mem := rfl
@[simp] theorem State.mem_setAcc (s : State) (a : HeldAcc) : (s.setAcc a).mem = s.mem := rfl
@[simp] theorem State.mem_openAcc (s : State) (w : Who) : (s.openAcc w).mem = s.mem := rfl
@[simp] theorem State.mem_recordReq (s : State) (w : Who) (i c a : Nat) (bs : List Byte) : (s.recordReq w i c a bs).mem = s.mem := by
  unfold State.recordReq; split <;> rfl
@[simp] theorem State.mem_sluLatency (s : State) (m t ns : Nat) : (s.sluLatency m t ns).mem = s.mem := by
  unfold State.sluLatency; dsimp only; split <;> rfl
@[simp] theorem State.mem_barFault (s : State) (c a sub : Nat) : (s.barFault c a sub).mem = s.mem := by
  unfold State.barFault; dsimp only; split <;> rfl
@[simp] theorem State.mem_endHostRead (s : State) (h : HostRead) : (s.endHostRead h).mem = s.mem := by
  unfold State.endHostRead
  dsimp only
  split
  · rfl
  · rw [State.mem_barFault]; split <;> rfl
@[simp] theorem State.mem_hostAnswer (s : State) (r : MemReq) (bs : List Byte) : (s.hostAnswer r bs).mem = s.mem := by
  unfold State.hostAnswer
  split
  · split <;> simp
  · split <;> simp
  · rfl
@[simp] theorem State.mem_finishReq (s : State) (r : MemReq) : (s.finishReq r).mem = s.mem := by
  unfold State.finishReq
  dsimp only
  split <;> simp
@[simp] theorem State.mem_measure (s : State) (r : MemReq) (p : ReqPart) : (s.measure r p).1.mem = s.mem := by
  unfold State.measure
  dsimp only
  apply mem_foldl
  intro s l
  split <;> simp
@[simp] theorem State.mem_partDone (s : State) (p : ReqPart) (c a sub : Nat) (bs : List Byte) : (s.partDone p c a sub bs).mem = s.mem := by
  unfold State.partDone
  split
  · rfl
  · dsimp only
    split <;> simp
/-- A part's answer leaves memory alone, at its master's side of the bridge and at its target's. -/
@[simp] theorem State.mem_answer (s : State) (p : ReqPart) (c a sub : Nat) (bs : List Byte) : (s.answer p c a sub bs).mem = s.mem := by
  unfold State.answer
  dsimp only
  split <;> simp
@[simp] theorem State.mem_failPart (s : State) (c sub : Nat) (p : ReqPart) : (s.failPart c sub p).mem = s.mem := s.mem_partDone ..
@[simp] theorem State.mem_refusePart (s : State) (c sub : Nat) (p : ReqPart) : (s.refusePart c sub p).mem = s.mem := s.mem_answer ..
@[simp] theorem State.mem_channelBusy (s : State) (k sub : Nat) (p : ReqPart) : (s.channelBusy k sub p).mem = s.mem := by
  simp [State.channelBusy]
/-- The sluice leaves memory alone. -/
@[simp] theorem State.mem_sluice (s : State) (b : List (Nat × Nat)) (ns : List ((Nat × Nat) × Nat)) : (s.sluice b ns).1.mem = s.mem := by
  unfold State.sluice
  split
  · rfl
  · split
    · exact mem_foldl (fun s (p : (Nat × Nat) × Nat) => s.setAcct p.1.2 p.1.1 ((s.acct p.1.2 p.1.1).take p.2)) (fun _ _ => rfl) ns s
    · exact mem_foldl (fun s (p : (Nat × Nat) × Nat) => s.setAcct p.1.2 p.1.1 { s.acct p.1.2 p.1.1 with active := true })
        (fun _ _ => rfl) ns s
@[simp] theorem State.mem_clockReq (s : State) (h : HeldReq) : (s.clockReq h).mem = s.mem := rfl
@[simp] theorem State.mem_refuseHeld (s : State) (h : HeldReq) (sub : Nat) : (s.refuseHeld h sub).mem = s.mem := by
  unfold State.refuseHeld
  apply mem_foldl
  intro s p
  split <;> simp
@[simp] theorem State.mem_openReq (s : State) (m : Master) (w : Who) (acc wr : Bool) (ma n : Nat) (d : List Byte) (ps : List Nat) :
    (s.openReq m w acc wr ma n d ps).1.mem = s.mem := by
  unfold State.openReq
  dsimp only
  split <;> simp

/-! ### Operations that write memory keep its canonical form -/

/-- The canonical form is kept by a run of bytes stored. -/
theorem State.wf_setRaw (s : State) (key : Nat) (bs : List Byte) (h : Memory.wf s.mem = true) : Memory.wf (s.setRaw key bs).mem = true :=
  Map.wf_setRange 0 s.mem key bs h
/-- It is kept by a codeword stored. -/
theorem State.wf_putCw (s : State) (key : Nat) (bs : List Byte) (h : Memory.wf s.mem = true) : Memory.wf (s.putCw key bs).mem = true :=
  s.wf_setRaw key bs h
/-- It is kept by poison stored. -/
theorem State.wf_putPoison (s : State) (key : Nat) (h : Memory.wf s.mem = true) : Memory.wf (s.putPoison key).mem = true := by
  unfold State.putPoison
  generalize List.replicate 64 (0 : Byte) = bs
  exact s.wf_setRaw key bs h
/-- It is kept by memory zeroed. -/
theorem State.wf_zeroMem (s : State) (p : Nat → Bool) (h : Memory.wf s.mem = true) : Memory.wf (s.zeroMem p).mem = true :=
  Map.wf_drop 0 p s.mem h
/-- What memory zeroed reads as. -/
theorem State.get_zeroMem (s : State) (p : Nat → Bool) (a : Nat) :
    Map.get 0 (s.zeroMem p).mem a = if p a then 0 else Map.get 0 s.mem a := Map.get_drop 0 p s.mem a

/-- It is kept by bytes written to a scratchpad or bundle store. -/
theorem State.wf_writeSram (s : State) (key : Nat) (bs : List Byte) (h : Memory.wf s.mem = true) :
    Memory.wf (s.writeSram key bs).1.mem = true := by
  unfold State.writeSram
  refine foldl_keeps (fun a : State × Option Nat × Nat => Memory.wf a.1.mem = true) _ (fun a p ha => ?_) _ _ h
  dsimp only
  split
  · exact State.wf_setRaw a.1 p.1 _ ha
  · split
    · exact State.wf_setRaw a.1 _ _ ha
    · exact ha

/-- The codewords of a write are read without touching memory where decoding one leaves it alone. -/
theorem State.mem_fillCws (s : State) (dec : State → Nat → State × CwOut) (hd : ∀ s x, (dec s x).1.mem = s.mem) (at_ : Nat → Nat × Nat)
    (ws : List (Nat × List Byte)) : (s.fillCws dec at_ ws).1.mem = s.mem := by
  unfold State.fillCws
  refine foldl_keeps (fun a : State × List (Nat × List Byte) × Option (Nat × Nat) => a.1.mem = s.mem) _ (fun a p ha => ?_) _ _ rfl
  dsimp only
  split
  · exact ha
  · split <;> simp [hd, ha]

/-- It is kept by codewords written where decoding one leaves memory alone. -/
theorem State.wf_writeCws (s : State) (dec : State → Nat → State × CwOut) (hd : ∀ s x, (dec s x).1.mem = s.mem) (at_ : Nat → Nat × Nat)
    (ws : List (Nat × List Byte)) (h : Memory.wf s.mem = true) : Memory.wf (s.writeCws dec at_ ws).1.mem = true := by
  have hf : Memory.wf (s.fillCws dec at_ ws).1.mem = true := by rw [s.mem_fillCws dec hd]; exact h
  unfold State.writeCws
  dsimp only
  split
  · exact hf
  · exact foldl_keeps (fun t : State => Memory.wf t.mem = true) _ (fun t w ht => t.wf_putCw _ _ ht) _ _ hf

/-- It is kept by a part written at its target. -/
theorem State.wf_writeAt (s : State) (runs : List (Nat × Nat)) (bs : List Byte) (h : Memory.wf s.mem = true) :
    Memory.wf (s.writeAt runs bs).1.mem = true := by
  unfold State.writeAt
  dsimp only
  split
  · exact h
  · exact h
  · exact foldl_keeps (fun a : State × Option Nat => Memory.wf a.1.mem = true) _ (fun a w ha => a.1.wf_writeSram _ _ ha) _ _ h
  · exact foldl_keeps (fun a : State × Option Nat => Memory.wf a.1.mem = true) _ (fun a w ha => a.1.wf_writeSram _ _ ha) _ _ h
  · split
    · exact h
    · split
      · exact h
      · exact s.wf_writeCws _ (fun _ _ => by simp) _ _ h
  · split
    · exact h
    · split
      · exact h
      · exact s.wf_writeCws _ (fun _ _ => by simp) _ _ h

/-- It is kept by codewords stored as poison. -/
theorem State.wf_poisonCws (s : State) (l : List Nat) (h : Memory.wf s.mem = true) : Memory.wf (s.poisonCws l).mem = true :=
  foldl_keeps (fun t : State => Memory.wf t.mem = true) _ (fun t _ ht => t.wf_putPoison _ ht) _ _ h

/-- It is kept by a part performed. -/
theorem State.wf_perform (s : State) (p : ReqPart) (h : Memory.wf s.mem = true) : ∀ t, s.perform p = some t → Memory.wf t.mem = true := by
  have ho : Memory.wf (if p.wr then s.writeAt p.runs p.data else s.readAt p.runs).1.mem = true := by
    split
    · exact s.wf_writeAt _ _ h
    · rw [s.mem_readAt]; exact h
  intro t ht
  unfold State.perform at ht
  dsimp only at ht
  split at ht
  · cases ht; rw [State.mem_answer]; exact State.wf_poisonCws _ _ ho
  · cases ht; rw [State.mem_answer]; exact ho
  · cases ht

/-- It is kept by the requests of a channel served. -/
theorem State.wf_serveN (k c : Nat) : ∀ (fuel : Nat) (s : State), Memory.wf s.mem = true → Memory.wf (s.serveN k c fuel).mem = true
  | 0, _, h => h
  | fuel + 1, s, h => by
    unfold State.serveN
    dsimp only
    split
    · exact h
    · split
      · split
        · split
          · exact State.wf_serveN k c fuel _ (by rw [State.mem_channelBusy]; exact h)
          · split
            · next t ht => exact State.wf_serveN k c fuel _ (State.wf_perform _ _ (by exact h) t ht)
            · exact h
        · exact h
      · exact h
theorem State.wf_serve (s : State) (k c : Nat) (h : Memory.wf s.mem = true) : Memory.wf (s.serve k c).mem = true :=
  State.wf_serveN k c _ s h

/-- It is kept by a part that comes to an arbiter, a sub-channel or a core's ingress. -/
theorem State.wf_arbitrate (s : State) (k c : Nat) (r : ReqPart) (h : Memory.wf s.mem = true) :
    Memory.wf (s.arbitrate k c r).mem = true := by
  unfold State.arbitrate
  dsimp only
  split
  · split
    · next t ht => exact s.wf_perform r h t ht
    · exact h
  · split
    · rw [State.mem_channelBusy]; exact h
    · exact State.wf_serve _ _ _ (by exact h)
theorem State.wf_performD (s : State) (r : ReqPart) (h : Memory.wf s.mem = true) : Memory.wf ((s.perform r).getD s).mem = true := by
  cases ht : s.perform r with
  | none => exact h
  | some t => exact s.wf_perform r h t ht
theorem State.wf_atSub (s : State) (n l : Nat) (r : ReqPart) (h : Memory.wf s.mem = true) : Memory.wf (s.atSub n l r).mem = true := by
  unfold State.atSub
  dsimp only
  split
  · rw [State.mem_refusePart]; exact h
  · split
    · exact h
    · split
      · exact h
      · exact s.wf_performD r h
theorem State.wf_serveWord (s : State) (n q ma k : Nat) (h : Memory.wf s.mem = true) : Memory.wf (s.serveWord n q ma k).mem = true := by
  unfold State.serveWord
  split
  · exact h
  · next x _ =>
    have hw : ∀ (b : Bool) (a : State × PadPart) (c : State × PadPart), Memory.wf a.1.mem = true → Memory.wf c.1.mem = true →
        Memory.wf (if b then a else c).1.mem = true := by intro b a c ha hc; cases b <;> assumption
    dsimp only
    have hr := hw x.p.wr
      (let w := s.writeSram (s.resolve ma).key (x.p.bytesAt ma k)
       let c := w.1.core n
       (w.1.setCore n { c with sramFixed := c.sramFixed + w.2.2 }, { x with bad := x.bad.orElse fun _ => w.2.1.map fun _ => ma }))
      (let w := s.readSram (s.resolve ma).key k
       let c := s.core n
       (s.setCore n { c with sramFixed := c.sramFixed + w.2.2 },
        { x with got := insertPiece (ma, w.1) x.got, bad := x.bad.orElse fun _ => w.2.1.map fun _ => ma }))
      (s.wf_writeSram _ _ h) h
    split
    · split <;> (rw [State.mem_answer]; exact hr)
    · exact hr
theorem State.wf_serveWords (s : State) (n : Nat) {α : Type} (l : List α) (q a k : α → Nat) (h : Memory.wf s.mem = true) :
    Memory.wf (l.foldl (fun s w => s.serveWord n (q w) (a w) (k w)) s).mem = true :=
  foldl_keeps (fun t : State => Memory.wf t.mem = true) _ (fun t _ ht => t.wf_serveWord n _ _ _ ht) _ _ h
theorem State.wf_atPad (s : State) (n : Nat) (p : ReqPart) (h : Memory.wf s.mem = true) : Memory.wf (s.atPad n p).mem = true := by
  unfold State.atPad
  dsimp only
  split
  · exact State.wf_serveWords _ n p.words (fun _ => p.seq) Prod.fst Prod.snd h
  · exact h

/-- It is kept by a part that arrives. -/
theorem State.wf_arrive (s : State) (p : ReqPart) (h : Memory.wf s.mem = true) : Memory.wf (s.arrive p).mem = true := by
  have hs : Memory.wf (match p.arrived with | some _ => s | none => { s with arrNo := s.arrNo + 1 }).mem = true := by split <;> exact h
  unfold State.arrive
  dsimp only
  split
  · exact State.wf_atSub _ _ _ _ hs
  · exact State.wf_arbitrate _ _ _ _ hs
  · exact State.wf_atPad _ _ _ hs
  · exact State.wf_atPad _ _ _ hs
  · exact State.wf_performD _ _ hs
theorem State.wf_reach (s : State) (p : ReqPart) (h : Memory.wf s.mem = true) : Memory.wf (s.reach p).mem = true := by
  have hr : ∀ c, Memory.wf (s.refusePart c 0 p).mem = true := by intro c; rw [State.mem_refusePart]; exact h
  have hi : ∀ (b : Bool) (x y : State), Memory.wf x.mem = true → Memory.wf y.mem = true → Memory.wf (if b then x else y).mem = true := by
    intro b x y hx hy; cases b <;> assumption
  exact hi _ _ _ (hr _) (hi _ _ _ (hr _) (hi _ _ _ (hr _) (s.wf_arrive p h)))
theorem State.wf_reachAll (s : State) (ps : List ReqPart) (h : Memory.wf s.mem = true) : Memory.wf (ps.foldl State.reach s).mem = true :=
  foldl_keeps (fun t : State => Memory.wf t.mem = true) _ (fun t p ht => t.wf_reach p ht) _ _ h

/-- It is kept at a sluice by what keeps it behind the sluice. -/
theorem State.wf_atSluice (s : State) (x : HeldReq) (go : State → State) (hg : ∀ t, Memory.wf t.mem = true → Memory.wf (go t).mem = true)
    (h : Memory.wf s.mem = true) : Memory.wf (s.atSluice x go).mem = true := by
  have hr : ∀ b, Memory.wf ((s.clockReq x).sluice b x.needs).1.mem = true := by intro b; rw [State.mem_sluice]; exact h
  unfold State.atSluice
  dsimp only
  split
  · exact hg _ (hr _)
  · exact hr _
  · rw [State.mem_refuseHeld]; exact h
theorem State.wf_leave (s : State) (x : HeldReq) (h : Memory.wf s.mem = true) : Memory.wf (s.leave x).mem = true := by
  unfold State.leave
  dsimp only
  have hs := s.wf_reachAll ((x.parts.filter fun p => !s.masterFenced x.port (s.resolve p.ma)).filter fun p => !p.cross) h
  split
  · exact hs
  · unfold State.cross
    split
    · exact (mem_foldl _ (fun _ _ => State.mem_failPart ..) _ _).symm ▸ hs
    · split
      · exact hs
      · exact State.wf_atSluice _ _ _ (fun t ht => t.wf_reachAll _ ht) hs

/-- It is kept by held requests issued. -/
theorem State.wf_issueHeld (s : State) (h : Memory.wf s.mem = true) : Memory.wf s.issueHeld.mem = true := by
  refine foldl_keeps (fun t : State => Memory.wf t.mem = true) _ (fun t x ht => ?_) _ _ h
  have hr : ∀ b, Memory.wf (t.sluice b x.needs).1.mem = true := by intro b; rw [State.mem_sluice]; exact ht
  unfold State.issueOne
  dsimp only
  split
  · split
    · exact State.wf_reachAll _ _ (hr _)
    · exact State.wf_leave _ _ (hr _)
  · exact hr _
  · rw [State.mem_refuseHeld]; exact ht

/-- It is kept by a request of a master. -/
theorem State.wf_submit (s : State) (m : Master) (w : Who) (acc wr : Bool) (ma n : Nat) (d : List Byte) (ps : List Nat)
    (h : Memory.wf s.mem = true) : Memory.wf (s.submit m w acc wr ma n d ps).mem = true := by
  have ho : Memory.wf (s.openReq m w acc wr ma n d ps).1.mem = true := by rw [State.mem_openReq]; exact h
  unfold State.submit State.sendReq
  generalize (s.openReq m w acc wr ma n d ps) = r at ho
  dsimp only
  have hf : Memory.wf (r.2.foldl (fun s p => match s.gateFault m p with | some c => s.failPart c 0 p | none => s) r.1).mem = true := by
    rw [mem_foldl]
    · exact ho
    · intro s p; split <;> simp
  generalize r.2.foldl (fun s p => match s.gateFault m p with | some c => s.failPart c 0 p | none => s) r.1 = t at hf
  have hr := t.wf_reachAll ((r.2.filter fun p => (t.gateFault m p).isNone).filter fun p => p.near == []) hf
  split
  · exact hr
  · split
    · exact hr
    · exact State.wf_atSluice _ _ _ (fun t ht => t.wf_leave _ ht) hr

/-- It is kept by a request of an access under way. -/
theorem State.wf_access (s : State) (w : Who) (m : Master) (wr : Bool) (ma n : Nat) (d : List Byte) (ps : List Nat) (retry : Bool)
    (h : Memory.wf s.mem = true) : Memory.wf (s.access w m wr ma n d ps retry).1.mem = true := by
  unfold State.access
  split
  · exact h
  · dsimp only
    have hs : ∀ (b : Bool) (t : State), Memory.wf t.mem = true →
        Memory.wf (if b then t else t.submit m w true wr ma n d ps).mem = true := by
      intro b t ht; cases b
      · exact t.wf_submit m w true wr ma n d ps ht
      · exact ht
    split <;> exact hs _ _ h
theorem State.wf_readMA (s : State) (w : Who) (m : Master) (ma n : Nat) (h : Memory.wf s.mem = true) :
    Memory.wf (s.readMA w m ma n).1.mem = true := s.wf_access w m false ma n [] [] false h
theorem State.wf_writeMA (s : State) (w : Who) (m : Master) (ma : Nat) (bs : List Byte) (h : Memory.wf s.mem = true) :
    Memory.wf (s.writeMA w m ma bs).1.mem = true := s.wf_access w m true ma bs.length bs [] false h

/-- Reset memory has the form. -/
theorem wf_reset : Memory.wf State.reset.mem = true := rfl

end Sys2Proof.Machine
end

