-- ==== Sys2Proof/WellFormed.lean ====
section
/-! DEFINITION. Which commands the outside world can send: every operand in the range the spec gives it. A command that fails a
check is one that no sender of the GH960 makes; `exec` answers a next state for it all the same. -/

namespace Sys2Proof

/-- A Moarex port number (12 R254: 20 ports). -/
def portOk (p : BitVec 5) : Bool := decide (p.toNat < 20)
/-- A physical lane of a port (12 R255: 20 lanes and 2 spares). -/
def laneOk (l : BitVec 5) : Bool := decide (l.toNat < 22)
/-- A lane width (12 Table LNK-1). -/
def widthOk (w : Nat) : Bool := w == 20 || w == 16 || w == 10
/-- A lane plan: one physical lane for each logical lane of the width, none twice (12 R256). -/
def planOk (map : List Nat) (width : Nat) : Bool :=
  widthOk width && map.length == width && map.all (fun l => decide (l < 22)) && decide map.Nodup
/-- A sluice target (10 Table NET-3). -/
def targetOk (t : BitVec 6) : Bool := decide (t.toNat < 63)
/-- A ring: 16 submission, 16 completion, one event ring (13 R290). -/
def ringOk (r : BitVec 6) : Bool := decide (r.toNat < 33)
/-- A register access is of 4 or 8 bytes (01 R20). -/
def accessOk (len : BitVec 4) : Bool := len == 4#4 || len == 8#4
/-- A queue submission entry read by the hub is of `n` bytes (13 R291). -/
def HostData.lenOk (n : Nat) : HostData → Bool
  | .ok bs => bs.length == n
  | .failed => true
/-- A message of a frame header (12 Table LNK-2). -/
def LinkMsg.wf : LinkMsg → Bool
  | .lanePlan _ map width _ => planOk map width
  | .admitReq _ _ _ _ _ _ => true
  | .admitGrant _ _ => true
  | .admitRefuse _ reason => decide (1 ≤ reason) && decide (reason ≤ 4)
  | .cancel _ _ _ => true
  | .streamReset _ _ _ => true
  | .close _ _ _ => true
  | .peerReset _ => true
/-- A frame header: its index, its width and at most two messages (12 R258, R259, R261). -/
def FrameHdr.wf (h : FrameHdr) : Bool :=
  decide (h.fidx.toNat < 26) && widthOk h.width.toNat && decide (h.msgs.length ≤ 2) && h.msgs.all fun m => m.2.wf
/-- A cell carries 512 bytes of data, of which at most 512 count (12 R259, R260). -/
def Cell.wf (c : Cell) : Bool := c.data.length == 512 && decide (c.bytes.toNat ≤ 512)
/-- A sample names every twin site, at most 512 cores, 32 clusters and 8 reservoirs (16 R350 to R352). -/
def SampleIn.wf (x : SampleIn) : Bool :=
  x.sites.length == 266 && decide (x.cores.length ≤ 512) && x.clusterW.length == 32 && x.rsvW.length == 8
/-- A PCI Express configuration write: a BAR2 size of the Resizable BAR's range (13 R282). -/
def CfgWrite.wf : CfgWrite → Bool
  | .bar2Size n => decide (28 ≤ n.toNat) && decide (n.toNat ≤ 40)
  | .bar0 _ => true
  | .bar2 _ => true
  | .deviceControl _ _ _ => true
  | .msixControl _ _ => true

/-- Every operand of the command lies in the range the spec gives it. -/
def Instr.wellFormed : Instr → Bool
  | .bundleIssue _ => true
  | .resultVisible _ => true
  | .stepLand _ => true
  | .step _ _ => true
  | .stepz _ _ => true
  | .drain _ _ => true
  | .drainz _ _ => true
  | .sopen _ _ => true
  | .streamLineFill _ _ _ => true
  | .coreFeedTimeout _ => true
  | .vadd _ _ => true
  | .vsub _ _ => true
  | .vmul _ _ => true
  | .vfma _ _ => true
  | .vmax _ _ => true
  | .vmin _ _ => true
  | .vabs _ _ => true
  | .vneg _ _ => true
  | .vhadd _ _ => true
  | .vhmul _ _ => true
  | .vhfma _ _ => true
  | .viadd _ _ => true
  | .visub _ _ => true
  | .viadds _ _ => true
  | .vimul _ _ => true
  | .vand _ _ => true
  | .vor _ _ => true
  | .vxor _ _ => true
  | .vshl _ _ => true
  | .vshr _ _ => true
  | .vsra _ _ => true
  | .vcmpeq _ _ => true
  | .vcmplt _ _ => true
  | .vcmple _ _ => true
  | .vsel _ _ => true
  | .vmov _ _ => true
  | .vbcast _ _ => true
  | .vperm _ _ => true
  | .vrsum _ _ => true
  | .vrmax _ _ => true
  | .vscan _ _ => true
  | .vcvt _ _ => true
  | .rcp _ _ => true
  | .rsqrt _ _ => true
  | .expOp _ _ => true
  | .exp2 _ _ => true
  | .logOp _ _ => true
  | .log2 _ _ => true
  | .tanh _ _ => true
  | .sigm _ _ => true
  | .sin _ _ => true
  | .cos _ _ => true
  | .expd _ _ => true
  | .add _ _ => true
  | .sub _ _ => true
  | .addi _ _ => true
  | .shin _ _ => true
  | .andOp _ _ => true
  | .orOp _ _ => true
  | .xorOp _ _ => true
  | .shl _ _ => true
  | .shr _ _ => true
  | .sra _ _ => true
  | .shli _ _ => true
  | .shri _ _ => true
  | .mul _ _ => true
  | .cmpeq _ _ => true
  | .cmplt _ _ => true
  | .cmpltu _ _ => true
  | .aaddi _ _ => true
  | .amov _ _ => true
  | .smova _ _ => true
  | .getv _ _ => true
  | .getf _ _ => true
  | .getlc _ _ => true
  | .gett _ _ => true
  | .vld _ _ => true
  | .vst _ _ => true
  | .sld _ _ => true
  | .sst _ _ => true
  | .ald _ _ => true
  | .ast _ _ => true
  | .pld _ _ => true
  | .pst _ _ => true
  | .br _ _ => true
  | .brl _ _ => true
  | .bri _ _ => true
  | .loop _ _ => true
  | .loopx _ _ => true
  | .endRun _ _ => true
  | .clrf _ _ => true
  | .trap _ _ => true
  | .runComplete _ => true
  | .asyncScratchpadAccess _ _ _ _ => true
  | .asyncBankForce _ _ => true
  | .runCmd _ _ => true
  | .queRunTimeout _ => true
  | .copy _ _ => true
  | .cascade _ _ => true
  | .gather _ _ => true
  | .fill _ _ => true
  | .dmaComplete _ _ => true
  | .commandFetch _ _ => true
  | .flagSet _ _ => true
  | .flagAdd _ _ => true
  | .flagWait _ _ => true
  | .fence _ _ => true
  | .flagUpdate _ _ _ => true
  | .queWaitTimeout _ _ => true
  | .startQueue _ _ => true
  | .haltQueue _ _ => true
  | .resumeRun _ _ => true
  | .resumeStep _ _ => true
  | .bank _ _ => true
  | .bankLaunchOrder _ _ => true
  | .channelSwitch _ _ => true
  | .bnkMovi _ _ _ => true
  | .bnkAddi _ _ _ => true
  | .bnkAdd _ _ _ => true
  | .bnkSub _ _ _ => true
  | .bnkLoop _ _ _ => true
  | .bnkEnd _ _ _ => true
  | .bnkClr _ _ _ => true
  | .bnkMac _ _ _ => true
  | .bnkMact _ _ _ => true
  | .bnkSmax _ _ _ => true
  | .bnkExpl _ _ _ => true
  | .bnkSt _ _ _ => true
  | .bnkLvb _ _ _ => true
  | .rsvBankBudget _ _ => true
  | .channelProgramEnd _ _ => true
  | .bankComplete _ => true
  | .poolAdd _ _ _ => true
  | .seqOpen _ _ _ => true
  | .seqClose _ _ _ => true
  | .append _ _ _ => true
  | .share _ _ _ => true
  | .truncate _ _ _ => true
  | .score _ _ _ => true
  | .apply _ _ _ => true
  | .abortPass _ _ _ => true
  | .passReadEnd _ _ _ => true
  | .attPassExpired _ _ => true
  | .pagedTranslation _ _ => true
  | .send _ _ => true
  | .recv _ _ => true
  | .sendTick port => portOk port
  | .frameHeader p _ h => portOk p && h.wf
  | .cellReceive port _ _ _ cell => portOk port && cell.all Cell.wf
  | .admitReq p _ _ _ _ _ _ _ => portOk p
  | .admitGrant p _ _ _ => portOk p
  | .admitRefuse p _ _ reason => portOk p && decide (1 ≤ reason) && decide (reason ≤ 4)
  | .cancel p _ _ _ _ => portOk p
  | .streamReset p _ _ _ _ => portOk p
  | .close p _ _ _ _ => portOk p
  | .peerResetMsg p _ _ => portOk p
  | .lanePlan p _ _ map width _ => portOk p && planOk map width
  | .lnkStreamBroken _ => true
  | .lnkNoClose _ => true
  | .lnkArmTimeout _ => true
  | .admitWaitExpiry port => portOk port
  | .lnkPortDown port => portOk port
  | .portUp port _ _ peerPort => portOk port && portOk peerPort
  | .turnBoundary => true
  | .flitReceive _ _ _ _ _ errs => errs.all (fun e => decide (e < 64))
  | .bridgeCalWindow _ fails => fails.all (fun x => decide (x.1 < 64))
  | .dieFence rsv obj _ => (rsv || decide (obj.toNat < 2))
  | .sluiceEpoch target => targetOk target
  | .sluiceStarved _ target => targetOk target
  | .cstRead _ _ _ _ _ _ => true
  | .cstWrite _ _ _ _ _ _ => true
  | .cstCalWindow _ _ fails => fails.all (fun p => decide (p < 72))
  | .cstEvacuationDone _ _ => true
  | .evacTargetTimeout _ _ _ => true
  | .cstRefresh _ _ => true
  | .memCstWriteHot _ _ => true
  | .rsvRequest _ _ _ _ _ _ _ => true
  | .holdTimeout _ _ => true
  | .rsvCalWindow _ _ fails => fails.all (fun p => decide (p < 72))
  | .rsvEvacuationDone _ _ => true
  | .rsvRefresh _ _ _ => true
  | .skimRead _ _ _ => true
  | .cadencePulse => true
  | .cadenceMissing => true
  | .turnMarker => true
  | .slewComplete => true
  | .clpUncertHigh => true
  | .scheduledAction port => port.all portOk
  | .sqDoorbell _ _ => true
  | .cqDoorbell _ _ => true
  | .eqDoorbell _ => true
  | .ringEnable ring _ => ringOk ring
  | .sqEntryTake _ entry => entry.lenOk 64
  | .cqEntryWrite _ => true
  | .msixInterrupt ring => ringOk ring
  | .hostBar2Read _ _ len => decide (0 < len.toNat) && decide (len.toNat ≤ 4096)
  | .hostBar2Write _ data => decide (0 < data.length) && decide (data.length ≤ 4096)
  | .regApertureAccess _ _ len _ => accessOk len
  | .hstReadExpired _ => true
  | .registerWrite _ _ _ len _ => accessOk len
  | .clrMax _ _ => true
  | .getProfile _ _ => true
  | .getParam _ _ => true
  | .setParam _ _ => true
  | .partCreate _ _ => true
  | .partDestroy _ _ => true
  | .setShares _ _ => true
  | .descWrite _ _ _ => true
  | .flagRead _ _ => true
  | .flagWrite _ _ => true
  | .load _ _ _ => true
  | .unload _ _ => true
  | .jobStart _ _ _ => true
  | .jobTimeout _ _ => true
  | .jobAbort _ _ => true
  | .faultRead _ _ => true
  | .hostDma _ _ => true
  | .hostDmaData _ _ _ _ => true
  | .hstDmaBroken _ _ => true
  | .scrub _ _ => true
  | .scrubComplete _ _ => true
  | .streamCancel _ _ => true
  | .resetModuleCold _ _ => true
  | .resetModuleWarm _ _ => true
  | .resetDie _ _ => true
  | .resetReservoir _ _ => true
  | .resetPartition _ _ => true
  | .resetCore _ _ => true
  | .dieRejoin _ _ _ => true
  | .reservoirRejoin _ _ _ => true
  | .timebaseSetTurn _ _ => true
  | .timebaseResync _ _ => true
  | .peerReset _ _ => true
  | .setWallclock _ _ => true
  | .licenceInstall _ _ _ => true
  | .fwUpdate _ _ _ => true
  | .auditExport _ _ => true
  | .cwSymbols _ _ => true
  | .cwPoison _ _ => true
  | .sramBits _ _ => true
  | .pinErrors _ _ => true
  | .channelHold _ _ => true
  | .writeHold _ _ => true
  | .cellDrop _ _ => true
  | .laneFail _ _ => true
  | .frameSilence _ _ => true
  | .flitCrc _ _ => true
  | .sensorOffset _ _ => true
  | .cadenceMask _ _ => true
  | .injectionApply => true
  | .injectionEnd _ => true
  | .eventSequence => true
  | .powerOn => true
  | .pwrOkFall _ => true
  | .modResetN _ _ => true
  | .perstN _ => true
  | .hotReset => true
  | .sbmReset _ => true
  | .watchdogExpiry => true
  | .resetRelease => true
  | .stageEnd st _ => decide (st.toNat ≤ 6)
  | .stageTimeout st _ => decide (st.toNat ≤ 6)
  | .recordWrite _ => true
  | .sensorSample x => x.wf
  | .sensorRecalWindow _ => true
  | .thmWeirEscalated _ => true
  | .escWRecovery => true
  | .trayReading _ => true
  | .capLaw => true
  | .gateStepSlot => true
  | .thermalTrip diodeSite _ => decide (diodeSite.toNat < 266)
  | .thmInputRange _ => true
  | .inputUndervoltage => true
  | .thmConverterLost _ => true
  | .calibrationWindowEnd _ => true
  | .vin48Arrival => true
  | .inputRangeReturn _ => true
  | .revocationCounterRetry => true
  | .trstN => true
  | .configurationWrite w => w.wf
  | .msixVectorUnmask _ => true
  | .hostDmaReadReturn _ _ => true
  | .completionTimeout _ _ => true
  | .laneLockLost port lane => portOk port && laneOk lane
  | .passLaunchOrder _ _ _ => true

end Sys2Proof
end

