-- ==== Sys2Proof/Tests/Slice0.lean ====
section
/-! SUPPORT. Tests of the model: an ill-formed command for each check, words and numbers of the spec's worked examples, and for each
statement with hypotheses a state and operands that meet them. -/

open Sys2Proof Sys2Proof.Machine

namespace Sys2Proof.Tests

set_option Elab.async false

/-! ### Well-formedness: each check refuses its term, and takes the last legal one -/

theorem test_wf_ports : portOk 19 = true ∧ portOk 20 = false ∧ (Instr.sendTick 20).wellFormed = false ∧
    (Instr.admitReq 20 0 0 0 0 0 0 0).wellFormed = false ∧ (Instr.admitGrant 31 0 0 0).wellFormed = false ∧
    (Instr.cancel 20 0 0 0 none).wellFormed = false ∧ (Instr.streamReset 20 0 0 0 1).wellFormed = false ∧
    (Instr.close 20 0 0 0 0).wellFormed = false ∧ (Instr.peerResetMsg 20 0 true).wellFormed = false ∧
    (Instr.admitWaitExpiry 20).wellFormed = false ∧ (Instr.lnkPortDown 20).wellFormed = false ∧
    (Instr.portUp 0 0 0 20).wellFormed = false ∧ (Instr.scheduledAction (some 20)).wellFormed = false ∧
    (Instr.scheduledAction none).wellFormed = true := by decide
theorem test_wf_messages : (Instr.admitRefuse 0 0 0 5).wellFormed = false ∧ (Instr.admitRefuse 0 0 0 4).wellFormed = true ∧
    (Instr.lanePlan 0 0 true (List.range 12) 12 0).wellFormed = false ∧ (Instr.lanePlan 0 0 true (List.range 16) 16 0).wellFormed = true ∧
    (Instr.lanePlan 0 0 true (List.replicate 10 3) 10 0).wellFormed = false ∧ (Instr.laneLockLost 0 22).wellFormed = false ∧
    (Instr.laneLockLost 0 21).wellFormed = true := by decide
/-- A frame header of 20 lanes. -/
def hdr (fidx : BitVec 5) (msgs : List (BitVec 16 × LinkMsg)) : FrameHdr :=
  { turn := 0, tickLo := 0, fidx := fidx, width := 20, node := 0, link := 0, locked := false, laneFail := 0, msgs := msgs }
theorem test_wf_header : (Instr.frameHeader 0 true (hdr 26 [])).wellFormed = false ∧
    (Instr.frameHeader 0 true (hdr 25 [(1, .peerReset true), (2, .peerReset true), (3, .peerReset true)])).wellFormed = false ∧
    (Instr.frameHeader 0 true (hdr 25 [(1, .peerReset true)])).wellFormed = true := by decide
theorem test_wf_cell : (Instr.cellReceive 0 [] none true
    (some { ctx := 0, epoch := 0, bytes := 0, last := false, seq := 0, data := [] })).wellFormed = false ∧
    (Instr.cellReceive 0 [] none true none).wellFormed = true := by decide
theorem test_wf_network : (Instr.sluiceEpoch 63).wellFormed = false ∧ (Instr.sluiceStarved 0 62).wellFormed = true ∧
    (Instr.sluiceStarved 0 63).wellFormed = false ∧ (Instr.flitReceive 0 0 0 true 0 [64]).wellFormed = false ∧
    (Instr.bridgeCalWindow 0 [(64, 0)]).wellFormed = false ∧ (Instr.dieFence false 2 1).wellFormed = false ∧
    (Instr.dieFence true 7 1).wellFormed = true ∧ (Instr.cstCalWindow 0 0 [72]).wellFormed = false ∧
    (Instr.rsvCalWindow 0 0 [72]).wellFormed = false := by decide
theorem test_wf_host : (Instr.ringEnable 33 0).wellFormed = false ∧ (Instr.ringEnable 32 0).wellFormed = true ∧
    (Instr.msixInterrupt 33).wellFormed = false ∧ (Instr.sqEntryTake 0 (.ok [])).wellFormed = false ∧
    (Instr.sqEntryTake 0 .failed).wellFormed = true ∧ (Instr.hostBar2Read 0 0 0).wellFormed = false ∧
    (Instr.hostBar2Write 0 []).wellFormed = false ∧ (Instr.regApertureAccess 0 0 2 none).wellFormed = false ∧
    (Instr.registerWrite .host false 0 5 0).wellFormed = false ∧ (Instr.configurationWrite (.bar2Size 41)).wellFormed = false ∧
    (Instr.configurationWrite (.bar2Size 40)).wellFormed = true := by decide
theorem test_wf_bringup : (Instr.stageTimeout 7 0).wellFormed = false ∧ (Instr.stageTimeout 6 0).wellFormed = true ∧
    (Instr.sensorSample { sites := [], cores := [], clusterW := [], rsvW := [], inputW := 0, vin := 0 }).wellFormed = false ∧
    (Instr.thermalTrip 266 0).wellFormed = false ∧ (Instr.thermalTrip 265 0).wellFormed = true := by decide
theorem test_wf_stage (x : StageIn) : (Instr.stageEnd 7 x).wellFormed = false ∧ (Instr.stageEnd 6 x).wellFormed = true := ⟨rfl, rfl⟩

/-! ### Cores -/

/-- A RUN of queue 0 that issues in cycle 1. -/
def run1 : RunState :=
  { queue := 0, limit := some 3, ticks := 3, left := none, nextIssue := 1, redirect := none, ended := false, suspended := false,
    skipBkpt := false, oneShot := false, stop := none }
/-- Core 0 in the issue cycle of that RUN, every register at its reset value; `f` changes the core. -/
def coreS (f : Core → Core) : State := State.reset.setCore 0 (f { run := some run1, cycle := 1 })

theorem slotBytes_le (n : Nat) : slotBytes n ≤ 12 := by
  unfold slotBytes; split <;> omega

/-- Any operation whose word is legal issues in that core. -/
theorem issues (op : SlotOp) (h : op.legal (2 + slotBytes op.slot) = true) :
    (coreS id).Issues 0 run1 op :=
  ⟨rfl, ⟨rfl, rfl, rfl⟩, rfl, rfl, Nat.zero_le _, h, by
    have := slotBytes_le op.slot
    show 0 + (2 + slotBytes op.slot) ≤ 524288
    omega, rfl, rfl⟩

/-- The fields of a vector operation on v0, every lane (p0 reads as ones). -/
def vf : VecF :=
  { vec1 := false, pred := 0, pneg := false, vd := 1, va := 2, vb := 3, vc := 4, fmt := 1, fmt2 := 1, rnd := 0, sat := false,
    bmem := false, imm := 1 }
def sf : SfuF := { pred := 0, pneg := false, vd := 1, va := 2, vb := 3, qtr := 0 }
def scf : ScaF := { sca1 := false, pred := 0, pneg := false, rd := 1, ra := 2, imm := 0 }
def mf : MemF := { pred := 0, pneg := false, reg := 1, areg := 1, addr := 0, size := 0, stride := 0 }
def cf (b : BitVec 22) : CtlF := { pred := 0, pneg := false, bits := b }

theorem witness_VectorLaneOperations : ∀ p ∈ laneTable, vf.bmem = false ∧ (coreS id).Issues 0 run1 (.vec p.1 vf) := by
  have h : laneTable.all (fun p => (SlotOp.vec p.1 vf).legal (2 + slotBytes (SlotOp.vec p.1 vf).slot)) = true := by decide
  exact fun p hp => ⟨rfl, issues _ (List.all_eq_true.mp h p hp)⟩
theorem witness_VectorCompares : ∀ p ∈ compareTable, vf.bmem = false ∧ (coreS id).Issues 0 run1 (.vec p.1 vf) := by
  have h : compareTable.all (fun p => (SlotOp.vec p.1 vf).legal (2 + slotBytes (SlotOp.vec p.1 vf).slot)) = true := by decide
  exact fun p hp => ⟨rfl, issues _ (List.all_eq_true.mp h p hp)⟩
theorem witness_VectorWholeOperations : ∀ p ∈ wholeTable, (coreS id).Issues 0 run1 (.vec p.1 vf) := by
  have h : wholeTable.all (fun p => (SlotOp.vec p.1 vf).legal (2 + slotBytes (SlotOp.vec p.1 vf).slot)) = true := by decide
  exact fun p hp => issues _ (List.all_eq_true.mp h p hp)
/-- The last line of the scratchpad is read; one word further faults. -/
theorem witness_VectorMemoryOperand :
    ∀ op ∈ ((laneTable.map Prod.fst).filter VecOp.mAllowed) ++ (compareTable.map Prod.fst),
      (coreS id).Issues 0 run1 (.vec op { vf with bmem := true }) ∧
      (0x5FFC00 % 2 ^ 23 / 16 * 16 + 1024 ≤ 0x600000 ∧ 0x600000 < 0x5FFC10 % 2 ^ 23 / 16 * 16 + 1024) := by
  have h : (((laneTable.map Prod.fst).filter VecOp.mAllowed) ++ (compareTable.map Prod.fst)).all
      (fun op => (SlotOp.vec op { vf with bmem := true }).legal (2 + slotBytes (SlotOp.vec op { vf with bmem := true }).slot)) = true := by
    decide
  exact fun p hp => ⟨issues _ (List.all_eq_true.mp h p hp), by decide⟩
theorem witness_SpecialFunctions : ∀ p ∈ sfuTable, (coreS id).Issues 0 run1 (.sfu p.1 sf) := by
  have h : sfuTable.all (fun p => (SlotOp.sfu p.1 sf).legal (2 + slotBytes (SlotOp.sfu p.1 sf).slot)) = true := by decide
  exact fun p hp => issues _ (List.all_eq_true.mp h p hp)
theorem witness_ScalarOperations : ∀ p ∈ scaTable, (coreS id).Issues 0 run1 (.sca p.1 scf) := by
  have h : scaTable.all (fun p => (SlotOp.sca p.1 scf).legal (2 + slotBytes (SlotOp.sca p.1 scf).slot)) = true := by decide
  exact fun p hp => issues _ (List.all_eq_true.mp h p hp)
/-- The MEM operations issue; the words at address 0 are inside the scratchpad, those at 0x600000 are not, and with p1, which is 0, the
whole ones are not performed. -/
theorem witness_MemOperations :
    (∀ p ∈ loadTable, (coreS id).Issues 0 run1 (.mem p.1 mf) ∧ (coreS id).Issues 0 run1 (.mem p.1 { mf with addr := 0x600000 }) ∧
      (coreS id).Issues 0 run1 (.mem p.1 { mf with pred := 1 })) ∧
    (∀ p ∈ storeTable, (coreS id).Issues 0 run1 (.mem p.1 mf) ∧ (coreS id).Issues 0 run1 (.mem p.1 { mf with addr := 0x600000 }) ∧
      (coreS id).Issues 0 run1 (.mem p.1 { mf with pred := 1 })) ∧
    ((loadTable.map fun p => (p.1, p.2.2.1)) ++ storeTable.map fun p => (p.1, p.2.2.1)).all (fun p =>
      ((memWords ((coreS id).core 0) p.1 p.2 mf).all fun a => decide (a + p.2 ≤ 0x600000)) &&
      ((memWords ((coreS id).core 0) p.1 p.2 { mf with addr := 0x600000 }).any fun a => decide (0x600000 < a + p.2)) &&
      (p.1.byLane || ((coreS id).core 0).performed mf.pred mf.pneg) && !((coreS id).core 0).performed 1 false) = true := by
  have hl : loadTable.all (fun p => [mf, { mf with addr := 0x600000 }, { mf with pred := 1 }].all fun f =>
      (SlotOp.mem p.1 f).legal (2 + slotBytes (SlotOp.mem p.1 f).slot)) = true := by decide
  have hs : storeTable.all (fun p => [mf, { mf with addr := 0x600000 }, { mf with pred := 1 }].all fun f =>
      (SlotOp.mem p.1 f).legal (2 + slotBytes (SlotOp.mem p.1 f).slot)) = true := by decide
  refine ⟨fun p hp => ?_, fun p hp => ?_, by decide⟩
  · have := List.all_eq_true.mp hl p hp
    simp only [List.all_cons, List.all_nil, Bool.and_true, Bool.and_eq_true] at this
    exact ⟨issues _ this.1, issues _ this.2.1, issues _ this.2.2⟩
  · have := List.all_eq_true.mp hs p hp
    simp only [List.all_cons, List.all_nil, Bool.and_true, Bool.and_eq_true] at this
    exact ⟨issues _ this.1, issues _ this.2.1, issues _ this.2.2⟩
/-- Every CTL operation issues; a loop of count 1 and of count 0, an open level and four. -/
theorem witness_ControlOperations :
    (∀ op ∈ ([.br, .brl, .bri, .loop, .loopx, .endRun, .clrf, .trap] : List CtlOp),
      (coreS id).Issues 0 run1 (.ctl op (cf 3)) ∧ (coreS id).Issues 0 run1 (.ctl op (cf 0x803))) ∧
    ((coreS id).core 0).performed 0 false = true ∧ ((coreS id).core 0).performed 0 true = false ∧
    bitsOf (cf 3).bits.toNat 11 10 = 0 ∧ bitsOf (cf 0x803).bits.toNat 11 10 = 1 ∧
    (((coreS id).core 0).flow run1 (.ctl .loop (cf 3))).loops.length < 4 ∧
    4 ≤ ((((coreS fun c => { c with loops := List.replicate 4 { start := 0, stop := 100, count := 2 } }).core 0)).flow run1
      (.ctl .loop (cf 0x803))).loops.length := by
  have h : ([.br, .brl, .bri, .loop, .loopx, .endRun, .clrf, .trap] : List CtlOp).all (fun op => [cf 3, cf 0x803].all fun f =>
      (SlotOp.ctl op f).legal (2 + slotBytes (SlotOp.ctl op f).slot)) = true := by decide
  refine ⟨fun p hp => ?_, by decide, by decide, by decide, by decide, by decide, by decide⟩
  have := List.all_eq_true.mp h p hp
  simp only [List.all_cons, List.all_nil, Bool.and_true, Bool.and_eq_true] at this
  exact ⟨issues _ this.1, issues _ this.2⟩
/-! ### Words and numbers of the spec -/

/-- The product and the accumulation of 02's worked example: 10.0 and 0x5B × 0xB3 give 0x40D4_5D82. -/
theorem test_l8_product_accumulated :
    landElem { t := 0, acc := 0, zero := false, fa := .l8, fb := .l8, ta := 0, tb := 0, aFree := false, draw := 0, pc := 0, aUnits := [],
               aPlanes := [], b := .pad [] [], units := [(0, (0x5B, 0)), (8, (0xB3, 0))] } 16 0 0 0 0x41200000 = (0x40D45D82, .none) := by
  decide +kernel
/-- The same sum by VADD, of the rounded product 0xC057_44FD. -/
theorem test_fp32_add_ties_to_even : fpAdd .fp32 0x41200000 0xC05744FD = (0x40D45D82, .none) := by decide +kernel
/-- The interleaved address of 07's example: reservoir 4, channel 21. -/
theorem test_interleaved_address : State.reset.resolve 0x021234567800 = .rsv 4 0x2468AF800 ∧ State.reset.rsvCh 4 0x2468AF800 = 21 := by
  decide +kernel
/-- Its bank group 0, frame slot 1,165, granule 60, bank 0, row 4,663, column 3. -/
theorem test_interleaved_cell :
    State.reset.rsvPlace 4 0x2468AF800 = (0, 1165, 60) ∧ State.reset.rsvCell 4 0x2468AF800 = (0, 4663, 3, 0) := by decide +kernel
/-- The ADD stood at 0xFFFF_FFFE with a target of 1 (05's example): the wait holds at 1 and not before. -/
theorem test_wrapping_wait :
    let w : FWait := { idx := 0, flag := 0x0A0, eq := false, target := 1, ticks := 64, expiry := 64, peer := some (37, 0), sig := none }
    w.holds 0xFFFFFFFE = false ∧ w.holds 0xFFFFFFFF = false ∧ w.holds 0 = false ∧ w.holds 1 = true := by decide
/-- The header of B0 of Table BDL-16 and its length: CUBE, SCA0 and CTL present, 22 bytes. -/
theorem test_header_word : (Header.ofNat 0x9100).len = 22 ∧ (Header.ofNat 0x91F0).idle = 15 ∧ onesOf 8 (Header.ofNat 0x9100).slots = [0, 4, 7] := by
  decide
/-- B3's STEP: OP 1 at [95:92], FMTA 8 at [83:80], FMTB 9 at [79:76], AREG 2 at [75:72], AINC at [52], BSRC 1 at [50:49]. -/
theorem test_decode_step : decodeSlot 0 (1 <<< 92 ||| 8 <<< 80 ||| 9 <<< 76 ||| 2 <<< 72 ||| 1 <<< 52 ||| 1 <<< 49) =
    some (.step false
      { pred := 0, pneg := false, acc := 0, fmta := 8, fmtb := 9, areg := 2, aoff := 0, ainc := true, awin := false, bsrc := 1,
        breg := 0, boff := 0, binc := false, toffa := 0, toffb := 0 }) := by decide
/-- B5's DRAINZ and B7's VADD v2 = v0 + v10. -/
theorem test_decode_drainz : decodeSlot 0 (4 <<< 92) = some (.drain true { pred := 0, pneg := false, acc := 0, vd := 0 }) := by decide
theorem test_decode_vadd : decodeSlot 1 (1 <<< 56 ||| 2 <<< 46 ||| 10 <<< 34) = some (.vec .vadd
    { vec1 := false, pred := 0, pneg := false, vd := 2, va := 0, vb := 10, vc := 0, fmt := 0, fmt2 := 0, rnd := 0, sat := false,
      bmem := false, imm := 0 }) := by decide
/-- TANH of the last quarter; ADDI s5 = s6 - 1 in SCA1; B8's VST; B2's LOOP of 512. -/
theorem test_decode_tanh : decodeSlot 3 (7 <<< 42 ||| 1 <<< 32 ||| 2 <<< 26 ||| 3 <<< 18) =
    some (.sfu .tanh { pred := 0, pneg := false, vd := 1, va := 2, vb := 0, qtr := 3 }) := by decide
theorem test_decode_addi : decodeSlot 5 (3 <<< 26 ||| 5 <<< 17 ||| 6 <<< 12 ||| 0xFFF) =
    some (.sca .addi { sca1 := true, pred := 0, pneg := false, rd := 5, ra := 6, imm := 0xFFF }) := by decide
theorem test_decode_vst : decodeSlot 6 (2 <<< 58 ||| 2 <<< 48 ||| 0x400000 <<< 21 ||| 63 <<< 15 ||| 1 <<< 3) =
    some (.mem .vst { pred := 0, pneg := false, reg := 2, areg := 0, addr := 0x400000, size := 63, stride := 1 }) := by decide
theorem test_decode_loop : decodeSlot 7 (4 <<< 26 ||| 512 <<< 11 ||| 3) = some (.ctl .loop { pred := 0, pneg := false, bits := 0x100003 }) := by
  decide
theorem test_decode_refuses : decodeSlot 0 0 = none ∧ decodeSlot 1 0 = none ∧ decodeSlot 7 (9 <<< 26) = none := by decide
/-- The window of layer 2 of core 300 opens at tick 1,002,072 (06's example). -/
theorem test_window_ticks : (({ clp := { tick := 1002072 } } : State).inWindow 4096 (1024 * 2 + 2 * 300) 2 = true) ∧
    (({ clp := { tick := 1002071 } } : State).inWindow 4096 (1024 * 2 + 2 * 300) 2 = false) := by decide
/-- The four masters at reservoir 4 (10's example). -/
def sluS : State :=
  (((State.reset.setAcct 4 16 { guar := 256, weight := 4, active := true }).setAcct 4 17 { guar := 256, weight := 1, active := true }).setAcct
    4 41 { guar := 128, weight := 2, active := true }).setAcct 4 62 { guar := 16, weight := 1 }
theorem test_allowances : sluS.allowance 4 16 = 13312 ∧ sluS.allowance 4 17 = 8704 ∧ sluS.allowance 4 41 = 6656 ∧ sluS.allowance 4 62 = 448 := by
  decide +kernel
/-- The marker at tick 43,188,233, drop 384 is 9,600 drops past its boundary (11's example). -/
theorem test_marker_error : nearest (65536 * 1024) (43188233 * 1024 + 384) = 9600 := by decide
/-- The licence summary word before and after the example of 14, and the words of its audit entry. -/
theorem test_licence_word :
    ({ licPorts := 1, licCompute := true, licParts := 8 } : State).licWord = 0x209 ∧
    ({ licPorts := 2, licCompute := true, licParts := 8 } : State).licWord = 0x20A := by decide
theorem test_audit_words :
    AuditEnt.words { esn := 0x91C40, index := 1203, pos := 12345678 * 1024, wall := 0,
                     a := { origin := 1, oclass := 2, object := 1, old := 4, new := 10, odetail := 7 } } =
      [0x91C40, 0x4B3, 0x2F1853800, 0, 0x1002000000000001, 4, 10, 0x700000000] := by decide
/-- LNK13_RXN of lane 17 is D-046-143 (18's example). -/
theorem test_receive_contact : laneContact 13 17 true true = (46, 143) ∧ coordNames 'D' 46 143 = true := by decide
/-- 1.6 °C of excess swallow 20 of 256 cycles; more than 28.75 °C the most, 230 (16 R357). -/
theorem test_swallow : swallowOf 0 = 0 ∧ swallowOf 13 = 20 ∧ swallowOf 400 = 230 := by decide
/-- The first two of 17's example: three symbols of a codeword flipped, then two more. -/
theorem test_flip : (CwErr.flip {} 10 3 0x5A).syms = [(10, 0x5A), (11, 0x5A), (12, 0x5A)] ∧
    ((CwErr.flip {} 10 3 0x5A).flip 64 2 0xFF).syms.length = 5 := by decide
/-- The cap law at second 30 of 16's example: 62 ÷ 0.0149 W, rounded down. -/
theorem test_cap_law :
    ∃ t, exec .capLaw { clp := { tick := 512 }, bup := { stage := 6 }, thm := { inlet := 256, rth := 14900, lawW := 4492 } } = .next t ∧
      t.thm.lawW = 4161 := ⟨_, rfl, by decide +kernel⟩
/-! ### Cubes, bundles, the pipeline -/

/-- A BF16 step on the first line of the scratchpad. -/
def stf : StepF :=
  { pred := 0, pneg := false, acc := 0, fmta := 1, fmtb := 1, areg := 0, aoff := 0, ainc := false, awin := false, bsrc := 0,
    breg := 0, boff := 0, binc := false, toffa := 0, toffb := 0 }
theorem witness_CubeOperations :
    (∀ z, (coreS id).Issues 0 run1 (.step z stf)) ∧ stepShapeOf stf = some (.bf16, .bf16, 8, 16, 16) ∧
    stepReadable (coreS id) 0 stf .bf16 .bf16 8 16 16 ∧
    ((coreS id).core 0).performed stf.pred stf.pneg = true ∧ ((coreS id).core 0).performed stf.pred true = false ∧
    (∀ z, (coreS id).Issues 0 run1 (.drain z { pred := 0, pneg := false, acc := 0, vd := 62 })) ∧
    (coreS id).Issues 0 run1
      (.sopen { pred := 0, pneg := false, ctx := true, lw := true, fmtb := 9, sbase := 4, splane := 5, j := 512 }) :=
  ⟨fun z => issues _ (by cases z <;> decide), by decide, by
    refine ⟨by decide +kernel, by decide +kernel, fun _ => by decide +kernel, fun h => absurd rfl h⟩, by decide, by decide,
    fun z => issues _ (by cases z <;> decide), issues _ (by decide)⟩
/-- A VSCAN in VEC0 two cycles ago keeps its slot busy. -/
theorem witness_BusySlotHaltsQueue :
    let s := coreS fun c => { c with busy := [(1, 3)] }
    (s.core 0).run = some run1 ∧ run1.stop = none ∧
      ∃ o ∈ [SlotOp.vec .vadd vf], (s.core 0).cycle < Map.get 0 (s.core 0).busy o.slot := by decide
/-- Bundles at address 0: an empty one; one whose CUBE slot has opcode 0; with a breakpoint; with an uncorrectable header. -/
def bundleS (h : Byte) (f : Core → Core) : State := { coreS f with mem := Map.set 0 [] (bundleMA 0 1) h }
theorem witness_BundleIssue :
    (let s := bundleS 0 id
     let hb := s.readSram (bundleMA 0 (s.core 0).pc) 2
     (s.core 0).run = some run1 ∧ (s.core 0).cycle = run1.nextIssue ∧ hb.2.1 = none ∧ (s.core 0).bkptEn = false ∧ run1.oneShot = false ∧
       (s.core 0).undelivered = false ∧ (s.readSram (bundleMA 0 0) 2).2.1 = none ∧ decodeSlots 2 [] [] = [] ∧ s.slotError 0 = none) ∧
    (let ld : Load := { at_ := 1, due := 6, slot := 6, seq := 0, pc := 0, kind := .sld 3, offs := [0], width := 8 }
     let s : State := { coreS fun c => { c with loads := [ld] } with sram := [(padMA 0 0 / 8, 3)] }
     (s.slotError 0).map StopInfo.code = some cMemUncorrectable) ∧
    (let s := bundleS 1 id
     let hb := s.readSram (bundleMA 0 (s.core 0).pc) 2
     let h := Header.ofNat (leNat hb.1)
     let b := s.readSram (bundleMA 0 0) h.len
     hb.2.1 = none ∧ b.2.1 = none ∧ (0, none) ∈ decodeSlots h.len (onesOf 8 h.slots) (b.1.drop 2)) ∧
    (let s : State := { coreS fun c => { c with bkptEn := true } with mem := Map.set 0 [] (bundleMA 0 0) 8 }
     let hb := s.readSram (bundleMA 0 (s.core 0).pc) 2
     hb.2.1 = none ∧ (s.core 0).bkptEn = true ∧ (Header.ofNat (leNat hb.1)).bkpt = true ∧ run1.skipBkpt = false) ∧
    (let s : State := { coreS id with sram := [(bundleMA 0 0 / 8, 3)] }
     (s.readSram (bundleMA 0 (s.core 0).pc) 2).2.1.isSome = true) := by decide +kernel
/-- One result due in the next cycle; one step whose first elements land then. -/
theorem witness_ResultsAndLandings :
    (let d : Result := { due := 2, slot := 4, seq := 0, dest := .s 3 7, flags := {} }
     let s := coreS fun c => { c with results := [d], run := some { run1 with nextIssue := 2 } }
     s.Quiet 0 ∧ (s.core 0).steps = [] ∧ (s.core 0).results = [d] ∧ d.due = (s.core 0).cycle + 1 ∧
       ∀ r, (s.core 0).run = some r → r.ended = true ∨ (s.core 0).cycle + 1 ≤ r.nextIssue) ∧
    (let st : CubeStep := { t := 0, acc := 0, zero := false, fa := .l8, fb := .l8, ta := 0, tb := 0, aFree := false, draw := 0, pc := 0,
                            aUnits := [], aPlanes := [], b := .pad [] [], units := [(0, (0x5B, 0)), (8, (0xB3, 0))] }
     let s := coreS fun c => { c with cycle := 15, steps := [st], run := some { run1 with nextIssue := 16 } }
     s.Quiet 0 ∧ (s.core 0).results = [] ∧ (∃ st ∈ (s.core 0).steps, st.t + (s.core 0).cubeLat ≤ (s.core 0).cycle + 1) ∧
       ∀ r, (s.core 0).run = some r → r.ended = true ∨ (s.core 0).cycle + 1 ≤ r.nextIssue) := by
  refine ⟨⟨⟨rfl, rfl, rfl, rfl, rfl, rfl, by decide, by decide, _, rfl, rfl, rfl⟩, rfl, rfl, rfl, fun r h => ?_⟩,
    ⟨⟨rfl, rfl, rfl, rfl, rfl, rfl, by decide, by decide, _, rfl, rfl, rfl⟩, rfl, by decide, fun r h => ?_⟩⟩
  · cases h; exact .inr (by decide)
  · cases h; exact .inr (by decide)
/-- A RUN that has ended; one at and one before its limit; a hold older than its limit; a stream that lacks its first line. -/
theorem witness_RunEndsAndFeeds :
    (let s := coreS fun c => { c with cycle := 5, lastVis := 4, run := some { run1 with ended := true, nextIssue := 5 } }
     ((s.core 0).run = some { run1 with ended := true, nextIssue := 5 } ∧ 5 ≤ (s.core 0).cycle ∧ (s.core 0).lastVis < (s.core 0).cycle ∧
       (s.core 0).inFlight = false)) ∧
    (({ clp := { tick := 3 } } : State).reached 3 = true ∧ ({ clp := { tick := 2 } } : State).reached 3 = false ∧ run1.limit = some 3) ∧
    (∀ p ∈ [(64, true), (63, false)],
      let s : State := { coreS fun c => { c with run := some run1, hold := some { time := 0, pos := 0 } } with clp := { tick := BitVec.ofNat 48 p.1 } }
      (s.core 0).run = some run1 ∧ (s.core 0).hold = some { time := 0, pos := 0 } ∧
        decide (1024 * max 1 (s.core 0).feedLimit.toNat ≤ (s.pos + 2 ^ 58 - 0) % 2 ^ 58) = p.2) ∧
    (let s : State := { coreS fun c => { c with ctx0 := { opened := true, gen := 1, lw := true, fmtb := 1, total := 4 } } with nCores := 16 }
     let x := (s.core 0).ctx false
     x.opened = true ∧ x.consumed ≤ (BitVec.toNat (0 : BitVec 21)) ∧ (0 : BitVec 21).toNat < x.total + 14 ∧ (s.core 0).line x.gen 0 = none ∧
       x.lineCost + (s.core 0).claimed x ((s.core 0).ctx true) + ((s.core 0).lines.map fun l => l.bytes.length + l.plane.length).sum ≤ 131072 ∧
       (s.core 0).steps = [] ∧ (s.core 0).hold = none ∧ (s.readCodewords (0 * 2 ^ 30 + x.base + 0 * x.lineSize) (x.lineSize / 64)).2 =
         List.replicate 16 (.data (List.replicate 64 0))) := by decide +kernel
/-- A free bank and a used one, with the last 16 bytes of the scratchpad; a bank that has refused 64 times. -/
theorem witness_AsyncPorts :
    (let s := coreS id
     Memory.wf s.mem = true ∧ (0x5FFFF0#23).toNat < 0x600000 ∧ s.clocked 0 = true ∧ (s.core 0).bankUsed (bankOf ((0x5FFFF0#23).toNat / 16)) = false ∧
       (s.core 0).run ≠ none ∧ ∀ i, i < 2 → Map.get 0 s.sram (padMA 0 (0x5FFFF0 / 16 * 16) / 8 + i) = 0) ∧
    (let a : AsyncAcc := { wr := false, off := 0, data := 0 }
     let s := coreS fun c => { c with loads := [{ at_ := c.cycle, due := 4, slot := 6, seq := 0, pc := 0, kind := .sld 1, offs := [0], width := 8 }],
                                      refusals := [(bankOf 0, 64)], asyncWait := [.port a] }
     (s.core 0).bankUsed (bankOf 0) = true ∧ s.clocked 0 = true ∧ 64 ≤ Map.get 0 (s.core 0).refusals (bankOf 0) ∧
       ((s.core 0).asyncWait.find? fun i => decide (i.bank = some (bankOf 0))) = some (.port a)) ∧
    (let s := coreS fun c => { c with asyncWait := [.word 5 (padMA 0 16) 16] }
     ((s.core 0).asyncWait.find? fun i => decide (i.bank = some (bankOf 1))) = some (.word 5 (padMA 0 16) 16)) ∧
    (let s := coreS fun c => { c with hold := some { time := 0, pos := 0 } }
     s.clocked 0 = false ∧ (s.core 0).asyncWait.contains (.port { wr := true, off := 0, data := 0 }) = false) := by decide +kernel
/-! ### Queues and DMA -/

/-- A command of four words. -/
def cmd (w0 w1 w2 w3 : Nat) : Cmd := BitVec.ofNat 256 (w0 + w1 * 2 ^ 64 + w2 * 2 ^ 128 + w3 * 2 ^ 192)
/-- A valid descriptor: KIND, NDIM, FMT, BASE, and its first extents. -/
def desc (kind ndim fmt base e0 e1 : Nat) : Desc :=
  BitVec.ofNat 1024 (2 ^ 63 + kind * 2 ^ 56 + ndim * 2 ^ 52 + fmt * 2 ^ 48 + base + e0 * 2 ^ 256 + e1 * 2 ^ 384)
/-- Core 0 of partition 1, its stage open, with `c` at the head of queue 0 and descriptors in its cache. -/
def queueS (c : Cmd) (ds : List (Nat × Desc)) : State :=
  { nCores := 16, clusterPart := [(0, some 1)], gate := { opened := BitVec.allOnes 256 }, licCompute := true, licMulti := true,
    licPorts := 2, bup := { stage := 6 },
    parts := [(1, { clusters := 1, seqCount := 64, strCount := 64, passSlots := 4 })],
    chset := (List.range 8).map fun k => (32 * k + 1, (0xFFFFFFFF : Word)),
    cores := [(0, { lastRunQ := 3, descs := ds, queues := [(0, { st := .issuing, fetched := [c], count := 9 })] })] }
/-- The command stands at the head of queue 0 of core 0. -/
def heads (s : State) (c : Cmd) : Bool := s.head 0 0 == some c && !s.fenced 0 0 c && s.partOf 0 == some 1

theorem witness_RunStarts :
    (let c := cmd 1 (0x1000 + 2 ^ 19 + 5 * 2 ^ 20 + 2 ^ 32 + 3 * 2 ^ 36) 4 0
     let s := queueS c [(4, desc 0 1 7 0x1000 16 0), (5, desc 3 2 8 0x030000000000 16 4)]
     heads s c = true ∧ c.op = 1 ∧ wordOf c 1 % 2 = 0 ∧ (s.core 0).run = none ∧ s.nextRun 0 = some 0 ∧ s.gateOpen 0 = true ∧
       (s.useDescs 0 [(4, [0, 1, 2, 3, 4]), (5, [3])]).2.2 = none) ∧
    (let s := { queueS (cmd 1 0 0 0) [] with gate := {} }
     heads s (cmd 1 0 0 0) = true ∧ s.gateOpen 0 = false) := by decide +kernel
theorem witness_CommandsAreFetched :
    (let s : State := { queueS (cmd 0 0 0 0) [] with cores := [(0, { queues := [(0, { st := .issuing, count := 1 })] })] }
     let x := s.queue 0 0
     let rd := s.track (.fetch 0 0) AccRes.isWait fun s => s.readMA (.fetch 0 0) (s.coreMaster 0) 0 32
     x.st = .issuing ∧ x.fetched.length < 8 ∧ x.ptr.toNat + x.fetched.length < x.count.toNat ∧ x.wait = none ∧ x.fence = none ∧ x.running = none ∧
       (x.fetched.any fun c => c.op == 1 || c.op == 8 || c.op == 9) = false ∧ s.coreReset.contains 0 = false ∧ s.accOf (.fetch 0 0) = none ∧ s.queueStalled 0 0 = false ∧ s.clocked 0 = true ∧
       rd.2 = .ok (List.replicate 32 0)) ∧
    (let s : State := { queueS (cmd 0 0 0 0) [] with cores := [(0, { queues := [(0, { st := .waitEngine, count := 1, base := 0x8000000000 })] })] }
     let rd := s.track (.fetch 0 0) AccRes.isWait fun s => s.readMA (.fetch 0 0) (s.coreMaster 0) ((0x8000000000 / 32 * 32 + 32 * 0) % 2 ^ 48) 32
     s.clocked 0 = true ∧ rd.2 = .fault cMemUnmapped 0x8000000000) ∧
    (heads (queueS (cmd 0 0 0 0) []) (cmd 0 0 0 0) = true ∧ Cmd.op (cmd 0 0 0 0) = 0 ∧
      heads (queueS (cmd 10 0 0 0) []) (cmd 10 0 0 0) = true ∧ 9 < Cmd.op (cmd 10 0 0 0)) := by decide +kernel
theorem witness_FlagSetsAndFences :
    (∀ p ∈ [0, 1], let c := cmd 7 (4095 + p * 2 ^ 12) 0 0
      heads (queueS c []) c = true ∧ c.op = 7 ∧ bitsOf (wordOf c 1) 12 2 = p) ∧
    (heads (queueS (cmd 9 1 0 0) []) (cmd 9 1 0 0) = true ∧ Cmd.op (cmd 9 1 0 0) = 9) := by decide +kernel
/-- The FLAG_WAIT of 05's example, with the flag at its target and one below; an update on its way to it. -/
theorem witness_FlagWaits :
    (let c := cmd 8 0x4000A0 0x82500000001 0
     let s := queueS c []
     heads s c = true ∧ c.op = 8 ∧ bitsOf (wordOf c 1) 16 24 = 64 ∧ (s.issued 0 0).homeFenced 1 0xA0 = false ∧
       s.partOf 0 = some 1 ∧ (BitVec.ofNat 32 (wordOf c 2)) = 1 ∧ bitsOf (wordOf c 2) 32 9 = 37 ∧
       (s.flagUpds.filter (s.sameWay (.queue 0 0) 1 0xA0)).length = 0 ∧
       ({ s with flagUpds := [{ part := 1, flag := 0xA0, add := true, value := 1, by_ := .queue 0 0, done := none, wcs := none }] }.flagUpds.filter
         (s.sameWay (.queue 0 0) 1 0xA0)).length = 1) ∧
    (let u : FlagUpd := { part := 1, flag := 0xA0, add := true, value := 1, by_ := .host, done := none, wcs := none }
     let s : State := { queueS 0 [] with flagUpds := [u] }
     (s.flagUpds.filter fun u => u.part = 1 ∧ u.flag = 0xA0)[0]? = some u ∧ s.partReset.contains 1 = false ∧ s.homeFenced 1 0xA0 = false ∧
       (s.flagUpds.takeWhile (· ≠ u)).any (s.sameWay u.by_ 1 0xA0) = false) ∧
    (let u : FlagUpd := { part := 1, flag := 0xA0, add := true, value := 1, by_ := .host, done := none, wcs := none }
     let v : FlagUpd := { u with value := 2 }
     let s : State := { queueS 0 [] with flagUpds := [u, v] }
     (s.flagUpds.filter fun u => u.part = 1 ∧ u.flag = 0xA0)[1]? = some v ∧ (s.flagUpds.takeWhile (· ≠ v)).any (s.sameWay v.by_ 1 0xA0) = true) := by
  decide +kernel
/-- A wait one tick before its expiry, at it, and at it with the flag at its target. -/
def waitS (tick : BitVec 48) (v : Word) : State :=
  let w : FWait := { idx := 3, flag := 7, eq := true, target := 9, ticks := 64, expiry := 64, peer := none, sig := none }
  { queueS 0 [] with
    clp := { tick := tick }
    flags := [(4096 + 7, { value := v })]
    cores := [(0, { queues := [(0, { st := .waitFlag, wait := some w })] })] }
theorem witness_WaitsTimeOut :
    ((waitS 63 0).reached 64 = false ∧ (waitS 64 0).reached 64 = true ∧ (waitS 64 0).homeFenced 1 7 = false ∧ (waitS 64 0).partOf 0 = some 1) ∧
    (∃ w, ((waitS 64 0).queue 0 0).wait = some w ∧ w.expiry = 64 ∧ w.holds ((waitS 64 0).flag 1 w.flag).value = false) ∧
    (∃ w, ((waitS 64 9).queue 0 0).wait = some w ∧ w.holds ((waitS 64 9).flag 1 w.flag).value = true) := by
  refine ⟨by decide +kernel, ⟨_, rfl, by decide +kernel⟩, ⟨_, rfl, by decide +kernel⟩⟩
theorem witness_QueueControl :
    ((queueS 0 []).queue 0 1).st = .idle ∧ ((queueS 0 []).queue 0 0).st = .issuing ∧ (queueS 0 []).suspended 0 0 = false ∧
    ((coreS fun c => { c with run := some { run1 with suspended := true } }).suspended 0 0 = true) := by decide +kernel
/-- A COPY of two INT8 tensors of 16 elements, a FILL, a CASCADE and a GATHER; eight channels held. -/
theorem witness_DmaCommandsStart :
    (let c := cmd 2 (1 + 2 * 2 ^ 12) 0 0
     let s := queueS c [(1, desc 0 1 6 0 16 0), (2, desc 0 1 6 64 16 0)]
     let ds := s.useDescs 0 [(1, [0, 4]), (2, [0, 4])]
     heads s c = true ∧ c.op = 2 ∧ c.dmode = 0 ∧ (s.core 0).freeCh = some 0 ∧ (s.core 0).heldCh 0 = 0 ∧ s.gateOpen 0 = true ∧ ds.2.2 = none ∧
       dmaShape c (ds.2.1.headD 0) (ds.2.1.getLastD 0) = none ∧ dmaSeqs (ds.2.1.headD 0) (ds.2.1.getLastD 0) = []) ∧
    (let c := cmd 2 (2 * 2 ^ 12 + 3 * 2 ^ 24) 0 0
     let s := queueS c [(2, desc 0 1 6 64 16 0)]
     let ds := s.useDescs 0 [(2, [0])]
     heads s c = true ∧ c.dmode = 3 ∧ ds.2.2 = none ∧ dmaShape c (ds.2.1.getLastD 0) (ds.2.1.getLastD 0) = none) ∧
    (let c := cmd 2 (1 + 2 * 2 ^ 12 + 2 ^ 24) 0 0
     let d (k : Nat) : Desc := desc k 2 8 0 16 64 ||| BitVec.ofNat 1024 (2 ^ 898 + 2 * 2 ^ 960)
     let s := queueS c [(1, d 0), (2, d 1)]
     let ds := s.useDescs 0 [(1, [0]), (2, [1, 2])]
     heads s c = true ∧ c.dmode = 1 ∧ ds.2.2 = none ∧ dmaShape c (ds.2.1.headD 0) (ds.2.1.getLastD 0) = none) ∧
    (let c := cmd 2 (4 * 2 ^ 24) 0 0
     heads (queueS c []) c = true ∧ 4 ≤ c.dmode) ∧
    (let c := cmd 2 (2 ^ 28 * 3) 0 0
     heads (queueS c []) c = true ∧ bitsOf (wordOf c 1) 28 2 = 3) := by decide +kernel
/-! ### DMA rows, bank units -/

/-- A channel of mode `m` between two INT8 tensors of 16 elements. -/
def dch (m : Nat) (src dst : Desc) : DmaCh :=
  { queue := 0, idx := 2, cmd := cmd 2 (m * 2 ^ 24) 0 (0x3F800000 * 2 ^ 32), src := src, dst := dst, next := 0, stop := 16, stopped := false }
theorem witness_DmaRows :
    (let x := dch 0 (desc 0 1 6 0 16 0) (desc 0 1 6 64 16 0)
     let s := (queueS 0 []).openAcc (.dma 0 0 0)
     x.cmd.dmode = 0 ∧ x.src.fm = x.dst.fm ∧ x.src.fm.isBlock = false ∧ x.src.fm.bits % 8 = 0 ∧
       (s.readMA (.dma 0 0 0) (s.coreMaster 0) (ma48 (0 + (0 * 1 : Nat))) (16 * 1)).2 = .ok (List.replicate 16 0) ∧
       ((s.readMA (.dma 0 0 0) (s.coreMaster 0) 0 16).1.writeMA (.dma 0 0 0) (s.coreMaster 0) 64
         (leBytes (16 * 1) (leNat (List.replicate 16 0)))).2 = .ok [] ∧
       ((s.readMA (.dma 0 0 0) (s.coreMaster 0) 0 16).1.writeMA (.dma 0 0 0) (s.coreMaster 0) 0x8000000000 (List.replicate 16 0)).2 =
         .fault cMemUnmapped 0x8000000000) ∧
    ((dch 3 0 (desc 0 1 0 64 16 0)).cmd.dmode = 3 ∧ ((queueS 0 []).openAcc (.dma 0 0 0)).accMade (.dma 0 0 0) = false) ∧
    (let x := dch 0 (desc 0 1 6 0x8000000000 16 0) (desc 0 1 6 64 16 0)
     let s := (queueS 0 []).setDma 0 5 (some x)
     (s.core 0).dmaCh 5 = some x ∧ x.next < x.stop ∧ dmaSeqs x.src x.dst = [] ∧ s.accFin (.dma 0 5 x.next) = false ∧
       (s.dmaRow 0 5 x x.next).2 = .fault cMemUnmapped 0x8000000000) := by decide +kernel
theorem position_none (w : Window) (h : w.inW = 0) (p tap : Nat) : w.position p tap = none := by
  unfold Window.position
  simp only [h]
  rw [if_pos]
  omega
theorem witness_DmaRows_padding (p tap : Nat) : (0 : Desc).window.position p tap = none := position_none _ (by decide +kernel) p tap
/-- A channel that has moved its range; a paged source whose sequence is closed, one whose page is there, and a shared page to write. -/
theorem witness_DmaCompletes :
    (let x := { dch 0 0 0 with next := 16 }
     let s := (queueS 0 []).setDma 0 0 (some x)
     (s.core 0).dmaCh 0 = some x ∧ x.stopped = false ∧ x.stop ≤ x.next ∧ s.clocked 0 = true) ∧
    ((coreS fun c => { c with hold := some { time := 0 } }).clocked 0 = false) ∧
    (let x := dch 0 (desc 4 2 8 0 32 16) (desc 0 2 8 0 32 16)
     let s := (queueS 0 []).setDma 0 0 (some x)
     let t : State := { s with seqs := [(0, { isOpen := true, layers := 1, len := 64, cap := 1, table := [(0, 0x80000005)] })],
                               pool := [(5, some { part := 1, refs := 2, pins := 0 })] }
     let q := t.askPage 0 0 x
     (q.core 0).dmaCh 0 = some x ∧ x.page = none ∧ x.next < x.stop ∧ q.clocked 0 = true ∧ q.att.length = 1 ∧
       (q.att.find? fun b => b.transOf 0 0 && attAtHead q.att b) = q.att[0]? ∧
     dmaSeqs x.src x.dst = [0] ∧ x.src.kind = 4 ∧ s.translate x.src x.cmd.sadj x.next 16 false = .error cAttBeyondLen ∧
       t.translate x.src x.cmd.sadj x.next 16 true = (if ((t.seqAt 0).page 0 0).isSome then .error cAttPageShared else .error cAttBeyondLen)) ∧
    (let x := { dch 0 (desc 4 2 8 0 32 16) (desc 0 2 8 0 32 16) with page := some ((0, 0), (0, 0), 16) }
     let s := (queueS 0 []).setDma 0 0 (some x)
     (s.core 0).dmaCh 0 = some x ∧ x.next < x.stop ∧ dmaSeqs x.src x.dst = [0] ∧ s.clocked 0 = true ∧ (s.moveTokens 0 0 x (0, 0) (0, 0) 16).2.2 = .fault 0x6004 (2 ^ 40)) := by
  decide +kernel
theorem witness_BankAccepts :
    (let c := cmd 3 (1 + 2 ^ 24 + 2 ^ 32) 64 0
     let s := { queueS c [(1, desc 0 1 6 (2 ^ 40) 8 0)] with mem := Map.set 0 [] (2 ^ 40 + 7) 0x18, slu := [(32, { weight := 1, allow := 9 })] }
     let ds := s.useDescs 0 [(1, [0])]
     let p := ds.2.1.getLast?.getD 0
     heads s c = true ∧ c.op = 3 ∧ s.licCompute = true ∧ s.gateOpen 0 = true ∧ s.staged 0 = 0 ∧ ds.2.2 = none ∧ p.ndim = 1 ∧
       p.fmt = some .int8 ∧ p.ext 0 = 8 ∧ firstChannel 1 1 (fun k ch => !(s.chsetOf k 1).testBit ch) = none ∧
       firstChannel 1 1 (fun k ch => (s.chan k ch).st != .active || !(s.activeCh k).testBit ch) = none ∧
       (ds.1.track (.bankImage 0 0) AccRes.isWait fun s => s.readMA (.bankImage 0 0) (rsvMaster 0 (some 1)) p.base 8).2 = .ok [0, 0, 0, 0, 0, 0, 0, 0x18] ∧ imageBad [BitVec.ofNat 64 (leNat [0, 0, 0, 0, 0, 0, 0, 0x18])] = none) ∧
    (let c := cmd 3 (1 + 2 ^ 24 + 2 ^ 32) 64 0
     let s := { queueS c [(1, desc 0 1 6 0 8 0)] with chset := [] }
     heads s c = true ∧ firstChannel 1 1 (fun k ch => !(s.chsetOf k 1).testBit ch) = some (0, 0)) ∧
    (heads (queueS (cmd 3 (2 ^ 24) 0 0) []) (cmd 3 (2 ^ 24) 0 0) = true ∧ wordOf (cmd 3 (2 ^ 24) 0 0) 1 >>> 32 = 0) := by decide +kernel
/-- A bank launch on channel 0 of reservoir 0, before the instructions of `img`, its g2 holding `g2`. -/
def launch1 (img : List DWord) : Launch :=
  { kind := .bank, core := 0, queue := 0, idx := 0, part := 1, image := img, chMask := 1, rsvMask := 1, statusMA := 0, arg0 := 5, arg1 := 8,
    vecs := [], ordered := 1, left := [(0, 1)], units := [(0, { g := [(2, 8)] })], fault := none, runNs := 0, tainted := 0, pauses := 0, flags := {} }
def bankS (l : Launch) (f : Chan → Chan) : State :=
  { queueS 0 [] with
    launches := [(3, some l)]
    chans := [(0, f { current := some (.launch 3), proc := true })] }
/-- An instruction of OP `op` with the low bits `x`, then an END. -/
def img (op x : Nat) : List DWord := [BitVec.ofNat 64 (op * 2 ^ 58 + x), BitVec.ofNat 64 (6 * 2 ^ 58)]
theorem witness_LaunchLife :
    (let l := { launch1 (img 6 0) with ordered := 0, left := [] }
     let s := { bankS l id with chans := [] }
     s.launch 3 = some l ∧ l.rsvMask.toNat.testBit 0 = true ∧ l.ordered.toNat.testBit 0 = false ∧ l.fault = none ∧
       (∀ c ∈ onesOf 32 l.chMask.toNat, (s.chan 0 c).st = .active)) ∧
    (let l := launch1 (img 6 0)
     let s := bankS l fun _ => { ops := [{ cycle := 0, rank := 65, item := .launch 3 }] }
     (s.chan 0 0).ops = [{ cycle := 0, rank := 65, item := .launch 3 }] ∧ (s.chan 0 0).current = none ∧ (s.chan 0 0).proc = false ∧ (s.chan 0 0).window = false ∧
       s.launch 3 = some l) ∧
    (let l := { launch1 (img 6 0) with units := (List.range 8).map fun b => (b, { cycles := 50000 }) }
     let s := bankS l id
     l.chanEnded 0 0 = false ∧ (s.rsv 0).budgetUs.toNat * 1000 ≤ l.chanNs 0 0) ∧
    (let l := { launch1 (img 6 0) with units := (List.range 8).map fun b => (b, { ended := true }) }
     l.chanEnded 0 0 = true) ∧
    (let l := { launch1 (img 6 0) with left := [] }
     let s := bankS l id
     s.launch 3 = some l ∧ l.left = [] ∧ l.ordered = l.rsvMask ∧ l.statusMA = 0) := by decide +kernel
/-- Each bank instruction before its unit, within its budget: a legal one, and a stream instruction whose lines are out of range. -/
theorem witness_BankInstructions :
    bankRows.all (fun p =>
      let l := launch1 (img p.1 (2 ^ 44 + 2 * 2 ^ 36))
      let s := bankS l id
      (s.chan 0 0).current == some (.launch 3) && s.launch 3 == some l && l.kind == .bank && l.fault == none &&
        (l.image[(l.unitOf 0 0 0).pc]? == some (BitVec.ofNat 64 (p.1 * 2 ^ 58 + 2 ^ 44 + 2 * 2 ^ 36))) && !(l.unitOf 0 0 0).ended &&
        decide ((l.unitOf 0 0 0).cycles + 110 * (l.unitOf 0 0 0).pauses < (s.rsv 0).budgetUs.toNat * 1000) &&
        bOp (BitVec.ofNat 64 (p.1 * 2 ^ 58 + 2 ^ 44 + 2 * 2 ^ 36)) == p.1) = true ∧
    (let w : DWord := BitVec.ofNat 64 (8 * 2 ^ 58 + 2 * 2 ^ 10 + 1023)
     let l := launch1 [w, w]
     (bStep (bankS l id) (l.unitOf 0 0 0) [] l.image 0 0 0 50000 w).range = true) := by decide +kernel
/-- CLR of the last accumulator and of one past it; a LOOP of count 1 and of count 0; MOVI into g0 and g15. -/
theorem witness_BankIntegers :
    (let l := launch1 (img 8 (1 * 2 ^ 10 + 1023)); (l.unitOf 0 0 0).pc + 1 < l.image.length ∧ (∀ lp ∈ (l.unitOf 0 0 0).loops, lp.start < 2)) ∧
    bF (BitVec.ofNat 64 (8 * 2 ^ 58 + 1 * 2 ^ 10 + 1023)) 0 10 + 1 ≤ 1024 ∧
    1024 < bF (BitVec.ofNat 64 (8 * 2 ^ 58 + 2 * 2 ^ 10 + 1023)) 0 10 + 2 ∧
    bF (BitVec.ofNat 64 (5 * 2 ^ 58 + 1 * 2 ^ 16 + 1)) 16 16 = 1 ∧
    (bF (BitVec.ofNat 64 (5 * 2 ^ 58)) 16 16 = 0 ∧ bF (BitVec.ofNat 64 (5 * 2 ^ 58)) 0 9 + 1 < (img 5 0).length) := by decide +kernel
/-- One row of eight lines, against one vector, into the last accumulator. -/
theorem witness_BankMac :
    let u : BUnit := { g := [(2, 8)] }
    let f := bStr (BitVec.ofNat 64 (16 * 2 ^ 58 + 8 * 2 ^ 44 + 2 * 2 ^ 36 + 1023 * 2 ^ 18 + 1))
    f.fmt = 0 ∧ 1 ≤ f.rlen ∧ u.reg f.nreg ≠ 0 ∧ u.reg f.nreg % f.rlen = 0 ∧ u.reg f.mreg + u.reg f.nreg ≤ bLines ∧
      f.acc + u.reg f.nreg / f.rlen * 2 ^ f.glog ≤ 1024 ∧ u.reg f.vreg + (2 ^ f.glog - 1) * u.reg f.sreg + f.rlen * 128 ≤ 131072 ∧ f.inc = true := by
  decide
/-! ### Attention and links -/

/-- A word 1 of an ATT command: AOP, LAYER, SEQ, PASS, HB, HA. -/
def attW (aop layer seq pass hb ha : Nat) : Nat := aop * 2 ^ 60 + layer * 2 ^ 52 + seq * 2 ^ 36 + pass * 2 ^ 30 + hb * 2 ^ 12 + ha
theorem witness_AttAccepts :
    (attRows.all fun p =>
      let c := cmd 4 (attW p.1 0 0 0 2 1) (2 ^ 32 + 1) 0
      let s := queueS c [(1, desc 0 1 8 0 512 0), (2, desc 0 2 0 0 2 8)]
      heads s c && c.op == 4 && attLegal c && c.aop == p.1 && s.gateOpen 0 && decide (s.attHeld 1 (s.attHome 1 c) < 64) &&
        (s.useDescs 0 [(1, [0]), (2, [0])]).2.2 == none) = true ∧
    (let c := cmd 4 (attW 7 0 0 0 0 0) 0 0
     heads (queueS c []) c = true ∧ attLegal c = false) := by decide +kernel
/-- An accepted command of partition 1. -/
def item (c : Cmd) (ha hb : Desc) : AttItem := { core := 0, queue := 0, idx := 0, part := 1, cmd := c, ha := ha, hb := hb }
def attS (i : AttItem) (f : State → State) : State := f { queueS 0 [] with att := [i] }
/-- POOL_ADD of the last frame there is and of one past it; SEQ_OPEN of a closed context with room and without; SEQ_CLOSE. -/
theorem witness_AttContexts :
    (let c := cmd 4 (attW 1 0 0 0 0 0) (2 ^ 32) 5
     let i := item c 0 0
     let s := attS i id
     (s.attReady 0 0 1).head? = some i ∧ (c.arg2 % 2 ^ 22 + c.n) * 32768 ≤ s.rsvSize (c.arg % 8) ∧ s.frame 0 5 = none ∧
       s.inArea 0 5 = false ∧ s.rsvSize 0 < (3145728 + 1) * 32768) ∧
    (let c := cmd 4 (attW 2 0 3 0 0 0) (2 ^ 32 * 2 + 1) 0
     let i := item c 0 0
     let s := attS i fun s => { s with rsvs := [(3, { slotCount := 261 })] }
     (s.attReady 0 0 2).head? = some i ∧ s.seqMine 1 c.seq = true ∧ (s.seqAt c.seq).isOpen = false ∧
       (s.seqAt c.seq).openPasses = 0 ∧
       (s.tableRoom 1 3 (4 * (c.arg % 256) * c.n)).isSome = true ∧ s.tableRoom 1 4 64 = none ∧ s.seqMine 1 64 = false) ∧
    (let i := item (cmd 4 (attW 3 0 3 0 0 0) 0 0) 0 0
     let s := attS i fun s => { s with seqs := [(3, { isOpen := true, part := 1, layers := 1, cap := 1 })] }
     (s.attReady 0 0 3).head? = some i ∧ (s.seqAt 3).openPasses = 0 ∧ s.seqMine 1 3 = true ∧ (s.seqAt 3).isOpen = true) :=
  ⟨by decide +kernel, by decide +kernel, by decide +kernel⟩
/-- Context 3 holds 10 tokens of the 64 of its one page; context 4 is open and empty. -/
def seqS (i : AttItem) : State := attS i fun s =>
  { s with
    seqs := [(3, { isOpen := true, part := 1, layers := 1, cap := 1, len := 10, table := [(0, 0x80000005)] }),
             (4, { isOpen := true, part := 1, layers := 1, cap := 1 })]
    pool := [(5, some { part := 1, refs := 1, pins := 0 })] }
theorem witness_AttEdits :
    (let c := cmd 4 (attW 4 0 3 0 0 0) (54 * 2 ^ 32) 0
     let s := seqS (item c 0 0)
     (s.attReady 0 0 4).head? = some (item c 0 0) ∧ (s.seqAt 3).len.toNat + c.n = 64 * (s.seqAt 3).cap.toNat ∧
       (∀ k < 8, s.appendNeeds 3 0 1 k ≤ (s.freeFrames 1 k).length) ∧ (s.reserve 1 (s.appendBlocks 3 0 1)).isSome = true ∧
       (s.seqAt 3).openPasses = 0 ∧
       (∃ k < 8, (s.freeFrames 1 k).length < s.appendNeeds 4 0 1 k)) ∧
    (let c := cmd 4 (attW 5 0 4 0 0 0) (10 * 2 ^ 32) 3
     let s := seqS (item c 0 0)
     (s.attReady 0 0 5).head? = some (item c 0 0) ∧ s.seqMine 1 3 = true ∧ (s.seqAt 3).isOpen = true ∧ (s.seqAt c.seq).len = 0 ∧
       (s.seqAt c.seq).layers = (s.seqAt 3).layers ∧ (s.seqAt c.seq).toff = (s.seqAt 3).toff ∧ c.n ≤ (s.seqAt 3).len.toNat ∧
       c.n ≤ 64 * (s.seqAt c.seq).cap.toNat ∧ (s.seqAt 3).page 0 0 = some 5 ∧ (s.frame 0 5 = some { part := 1, refs := 1, pins := 0 })) ∧
    (let c := cmd 4 (attW 6 0 3 0 0 0) (10 * 2 ^ 32) 0
     let s := seqS (item c 0 0)
     (s.attReady 0 0 6).head? = some (item c 0 0) ∧ c.n ≤ (s.seqAt 3).len.toNat) :=
  ⟨by decide +kernel, by decide +kernel, by decide +kernel⟩
/-- A pass of context 3 at slot 3, the last of the partition. -/
def pass1 (st : PassSt) (read : Nat) : Pass :=
  { st := st, seq := 3, len := 10, heads := 1, read := read, owner := some (0, 0), cmd := some (0, 0, 7), pages := [{ block := 0, k := 0, frame := 5 }] }
theorem witness_AttPasses :
    (let c := cmd 4 (attW 8 0 3 3 2 1) 0 0
     let i := item c (desc 0 1 8 0 512 0) (desc 0 2 0 0 2 8)
     let s := seqS i
     (s.attReady 0 0 8).head? = some i ∧ c.slot < (s.part 1).passSlots.toNat ∧ c.layer < (s.seqAt 3).layers.toNat ∧
       c.arg ≤ (s.seqAt 3).len.toNat ∧ (s.pass 1 3).st ≠ .opened ∧ scoreShape c i.ha i.hb = none ∧ scoreShape c i.ha 0 ≠ none ∧
       (s.unitPages (pass1 .opened 1) 0 (s.frameUnit 0 5).1 (s.frameUnit 0 5).2).length ≤ 32) ∧
    (let c := cmd 4 (attW 9 0 0 3 2 1) 0 0
     let i := item c (desc 0 1 0 0 1 0) (desc 0 3 0 0 512 1 ||| BitVec.ofNat 1024 (8 * 2 ^ 512))
     let s := { seqS i with passes := [(67, pass1 .opened 2)] }
     (s.attReady 0 0 9).head? = some i ∧ (s.pass 1 3).st = .opened ∧ (s.pass 1 3).read = 2 ∧ applyShape c 1 i.ha i.hb = none) ∧
    (let i := item (cmd 4 (attW 10 0 0 3 0 0) 0 0) 0 0
     let s := seqS i
     (s.attReady 0 0 10).head? = some i ∧ (s.pass 1 3).st = .free) :=
  ⟨by decide +kernel, by decide +kernel, by decide +kernel⟩
/-- A stripe whose fetch has been answered; a stripe without pages, one whose last output is written, and a pass at and one tick before its limit. -/
theorem witness_PassReads :
    (let x := { pass1 .opened 1 with ha := desc 0 1 8 (2 ^ 40) 512 0, hb := desc 0 2 0 (2 ^ 40) 2 8 }
     let s := { seqS (item 0 0 0) with passes := [(67, x)], slu := [(33, { weight := 1, allow := 99 }), (32, { weight := 1, allow := 99 })] }
     (s.pass 1 3).st = .opened ∧ x.read = 1 ∧ x.launched.toNat.testBit 0 = false ∧ s.passChans x 0 ≠ [] ∧ s.passChans x 1 = [] ∧
       (∀ c ∈ s.passChans x 0, (s.chan 0 c).st = .active) ∧
       (s.track (.pass 1 3 0) AccRes.isWait fun s => s.readMA (.pass 1 3 0) (rsvMaster 0 (some 1)) x.ha.base (512 * x.heads)).2 =
         .ok (List.replicate 512 0)) ∧
    (let x := { pass1 .opened 1 with ha := desc 0 1 8 (2 ^ 40) 512 0 }
     let e : AccReq := { id := 1, ma := 2 ^ 40, len := 512, res := some (0, 0, List.replicate 512 0) }
     let a : HeldAcc := { who := .pass 1 3 0, reqs := [e] }
     let s := { seqS (item 0 0 0) with passes := [(67, x)], accs := [a] }
     s.pass 1 3 = x ∧ s.accOf (.pass 1 3 0) = some a ∧ s.passChans x 0 ≠ [] ∧ (∀ c ∈ s.passChans x 0, (s.chan 0 c).st = .active)) ∧
    (let x := { pass1 .opened 1 with launched := 255, done := 127, hb := desc 0 2 0 (2 ^ 40 + 7 * 2 ^ 37) 2 8 }
     let s := { seqS (item 0 0 0) with passes := [(67, x)], slu := [(487, { weight := 1, allow := 99 })] }
     x.launched.toNat.testBit 7 = true ∧ x.done.toNat.testBit 7 = false ∧ s.passLaunch 1 3 7 = none ∧
       (x.done ||| BitVec.ofNat 8 (2 ^ 7)).toNat = 255 ∧ x.poison = none ∧ 
       (s.track (.passOut 1 3 7) AccRes.isWait fun s => s.writeAll (.passOut 1 3 7) (rsvMaster 7 (some 1)) (passOutputs s x 7).1).2 = .ok []) ∧
    (({ clp := { tick := 0x61A } } : State).reached (0 + max 1 0x061A) = true ∧
      ({ clp := { tick := 0x619 } } : State).reached (0 + max 1 0x061A) = false) := by decide +kernel
/-! ### Links, network -/

/-- Port 1 UP at 20 lanes; a stream of context 5 and one armed at context 6. -/
def tx1 : TxStream :=
  { port := 1, core := 0, queue := 0, idx := 4, peer := 9, tag := 77, bytes := 600, cells := 2, rate := 128, start := 0, startTick := 0, gap := 16,
    src := desc 0 1 6 (2 ^ 40) 600 0, feed := none, admitted := some 0, epoch := 3, sent := 0, lastTick := none, cancel := none, dead := false }
def rx1 : RxStream :=
  { port := 1, core := 0, queue := 0, idx := 4, tag := 77, gap := 16, dst := desc 0 1 6 0 600 0, spill := desc 0 1 6 4096 65536 0, opnd := 0,
    comb := 0, burst := 64, spilln := 4, bflag := none, armTick := 0, armLimit := 10, epoch := 3, sctx := 9, admitted := true, bytes := 600,
    cells := 2, gapFrom := 0, next := 0, committed := 0, out := none, waiting := [], drain := none, dead := false }
def port1 : Port := { st := .up, txWidth := 20, rxWidth := 20, txMap := List.range 20, rxMap := List.range 20, sync := true }
def linkS (c : Cmd) (ds : List (Nat × Desc)) (f : State → State) : State := f { queueS c ds with ports := [(1, port1)] }
/-- A SEND of 600 bytes at RATE 128 with GAP 16 from context 5 to context 9, and a RECV into context 6; the full rate does not fit beside a
stream. -/
theorem witness_LinkCommands :
    (let c := cmd 5 0 (1 + 16 * 2 ^ 16 + 77 * 2 ^ 32) (1 * 2 ^ 59 + 5 * 2 ^ 44 + 9 * 2 ^ 29 + 128 * 2 ^ 19)
     let s := linkS c [(1, desc 0 1 6 0 600 0)] id
     let ds := s.useDescs 0 [(1, [0])]
     heads s c = true ∧ c.op = 5 ∧ s.gateOpen 0 = true ∧ s.portOn 1 = true ∧ 128 ≤ (s.lport 1).capacity ∧ ds.2.2 = none ∧
       planeFault 1 (ds.2.1.headD 0) = none ∧ s.linkChecks 1 1 5 = none ∧ s.linkChecks 1 1 64 = some cLnkCtxDenied ∧
       s.rateFits 1 128 s.tick (max (s.tick + 1) (s.tick + 1)) = true ∧
       ({ s with txs := [(7, some { tx1 with rate := 500, cells := 5000 })] }.rateFits 1 128 0 1 = false)) ∧
    (let c := cmd 6 (1 * 2 ^ 36 + 2 * 2 ^ 24 + 64 * 2 ^ 48) (1 * 2 ^ 11 + 16 * 2 ^ 16 + 4 * 2 ^ 4 + 77 * 2 ^ 32) (6 * 2 ^ 49 + 10 * 2 ^ 24)
     let s := linkS c [(1, desc 0 1 6 0 600 0), (2, desc 0 1 6 4096 131072 0)] id
     let ds := s.useDescs 0 [(1, [0]), (2, [0])]
     heads s c = true ∧ c.op = 6 ∧ bitsOf (wordOf c 1) 48 12 = 64 ∧ bitsOf (wordOf c 2) 4 4 = 4 ∧ ds.2.2 = none ∧ recvShape c ds.2.1 = none ∧
       s.linkChecks 1 1 6 = none ∧ (s.rxOn 1).length < 256) := by decide +kernel
/-- A port whose one admitted stream is due; a cell it can send, its bytes in reservoir 0. -/
theorem witness_PortSends :
    (let s := linkS 0 [] fun s => { s with txs := [(5, some tx1)] }
     (s.lport 1).st = .up ∧ (s.lport 1).lastTick ≠ some s.tick ∧ s.txOn 1 = [(5, tx1)] ∧ tx1.cancel = none ∧ tx1.admitted.isSome = true ∧
       s.txDue tx1 = true ∧ (s.setTx 5 (some { tx1 with admitted := none })).txDue { tx1 with admitted := none } = false) ∧
    (let s := linkS 0 [] fun s => { s with slu := [(43, { weight := 1, allow := 99 }), (64 * 43 + 0, { weight := 1, allow := 99 })] }
     let d := tx1.src
     let v := s.setTx 5 (some tx1)
     let r := v.track (.linkTx 5) RowRes.isWait fun s =>
       s.readElems (.linkTx 5) (linkMaster 1 (s.partOf 0)) d (d.elemsIn 0) (d.elemsIn 512 - d.elemsIn 0)
     r.2 = .ok (List.replicate 512 0) [] ∧ v.tx 5 = some tx1 ∧ tx1.sent < tx1.cells) ∧
    (let m : OutMsg := { msg := .close 5 3 2, num := 1, left := 2 }
     (({ port1 with outbox := [m] } : Port).outbox = [m] ∧ m.left = 2 ∧ m.cmd = none)) := by decide +kernel
/-- The next cell of an admitted stream, one past it, one before it. -/
theorem witness_CellsArrive :
    (let s := linkS 0 [] fun s => { s with rxs := [(6, some { rx1 with next := 1 })] }
     let t := s.setPort 1 { s.lport 1 with laneCorr := [], corrected := satAdd (s.lport 1).corrected 0 }
     (s.lport 1).st = .up ∧ (s.lport 1).laneCorr = [] ∧ (s.lport 1).dropCells = 0 ∧ s.rx 5 = none ∧ s.rx 6 = some { rx1 with next := 1 } ∧
       t.rxRun 6 ({ rx1 with next := 1 } : RxStream).fuel = t ∧ rx1.drain = none ∧ 1 / rx1.burst < rx1.committed + rx1.spilln) := by decide +kernel
theorem witness_MessagesAct :
    (let s := linkS 0 [] fun s => { s with txs := [(5, some { tx1 with admitted := none })], rxs := [(6, some { rx1 with admitted := false })] }
     (s.lport 1).st = .up ∧ (1 : BitVec 16) ∉ (s.lport 1).seen ∧ s.rx 6 = some { rx1 with admitted := false } ∧ rx1.port = 1 ∧
       s.tx 5 = some { tx1 with admitted := none } ∧ tx1.start = 0 ∧ (s.lport 0).st ≠ .up) ∧
    (let s := linkS 0 [] fun s => { s with txs := [(5, some tx1)], rxs := [(6, some rx1)] }
     s.tx 5 = some tx1 ∧ tx1.admitted.isSome = true ∧ tx1.dead = false ∧ s.rx 6 = some rx1 ∧ rx1.admitted = true ∧ s.tx 6 = none ∧
       (s.lport 1).peerResetEn = false) ∧
    (let s := linkS 0 [] fun s => { s with ports := [(1, { port1 with peerResetEn := true })] }
     s.licMulti = true ∧ (s.lport 1).peerResetEn = true) := by decide +kernel
theorem witness_StreamTimers :
    (let s := linkS 0 [] fun s => { s with clp := { tick := 16 }, rxs := [(6, some rx1), (7, some { rx1 with admitted := false })],
                                           txs := [(5, some { tx1 with sent := 2, lastTick := some 0 })] }
     s.rx 6 = some rx1 ∧ s.reached (rx1.gapFrom + rx1.gap) = true ∧ ({ s with clp := { tick := 15 } }.reached (rx1.gapFrom + rx1.gap) = false) ∧
       s.rx 7 = some { rx1 with admitted := false } ∧ rx1.armLimit ≠ 0 ∧ s.reached (rx1.armTick + rx1.armLimit) = true ∧
       (s.tx 5).map TxStream.lastTick = some (some 0)) ∧
    (let s := linkS 0 [] fun s => { s with ports := [(1, { port1 with admits := [(0, .admitReq 9 6 77 600 128 0)] })] }
     (s.lport 1).admits = [(0, .admitReq 9 6 77 600 128 0)]) := by decide +kernel
theorem witness_PortStates :
    (let s := linkS 0 [] fun s => { s with ports := [(1, { st := .training, good := 256 })] }
     (s.lport 1).st = .training ∧ 256 ≤ (s.lport 1).good ∧ 10 ≤ (onesOf 22 (0x3FF : BitVec 22).toNat).length) ∧
    (let s := linkS 0 [] fun s => { s with clp := { tick := 16 } }
     (s.lport 1).st = .up ∧ s.reached ((s.lport 1).lastHdr + 16) = true ∧ s.txOn 1 = [] ∧ s.rxOn 1 = [] ∧
       (s.lport 1).peerNode = (hdr 3 []).node ∧ (s.lport 1).peerLink = (hdr 3 []).link ∧ (hdr 3 []).msgs = [] ∧ (s.lport 2).st ≠ .up) := by
  decide +kernel
/-- A codeword of core 3's cistern at its first and last sub-channel states. -/
def cistS (f : SubCh → SubCh) : State :=
  { queueS 0 [] with cisterns := [(3, { subs := (List.range 4).map fun l => (l, f {}) })] }
theorem witness_CisternAccess :
    (let s := cistS id
     3 < s.nCores ∧ 64 < s.cistSize 3 ∧ s.targetReset (.cist 3 64) = false ∧ (s.sub 3 (s.cistLoc 3 64).1).st = .active ∧
       (s.sub 3 (s.cistLoc 3 64).1).window = false ∧ (s.sub 3 (s.cistLoc 3 64).1).pendingWrite [(3 * 2 ^ 30 + 64, 64)] = false ∧
       (s.sub 3 (s.cistLoc 3 64).1).whold = false ∧ (∀ e ∈ s.pinInj, e.1 ≠ cistPinKey 3 (s.cistLoc 3 64).1 (s.cistLoc 3 64).2) ∧
       Map.get {} s.cw ((3 * 2 ^ 30 + 64) / 64) = {}) ∧
    (let s := cistS fun x => { x with st := .retired }
     64 < s.cistSize 3 ∧ (s.sub 3 (s.cistLoc 3 64).1).st = .retired) ∧
    (let s := cistS fun x => { x with st := .retiring }
     64 < s.cistSize 3 ∧ (s.sub 3 (s.cistLoc 3 64).1).st = .retiring) ∧
    (let s := cistS fun x => { x with window := true }
     64 < s.cistSize 3 ∧ (s.sub 3 (s.cistLoc 3 64).1).window = true) := by decide +kernel
/-- A request of a host's port at reservoir 0 that its sluice grants, one it holds, one barred, one that needs no network; the order of a free
channel, of one behind a launch, of one whose hold queue is full; a request held for 100 µs. -/
theorem witness_ReservoirRequests :
    (let s := queueS 0 []
     let m := s.rowMaster 62 0 0 false
     let o := s.openReq m (.port 62) false true (2 ^ 40 + 64) 64 (List.replicate 64 1)
     o.2.length = 1 ∧ ∀ p ∈ o.2, p.near ≠ [] ∧ s.masterFenced m.port (.rsv 0 64) = false ∧ 64 < s.rsvSize 0 ∧
      (let h : HeldReq := { id := p.id, who := p.who, port := m.port, part := m.part, there := false, parts := [p] }
       (∃ n ∈ h.needs, (s.acct n.1.2 n.1.1).weight = 0 ∧ (s.acct n.1.2 n.1.1).guar = 0) ∧
       (let t := { s with slu := [(62, { weight := 1, allow := 9 })] }
        (∀ n ∈ h.needs, ((t.clockReq h).acct n.1.2 n.1.1).fits n.2 = true) ∧ (t.clockReq h).sluHeld = [] ∧
          (∀ n ∈ h.needs, (t.acct n.1.2 n.1.1).weight = 1)) ∧
       (let t := { s with slu := [(62, { weight := 1, allow := 0 })] }
        ∃ n ∈ h.needs, ((t.clockReq h).acct n.1.2 n.1.1).fits n.2 = false))) ∧
    (let s := queueS 0 []
     let m := s.rowMaster 32 1 0 false
     let o := s.openReq m (.port 32) false true (2 ^ 40) 64 (List.replicate 64 1)
     o.2.length = 1 ∧ ∀ p ∈ o.2, p.near = []) ∧
    (let r : ReqPart := { id := 1, who := .port 62, port := 62, via := 62, part := none, wr := false, runs := [(2 ^ 40, 64)] }
     let s := { queueS 0 [] with time := 160000 }
     (s.resolve r.ma = .rsv 0 0 ∧ s.rsvFenced 0 = false ∧ r.wr = false ∧ r.arrived = none) ∧
     ((s.chan 0 0).ops = [] ∧ (s.chan 0 0).window = false ∧ (s.chan 0 0).busy = false ∧ (s.perform r).isSome = true) ∧
     (let t := s.setChan 0 0 { current := some (.launch 3) }
      t.behindLaunch 0 0 62 = true ∧ (t.chan 0 0).depth < 256 ∧ (t.chan 0 0).busy = true) ∧
     (let e : ArbEntry := { cycle := 0, rank := 62, item := .req { r with inHold := true } }
      let t := s.setChan 0 0 { current := some (.launch 3), ops := List.replicate 256 e }
      t.behindLaunch 0 0 62 = true ∧ 256 ≤ (t.chan 0 0).depth) ∧
     s.holdLate { r with inHold := true, arrived := some (0, 0, 0) } = true ∧ s.holdLate { r with inHold := true, arrived := some (0, 1, 0) } = false) := by
  decide +kernel
/-- A request starved through 1,024 epochs; a bundle in order and a direction whose window opens. -/
theorem witness_SluicesAndBridge :
    (queueS 0 []).sluHeld = [] ∧
    (let p : ReqPart := { id := 1, who := .port 62, port := 62, via := 62, part := none, wr := true, runs := [(2 ^ 40, 64)], data := List.replicate 64 0, near := [(62, 0)] }
     let r : HeldReq := { id := 1, who := .port 62, port := 62, part := none, there := false, parts := [p], starved := [(0, 1024)] }
     let s := { queueS 0 [] with sluHeld := [r] }
     (s.sluHeld.find? fun h => h.counts 62 0 && decide (1024 ≤ Map.get 0 h.starved 0)) = some r) ∧
    (let s := { queueS 0 [] with clp := { tick := 32770 } }
     (s.bundle 1 0).st ≠ 2 ∧ s.brWindow.toNat.testBit 1 = false ∧ (s.bundle 1 0).inject = 0 ∧ (Map.get ({} : BrRow) s.brRows 4).early = [] ∧
       s.opensWindow 65536 (32768 + 2 * 1) = true ∧ s.opensWindow 65536 (32768 + 2 * 0) = false ∧ (∀ b < 64, (s.bundle 1 b).failing = [])) := by
  decide +kernel
/-! ### Windows, refreshes, the clepsydra, the host interface -/

theorem witness_WindowsAndRetirement :
    (let s := { cistS id with clp := { tick := 1024 * 2 + 2 * 3 } }
     s.opensWindow 4096 (1024 * 2 + 2 * 3) = true ∧ (s.sub 3 2).window = false ∧ (s.sub 3 2).st ≠ .retired ∧ 3 < s.nCores ∧
       (s.sub 3 2).dead = [] ∧ (s.sub 3 2).prov = [] ∧ s.opensWindow 4096 (1024 * 3 + 2 * 3) = false ∧
       { s with clp := { tick := 1024 * 2 + 2 * 3 + 1 } }.opensWindow 4096 (1024 * 2 + 2 * 3) = false ∧ s.evacOf true 3 2 = none) ∧
    (let s := cistS fun x => { x with window := true }
     (s.sub 3 2).window = true ∧ s.inWindow 4096 (1024 * 2 + 2 * 3) 2 = false) ∧
    (let s := { queueS 0 [] with clp := { tick := 16 * (32 * 7 + 31) } }
     s.opensWindow 4096 (16 * (32 * 7 + 31)) = true ∧ (s.chan 7 31).window = false ∧ (s.chan 7 31).st ≠ .retired ∧ (s.chan 7 31).dead = [] ∧
       (s.chan 7 31).prov = []) ∧
    (let e : Evac := { cist := true, owner := 3, ch := 2, since := 0, target := none }
     let s := { cistS id with evacs := [e], time := 1600000000 }
     s.evacOf true 3 2 = some e ∧ e.target = none ∧ e.since + 1600000000 ≤ s.time) ∧
    (let e : Evac := { cist := false, owner := 7, ch := 31, since := 0, target := some 0 }
     { queueS 0 [] with evacs := [e] }.evacOf false 7 31 = some e ∧ e.target = some 0) := by
  decide +kernel
/-- A request held past its limit by a write hold, its hold still there; a unit that runs on a channel; a granule without errors. -/
theorem witness_Refreshes :
    (let r : ReqPart := { id := 1, who := .port 62, port := 62, via := 62, part := none, wr := true, runs := [(3 * 2 ^ 30, 64)],
                          data := List.replicate 64 0, arrived := some (0, 0, 0) }
     let s := { cistS fun x => { x with whold := true, held := [r] } with clp := { tick := 0x61A } }
     ((s.sub 3 2).held.find? fun r => r.wr && s.reached (r.arrivedTick s.tick + max 1 (s.cist 3).wholdLimit.toNat)) = some r ∧ (s.sub 3 2).whold = true ∧
       ((cistS id).sub 3 2).held = []) ∧
    (let l := launch1 (img 6 0)
     let s := bankS l id
     (s.chan 0 0).current = some (.launch 3) ∧ s.launch 3 = some l ∧ l.fault = none ∧ (Map.get ({} : BUnit) l.units (256 * 0 + 8 * 0 + 7)).ended = false) ∧
    (let s := queueS 0 []
     (s.rsv 0).skimEnable = true ∧ (s.chan 0 1).st ≠ .retired ∧ (s.chan 0 1).proc = false ∧ (s.chan 0 1).erase = none ∧ (s.chan 0 1).prov = [] ∧
       (s.chan 0 1).current = none ∧ s.cw = []) := by decide +kernel
/-- The clepsydra in `mode` at tick `t`. -/
def clpS (t : BitVec 48) (f : Clep → Clep) : State := { queueS 0 [] with clp := f { tick := t, lastPulse := some (t.toNat - 1) } }
theorem witness_Clepsydra :
    (let s := clpS 9 fun c => { c with run := 1024 }
     (s.clp.mode = .freeRun ∧ s.clp.masked = false ∧ s.clp.lastPulse = some 8 ∧ (s.edgePos - nearest 1024 s.edgePos) / 1024 % 2 ^ 48 = 9 ∧
       1025 ≤ s.clp.run + 1 ∧ s.clp.s2Lock = false ∧ ¬ 1025 ≤ (clpS 9 id).clp.run + 1)) ∧
    (let s := clpS 9 fun c => { c with mode := .locked, drop := 64, sub := 64 }
     s.clp.mode = .locked ∧ (nearest 1024 s.edgePos).natAbs ≤ 64 ∧ 65 ≤ (nearest 1024 (clpS 9 fun c => { c with drop := 65, sub := 65 }).edgePos).natAbs ∧
       ((s.edgePos - nearest 1024 s.edgePos) / 1024 % 2 ^ 48).toNat % 65536 ≠ 0) ∧
    (let s := clpS 9 fun c => { c with mode := .locked, missing := true }
     s.tick % 65536 ≠ 0 ∧ s.clp.lastPulse ≠ some s.tick ∧ s.clp.missTick ≠ some s.tick ∧ s.clp.missing = true) ∧
    (let s := clpS 65540 fun c => { c with lastBad := some 0 }
     s.clp.lastBad = some 0 ∧ (0 + 1) % 2 ^ 32 = s.turn ∧ { s with clp := { s.clp with tick := 2 * 65536 } }.turn = 2) ∧
    (let s := { clpS 16 fun c => { c with s2Lock := true, s2Pulses := true } with bup := { stage := 2, since := 0 }, time := 2 * 65536 * 1024 }
     s.clp.mode = .freeRun ∧ s.clp.masked = false ∧ s.clp.resyncs = [] ∧ s.s2Since ≤ 2 * 65536 * 1024 ∧
       2 * 65536 * 1024 < { s with time := 2 * 65536 * 1024 + 1 }.s2Since ∧ { s with time := 1600000 }.s2Since ≤ 1600000 ∧
       1600000 < { s with time := 1600001 }.s2Since) ∧
    (let s := clpS 16 fun c => { c with mode := .acquire }
     s.clp.resyncs = [] ∧ s.clp.s2Lock = false ∧ s.clp.slewing = false ∧ (nearest (65536 * 1024) s.edgePos).natAbs = 16384 ∧
       16384 < (nearest (65536 * 1024) (clpS 17 id).edgePos).natAbs) ∧
    (let s := clpS 9 fun c => { c with mode := .acquire, slewing := true }
     s.clp.slewing = true ∧ s.clp.slew = 0) ∧
    (let s := { clpS 9 fun c => { c with mode := .holdover, lossTime := some 0 } with time := 2 ^ 40 }
     s.clp.mode = .holdover ∧ s.clp.lossTime.isSome = true ∧ s.clp.uncertSent = false ∧ s.clp.thresh ≠ 0 ∧ s.clp.thresh.toNat < s.uncert) ∧
    (let s := clpS 65536 id
     s.tick % 65536 = 0 ∧ s.atDropZero = true ∧ s.clp.lastTurn ≠ some s.turn ∧ 2 ≤ s.bup.stage.toNat ∧ s.clp.newTurns = [] ∧
       (∀ p < 20, (s.lport p).rxPlan = [] ∧ (s.lport p).txPlan = [])) := by decide +kernel
/-- A ring of 16 entries: its last index and the first beyond it; a completion that waits for its ring; a vector pending. -/
theorem witness_Rings :
    (let s := { queueS 0 [] with host := { rings := [(0, { enable := true, log2n := 4, cq := 3 }), (16, { enable := true, log2n := 4, used := 5 }),
                                                    (19, { enable := true, log2n := 4, fresh := 1 }), (32, { enable := true, log2n := 4, used := 5 })] } }
     (s.ring 0).live = true ∧ (s.ring 0).size = 16 ∧ (s.ring 16).live = true ∧ (s.ring 1).live = false ∧
       ((5 : Nat) + (s.ring 16).size - (s.ring 16).head.toNat) % (s.ring 16).size ≤ (s.ring 16).used ∧
       (s.ring 16).used < ((6 : Nat) + (s.ring 16).size - (s.ring 16).head.toNat) % (s.ring 16).size ∧
       (s.ring 32).live = true ∧ (s.ring 19).fresh ≠ 0 ∧ max 1 (s.ring 19).coalCnt.toNat ≤ (s.ring 19).fresh ∧ (s.ring 19).room = true ∧
       (s.ring 5).enable = false ∧ 4 ≤ ((4 * 2 ^ 16 : BitVec 32).toNat >>> 16) % 32) ∧
    (let s := { queueS 0 [] with bup := { stage := 6, holding := false }, host := { rings := [(0, { enable := true, log2n := 4, used := 1 })] } }
     s.nextSq = some 0 ∧ s.host.taken.length < 256 ∧ s.bup.holding = false ∧ s.heldEvents 14 = []) ∧
    (let s := { queueS 0 [] with bup := { stage := 6, holding := false }, pci := { msixEn := true }, host := { msix := [(7, { pending := true })] } }
     s.bup.holding = false ∧ (s.vec 7).pending = true ∧ s.pci.msixMask = false ∧ s.pci.msixEn = true ∧ (s.vec 6).pending = false) ∧
    (let w : CqWait := { sq := 0, cid := 1, opc := 2, status := 0, fault := 0, result := [], esn := 9, tick := 0 }
     let s := { queueS 0 [] with host := { cqWait := [w], rings := [(19, { enable := true, log2n := 4 }), (0, { cq := 3 })] } }
     (s.host.cqWait.find? fun w => (s.ring w.sq).cq.toNat == 3) = some w ∧ (s.ring (16 + 3)).room = true) := by decide +kernel
theorem witness_HostAccesses :
    ((queueS 0 []).host.winEn = false ∧ { queueS 0 [] with host := { winEn := true, wprot := true } }.host.wprot = true ∧
      (0 : BitVec 40).toNat < 2 ^ (queueS 0 []).pci.bar2Log.toNat) ∧
    ((8 : BitVec 26).toNat % (8 : BitVec 4).toNat = 0 ∧ (8 : BitVec 26).toNat < 2 ^ 25 ∧ 2 ^ 25 ≤ (0x2000000 : BitVec 26).toNat ∧
      (4 : BitVec 26).toNat % (8 : BitVec 4).toNat ≠ 0 ∧ inRegSpace ((queueS 0 []).regMA 0) = true ∧
      inRegSpace ({ queueS 0 [] with host := { regWin := 0 } }.regMA 0) = false) ∧
    (let h : HostRead := { tag := 5, ma := 0, len := 64, since := 0, data := [], fault := none }
     let s := { queueS 0 [] with host := { reads := [h] } }
     (s.host.reads.find? fun h => h.tag = 5) = some h) ∧
    (((queueS 0 []).writeRegs .host (0x200 : Nat) (leBytes 8 1)).2 = 0) ∧
    ((queueS 0 []).hubBlocked = false ∧
      (let r : MemReq := { id := 1, who := .hostWrite, port := 62, wr := true, ma := 64, len := 1, left := 1 }
       { queueS 0 [] with reqs := [r] }.hostWaits = true) ∧
      (let s := { queueS 0 [] with host := { hub := [(3, .sqDoorbell 1 2)] } }
       s.pending = [] ∧ s.partials = [] ∧ s.clp.s2Lock = false ∧ s.hostWaits = false)) := by decide +kernel
/-- An access the hub keeps, with nothing else waiting in the module. -/
theorem witness_HostAccesses_hub :
    let s : State := { State.reset with host := { State.reset.host with hub := [(3, .sqDoorbell 1 2)] } }
    s.pending = [] ∧ s.partials = [] ∧ s.clp.s2Lock = false ∧ (∀ n, (s.core n).asyncWait = []) ∧ s.hostWaits = false ∧
      s.host.hub = [(3, .sqDoorbell 1 2)] :=
  ⟨rfl, rfl, rfl, fun _ => rfl, by decide +kernel, rfl⟩
/-! ### WCS commands -/

/-- A WCS command of partition `part` taken from SQ 2 with CID 0x41. -/
def wcmd (opc part : Nat) (w : List Nat) : WcsCmd :=
  { sq := 2, cid := 0x41, part := part, opc := opc, order := false, w := w.map (BitVec.ofNat 64), stage := 0 }
/-- The module READY with that command taken; `run` the same with it started. -/
def wcsS (c : WcsCmd) (f : State → State) : State :=
  f { queueS 0 [] with
    bup := { stage := 6, ready := true, holding := false }
    host := { taken := [c] }
    wh := { injEn := true }
    cores := [] }
def ran (s : State) : State := { s with host := { s.host with taken := s.host.taken.map fun x => { x with stage := 1 } } }
/-- What `State.Starts` asks for, as a test. -/
def starts (s : State) (c : WcsCmd) (opc : Nat) : Bool :=
  (s.host.taken.find? fun c => c.sq == (2 : BitVec 4).toNat && c.cid == (0x41 : BitVec 16).toNat &&
      (c.stage == 0 || (c.stage == 1 && c.todo.isSome))) == some c &&
    decide (c.stage = 0 ∧ c.todo = none) && c.opc == opc && s.startable c && s.refusal c == none
theorem starts_spec (s : State) (c : WcsCmd) (opc : Nat) (h : starts s c opc = true) :
    s.Starts 2 0x41 opc c (s.startCmd c) := by
  simp only [starts, Bool.and_eq_true, beq_iff_eq, decide_eq_true_eq] at h
  exact ⟨h.1.1.1.1, h.1.1.1.2, h.1.1.2, h.1.2, h.2, rfl⟩
/-- Every WCS opcode can be started: the hypothesis that all statements about WCS rows share. -/
theorem witness_Starts : (wcsOpcodes.all fun n => starts (wcsS (wcmd n 1 [1]) id) (wcmd n 1 [1]) n) = true := by decide +kernel
theorem witness_WcsSettings :
    (ran (wcsS (wcmd 5 31 []) id)).partExists 31 = false ∧ (ran (wcsS (wcmd 5 1 []) id)).partExists 1 = true ∧
    (let t := ran (wcsS (wcmd 3 0 [0x10, 700]) id)
     t.paramValue 0x10 0 = some 4800 ∧ t.paramOk 0x10 0 600 = true ∧ t.paramOk 0x10 0 599 = false ∧ t.paramOk 0x10 0 4800 = true ∧
       t.paramOk 0x10 0 4801 = false ∧ t.flashTemp = true ∧ ({ t with thm := { sites := [(264, { act := 561 })] } }.flashTemp = false) ∧
       t.paramValue 0x12 0 = none) ∧
    (let t := ran (wcsS (wcmd 6 0 []) id)
     t.portFused 0 = false ∧ ((List.range 64).map fun i => if i = 62 then 0 else (t.acct 0 i).guar.toNat).sum + 1024 = 1024 ∧
       1024 < ((List.range 64).map fun i => if i = 62 then 0 else ({ t with slu := [(5, { guar := 1 })] }.acct 0 i).guar.toNat).sum + 1024 ∧
       ({ t with fuses := { portOff := 1 } }.portFused 0 = true)) ∧
    (let t := ran (wcsS (wcmd 7 1 [4095, 1]) fun s =>
       { s with parts := [(1, { clusters := 1, desc := 0x10000000000 })], slu := [(63, { weight := 1, allow := 9 })] })
     let r := (t.openAcc (.wcs 2 0x41)).whWrites (.wcs 2 0x41) [((t.part 1).desc.toNat + 128 * 4095, List.replicate 128 1)]
     r.2 = [.ok []] ∧ (t.whWrites (.wcs 2 0x41) []).2 = []) ∧
    (let t := ran (wcsS (wcmd 0x22 0 [1, 1]) fun s => { s with ports := [(1, port1)] })
     t.portFused 1 = false ∧ t.portLicensed 1 = true ∧ t.licMulti = true ∧ (t.lport 1).st = .up ∧ (t.lport 0).st ≠ .up) ∧
    (let t := ran (wcsS (wcmd 0x2A 0 [0, 64, 5]) fun s => { s with wh := { s.wh with
       audit := [{ esn := 5, index := 1, pos := 0, wall := 0, a := { origin := 1, oclass := 1, object := 0, old := 0, new := 0, odetail := 0 } }] } })
     (∀ e ∈ t.events, e.audits = []) ∧ ((t.wh.audit.filter fun e => decide (5 ≤ e.esn.toNat)).take (64 / 64)).length = 1 ∧
       (t.wh.audit.filter fun e => decide (6 ≤ e.esn.toNat)) = []) := by decide +kernel
/-- PART_CREATE of partition 2 on cluster 1 with channel 1 of every reservoir; PART_DESTROY, JOB_START, STREAM_CANCEL of partition 1. -/
theorem witness_WcsPartitions :
    (let c := wcmd 4 2 [2, 64, 0x030008000000, 2 ^ 33 + 2, 2 ^ 33 + 2, 2 ^ 33 + 2, 2 ^ 33 + 2]
     let t := ran (wcsS c fun s => { s with licParts := 8, nCores := 32, chset := (List.range 8).map fun k => (32 * k + 1, (1 : Word)),
                                            cores := (List.range 32).map fun n => (n, ({ site := BitVec.ofNat 10 (n / 16 * 32 + n % 16) } : Core)) })
     t.partExists 2 = false ∧ (c.arg 2) % 2 ^ 19 = 0 ∧ t.fuses.clusterOff.toNat &&& 2 = 0 ∧
       (∀ g ∈ onesOf 32 2, t.heldOut.contains g = false ∧ Map.get false t.clusterRetired g = false ∧ Map.get none t.clusterPart g = none) ∧
       firstFit (((t.parts.filter fun e => e.2.clusters != 0).map Prod.snd).map fun x => (x.seqBase.toNat, x.seqCount.toNat)) 65536 64 = some 64 ∧
       ((List.range 8).all fun k => (List.range 32).all fun q => q == 2 || c.chset k &&& t.chsetOf k q == 0) = true ∧ (t.rsv 0).slotCount.toNat = 0 ∧
       t.tableFits 2 c.chset (c.arg 2 % 2 ^ 48) = true) ∧
    (let t := ran (wcsS (wcmd 5 1 []) id)
     t.partExists 1 = true ∧ t.quiet (t.coresOf 1) = true ∧ t.host.jobs = []) ∧
    (let t := ran (wcsS (wcmd 0x1A 1 [5]) fun s => { s with txs := [(5, some tx1)] })
     t.ctxMine 1 5 = true ∧ t.ctxOpen 5 = true ∧ t.ctxOpen 6 = false) := by decide +kernel
/-- The module with a LOAD of partition 1 started, and the first four words of an image for it. -/
def loadS : State := ran (wcsS (wcmd 0x10 1 [0, 64]) id)
def imageHead : List Byte :=
  leBytes 8 (1 + (loadS.fuses.grade * 2 ^ 4 + loadS.uclWord) * 2 ^ 32) ++ leBytes 8 loadS.licWord ++
    leBytes 8 (loadS.nCores + (loadS.part 1).clusters.toNat * 2 ^ 32) ++ leBytes 8 0
theorem leNat_leBytes_eight (d : Nat) (h : d < 2 ^ 64) (r : List Byte) : leNat ((leBytes 8 d ++ r).take 8) = d := by
  simp [leBytes, leNat]; omega
theorem imageHead_length : imageHead.length = 32 := by decide +kernel
theorem imageHead_words (r : List Byte) (o : Nat) (ho : o ≤ 24) : ((imageHead ++ r).drop o).take 8 = (imageHead.drop o).take 8 := by
  rw [List.drop_append_of_le_length (by rw [imageHead_length]; omega),
    List.take_append_of_le_length (by rw [List.length_drop, imageHead_length]; omega)]
theorem imageSections_head (r : List Byte) (hr : r.length = 32) : imageSections (imageHead ++ r) = some [] := by
  have h0 : leNat ((imageHead.drop 0).take 8) % 2 ^ 32 = 1 := by decide +kernel
  have h3 : leNat ((imageHead.drop 0x18).take 8) % 2 ^ 32 = 0 := by decide +kernel
  have hl : (imageHead ++ r).length = 64 := by rw [List.length_append, imageHead_length, hr]
  simp only [imageSections, imageHead_words r 0 (by omega), imageHead_words r 0x18 (by omega), h0, h3, hl]
  rfl
theorem imageStamp_head (r : List Byte) : imageStamp (imageHead ++ r) =
    [loadS.fuses.grade * 2 ^ 4 + loadS.uclWord, loadS.licWord, (loadS.part 1).clusters.toNat * 2 ^ 16 + loadS.nCores, leNat (r.take 8)] := by
  have h0 : bitsOf (leNat ((imageHead.drop 0).take 8)) 32 8 = loadS.fuses.grade * 2 ^ 4 + loadS.uclWord := by decide +kernel
  have h1 : leNat ((imageHead.drop 8).take 8) = loadS.licWord := by decide +kernel
  have h2 : bitsOf (leNat ((imageHead.drop 0x10).take 8)) 32 32 * 2 ^ 16 + leNat ((imageHead.drop 0x10).take 8) % 2 ^ 16 =
      (loadS.part 1).clusters.toNat * 2 ^ 16 + loadS.nCores := by decide +kernel
  simp only [imageStamp]
  rw [imageHead_words r 0 (by omega), imageHead_words r 8 (by omega), imageHead_words r 0x10 (by omega), h0, h1, h2, List.drop_left' imageHead_length]
/-- LOAD: an image with no section and the present stamp, whatever the digest of the memory map is; one with another stamp. -/
theorem witness_Load : imageStamp (imageHead ++ (leBytes 8 (loadS.mapDigest 1) ++ List.replicate 24 0)) = loadS.stampNow 1 ∧
    imageSections (imageHead ++ (leBytes 8 (loadS.mapDigest 1) ++ List.replicate 24 0)) = some [] ∧
    imageStamp (List.replicate 64 0) ≠ loadS.stampNow 1 ∧ imageSections (List.replicate 64 0) = none ∧ (loadS.whWrites (.wcs 2 0x41) []).2 = [] := by
  refine ⟨?_, imageSections_head _ (by simp [leBytes]), ?_, by decide +kernel, by decide +kernel⟩
  · rw [imageStamp_head, leNat_leBytes_eight _ (by unfold State.mapDigest; exact Nat.mod_lt _ (by decide))]; rfl
  · exact fun h => absurd (congrArg (fun l => l.getD 2 0) h) (by decide +kernel)
/-- JOB_START of queue 1 of core 0 under handle 64, loaded with the present stamp. -/
def startS0 : State := ran (wcsS (wcmd 0x12 1 [0, 0, 1, 0]) id)
def startS : State :=
  { startS0 with host := { startS0.host with progs := [(64, some { gen := startS0.profGen, stamp := (startS0.stampNow 1).map (BitVec.ofNat 64) })] } }
theorem stampNow_host (s : State) (h : HostIf) (p : Nat) : ({ s with host := h } : State).stampNow p = s.stampNow p := rfl
theorem startS_stamp : startS.stampNow 1 = startS0.stampNow 1 := stampNow_host startS0 _ 1
theorem witness_JobStart : startS.prog 1 64 = some { gen := startS.profGen, stamp := (startS.stampNow 1).map (BitVec.ofNat 64) } ∧
    startS.thm.coolant ≠ .halted ∧ (leBytes 8 (2 ^ 57) ++ leBytes 8 4).length = 16 ∧
    ((startList (leBytes 8 (2 ^ 57) ++ leBytes 8 4) 1).map fun e => (e.core, e.queue)) = [(0, 1)] ∧ startS.partOf 0 = some 1 ∧
    startS.still (0, 1) = true ∧ (startS.jobOf 0 1).isNone = true :=
  ⟨by rw [startS_stamp]; rfl, by decide +kernel, by decide +kernel, by decide +kernel, by decide +kernel, by decide +kernel, by decide +kernel⟩
/-- A job whose time limit has come, and has not. -/
theorem witness_JobLimit :
    (let j : Job := { sq := 2, cid := 0x41, part := 1, queues := [(0, 1)], left := [(0, 1)], limit := some 3, ended := none, aborts := [] }
     let s := { wcsS (wcmd 1 0 []) id with host := { jobs := [j] }, clp := { tick := 3 } }
     (s.host.jobs.find? fun j => j.sq == 2 && j.cid == 0x41) = some j ∧ s.reached 3 = true ∧ { s with clp := { tick := 2 } }.reached 3 = false) := by
  decide +kernel
/-- A licence record of the right form, whatever its signature: the two cases of the signature's check, which the model leaves open. -/
theorem witness_Licence :
    (let t := ran (wcsS (wcmd 0x28 0 [0, 4691]) id)
     let bs := leBytes 8 (1 + 2 ^ 16) ++ leBytes 8 20 ++ List.replicate 4675 0
     bs.length = 4691 ∧ (t.licFormOk bs = true → t.licSigned bs = true ∨ t.licSigned bs = false)) :=
  ⟨by decide +kernel, fun _ => by cases State.licSigned _ _ <;> simp⟩
/-- An event more than a source's buffer holds, of a queue, of the wellhead and of the hub. -/
theorem witness_FullBuffers :
    (let e : Event := { post := 0, src := 3, body := .queueIdle 0 1, audits := [] }
     let s : State := { cores := [(0, { queues := [(1, { st := .issuing, count := 1 })] })], events := List.replicate 1024 { e with body := .change } ++ [e] }
     s.queueStalled 0 1 = true ∧ s.queueStalled 0 0 = false ∧ (s.heldEvents 3).length = 1 ∧
       (enterBuffer 3 9 1023 (s.events.erase { e with body := .change })).getLast? = some { e with post := 9 }) ∧
    (let s : State := { events := List.replicate 1025 { post := 0, src := 14, body := .change, audits := [] } }
     s.heldEvents 14 ≠ [] ∧ s.heldEvents 13 = []) := by decide +kernel
/-- A firmware image of a bad form is refused with code 2. -/
theorem witness_Firmware : (ran (wcsS (wcmd 0x29 0 [0, 8]) id)).fwCheck (List.replicate 8 0) = some 2 := by decide +kernel
/-- Two events of one time: the source of the lower number goes first. -/
theorem witness_EventSequence :
    let e (n : Nat) : Event := { post := 4, src := n, body := .change, audits := [] }
    (∀ f ∈ [e 9], (e 3).post < f.post ∨ ((e 3).post = f.post ∧ (e 3).src < f.src)) ∧
    (∀ f ∈ [e 3, e 4], (e 3).post < f.post ∨ ((e 3).post = f.post ∧ (e 3).src ≤ f.src)) := by decide
theorem witness_HostDmaAndScrub :
    (let c := wcmd 0x18 0 [10 * 2 ^ 8, 0, 0, 2 ^ 40, 1, 0]
     bitsOf (c.arg 0) 8 4 = 10 ∧ c.arg 3 ≤ 2 ^ 40 ∧ c.arg 4 % 2 ^ 16 = 1 ∧ (c.arg 5).testBit 63 = false) ∧
    (let t := ran (wcsS (wcmd 0x19 0 [3, 3 * 2 ^ 30, 64, 1]) id)
     t.scrubTarget (3 * 2 ^ 30) 64 = some (0, 3) ∧ t.scrubTarget (3 * 2 ^ 30 + 1) 64 = none ∧ t.scrubTarget (2 ^ 40) 64 = some (3, 0) ∧ t.scrubs = [] ∧
       t.scrubGone (3, 0) = false) ∧
    (let h : Hdma := { sq := 2, cid := 0x41, out := false, log2 := 6, host := 0, ma := 64, len := 8, gapUs := 1, sig := none, got := [], committed := 0,
                       lastAt := 0 }
     let s := { wcsS (wcmd 1 0 []) id with host := { hdma := [h] }, time := 1600, fwShares := true }
     s.hdma 2 0x41 = some h ∧ h.got.length < h.len - h.committed ∧ h.lastAt + 1600 * h.gapUs ≤ s.time ∧ 8 ≤ h.burst ∧
       (((s.putHdma { h with got := Map.setRange none [] 0 ((List.replicate 8 7).map some), lastAt := s.time }).track (.hostDma 2 0x41)
         AccRes.isWait fun u => u.writeMA (.hostDma 2 0x41) hubMaster h.ma (List.replicate 8 7)).2 = .ok [])) ∧
    (let h : Hdma := { sq := 2, cid := 0x41, out := true, log2 := 6, host := 0, ma := 0x8000000000, len := 8, gapUs := 1, sig := none, got := [],
                       committed := 0, lastAt := 0 }
     let s := { wcsS (wcmd 1 0 []) id with host := { hdma := [h] } }
     s.hdma 2 0x41 = some h ∧ (s.track (.hostDma 2 0x41) AccRes.isWait fun u =>
       u.readMA (.hostDma 2 0x41) hubMaster (h.ma + h.committed) (min h.burst (h.len - h.committed))).2 = .fault cMemUnmapped 0x8000000000) ∧
    (let x : Scrub := { sq := 2, cid := 0x41, start := 3 * 2 ^ 30, len := 64, poison := false }
     let s := { wcsS (wcmd 1 0 []) id with scrubs := [x] }
     (s.scrubs.find? fun x => x.sq == 2 && x.cid == 0x41) = some x ∧ s.scrubTarget x.start x.len = some (0, 3) ∧ s.scrubGone (0, 3) = false ∧
       (s.scrubPass x (0, 3)).2.wait = false) := by decide +kernel
/-! ### Resets, injections, the start, power; the machine as a whole -/

theorem witness_PartialResets :
    (let t := ran (wcsS (wcmd 0x20 1 [2, 1]) id)
     t.partials = [] ∧ t.isRetired 0x0E 1 = false ∧ t.dieFenced 0 = false ∧ t.present 1 ≠ 0 ∧ t.present 8 ≠ 0 ∧ t.isRetired 0x0F 1 = false ∧
       t.partExists 1 = true ∧ t.partExists 30 = false ∧ 1 < t.nCores ∧ (t.cist 1).present ≠ 0 ∧ t.nCores ≤ 511 ∧ t.bup.holding = false ∧
       (t.part 1).clusters.toNat.testBit 0 = true) ∧
    (let t := ran (wcsS (wcmd 0x20 1 [2, 1]) fun s => { s with partials := [{ sq := 2, cid := 0x41, scope := 2, object := 1, full := false },
                                                                            { sq := 3, cid := 0x41, scope := 3, object := 7, full := false }] })
     (t.partialOf 2 1).isSome = true ∧ (t.partialOf 3 7).isSome = true ∧ t.partialOf 2 0 = none ∧ t.rowLost = false ∧ t.rsvFenced 7 = false) := by
  decide +kernel
/-- INJECTs of every type, with whether their target exists and whether their parameter is one. -/
def injCases : List (Nat × Nat × Nat × Bool × Bool) :=
  [(1, 64, 71 + 2 ^ 8 + 2 ^ 16, true, true), (1, 63, 0, false, false), (1, 64, 72 + 2 ^ 8 + 2 ^ 16, true, false),
   (2, 2 ^ 40, 0, true, true), (2, 64, 0, false, true), (3, 0x030000000008, 3 + 0x7F * 2 ^ 8, true, true),
   (3, 0x030000000008, 72 + 0x7F * 2 ^ 8, true, false), (4, 2 ^ 32, 5, true, true), (4, 2 ^ 32, 0, true, false)] ++
  [(5, 7 + 31 * 2 ^ 8, 1000, true, true), (5, 7, 1001, true, false), (6, 3 + 3 * 2 ^ 16, 1, true, true), (6, 511, 1, false, true),
   (7, 1, 1, true, true), (7, 1, 0, true, false), (8, 1 + 19 * 2 ^ 8, 0, true, true), (8, 1 + 22 * 2 ^ 8, 0, false, true), (9, 1, 1024, true, true),
   (9, 1, 1025, true, false), (10, 0, 64, true, true), (10, 0, 0, true, false), (11, 265, 2 ^ 32, true, true), (11, 266, 2 ^ 32, false, true),
   (12, 0, 1, true, true)]
/-- An injection of type 7 on port 1, applied as number 3 with no cell left to drop. -/
def inj1 : Inj := { sq := 2, cid := 0x41, ty := 7, w1 := 1, w2 := 4, pos := 0, applied := some 3, stop := 0 }
theorem witness_Injections :
    (let t := ran (wcsS (wcmd 0x2B 0 [1, 64, 0, 0]) fun s => { s with ports := [(1, port1)] })
     (injCases.all fun x => t.injExists x.1 x.2.1 == x.2.2.2.1 && t.injParam x.1 x.2.1 x.2.2.1 == x.2.2.2.2) = true ∧
       t.injKind 2 64 = false ∧ t.injKind 3 (2 ^ 40) = false ∧ t.injKind 1 96 = false ∧ t.injKind 1 0x8000000000 = true ∧
       t.injExists 1 0x8000000000 = false ∧ (65536 * 1024 : Int) < t.ahead (70000 * 1024) ∧ 0 < t.ahead 1024 ∧ t.ahead 1024 ≤ (t.horizon * 1024 : Nat) ∧ t.injPending = 0 ∧
       t.cwWaits 64 = false ∧ t.serving = true) ∧
    (let s := { wcsS (wcmd 1 0 []) id with wh := { injs := [inj1] } }
     s.nextInj = none ∧ (s.wh.injs.find? fun i => i.applied == some 3) = some inj1 ∧ s.injOver inj1 = true ∧
       ({ s with ports := [(1, { port1 with dropCells := 2 })] }.injOver inj1 = false)) ∧
    (let s := { wcsS (wcmd 1 0 []) id with wh := { injs := List.replicate 16 { inj1 with applied := none } } }
     s.injPending = 16 ∧ s.nextInj = some { inj1 with applied := none } ∧ (s.applyInj { inj1 with applied := none }).isSome = true) := by
  decide +kernel
/-- The module at full supply with no reset asserted. -/
def onPins : Pins := { vin48 := true, pwrOk := true, rails := true }
theorem witness_ModuleResets :
    (let t := ran (wcsS (wcmd 0x20 0 [0]) fun s => { s with pins := onPins })
     t.bup.holding = false ∧ t.bup.stage = 6 ∧ t.pins.pwrOk = true ∧ t.pins.modResetN = true ∧ t.pins.perstN = true ∧ t.pins.trip = false ∧
       t.pins.vin48 = true ∧ t.wh.recovery = false ∧ (siteStack 5).2.1 = 0 ∧ (t.site 5).d0.ejected = false ∧ (t.site 5).d1.ejected = false ∧
       t.held = false ∧ ({ t with pins := { onPins with trip := true } }.held = true)) ∧
    (let s := { State.reset with pins := onPins, bup := { stage := 1, running := true, s1Restarts := 1 } }
     s.bup.stage = 1 ∧ s.bup.running = true ∧ s.bup.resumeS1 = false ∧ s.bup.s1Restarts.toNat < 2 ∧ s.pins.pwrOk = true) ∧
    (State.reset.pins.vin48 = false ∧ ({} : Pins).pwrOk = false) ∧
    (let s := { State.reset with pins := onPins, bup := { holding := true, nextSource := 2 }, flash := { recA := { valid := true, startNo := 7 } } }
     s.bup.holding = true ∧ s.bup.nextSource ≠ 0 ∧ s.bup.resumeS1 = false ∧ s.held = false ∧ s.pins.rails = true ∧
       s.flash.record = some (false, { valid := true, startNo := 7 })) := by decide +kernel
/-- A stage in progress, one too long; the record and the counter. That an image's signature holds is open in the model, so that S0 with
`fwCheck` at none has no evaluated witness; each of its other findings has one. -/
theorem witness_StartStages :
    (let x : StageIn := { durationMs := 1, flashOk := true, board := none, dies := 3, pulses := true, readback := true, found := [] }
     ((List.range 7).all fun st => ({ stage := BitVec.ofNat 4 st } : Bup).stage.toNat == st && !tooLong st false x.durationMs &&
       (st == 6 || tooLong st false 1000000)) = true ∧
       x.flashOk = true ∧ x.dies = 3 ∧ State.reset.fwCheck [] = some 2 ∧ State.reset.isRetired 0x0E 0 = false ∧ State.reset.repairs = [] ∧
       State.reset.bup.bootMode ≠ 0) ∧
    (let s := { wcsS (wcmd 1 0 []) id with repDirty := some 4, flash := { recB := { valid := true } } }
     s.bup.ready = true ∧ s.flashTemp = true ∧ s.bup.recPending = false ∧ s.repDirty ≠ none ∧ s.flash.record = some (true, { valid := true })) ∧
    (let s := { wcsS (wcmd 1 0 []) id with wh := { counterRetry := some 0, fw := { commit := true, svn := 3 } }, time := 96000000000 }
     s.wh.counterRetry = some 0 ∧ (0 : Nat) + 96000000000 ≤ s.time ∧ s.wh.fw.commit = true ∧ s.fuses.counter.toNat < s.wh.fw.svn.toNat ∧
       s.flashTemp = true ∧ ({ s with thm := { sites := [(264, { act := 561 })] } }.flashTemp = false)) := by decide +kernel
theorem witness_SamplesAndCoolant :
    (let s := { wcsS (wcmd 1 0 []) id with clp := { tick := 300 } }
     s.tick % 100 = 0 ∧ s.thm.lastSample ≠ some s.tick ∧ 1 ≤ s.bup.stage.toNat ∧ s.thm.trayLost = 0 ∧ s.thm.coolant = .normal ∧
       (s.thm.flows.head?.map Prod.snd) = none) ∧
    (let s := { wcsS (wcmd 1 0 []) id with clp := { tick := 49152 + 4 * 3 + 1 }, thm := { sites := [(3, { d0 := { ejected := true } }),
                                                                                                (19, { d1 := { ejected := true } })] } }
     s.inWindow 65536 (49152 + 4 * 3) 2 = true ∧ (s.site 3).spareUsed = false ∧ (s.site 3).d0.ejected = true ∧ (s.site 19).d0.ejected = false ∧
       (s.site 19).d1.ejected = true) ∧
    (let s := { wcsS (wcmd 1 0 []) id with time := 2 ^ 40, thm := { engaged := [(2, some { since := 0, last := 0, due := 8 })], quietSince := some 0,
                                                                     escW := 4000, missRuns := [4, 3, 0], flows := [(2 ^ 40, 700)],
                                                                     lowSince := some 5 } }
     Map.get none s.thm.engaged 2 = some { since := 0, last := 0, due := 8 } ∧ (8 : Nat) ≤ s.time ∧ s.thm.quietSince = some 0 ∧
       max (0 + 1600000000) ((s.thm.escAt.map fun x => x + 1600000000).getD 0) ≤ s.time ∧ s.thm.escW.toNat < 4800 ∧
       s.thm.missRuns.getD 0 0 = 4 ∧ s.thm.missRuns.getD 1 0 < 4 ∧ s.thm.trayLost.getLsbD 1 = false ∧
       (s.thm.flows.head?.map Prod.snd).getD 65535 < 768 ∧ s.thm.lowSince = some 5 ∧ (5 : Nat) + 160000000 ≤ s.time ∧
       6 * ((s.thm.flows.filter fun e => decide (s.time ≤ e.1 + 320000000)).map Prod.snd).foldl max 0 ≤ 10 * 768) ∧
    (swallowOf 0 = 0 ∧ swallowOf 1 = 1 ∧ swallowOf 144 = 230 ∧ refNext 1 743 = 1 ∧ refNext 2 744 = 2 ∧ refNext 1 744 = 1 ∧ refNext 0 760 = 1 ∧
      refNext 0 761 = 2 ∧ refNext 2 664 = 1 ∧ refNext 2 663 = 0 ∧ refNext 0 680 = 0 ∧ refNext 0 681 = 1) := by decide +kernel
theorem witness_PowerAndGate :
    (let s := { wcsS (wcmd 1 0 []) id with clp := { tick := 512 }, thm := { capW := 4800 } }
     s.tick % 1024 = 512 ∧ 1 ≤ s.bup.stage.toNat ∧ s.thm.lawAt = none ∧ s.thm.slotAt ≠ some s.tick ∧ 6 ≤ s.bup.stage.toNat ∧
       s.capNow < s.thm.capW.toNat ∧ s.thm.inputRange = false ∧ s.thm.convLost ≠ 1) := by decide +kernel
/-- A step on each of an empty queue and a queue with a command; a bundle of two slots in order. -/
theorem witness_StepTakesTheFront :
    State.reset.pending = [] ∧ State.reset.host.hub = [] ∧ State.reset.clp.slewing = false ∧ ({ State.reset with pending := [.trstN, .hotReset] }).pending = [.trstN, .hotReset] ∧
    (([.mem .vld ⟨0, false, 1, 2, 0, 0, 0⟩, .ctl .br ⟨0, false, 5⟩] : List SlotOp).map SlotOp.slot).Pairwise (· < ·) := by decide +kernel
theorem witness_MemoryStaysCanonical : Memory.wf State.reset.mem = true ∧ Memory.wf [(5, 1), (9, 255)] = true ∧ Memory.wf [(5, 1), (9, 0)] = false ∧
    Memory.wf [(9, 1), (5, 1)] = false := by decide +kernel

end Sys2Proof.Tests
end

section
/-! PROOFS of the scope's statements (00 R5): what a step and the passing of a drop do, and the host's accesses (13 R282 to R289). -/

namespace Sys2Proof.Machine

/-! ### The passing of one drop -/

/-- The state with one more drop of true time gone, before what time brings about (11 R241, R252). -/
def State.dropPassed (s : State) : State :=
  { s with time := s.time + 1, clp := if s.bup.stage.toNat < 2 then s.clp else s.clp.advance }

/-- Time alone does not begin or end the wait of S2 for the cadence. -/
@[simp] theorem Clep.advance_s2Lock (c : Clep) : c.advance.s2Lock = c.s2Lock := by
  unfold Clep.advance
  split <;> rfl

@[simp] theorem State.dropPassed_s2Lock (s : State) : s.dropPassed.clp.s2Lock = s.clp.s2Lock := by
  unfold State.dropPassed
  dsimp only
  split
  · rfl
  · exact s.clp.advance_s2Lock

/-- S2 finds nothing while it does not wait for the cadence. -/
theorem State.s2Watch_of_unlocked {s : State} (h : s.clp.s2Lock = false) : s.s2Watch = s := by
  simp [State.s2Watch, h]

/-- With nothing waiting for any core's banks, nothing is served. -/
theorem State.servePads_of_idle {s : State} (h : ∀ n, (s.core n).asyncWait = []) : s.servePads = s := by
  unfold State.servePads
  refine List.foldlRecOn (Map.keys s.cores) _ (motive := fun t => t = s) rfl ?_
  rintro t rfl n -
  exact if_pos (h n)

/-- A drop of time where S2 does not wait and no bank access waits: partial resets that are over complete, and the hub goes on. -/
theorem State.tickDrop_of_idle {s : State} (hlock : s.clp.s2Lock = false) (hwait : ∀ n, (s.core n).asyncWait = []) :
    s.tickDrop = s.dropPassed.finishPartials.hubDrain s.host.hub.length := by
  have hwatch : s.dropPassed.s2Watch = s.dropPassed := State.s2Watch_of_unlocked (by simpa using hlock)
  have hpads : s.dropPassed.servePads = s.dropPassed := State.servePads_of_idle hwait
  calc s.tickDrop = s.dropPassed.s2Watch.servePads.finishPartials.hubDrain s.dropPassed.s2Watch.host.hub.length := rfl
    _ = s.dropPassed.finishPartials.hubDrain s.host.hub.length := by rw [hwatch, hpads]; rfl

/-- `t` is `s` in all that the posts and completions of partial resets leave alone. -/
structure State.SameButPosts (s t : State) : Prop where
  time : t.time = s.time
  mem : t.mem = s.mem
  cores : t.cores = s.cores
  pending : t.pending = s.pending
  clp : t.clp = s.clp

/-- A partial reset that is over posts its event and its completion, and nothing else. -/
theorem State.rejoined_sameButPosts (s : State) (p : PartialReset) : s.SameButPosts (s.rejoined p) := by
  unfold State.rejoined
  dsimp only
  split <;> exact ⟨rfl, rfl, rfl, rfl, rfl⟩

theorem State.finishPartials_sameButPosts (s : State) : s.SameButPosts s.finishPartials := by
  unfold State.finishPartials
  refine List.foldlRecOn s.partials _ (motive := s.SameButPosts) ⟨rfl, rfl, rfl, rfl, rfl⟩ ?_
  intro t ht p _
  split
  · obtain ⟨htime, hmem, hcores, hpending, hclp⟩ := State.rejoined_sameButPosts
      { t with partReset := if p.scope = 4 then t.partReset.filter fun x => x != p.object else t.partReset
               coreReset := if p.scope = 5 then t.coreReset.filter fun x => x != p.object else t.coreReset } p
    exact ⟨htime.trans ht.time, hmem.trans ht.mem, hcores.trans ht.cores, hpending.trans ht.pending, hclp.trans ht.clp⟩
  · exact ht

theorem State.finishPartials_of_none {s : State} (h : s.partials = []) : s.finishPartials = s := by
  simp [State.finishPartials, h]

/-! ### A step -/

theorem step_of_pending {s : State} {c : Instr} {cs : List Instr} (h : s.pending = c :: cs) :
    step s = exec c { s with pending := cs } := by
  simp [step, h]

theorem step_of_empty {s : State} (h : s.pending = []) : step s = .next s.tickDrop := by
  simp [step, h]

/-- Without a slew, one drop of time is one drop at the counter, which carries into the tick. -/
theorem Clep.advance_of_no_slew {c : Clep} (h : c.slew = 0) : c.advance = c.plus 1 := by
  simp [Clep.advance, h]

/-- Below the last drop of a tick the drop counts up. -/
theorem Clep.plus_one_within_tick {c : Clep} (h : c.drop.toNat < 1023) :
    (c.plus 1).tick = c.tick ∧ (c.plus 1).drop = c.drop + 1 := by
  have hdiv : (c.tick.toNat * 1024 + c.drop.toNat + 1) / 1024 = c.tick.toNat := by omega
  refine ⟨?_, ?_⟩
  · simp [Clep.plus, hdiv]
  · apply BitVec.eq_of_toNat_eq
    simp only [Clep.plus, BitVec.toNat_ofNat, BitVec.toNat_add, BitVec.ofNat_eq_ofNat]
    omega

/-- The last drop of a tick carries into the tick. -/
theorem Clep.plus_one_at_tick_end {c : Clep} (h : c.drop.toNat = 1023) :
    (c.plus 1).tick = c.tick + 1 ∧ (c.plus 1).drop = 0 := by
  have hdiv : (c.tick.toNat * 1024 + c.drop.toNat + 1) / 1024 = c.tick.toNat + 1 := by omega
  refine ⟨?_, ?_⟩
  · apply BitVec.eq_of_toNat_eq
    simp [Clep.plus, hdiv]
  · apply BitVec.eq_of_toNat_eq
    simp only [Clep.plus, h, BitVec.toNat_ofNat, BitVec.ofNat_eq_ofNat]
    omega

/-- Every row of the table has a meaning that answers a next state. -/
theorem exec_completes (i : Instr) (s : State) : completes i s := by
  cases i <;> exact ⟨_, rfl⟩

/-- A step with nothing waiting: one drop passes, and partial resets that are over complete. -/
theorem step_of_idle {s : State} (hpending : s.pending = []) (hhub : s.host.hub = []) (hlock : s.clp.s2Lock = false)
    (hwait : ∀ n, (s.core n).asyncWait = []) : step s = .next s.dropPassed.finishPartials := by
  rw [step_of_empty hpending, State.tickDrop_of_idle hlock hwait, hhub]
  rfl

/-- Settles O57: the queue's front by the definition of a step, the drop of time by what each of its parts leaves alone, and totality
by the table's rows. -/
theorem stepTakesTheFront : Obligations.StepTakesTheFront := by
  refine ⟨fun s c cs h => step_of_pending h, ?_, ?_, exec_completes⟩
  · intro s hpending hhub hlock hwait
    obtain ⟨htime, hmem, hcores, hpend, hclp⟩ := s.dropPassed.finishPartials_sameButPosts
    refine ⟨_, step_of_idle hpending hhub hlock hwait, htime, hmem, hcores, hpend.trans hpending, ?_, ?_, ?_⟩
    · intro hstage
      exact hclp.trans (if_pos hstage)
    · intro hstage
      exact hclp.trans (if_neg (by omega))
    · exact fun hpartials => State.finishPartials_of_none (s := s.dropPassed) hpartials
  · intro c hslew
    rw [Clep.advance_of_no_slew hslew]
    exact ⟨Clep.plus_one_within_tick, Clep.plus_one_at_tick_end, hslew⟩

/-! ### The hub -/

theorem State.hubBlocked_eq_false {s : State} : s.hubBlocked = false ↔ s.host.hub = [] ∧ s.hostWaits = false := by
  simp [State.hubBlocked]

/-- Nothing leaves the hub while a posted write waits. -/
theorem State.hubDrain_of_waits {s : State} (h : s.hostWaits = true) (fuel : Nat) : s.hubDrain fuel = s := by
  cases fuel with
  | zero => rfl
  | succ fuel => simp [State.hubDrain, h]

/-- The one access that the hub keeps is performed once no posted write waits. -/
theorem State.hubDrain_single {s : State} {t : Nat} {a : HubAcc} (hwaits : s.hostWaits = false) (hhub : s.host.hub = [(t, a)]) :
    s.hubDrain 1 = ({ s with host := { s.host with hub := [] } } : State).hubPerform t a := by
  simp [State.hubDrain, hwaits, hhub]

/-- An access is performed at once where the hub keeps none and no posted write waits. -/
theorem State.hubTake_of_free {s : State} (h : s.hubBlocked = false) (a : HubAcc) : s.hubTake a = s.hubPerform s.time a := by
  obtain ⟨hhub, -⟩ := State.hubBlocked_eq_false.mp h
  have hdrain : s.hubDrain s.host.hub.length = s := by rw [hhub]; rfl
  simp [State.hubTake, hdrain, h]

/-- An access waits in the hub, with its time, behind a posted write that waits. -/
theorem State.hubTake_of_waits {s : State} (h : s.hostWaits = true) (a : HubAcc) :
    s.hubTake a = { s with host := { s.host with hub := s.host.hub ++ [(s.time, a)] } } := by
  have hblocked : s.hubBlocked = true := by simp [State.hubBlocked, h]
  simp [State.hubTake, State.hubDrain_of_waits h, hblocked]

/-- A command that is an access of the host is taken by the hub. -/
theorem exec_of_hubRow {i : Instr} {a : HubAcc} (h : HubRow i a) (s : State) : exec i s = .next (s.hubTake a) := by
  cases h <;> rfl

/-- A command that is an access of the host, at a hub that keeps nothing waiting. -/
theorem exec_of_hubRow_free {i : Instr} {a : HubAcc} (h : HubRow i a) {s : State} (hfree : s.hubBlocked = false) :
    exec i s = .next (s.hubPerform s.time a) := by
  rw [exec_of_hubRow h, State.hubTake_of_free hfree]

/-- A drop of time with one access in the hub and no posted write waiting performs it. -/
theorem step_of_hub_single {s : State} {t : Nat} {a : HubAcc} (hpending : s.pending = []) (hpartials : s.partials = [])
    (hlock : s.clp.s2Lock = false) (hwait : ∀ n, (s.core n).asyncWait = []) (hwaits : s.hostWaits = false)
    (hhub : s.host.hub = [(t, a)]) :
    step s = .next (({ s.dropPassed with host := { s.host with hub := [] } } : State).hubPerform t a) := by
  have hfinish : s.dropPassed.finishPartials = s.dropPassed := State.finishPartials_of_none hpartials
  have hdrain := State.hubDrain_single (s := s.dropPassed) hwaits hhub
  rw [step_of_empty hpending, State.tickDrop_of_idle hlock hwait, hfinish, hhub]
  exact congrArg _ hdrain

/-! ### Accesses through BAR2 (13 R286, R287) -/

/-- A read that the hub received now is a read begun now. -/
theorem State.hostRead_now (s : State) (tag ma len : Nat) : s.hostRead tag ma len (some s.time) = s.hostRead tag ma len := rfl

theorem bar2Read_of_closed {s : State} {off : Nat} (hoff : off < 2 ^ s.pci.bar2Log.toNat) (hwin : s.host.winEn = false)
    (tag len : Nat) (since : Option Nat) :
    bar2Read s tag off len since = s.hostReadFails tag (s.bar2MA off) len cMemUnmapped := by
  simp [bar2Read, Nat.not_le.mpr hoff, hwin]

theorem bar2Read_of_open {s : State} {off : Nat} (hoff : off < 2 ^ s.pci.bar2Log.toNat) (hwin : s.host.winEn = true)
    (tag len : Nat) : bar2Read s tag off len (some s.time) = s.hostRead tag (s.bar2MA off) (min len 4096) := by
  simp [bar2Read, Nat.not_le.mpr hoff, hwin, State.hostRead_now]

theorem bar2Write_of_closed {s : State} {off : Nat} (hoff : off < 2 ^ s.pci.bar2Log.toNat) (hwin : s.host.winEn = false)
    (bs : List Byte) : bar2Write s off bs = s.barFault cMemUnmapped (s.bar2MA off) := by
  simp [bar2Write, Nat.not_le.mpr hoff, hwin]

theorem bar2Write_of_readonly {s : State} {off : Nat} (hoff : off < 2 ^ s.pci.bar2Log.toNat) (hwin : s.host.winEn = true)
    (hprot : s.host.wprot = true) (bs : List Byte) : bar2Write s off bs = s.barFault cHstWinReadonly (s.bar2MA off) := by
  simp [bar2Write, Nat.not_le.mpr hoff, hwin, hprot]

theorem bar2Write_of_open {s : State} {off : Nat} (hoff : off < 2 ^ s.pci.bar2Log.toNat) (hwin : s.host.winEn = true)
    (hprot : s.host.wprot = false) (bs : List Byte) : bar2Write s off bs = s.hostWrite (s.bar2MA off) (bs.take 512) := by
  simp [bar2Write, Nat.not_le.mpr hoff, hwin, hprot]

/-- The capture of a failed access (13 R288). -/
theorem State.barFault_captures (s : State) (code ma : Nat) :
    (s.barFault code ma).host.faultCount = satAdd s.host.faultCount 1 ∧ (s.barFault code ma).host.faultValid = true ∧
    (s.host.faultValid = true → (s.barFault code ma).host.faultCode = s.host.faultCode ∧
      (s.barFault code ma).host.faultMA = s.host.faultMA ∧ (s.barFault code ma).events = s.events) ∧
    (s.host.faultValid = false → (s.barFault code ma).host.faultCode = BitVec.ofNat 16 code ∧
      (s.barFault code ma).host.faultMA = BitVec.ofNat 48 ma) := by
  cases hvalid : s.host.faultValid <;> simp [State.barFault, State.postEv, State.post, hvalid]

/-! ### Accesses through BAR0 (13 R283, R285) -/

/-- An access of 4 or 8 aligned bytes. -/
def AccessAligned (off n : Nat) : Prop := (n = 4 ∨ n = 8) ∧ off % n = 0

/-- A misaligned access fails the check of BAR0. -/
theorem bar0Access_of_misaligned {s : State} {off n : Nat} (h : ¬ AccessAligned off n) (tag : Nat) (since : Option Nat) :
    bar0Access s tag off n none since = { s with hostOut := s.hostOut ++ [.cpl tag .ur []] } ∧
    ∀ d, bar0Access s tag off n (some d) since = s := by
  have hbad : ((n != 4 && n != 8) || off % n != 0 || decide (2 ^ 26 ≤ off)) = true := by
    have : (n != 4 && n != 8) || off % n != 0 := by
      simp only [AccessAligned, not_and] at h
      by_cases hn : n = 4 ∨ n = 8
      · simp [h hn]
      · obtain ⟨h4, h8⟩ := not_or.mp hn
        simp [h4, h8]
    simp [this]
  simp only [bar0Access, hbad, if_true]
  exact ⟨trivial, fun _ => trivial⟩

/-- An aligned access inside BAR0 passes it. -/
theorem bar0_check_of_aligned {off n : Nat} (h : AccessAligned off n) (hoff : off < 2 ^ 26) :
    ((n != 4 && n != 8) || off % n != 0 || decide (2 ^ 26 ≤ off)) = false := by
  obtain ⟨rfl | rfl, hmod⟩ := h <;> simpa [hmod] using hoff

/-- An aligned access to HST_. -/
theorem bar0Access_of_hst {s : State} {off n : Nat} (h : AccessAligned off n) (hoff : off < 2 ^ 25) (tag : Nat) (since : Option Nat) :
    bar0Access s tag off n none since = { s.draw with hostOut := s.hostOut ++ [.cpl tag .ok
      (((leBytes 8 ((s.hstSlot (off / 8 * 8)).value s.free)).drop (off % 8)).take n)] } ∧
    ∀ d, bar0Access s tag off n (some d) since = s.bar0Store (off / 8 * 8) (regW (off % 8) (leBytes n d.toNat)) := by
  simp only [bar0Access, bar0_check_of_aligned h (Nat.lt_trans hoff (by decide)), Bool.false_eq_true, if_false, hoff, if_true]
  exact ⟨trivial, fun _ => trivial⟩

/-- An aligned access to the aperture whose window stands in register space. -/
theorem bar0Access_of_aperture {s : State} {off n : Nat} (h : AccessAligned off n) (hlow : 2 ^ 25 ≤ off) (hoff : off < 2 ^ 26)
    (hreg : inRegSpace (s.regMA (off % 2 ^ 25)) = true) (tag : Nat) :
    bar0Access s tag off n none (some s.time) = s.hostRead tag (s.regMA (off % 2 ^ 25)) n ∧
    ∀ d since, bar0Access s tag off n (some d) since = s.hostWrite (s.regMA (off % 2 ^ 25)) (leBytes n d.toNat) := by
  simp only [bar0Access, bar0_check_of_aligned h hoff, Bool.false_eq_true, if_false, Nat.not_lt.mpr hlow, hreg, if_true,
    State.hostRead_now]
  exact ⟨trivial, fun _ _ => trivial⟩

/-- An aligned write to the aperture whose window stands outside register space. -/
theorem bar0Access_of_unmapped {s : State} {off n : Nat} (h : AccessAligned off n) (hlow : 2 ^ 25 ≤ off) (hoff : off < 2 ^ 26)
    (hreg : inRegSpace (s.regMA (off % 2 ^ 25)) = false) (tag : Nat) (d : DWord) (since : Option Nat) :
    bar0Access s tag off n (some d) since = s.barFault cMemUnmapped (s.regMA (off % 2 ^ 25)) := by
  simp only [bar0Access, bar0_check_of_aligned h hoff, Bool.false_eq_true, if_false, Nat.not_lt.mpr hlow, hreg]

/-! ### Register writes (00 R5; 01 R21) -/

theorem registerWrite_of_misaligned {off n : Nat} (h : ¬ AccessAligned off n) (s : State) (o : Origin) (b : Bool) (d : DWord) :
    registerWrite s o b off n d = s := by
  have : (n ≠ 4 ∧ n ≠ 8) ∨ off % n ≠ 0 := by
    simpa only [AccessAligned, not_and_or, not_or] using h
  simp only [registerWrite, this, if_true]

/-- What an aligned write of the host to register space fails with is captured as a failed access. -/
theorem registerWrite_host {off n : Nat} (h : AccessAligned off n) (s : State) (d : DWord) :
    registerWrite s .host false off n d =
      if (s.writeRegs .host off (leBytes n d.toNat)).2 = 0 then (s.writeRegs .host off (leBytes n d.toNat)).1
      else (s.writeRegs .host off (leBytes n d.toNat)).1.barFault (s.writeRegs .host off (leBytes n d.toNat)).2 (0x03F000000000 + off) := by
  have haccept : ¬ ((n ≠ 4 ∧ n ≠ 8) ∨ off % n ≠ 0) := by
    simpa only [AccessAligned, not_or, not_and_or, not_not] using h
  exact if_neg haccept

/-- An aligned write over the board-management bus reports no fault to the host. -/
theorem registerWrite_sbm {off n : Nat} (h : AccessAligned off n) (s : State) (a : BitVec 7) (d : DWord) :
    registerWrite s (.sbm a) false off n d = (s.writeRegs (.sbm a) off (leBytes n d.toNat)).1 := by
  have haccept : ¬ ((n ≠ 4 ∧ n ≠ 8) ∨ off % n ≠ 0) := by
    simpa only [AccessAligned, not_or, not_and_or, not_not] using h
  exact if_neg haccept

/-- The command's fields say whether its access is aligned. -/
theorem aligned_toNat_iff {off : Nat} {len : BitVec 4} :
    AccessAligned off len.toNat ↔ (len = 4 ∨ len = 8) ∧ off % len.toNat = 0 := by
  simp [AccessAligned, ← BitVec.toNat_inj]

theorem not_aligned_toNat {off : Nat} {len : BitVec 4} (h : len ≠ 4 ∧ len ≠ 8 ∨ off % len.toNat ≠ 0) : ¬ AccessAligned off len.toNat := by
  rwa [aligned_toNat_iff, not_and_or, not_or]

/-- An offset keeps its alignment in the 32 MiB below the aperture. -/
theorem aligned_mod_iff {off n : Nat} : AccessAligned (off % 2 ^ 25) n ↔ AccessAligned off n := by
  refine and_congr_right fun hn => ?_
  obtain rfl | rfl := hn <;> omega

/-- A register write that is misaligned does nothing, through whichever door it comes. -/
theorem exec_registerWrite_of_misaligned {s : State} {o : Origin} (hfree : o = .host → s.hubBlocked = false) (b : Bool)
    {off : BitVec 36} {len : BitVec 4} (h : ¬ AccessAligned off.toNat len.toNat) (d : DWord) :
    exec (.registerWrite o b off len d) s = .next s := by
  have hreg := fun b => registerWrite_of_misaligned h s o b d
  cases o with
  | sbm a => exact congrArg _ (hreg b)
  | jtag => exact congrArg _ (hreg b)
  | host =>
    cases b with
    | false => exact (exec_of_hubRow_free (.reg off len d) (hfree rfl)).trans (congrArg _ (hreg false))
    | true =>
      have hbar0 := (bar0Access_of_misaligned (s := s) (mt aligned_mod_iff.mp h) 0 (some s.time)).2 d
      exact (exec_of_hubRow_free (.hst off len d) (hfree rfl)).trans (congrArg _ hbar0)

/-- CORE_STICKY and WCOLL: a written 1 clears its flag, and nothing sets one (00 R5). -/
theorem State.coreWrite_sticky (s : State) (n : Nat) (w : RegW) :
    ((s.coreWrite n 0x200 w).core n).sticky =
      { inv := w.w1c 0 (s.core n).sticky.inv, ovf := w.w1c 1 (s.core n).sticky.ovf, sat := w.w1c 2 (s.core n).sticky.sat,
        flush := w.w1c 3 (s.core n).sticky.flush } ∧
    ((s.coreWrite n 0x200 w).core n).wcoll = w.w1c 32 (s.core n).wcoll := by
  simp [State.coreWrite]

/-! ### Reads that expire (13 R289) and configuration space (13 R282) -/

theorem readExpired_of_begun {s : State} {tag : Nat} {h : HostRead} (hfind : (s.host.reads.find? fun h => h.tag = tag) = some h) :
    readExpired s tag =
      if h.since + 800000 ≤ s.time then s.endHostRead { h with fault := some (cHstReadExpired, h.ma, 0) } else s := by
  have hmine : (s.host.reads.find? fun h => h.tag == tag) = some h := hfind
  simp only [readExpired, hmine]

theorem configWrite_deviceControl {mp mr : BitVec 3} (hmp : mp.toNat ≤ 2) (hmr : mr.toNat ≤ 5) (s : State) (e : Bool) :
    configWrite s (.deviceControl e mp mr) = { s with pci := { s.pci with relaxed := e, maxPayload := mp, maxRead := mr } } := by
  simp only [configWrite, hmp, hmr, if_true]

/-- With no vector programmed no interrupt that waited is sent. -/
theorem configWrite_msixControl {s : State} (h : s.host.msix = []) (e m : Bool) :
    configWrite s (.msixControl e m) = { s with pci := { s.pci with msixEn := e, msixMask := m } } := by
  simp only [configWrite, h]
  rfl

/-! ### The statement's parts -/

/-- Accesses through BAR2, by what the window allows. -/
theorem exec_bar2 {s : State} (tag : BitVec 10) {off : BitVec 40} (len : BitVec 13) (bs : List Byte)
    (hoff : off.toNat < 2 ^ s.pci.bar2Log.toNat) (hfree : s.hubBlocked = false) :
    (s.host.winEn = false →
      exec (.hostBar2Read tag off len) s = .next (s.hostReadFails tag.toNat (s.bar2MA off.toNat) len.toNat cMemUnmapped) ∧
      exec (.hostBar2Write off bs) s = .next (s.barFault cMemUnmapped (s.bar2MA off.toNat))) ∧
    (s.host.winEn = true →
      exec (.hostBar2Read tag off len) s = .next (s.hostRead tag.toNat (s.bar2MA off.toNat) (min len.toNat 4096)) ∧
      (s.host.wprot = true → exec (.hostBar2Write off bs) s = .next (s.barFault cHstWinReadonly (s.bar2MA off.toNat))) ∧
      (s.host.wprot = false → exec (.hostBar2Write off bs) s = .next (s.hostWrite (s.bar2MA off.toNat) (bs.take 512)))) := by
  rw [exec_of_hubRow_free (.read tag off len) hfree, exec_of_hubRow_free (.write off bs) hfree]
  simp only [State.hubPerform]
  refine ⟨fun hwin => ?_, fun hwin => ⟨?_, fun hprot => ?_, fun hprot => ?_⟩⟩
  · rw [bar2Read_of_closed hoff hwin, bar2Write_of_closed hoff hwin]
    exact ⟨rfl, rfl⟩
  · rw [bar2Read_of_open hoff hwin]
  · rw [bar2Write_of_readonly hoff hwin hprot]
  · rw [bar2Write_of_open hoff hwin hprot]

/-- Accesses through BAR0 at a hub that keeps nothing waiting. -/
theorem exec_bar0 {s : State} (tag : BitVec 10) (off : BitVec 26) (len : BitVec 4) (d : Option DWord) (hfree : s.hubBlocked = false) :
    exec (.regApertureAccess tag off len d) s = .next (bar0Access s tag.toNat off.toNat len.toNat d (some s.time)) :=
  exec_of_hubRow_free (.bar0 tag off len d) hfree

/-- Settles O47: each access goes through the hub, which performs it at once or keeps it; what it does is read off the address. -/
theorem hostAccesses : Obligations.HostAccesses := by
  refine ⟨fun s tag off len bs hoff hfree => exec_bar2 tag len bs hoff hfree, State.barFault_captures, ?_, ?_, ?_, ?_, ?_, ?_, ?_⟩
  · intro s tag off len d hfree
    rw [exec_bar0 tag off len none hfree, exec_bar0 tag off len (some d) hfree]
    refine ⟨fun hbad => ?_, fun hlen hmod hhst => ?_, fun hlen hmod hlow => ⟨fun hreg => ?_, fun hreg => ?_⟩⟩
    · obtain ⟨hread, hwrite⟩ := bar0Access_of_misaligned (s := s) (not_aligned_toNat hbad) tag.toNat (some s.time)
      rw [hread, hwrite d]
      exact ⟨rfl, rfl⟩
    · obtain ⟨hread, hwrite⟩ := bar0Access_of_hst (s := s) (aligned_toNat_iff.mpr ⟨hlen, hmod⟩) hhst tag.toNat (some s.time)
      rw [hread, hwrite d]
      exact ⟨rfl, rfl⟩
    · obtain ⟨hread, hwrite⟩ := bar0Access_of_aperture (aligned_toNat_iff.mpr ⟨hlen, hmod⟩) hlow off.isLt hreg tag.toNat
      rw [hread, hwrite d]
      exact ⟨rfl, rfl⟩
    · rw [bar0Access_of_unmapped (aligned_toNat_iff.mpr ⟨hlen, hmod⟩) hlow off.isLt hreg]
  · intro s i a hrow hwaits
    rw [exec_of_hubRow hrow, State.hubTake_of_waits hwaits]
  · intro s t a hpending hpartials hlock hwait hwaits hhub
    exact step_of_hub_single hpending hpartials hlock hwait hwaits hhub
  · intro s tag h hfind
    exact congrArg _ (readExpired_of_begun hfind)
  · intro s o b off len d hfree
    refine ⟨fun hbad => exec_registerWrite_of_misaligned hfree b (not_aligned_toNat hbad) d, fun hlen hmod => ?_⟩
    have haligned := aligned_toNat_iff.mpr ⟨hlen, hmod⟩
    refine ⟨?_, ?_, ?_⟩
    · rintro rfl hok
      rw [exec_of_hubRow_free (.reg off len d) (hfree rfl)]
      exact congrArg _ ((registerWrite_host haligned s d).trans (if_pos hok))
    · rintro rfl hfault
      rw [exec_of_hubRow_free (.reg off len d) (hfree rfl)]
      exact congrArg _ ((registerWrite_host haligned s d).trans (if_neg hfault))
    · rintro a rfl
      exact congrArg _ (registerWrite_sbm haligned s a d)
  · intro s n w
    obtain ⟨hsticky, hwcoll⟩ := s.coreWrite_sticky n w
    simp only [hsticky, hwcoll]
    exact ⟨rfl, rfl, rfl, rfl, rfl⟩
  · intro s k a e m
    refine ⟨rfl, rfl, rfl, fun mp mr hmp hmr => ?_, fun hmsix => ?_⟩
    · exact congrArg _ (configWrite_deviceControl hmp hmr s e)
    · exact congrArg _ (configWrite_msixControl hmsix e m)

end Sys2Proof.Machine
end

section
/-! PROOFS. O60: every command, and every step, keeps memory in its canonical form. Each function of the model either leaves memory as it
was (`mem_…`) or keeps its form (`wf_…`); the lemmas stand in the order of the definitions they speak of. -/

namespace Sys2Proof.Machine

/-! ### Carrying the canonical form -/

/-- Memory left alone keeps its form. -/
theorem wf_of_mem {s t : State} (hs : Memory.wf s.mem = true) (h : t.mem = s.mem) : Memory.wf t.mem = true := h ▸ hs

theorem wf_foldl {β : Type} (f : State → β → State)
    (hf : ∀ s b, Memory.wf s.mem = true → Memory.wf (f s b).mem = true) (l : List β) (s : State)
    (hs : Memory.wf s.mem = true) : Memory.wf (l.foldl f s).mem = true :=
  foldl_keeps (fun t : State => Memory.wf t.mem = true) f hf l s hs

/-- As `mem_foldl`, for a walk that carries a second value. -/
theorem mem_foldl_fst {β γ : Type} (f : State × γ → β → State × γ) (hf : ∀ a b, (f a b).1.mem = a.1.mem) (l : List β)
    (a : State × γ) : (l.foldl f a).1.mem = a.1.mem :=
  foldl_keeps (fun t : State × γ => t.1.mem = a.1.mem) f (fun t b h => (hf t b).trans h) l a rfl

/-- As `wf_foldl`, for a walk that carries a second value. -/
theorem wf_foldl_fst {β γ : Type} (f : State × γ → β → State × γ)
    (hf : ∀ a b, Memory.wf a.1.mem = true → Memory.wf (f a b).1.mem = true) (l : List β) (a : State × γ)
    (ha : Memory.wf a.1.mem = true) : Memory.wf (l.foldl f a).1.mem = true :=
  foldl_keeps (fun t : State × γ => Memory.wf t.1.mem = true) f hf l a ha

/-- The state an attention command goes on with has its memory in the canonical form. -/
def AttOut.Canonical : AttOut → Prop
  | .going s | .done s | .opened s => Memory.wf s.mem = true
  | .wait | .fault _ _ => True

/-- The state the sending of a cell ends in has its memory in the canonical form. -/
def SendRes.Canonical : SendRes → Prop
  | .sent s | .notReady s | .fault s _ _ => Memory.wf s.mem = true

theorem State.mem_withBup (s : State) (b : Bup) : ({ s with bup := b } : State).mem = s.mem := rfl

theorem State.mem_withBoard (s : State) (clp : Clep) (wh : Wellhead) (thm : Thermal) (bup : Bup) :
    ({ s with clp := clp, wh := wh, thm := thm, bup := bup } : State).mem = s.mem := rfl


/-! ### Machine/Ops -/

@[simp] theorem State.mem_setCist (s : State) (n : Nat) (c : Cistern) : (s.setCist n c).mem = s.mem := rfl

@[simp] theorem State.mem_loadCopies (s : State) (ks : List Nat) : (s.loadCopies ks).mem = s.mem := rfl

/-! ### Machine/Arbiter -/

@[simp] theorem State.mem_dropAccs (s : State) (gone : Who → Bool) : (s.dropAccs gone).mem = s.mem := rfl

@[simp] theorem State.mem_finAcc (s : State) (w : Who) : (s.finAcc w).mem = s.mem := rfl

@[simp] theorem State.mem_order (s : State) (k c rank : Nat) (i : ArbItem) : (s.order k c rank i).mem = s.mem := rfl

theorem State.wf_drainPad (s : State) (n : Nat) (hs : Memory.wf s.mem = true) : Memory.wf (s.drainPad n).mem = true := by
  unfold State.drainPad
  extract_lets c ws t
  split
  · exact hs
  · exact State.wf_serveWords t n ws Prod.fst (fun w => w.2.1) (fun w => w.2.2) hs

theorem State.wf_atEndpoint (s : State) (h : HeldReq) (hs : Memory.wf s.mem = true) : Memory.wf (s.atEndpoint h).mem = true := by
  unfold State.atEndpoint
  exact s.wf_atSluice _ _ (fun v hv => wf_foldl _ (fun a p ha => a.wf_reach p ha) _ _ hv) hs

theorem State.wf_cross (s : State) (h : HeldReq) (hs : Memory.wf s.mem = true) : Memory.wf (s.cross h).mem = true := by
  unfold State.cross
  split
  · rwa [mem_foldl _ (fun _ _ => State.mem_failPart ..)]
  · split
    · exact hs
    · exact State.wf_atEndpoint _ _ hs

theorem State.wf_issueOne (s : State) (h : HeldReq) (hs : Memory.wf s.mem = true) : Memory.wf (s.issueOne h).mem = true := by
  unfold State.issueOne
  extract_lets r gone
  have hr : Memory.wf r.1.mem = true := by simpa [r] using hs
  split
  · split
    · exact State.wf_reachAll _ _ hr
    · exact State.wf_leave _ _ hr
  · exact hr
  · simpa [gone] using hs

theorem State.wf_sendReq (s : State) (m : Master) (ps : List ReqPart) (hs : Memory.wf s.mem = true) :
    Memory.wf (s.sendReq m ps).mem = true := by
  unfold State.sendReq
  extract_lets t live u
  have ht : t.mem = s.mem := mem_foldl _ (fun _ _ => by split <;> simp) _ _
  have hu : Memory.wf u.mem = true := State.wf_reachAll _ _ (by rwa [ht])
  split
  · exact hu
  · extract_lets x
    split
    · exact hu
    · exact State.wf_atSluice _ _ _ (fun v hv => v.wf_leave _ hv) hu

theorem State.wf_track {α : Type} (s : State) (w : Who) (waits : α → Bool) (f : State → State × α) (hs : Memory.wf s.mem = true)
    (hf : ∀ t, Memory.wf t.mem = true → Memory.wf (f t).1.mem = true) :
    Memory.wf (State.track s w waits f).1.mem = true := by
  unfold State.track
  grind [State.mem_dropAcc, State.mem_openAcc, State.mem_setAcc]

/-! ### Machine/Queue -/

@[simp] theorem State.mem_signal (s : State) (n q : Nat) (sig : Option (Nat × Word)) : (s.signal n q sig).mem = s.mem := by
  unfold State.signal
  split <;> rfl

@[simp] theorem State.mem_finishJobs (s : State) : (s.finishJobs).mem = s.mem := s.finishJobs_keeps.2.1

@[simp] theorem State.mem_settle (s : State) (n q : Nat) : (s.settle n q).mem = s.mem := by
  unfold State.settle
  dsimp only
  (repeat' split) <;> simp

@[simp] theorem State.mem_completeCmd (s : State) (n q idx : Nat) : (s.completeCmd n q idx).mem = s.mem := by
  unfold State.completeCmd
  dsimp only
  split <;> simp

@[simp] theorem State.mem_dropWaits (s : State) (n q : Nat) : (s.dropWaits n q).mem = s.mem := rfl

@[simp] theorem State.mem_stopQueue (s : State) (n q : Nat) : (s.stopQueue n q).mem = s.mem := rfl

@[simp] theorem State.mem_haltQueue (s : State) (n q : Nat) (f : RecF) : (s.haltQueue n q f).mem = s.mem := by
  simp [State.haltQueue]

@[simp] theorem State.mem_faultCmd (s : State) (n q idx : Nat) (f : RecF) : (s.faultCmd n q idx f).mem = s.mem := by
  unfold State.faultCmd
  dsimp only
  (repeat' split) <;> simp

@[simp] theorem State.mem_issued (s : State) (n q : Nat) : (s.issued n q).mem = s.mem := rfl

@[simp] theorem State.mem_waitEngine (s : State) (n q : Nat) : (s.waitEngine n q).mem = s.mem := rfl

@[simp] theorem State.mem_launchCmd (s : State) (n q : Nat) (c : Cmd) : (s.launchCmd n q c).mem = s.mem := rfl

@[simp] theorem State.mem_refuseCmd (s : State) (n q : Nat) (c : Cmd) (code detail : Nat) :
    (s.refuseCmd n q c code detail).mem = s.mem := by
  simp [State.refuseCmd]

/-! ### Machine/CoreCycle -/

@[simp] theorem State.mem_feedStep (s : State) (n x : Nat) (st : CubeStep) : (s.feedStep n x st).1.mem = s.mem := by
  unfold State.feedStep
  extract_lets d r r'
  split
  · rfl
  · have hr : r.1.mem = s.mem := mem_foldl_fst _ (fun _ _ => by dsimp only; split <;> simp) _ _
    have hr' : r'.1.mem = s.mem := by simp only [r']; split <;> exact hr
    split
    · exact hr'
    · split
      · exact hr'
      · exact (mem_foldl_fst _ (fun _ _ => by dsimp only; split <;> simp) _ _).trans hr'

@[simp] theorem State.mem_feed (s : State) (n x : Nat) : (s.feed n x).mem = s.mem := by
  unfold State.feed
  exact mem_foldl_fst _ (fun _ _ => by simp) _ _

@[simp] theorem State.mem_doLoads (s : State) (n x : Nat) : (s.doLoads n x).mem = s.mem := by
  unfold State.doLoads
  exact mem_foldl _ (fun _ _ => by simp) _ _

theorem State.wf_doStores (s : State) (n x : Nat) (hs : Memory.wf s.mem = true) : Memory.wf (s.doStores n x).mem = true := by
  unfold State.doStores
  refine wf_foldl _ (fun t x ht => wf_foldl _ (fun u ch hu => ?_) _ _ ht) _ _ hs
  dsimp only
  rw [State.mem_setCore]
  exact State.wf_writeSram u _ _ hu

@[simp] theorem State.mem_endHold (s : State) (n : Nat) : (s.endHold n).mem = s.mem := by
  unfold State.endHold
  dsimp only
  split <;> simp

theorem State.wf_serveServable (s : State) (n : Nat) (used : List Nat) (hs : Memory.wf s.mem = true) :
    Memory.wf (s.serveWords n used).mem = true := by
  unfold State.serveWords
  extract_lets is c t
  refine wf_foldl _ (fun u i hu => ?_) is t hs
  split
  · exact u.wf_serveWord _ _ _ _ hu
  · exact hu

theorem State.wf_turnCycle (s : State) (n : Nat) (hs : Memory.wf s.mem = true) : Memory.wf (s.turnCycle n).mem = true := by
  unfold State.turnCycle
  extract_lets x t w clash used t1 t2 t3 t4 t5 t6
  have h0 : Memory.wf t.mem = true := by rwa [State.mem_endHold]
  have h1 : Memory.wf t1.mem = true := by
    unfold t1
    split <;> exact h0
  have h3 : Memory.wf t3.mem = true := by rwa [State.mem_doLoads, State.mem_feed]
  have h5 : Memory.wf t5.mem = true := State.wf_doStores t4 _ _ (by rwa [State.mem_setCore])
  have h6 : Memory.wf t6.mem = true := by
    unfold t6
    split
    · exact h5
    · exact t5.wf_serveServable _ _ h5
  rwa [State.mem_draw, State.mem_setCore]

theorem State.wf_advance (s : State) (n : Nat) (hs : Memory.wf s.mem = true) : Memory.wf (s.advance n).1.mem = true := by
  unfold State.advance
  dsimp only
  (repeat' split) <;> simp [State.wf_turnCycle, hs]

theorem State.wf_advanceTo (s : State) (n x : Nat) (x1 : Nat) (hs : Memory.wf s.mem = true) :
    Memory.wf (s.advanceTo n x x1).mem = true := by
  induction x1 generalizing s with
  | zero => exact hs
  | succ fuel ih =>
    unfold State.advanceTo
    dsimp only
    (repeat' split) <;> simp [ih, State.wf_advance, hs]

/-! ### Machine/CoreIssue -/

@[simp] theorem mem_issueStep (s : State) (n pc : Nat) (z : Bool) (f : StepF) : (issueStep s n pc z f).1.mem = s.mem := by
  unfold issueStep
  dsimp only
  split
  · rfl
  · split
    · rfl
    · split
      · rfl
      · rfl
      · rw [State.mem_setCore]

@[simp] theorem mem_issueDrain (s : State) (n : Nat) (z : Bool) (f : DrainF) : (issueDrain s n z f).1.mem = s.mem := by
  unfold issueDrain
  dsimp only
  (repeat' split) <;> rfl

@[simp] theorem mem_issueSopen (s : State) (n : Nat) (f : SopenF) : (issueSopen s n f).1.mem = s.mem := by
  unfold issueSopen
  dsimp only
  (repeat' split) <;> rfl

@[simp] theorem mem_issueVec (s : State) (n pc : Nat) (op : VecOp) (f : VecF) : (issueVec s n pc op f).1.mem = s.mem := by
  unfold issueVec
  dsimp only
  split
  · rfl
  · split
    · split
      · rfl
      · rw [State.mem_setCore]
    · rw [State.mem_setCore]

@[simp] theorem mem_issueSfu (s : State) (n : Nat) (op : SfuOp) (f : SfuF) : (issueSfu s n op f).1.mem = s.mem := by
  unfold issueSfu
  dsimp only
  (repeat' split) <;> rfl

@[simp] theorem mem_issueSca (s : State) (n : Nat) (op : ScaOp) (f : ScaF) : (issueSca s n op f).1.mem = s.mem := by
  unfold issueSca
  dsimp only
  (repeat' split) <;> rfl

@[simp] theorem mem_issueMem (s : State) (n pc : Nat) (op : MemOp) (f : MemF) : (issueMem s n pc op f).1.mem = s.mem := by
  unfold issueMem
  dsimp only
  split
  · rfl
  · split
    · rfl
    · split
      · rw [State.mem_setCore]
      · rw [State.mem_setCore]

theorem State.wf_drainPipe (s : State) (n : Nat) (x1 : Nat) (hs : Memory.wf s.mem = true) :
    Memory.wf (s.drainPipe n x1).mem = true := by
  induction x1 generalizing s with
  | zero => exact hs
  | succ fuel ih =>
    unfold State.drainPipe
    dsimp only
    (repeat' split) <;> simp [ih, State.wf_advance, hs]

@[simp] theorem mem_issueCtl (s : State) (n pc len idle : Nat) (op : CtlOp) (f : CtlF) (fl : Flow) :
    (issueCtl s n pc len idle op f fl).1.mem = s.mem := by
  unfold issueCtl
  dsimp only
  (repeat' split) <;> simp

@[simp] theorem mem_issueSlot (s : State) (n pc : Nat) (x1 : SlotOp) : (issueSlot s n pc x1).1.mem = s.mem := by
  unfold issueSlot
  split <;> simp

@[simp] theorem State.mem_haltStop (s : State) (n : Nat) : (s.haltStop n).mem = s.mem := by
  unfold State.haltStop
  dsimp only
  (repeat' split) <;> simp

@[simp] theorem State.mem_checkStop (s : State) (n : Nat) : (s.checkStop n).mem = s.mem := by
  unfold State.checkStop
  grind [State.mem_haltStop]

@[simp] theorem State.mem_stopNow (s : State) (n : Nat) (i : StopInfo) : (s.stopNow n i).mem = s.mem := by
  simp [State.stopNow]

@[simp] theorem mem_issueAll (s : State) (n pc : Nat) (ops : List SlotOp) : (issueAll s n pc ops).1.mem = s.mem :=
  mem_foldl_fst _ (fun _ op => by simp) _ _

@[simp] theorem State.mem_ctlFlow (s : State) (n pc len idle : Nat) (ops : List SlotOp) (fl : Flow) :
    (s.ctlFlow n pc len idle ops fl).1.mem = s.mem := by
  unfold State.ctlFlow
  split <;> simp

theorem wf_issueLegal (s : State) (n pc len : Nat) (h : Header) (ops : List SlotOp) (hs : Memory.wf s.mem = true) :
    Memory.wf (issueLegal s n pc len h ops).mem = true := by
  unfold issueLegal
  dsimp only
  (repeat' split) <;> simp [State.wf_advanceTo, hs]

theorem wf_issueBundle (s : State) (n pc len : Nat) (h : Header) (slots : List (Nat × Option SlotOp)) (hs : Memory.wf s.mem =
    true) :
    Memory.wf (issueBundle s n pc len h slots).mem = true := by
  unfold issueBundle
  split <;> simp [wf_issueLegal, hs]

theorem State.wf_settleResumed (s : State) (n : Nat) (hs : Memory.wf s.mem = true) :
    Memory.wf (s.settleResumed n).mem = true := by
  unfold State.settleResumed
  split <;> simp [State.wf_drainPipe, hs]

theorem State.wf_toIssue (s : State) (n : Nat) (hs : Memory.wf s.mem = true) : Memory.wf (s.toIssue n).mem = true := by
  unfold State.toIssue
  dsimp only
  split <;> simp [State.wf_advanceTo, State.wf_settleResumed, hs]

theorem wf_issueRow (s : State) (n : Nat) (op : SlotOp) (hs : Memory.wf s.mem = true) :
    Memory.wf (issueRow s n op).mem = true := by
  unfold issueRow
  dsimp only
  (repeat' split) <;> simp [wf_issueBundle, State.wf_toIssue, hs]

theorem State.wf_suspend (s : State) (n : Nat) (hs : Memory.wf s.mem = true) : Memory.wf (s.suspend n).mem = true := by
  unfold State.suspend
  dsimp only
  split <;> simp [State.wf_drainPipe, hs]

@[simp] theorem State.mem_fetchFail (s : State) (n pc : Nat) : (s.fetchFail n pc).mem = s.mem :=
  mem_foldl _ (fun _ _ => by dsimp only; split <;> simp) _ _

theorem wf_fetchIssue (s : State) (n : Nat) (hs : Memory.wf s.mem = true) : Memory.wf (fetchIssue s n).mem = true := by
  unfold fetchIssue
  extract_lets c pc hb h skip bad b t
  have ht : Memory.wf t.mem = true := wf_of_mem hs (State.mem_setCore ..)
  clear_value t hb b
  split
  · exact wf_of_mem hs (State.mem_fetchFail ..)
  · split
    · exact s.wf_suspend _ hs
    · split
      · exact wf_of_mem hs (State.mem_stopNow ..)
      · split
        · exact wf_of_mem hs (State.mem_fetchFail ..)
        · exact wf_issueBundle _ _ _ _ _ _ ht

theorem wf_bundleIssue (s : State) (n : Nat) (hs : Memory.wf s.mem = true) : Memory.wf (bundleIssue s n).mem = true := by
  unfold bundleIssue
  dsimp only
  (repeat' split) <;> simp [wf_fetchIssue, State.wf_toIssue, hs]

theorem State.wf_runTo (s : State) (n : Nat) (t : Option Nat) (hs : Memory.wf s.mem = true) :
    Memory.wf (s.runTo n t).mem = true := by
  unfold State.runTo
  dsimp only
  (repeat' split) <;> simp [State.wf_advanceTo, hs]

theorem wf_runComplete (s : State) (n : Nat) (hs : Memory.wf s.mem = true) : Memory.wf (runComplete s n).mem = true := by
  unfold runComplete
  grind [State.wf_advanceTo, State.mem_settle, State.mem_setCore, State.wf_drainPipe, State.mem_checkStop, State.mem_signal,
    State.wf_advance]

theorem wf_feedTimeout (s : State) (n : Nat) (hs : Memory.wf s.mem = true) : Memory.wf (feedTimeout s n).mem = true := by
  unfold feedTimeout
  extract_lets c lim t c' zero c''
  split
  · exact hs
  · have ht : t.mem = s.mem := State.mem_endHold ..
    clear_value t
    split
    · exact hs
    · exact wf_of_mem (State.wf_advanceTo _ _ _ _ (wf_of_mem hs ((State.mem_setCore ..).trans ht))) (State.mem_haltStop ..)

@[simp] theorem mem_runTimeout (s : State) (n : Nat) : (runTimeout s n).mem = s.mem := by
  unfold runTimeout
  dsimp only
  (repeat' split) <;> simp

@[simp] theorem State.mem_readCodewords (s : State) (a k : Nat) : (s.readCodewords a k).1.mem = s.mem := by
  unfold State.readCodewords
  exact mem_foldl_fst _ (fun _ _ => by simp) _ _

@[simp] theorem mem_streamFill (s : State) (n : Nat) (ctx : Bool) (line : Nat) : (streamFill s n ctx line).mem = s.mem := by
  unfold streamFill
  extract_lets c needed x isOpen size cost lines a r p all bytes isBad code c' fl t
  have hp : p.1.mem = s.mem := by
    unfold p
    split
    · rw [State.mem_readCodewords, State.mem_readCodewords]
    · rw [State.mem_readCodewords]
  have ht : t.mem = p.1.mem := State.mem_setCore ..
  clear_value t p all
  split_ifs <;> simp only [State.mem_endHold, ht, hp]

/-! ### Machine/Desc -/

theorem State.wf_readDesc (s : State) (n h : Nat) (hs : Memory.wf s.mem = true) : Memory.wf (s.readDesc n h).1.mem = true := by
  unfold State.readDesc
  grind [State.mem_draw, State.wf_readMA, State.mem_setCore, State.wf_track]

theorem State.wf_useDesc (s : State) (n h : Nat) (kinds : List Nat) (hs : Memory.wf s.mem = true) :
    Memory.wf (s.useDesc n h kinds).1.mem = true := by
  unfold State.useDesc
  dsimp only
  (repeat' split) <;> simp [State.wf_readDesc, hs]

/-! ### Machine/BankUnit -/

@[simp] theorem State.mem_baseDecode (s : State) (k c key : Nat) : (s.baseDecode k c key).1.mem = s.mem := by
  unfold State.baseDecode
  dsimp only
  split <;> simp

@[simp] theorem State.mem_unitRead (s : State) (k c b at_ n : Nat) : (s.unitRead k c b at_ n).1.mem = s.mem := by
  unfold State.unitRead
  exact mem_foldl_fst _ (fun _ _ => by simp) _ _

theorem State.wf_unitWrite (s : State) (k c b gran : Nat) (bs : Option (List Byte)) (hs : Memory.wf s.mem = true) :
    Memory.wf (s.unitWrite k c b gran bs).mem = true := by
  unfold State.unitWrite
  exact wf_foldl _ (fun t x ht => by grind [State.wf_putPoison, State.wf_putCw]) _ _ hs

@[simp] theorem State.mem_readTerms (s : State) (k c b : Nat) (l4 : Bool) (tm : Int) (line plane : Nat) (x1 : Nat) :
    (s.readTerms k c b l4 tm line plane x1).1.mem = s.mem := by
  induction x1 with
  | zero => rfl
  | succ n ih =>
    unfold State.readTerms
    dsimp only
    split <;> simp [ih]

@[simp] theorem mem_bMac (s : State) (u : BUnit) (vec : List Byte) (k c b : Nat) (f : BStr) (room : Nat) :
    (bMac s u vec k c b f room).s.mem = s.mem := by
  unfold bMac
  extract_lets l4 el n g line plane v0 st rows per done r chunk one u1 u2
  have hr : r.1.mem = s.mem := State.mem_readTerms ..
  clear_value r u1 u2
  split
  · rfl
  · split
    · rfl
    · split
      · rfl
      · exact hr

@[simp] theorem mem_bMact (s : State) (u : BUnit) (vec : List Byte) (k c b : Nat) (f : BStr) (room : Nat) :
    (bMact s u vec k c b f room).s.mem = s.mem := by
  unfold bMact
  dsimp only
  (repeat' split) <;> simp

@[simp] theorem mem_bSmax (s : State) (u : BUnit) (k c b : Nat) (f : BStr) (room : Nat) :
    (bSmax s u k c b f room).s.mem = s.mem := by
  unfold bSmax
  dsimp only
  (repeat' split) <;> simp

@[simp] theorem mem_bExpl (s : State) (u : BUnit) (k c b : Nat) (f : BStr) (room : Nat) :
    (bExpl s u k c b f room).s.mem = s.mem := by
  unfold bExpl
  dsimp only
  (repeat' split) <;> simp

@[simp] theorem mem_bSt (s : State) (u : BUnit) (f : BStr) (start : Nat) : (bSt s u f start).s.mem = s.mem := by
  unfold bSt
  extract_lets n g0 fm r
  split
  · rfl
  · have hr : r.s.mem = s.mem := foldl_keeps (fun o : BOut => o.s.mem = s.mem) _ (fun _ _ h => by exact h) _ _ rfl
    exact hr

@[simp] theorem mem_bLvb (s : State) (u : BUnit) (k c b : Nat) (f : BStr) (room : Nat) :
    (bLvb s u k c b f room).s.mem = s.mem := by
  unfold bLvb
  dsimp only
  (repeat' split) <;> simp

@[simp] theorem mem_bClr (s : State) (u : BUnit) (w : DWord) : (bClr s u w).s.mem = s.mem := by
  unfold bClr
  dsimp only
  (repeat' split) <;> simp

@[simp] theorem mem_bEffect (s : State) (u : BUnit) (vec : List Byte) (k c b : Nat) (w : DWord) (start budget : Nat) :
    (bEffect s u vec k c b w start budget).s.mem = s.mem := by
  unfold bEffect
  split <;> simp

@[simp] theorem mem_bStep (s : State) (u : BUnit) (vec : List Byte) (img : List DWord) (k c b budget : Nat) (w : DWord) :
    (bStep s u vec img k c b budget w).s.mem = s.mem := by
  unfold bStep
  dsimp only
  (repeat' split) <;> simp

/-! ### Machine/QueueOps -/

theorem State.wf_withHead (s : State) (n q op : Nat) (f : State → Cmd → State) (hs : Memory.wf s.mem = true) (hf : ∀ t c,
    Memory.wf t.mem = true → Memory.wf (f t c).mem = true) :
    Memory.wf (s.withHead n q op f).mem = true := by
  unfold State.withHead
  grind [State.mem_waitEngine, State.mem_refuseCmd]

theorem State.wf_useDescs (s : State) (n : Nat) (x1 : List (Nat × List Nat)) (hs : Memory.wf s.mem = true) :
    Memory.wf (s.useDescs n x1).1.mem = true := by
  induction x1 generalizing s with
  | nil => exact hs
  | cons p ps ih =>
    unfold State.useDescs
    dsimp only
    split
    · exact ih _ (s.wf_useDesc _ _ _ hs)
    · exact s.wf_useDesc _ _ _ hs

theorem wf_cmdRun (s : State) (n q : Nat) (c : Cmd) (hs : Memory.wf s.mem = true) : Memory.wf (cmdRun s n q c).mem = true := by
  unfold cmdRun
  dsimp only
  (repeat' split) <;> simp [State.wf_useDescs, hs]

theorem wf_commandFetch (s : State) (n q : Nat) (hs : Memory.wf s.mem = true) : Memory.wf (commandFetch s n q).mem = true := by
  unfold commandFetch
  grind [State.mem_setQueue, State.mem_haltQueue, State.wf_readMA, State.wf_track]

@[simp] theorem mem_cmdFlagSet (fop : Nat) (s : State) (n q : Nat) (c : Cmd) : (cmdFlagSet fop s n q c).mem = s.mem := by
  unfold cmdFlagSet
  dsimp only
  (repeat' split) <;> simp

@[simp] theorem State.mem_completeWait (s : State) (n q : Nat) (w : FWait) : (s.completeWait n q w).mem = s.mem := by
  simp [State.completeWait]

@[simp] theorem mem_cmdFlagWait (s : State) (n q : Nat) (c : Cmd) : (cmdFlagWait s n q c).mem = s.mem := by
  unfold cmdFlagWait
  dsimp only
  (repeat' split) <;> simp

@[simp] theorem mem_cmdFence (s : State) (n q : Nat) (c : Cmd) : (cmdFence s n q c).mem = s.mem := by
  simp [cmdFence]

@[simp] theorem State.mem_updateFlag (s : State) (p f : Nat) (add : Bool) (v : Word) (by_ : Updater) :
    (s.updateFlag p f add v by_).mem = s.mem := by
  unfold State.updateFlag
  exact mem_foldl _ (fun _ _ => by dsimp only; (repeat' split) <;> simp) _ _

@[simp] theorem State.mem_updateDone (s : State) (u : FlagUpd) : (s.updateDone u).mem = s.mem := by
  unfold State.updateDone
  dsimp only
  (repeat' split) <;> simp

@[simp] theorem State.mem_registerWaits (s : State) (u : FlagUpd) : (s.registerWaits u).mem = s.mem := by
  unfold State.registerWaits
  split
  · refine mem_foldl _ (fun t q => ?_) _ _
    split
    · dsimp only
      split
      · rfl
      · split <;> simp
    · rfl
  · rfl

@[simp] theorem State.mem_dropUpds (s : State) (lost : FlagUpd → Bool) : (s.dropUpds lost).mem = s.mem := by
  simp [State.dropUpds, mem_foldl]

@[simp] theorem State.mem_refuseUpd (s : State) (u : FlagUpd) : (s.refuseUpd u).mem = s.mem := by
  unfold State.refuseUpd
  dsimp only
  (repeat' split) <;> simp

@[simp] theorem mem_flagArrive (s : State) (p f nth : Nat) : (flagArrive s p f nth).mem = s.mem := by
  unfold flagArrive
  grind [State.mem_refuseUpd, State.mem_updateDone, State.mem_updateFlag, State.mem_registerWaits]

@[simp] theorem mem_waitTimeout (s : State) (n q : Nat) : (waitTimeout s n q).mem = s.mem := by
  unfold waitTimeout
  dsimp only
  (repeat' split) <;> simp

@[simp] theorem mem_startQ (s : State) (n q : Nat) : (startQ s n q).mem = s.mem := by
  unfold startQ
  dsimp only
  split <;> simp

@[simp] theorem mem_haltQ (s : State) (n q : Nat) : (haltQ s n q).mem = s.mem := by
  unfold haltQ
  dsimp only
  (repeat' split) <;> simp

@[simp] theorem mem_resumeQ (s : State) (n q : Nat) (one : Bool) : (resumeQ s n q one).mem = s.mem := by
  unfold resumeQ
  split <;> rfl

/-! ### Machine/ChannelOps -/

@[simp] theorem State.mem_setLaunch (s : State) (n : Nat) (x : Launch) : (s.setLaunch n x).mem = s.mem := rfl

theorem State.wf_flushWrites (s : State) (k c b n stop : Nat) (hs : Memory.wf s.mem = true) :
    Memory.wf (s.flushWrites k c b n stop).mem = true := by
  unfold State.flushWrites
  split
  · exact hs
  · extract_lets key u ws t
    split
    · exact hs
    · exact wf_foldl _ (fun v w hv => v.wf_unitWrite _ _ _ _ _ hv) _ _ hs

theorem State.wf_flushLaunch (s : State) (n : Nat) (stop : Option Nat) (hs : Memory.wf s.mem = true) :
    Memory.wf (s.flushLaunch n stop).mem = true := by
  unfold State.flushLaunch
  split
  · exact hs
  · exact wf_foldl _ (fun v w hv => v.wf_flushWrites _ _ _ _ _ hv) _ _ hs

theorem State.wf_stopLaunch (s : State) (n : Nat) (fault : Option (Nat × Nat)) (stop : Option Nat) (hs : Memory.wf s.mem = true) :
    Memory.wf (s.stopLaunch n fault stop).mem = true := by
  unfold State.stopLaunch
  extract_lets t
  have ht : Memory.wf t.mem = true := s.wf_flushLaunch n stop hs
  split
  · exact ht
  · exact wf_foldl _ (fun v w hv => v.wf_serve _ _ hv) _ _ ht

@[simp] theorem State.mem_holdFrom (s : State) (n : Nat) : (s.holdFrom n).mem = s.mem := rfl

theorem wf_channelSwitch (s : State) (k c : Nat) (hs : Memory.wf s.mem = true) : Memory.wf (channelSwitch s k c).mem = true := by
  unfold channelSwitch
  dsimp only
  (repeat' split) <;> simp [State.wf_serve, hs]

theorem State.wf_memoryMode (s : State) (k c : Nat) (hs : Memory.wf s.mem = true) : Memory.wf (s.memoryMode k c).mem = true := by
  simp [State.memoryMode, State.wf_serve, hs]

/-! ### Machine/BankCmds -/

theorem wf_cmdBank (s : State) (n q : Nat) (c : Cmd) (hs : Memory.wf s.mem = true) : Memory.wf (cmdBank s n q c).mem = true := by
  unfold cmdBank
  extract_lets w1 w2 w3 cm rm sma vecEn lead ds r t prog vec badVec badProg
  have hr : Memory.wf r.1.mem = true := s.wf_useDescs _ _ hs
  have refused : ∀ (u : State) x d, Memory.wf u.mem = true → Memory.wf (u.refuseCmd n q c x d).mem = true := by
    intro u x d hu
    rwa [State.mem_refuseCmd]
  split
  · exact refused _ _ _ hs
  · split
    · exact refused _ _ _ hs
    · split
      · rwa [State.mem_waitEngine]
      · split
        · exact refused _ _ _ hs
        · split
          · exact refused _ _ _ hr
          · exact hr
          · split
            · exact refused _ _ _ hr
            · split
              · exact refused _ _ _ hr
              · split
                · exact refused _ _ _ hr
                · exact refused _ _ _ hr
                · extract_lets im idx u idx' v
                  have him : Memory.wf im.1.mem = true := t.wf_track _ _ _ hr fun u hu => u.wf_readMA _ _ _ _ hu
                  have hv : v.mem = im.1.mem := State.mem_launchCmd _ _ _ _
                  split
                  · exact him
                  · rw [State.mem_faultCmd, State.mem_launchCmd]
                    exact him
                  · extract_lets img l
                    split
                    · exact refused _ _ _ him
                    · rw [State.mem_setLaunch, hv]
                      exact him

theorem State.wf_fetchVec (s : State) (k n : Nat) (l : Launch) (hs : Memory.wf s.mem = true) :
    Memory.wf (s.fetchVec k n l).1.mem = true := by
  unfold State.fetchVec
  grind [State.mem_setLaunch, State.wf_readMA, State.wf_track]

theorem wf_launchOrder (s : State) (k n : Nat) (hs : Memory.wf s.mem = true) : Memory.wf (launchOrder s k n).mem = true := by
  unfold launchOrder
  split
  · exact hs
  · split
    · exact hs
    · extract_lets r t
      have hr : Memory.wf r.1.mem = true := s.wf_fetchVec _ _ _ hs
      split
      · exact State.wf_stopLaunch _ _ _ _ hr
      · exact hr
      · exact hr
      · extract_lets cs
        split
        · exact State.wf_stopLaunch _ _ _ _ hr
        · exact (mem_foldl (fun s c => s.order k c _ _) (fun _ _ => rfl) cs t).symm ▸ hr

@[simp] theorem BOut.mem_done (o : BOut) (k c b n : Nat) (l : Launch) : (BOut.done o k c b n l).mem = o.s.mem := rfl

theorem State.wf_pastWrites (s : State) (k c b : Nat) (hs : Memory.wf s.mem = true) :
    Memory.wf (s.pastWrites k c b).mem = true := by
  unfold State.pastWrites
  split <;> simp [State.wf_flushWrites, hs]

theorem wf_bankInstr (op : Nat) (s0 : State) (k c b : Nat) (hs : Memory.wf s0.mem = true) :
    Memory.wf (bankInstr op s0 k c b).mem = true := by
  unfold bankInstr
  dsimp only
  (repeat' split) <;> simp [State.wf_stopLaunch, State.wf_pastWrites, hs]

theorem wf_bankBudget (s : State) (k c : Nat) (hs : Memory.wf s.mem = true) : Memory.wf (bankBudget s k c).mem = true := by
  unfold bankBudget
  dsimp only
  (repeat' split) <;> simp [State.wf_stopLaunch, hs]

theorem State.wf_endChannel (s : State) (k c n : Nat) (l : Launch) (hs : Memory.wf s.mem = true) :
    Memory.wf (s.endChannel k c n l).mem = true := by
  simp [State.endChannel, State.wf_memoryMode, hs]

theorem wf_bankComplete (s : State) (n : Nat) (hs : Memory.wf s.mem = true) : Memory.wf (bankComplete s n).mem = true := by
  unfold bankComplete
  grind [State.wf_writeMA, State.mem_faultCmd, State.wf_track, State.mem_completeCmd]

/-! ### Machine/AttOps -/

theorem State.wf_areaPut (s : State) (key : Nat) (bs : List Byte) (hs : Memory.wf s.mem = true) :
    Memory.wf (s.areaPut key bs).mem = true := by
  unfold State.areaPut
  grind [State.wf_setRaw]

theorem State.wf_areaZero (s : State) (key n : Nat) (hs : Memory.wf s.mem = true) : Memory.wf (s.areaZero key n).mem = true := by
  unfold State.areaZero
  exact Map.wf_drop 0 _ s.mem hs

theorem State.wf_setSeq (s : State) (q : Nat) (x : SeqCtx) (hs : Memory.wf s.mem = true) :
    Memory.wf (s.setSeq q x).mem = true := by
  unfold State.setSeq
  dsimp only
  (repeat' split) <;> simp [State.wf_areaPut, State.wf_areaZero, hs]

@[simp] theorem State.mem_setPass (s : State) (p slot : Nat) (x : Pass) : (s.setPass p slot x).mem = s.mem := rfl

theorem State.wf_setFrame (s : State) (k f : Nat) (x : Option PFrame) (hs : Memory.wf s.mem = true) :
    Memory.wf (s.setFrame k f x).mem = true := by
  unfold State.setFrame
  dsimp only
  split <;> simp [State.wf_areaPut, hs]

theorem State.wf_count (s : State) (k f : Nat) (g : PFrame → PFrame) (hs : Memory.wf s.mem = true) :
    Memory.wf (s.count k f g).mem = true := by
  simp [State.count, State.wf_setFrame, hs]

theorem State.wf_alloc (s : State) (p k : Nat) (hs : Memory.wf s.mem = true) (t : State × Nat) (ht : s.alloc p k = some t) :
    Memory.wf t.1.mem = true := by
  unfold State.alloc at ht
  grind [State.mem_draw, State.wf_count]

theorem State.wf_setEntry (s : State) (q l b : Nat) (f : Option Nat) (hs : Memory.wf s.mem = true) :
    Memory.wf (s.setEntry q l b f).mem = true := by
  unfold State.setEntry
  dsimp only
  split <;> simp [State.wf_setSeq, State.wf_areaPut, hs]

theorem State.wf_dropBlocks (s : State) (q from_ to_ : Nat) (hs : Memory.wf s.mem = true) :
    Memory.wf (s.dropBlocks q from_ to_).mem = true := by
  unfold State.dropBlocks
  exact wf_foldl _ (fun t x ht => by dsimp only; split <;> simp [State.wf_setEntry, State.wf_count, ht]) _ _ hs

theorem State.wf_copyPage (s : State) (w : Who) (p k fo fn : Nat) (hs : Memory.wf s.mem = true) :
    Memory.wf (s.copyPage w p k fo fn).1.mem = true := by
  unfold State.copyPage
  extract_lets m at_
  refine wf_foldl_fst _ (fun a g ha => ?_) _ _ hs
  extract_lets r
  have hr : Memory.wf r.1.mem = true := State.wf_access _ _ _ _ _ _ _ _ _ ha
  split
  · exact hr
  · exact State.wf_access _ _ _ _ _ _ _ _ _ hr
  · exact State.wf_access _ _ _ _ _ _ _ _ _ hr

theorem State.wf_reserve (s : State) (p : Nat) (x1 : List (Nat × Nat × Option Nat)) (hs : Memory.wf s.mem = true) (t : State ×
    List (Nat × Nat × Nat × Nat)) (ht : s.reserve p x1 = some t) :
    Memory.wf t.1.mem = true := by
  induction x1 generalizing s t with
  | nil => cases ht; exact hs
  | cons e es ih =>
    simp only [State.reserve, Option.bind_eq_some_iff, Option.map_eq_some_iff] at ht
    obtain ⟨a, ha, r, hr, rfl⟩ := ht
    exact ih a.1 (s.wf_alloc _ _ hs a ha) r hr

theorem State.wf_copyPlan (s : State) (w : Who) (p : Nat) (plan : List (Nat × Nat × Nat × Nat)) (hs : Memory.wf s.mem = true) :
    Memory.wf (s.copyPlan w p plan).1.mem = true := by
  unfold State.copyPlan
  refine s.wf_track _ _ _ hs fun t ht => ?_
  refine wf_foldl_fst _ (fun a e ha => ?_) _ _ ht
  dsimp only
  exact a.1.wf_copyPage _ _ _ _ _ ha

theorem State.wf_enterPlan (s : State) (q : Nat) (plan : List (Nat × Nat × Nat × Nat)) (hs : Memory.wf s.mem = true) :
    Memory.wf (s.enterPlan q plan).mem = true := by
  unfold State.enterPlan
  exact wf_foldl _ (fun t x ht => by dsimp only; split <;> simp [State.wf_setEntry, State.wf_count, ht]) _ _ hs

theorem State.wf_dropPlan (s : State) (plan : List (Nat × Nat × Nat × Nat)) (hs : Memory.wf s.mem = true) :
    Memory.wf (s.dropPlan plan).mem = true := by
  simp +contextual [State.dropPlan, wf_foldl, State.wf_count, hs]

@[simp] theorem State.mem_pageTokens (s : State) (x : Pass) (k c b : Nat) (pg : PassPage) :
    (s.pageTokens x k c b pg).1.mem = s.mem := by
  unfold State.pageTokens
  exact mem_foldl_fst _ (fun _ _ => by dsimp only; split <;> simp) _ _

theorem State.wf_putScores (s : State) (k c b slot j : Nat) (rows : List (List Nat)) (bad : Bool) (hs : Memory.wf s.mem = true) :
    Memory.wf (s.putScores k c b slot j rows bad).mem = true := by
  simp +contextual [State.putScores, wf_foldl, State.wf_unitWrite, hs]

theorem State.wf_scoreUnit (s : State) (x : Pass) (slot k c b : Nat) (tq tc : Int) (queries : List Byte) (hs : Memory.wf s.mem =
    true) :
    Memory.wf (s.scoreUnit x slot k c b tq tc queries).1.mem = true := by
  unfold State.scoreUnit
  exact wf_foldl_fst _ (fun t x ht => by simp [State.wf_putScores, ht]) _ _ hs

@[simp] theorem State.mem_applyUnit (s : State) (x : Pass) (slot k c b : Nat) (tc : Int) (pairs : List Nat) :
    (s.applyUnit x slot k c b tc pairs).1.mem = s.mem := by
  unfold State.applyUnit
  refine mem_foldl_fst _ (fun a pj => ?_) _ _
  exact (mem_foldl_fst _ (fun u h => by simp) _ _).trans (by simp)

/-! ### Machine/AttCmds -/

theorem wf_cmdAtt (aop : Nat) (s : State) (n q : Nat) (c : Cmd) (hs : Memory.wf s.mem = true) :
    Memory.wf (cmdAtt aop s n q c).mem = true := by
  unfold cmdAtt
  dsimp only
  (repeat' split) <;> simp [State.wf_useDescs, hs]

@[simp] theorem State.mem_dropIfDone (s : State) (n : Nat) : (s.dropIfDone n).mem = s.mem := by
  unfold State.dropIfDone
  grind []

theorem State.wf_stopPass (s : State) (p slot code : Nat) (hs : Memory.wf s.mem = true) :
    Memory.wf (s.stopPass p slot code).mem = true := by
  unfold State.stopPass
  exact wf_foldl _ (fun t x ht => by grind [State.wf_stopLaunch, State.mem_dropIfDone]) _ _ hs

theorem State.wf_closePass (s : State) (p slot : Nat) (st : PassSt) (hs : Memory.wf s.mem = true) :
    Memory.wf (s.closePass p slot st).mem = true := by
  unfold State.closePass
  extract_lets x t u c v
  have hu : Memory.wf u.mem = true := wf_foldl _ (fun v w hv => v.wf_count _ _ _ hv) _ _ (by simpa [t] using hs)
  have hv : Memory.wf v.mem = true := by
    simp only [v]
    split
    · exact hu
    · exact u.wf_setSeq _ _ hu
  simpa using hv

theorem State.wf_failPass (s : State) (p slot code detail : Nat) (st : PassSt) (hs : Memory.wf s.mem = true) :
    Memory.wf (s.failPass p slot code detail st).mem = true := by
  unfold State.failPass
  dsimp only
  split <;> simp [State.wf_closePass, State.wf_stopPass, hs]

theorem canonical_attPoolAdd (s : State) (p : Nat) (c : Cmd) (hs : Memory.wf s.mem = true) : (attPoolAdd s p c).Canonical := by
  unfold attPoolAdd
  extract_lets k first fs
  split
  · trivial
  · split
    · trivial
    · exact wf_foldl _ (fun t f ht => t.wf_setFrame _ _ _ ht) _ _ hs

theorem canonical_attEdit (x : SeqCtx) (o : AttOut) (ho : o.Canonical) : (attEdit x o).Canonical := by
  unfold attEdit
  split
  · exact ho
  · trivial

theorem canonical_attOpen (s : State) (p : Nat) (c : Cmd) (hs : Memory.wf s.mem = true) : (attOpen s p c).Canonical := by
  unfold attOpen
  extract_lets x n
  split
  · trivial
  · split
    · trivial
    · split
      · trivial
      · exact canonical_attEdit _ _ (State.wf_setSeq _ _ _ (s.wf_areaZero _ _ hs))

theorem canonical_attOnOpen (s : State) (p : Nat) (c : Cmd) (f : SeqCtx → AttOut) (hf : ∀ x, (f x).Canonical) :
    (attOnOpen s p c f).Canonical := by
  unfold attOnOpen
  extract_lets x
  split
  · trivial
  · split
    · trivial
    · exact hf x

theorem canonical_attClose (s : State) (p : Nat) (c : Cmd) (hs : Memory.wf s.mem = true) : (attClose s p c).Canonical :=
  canonical_attOnOpen _ _ _ _ fun x => canonical_attEdit _ _ (State.wf_setSeq _ _ _ (s.wf_dropBlocks _ _ _ hs))

theorem canonical_attCopy (s : State) (i : AttItem) (plan : List (Nat × Nat × Nat × Nat)) (hs : Memory.wf s.mem = true) :
    (attCopy s i plan).Canonical := by
  unfold attCopy
  extract_lets q r t x
  have hr : Memory.wf r.1.mem = true := s.wf_copyPlan _ _ _ hs
  split
  · exact State.wf_setSeq _ _ _ (r.1.wf_enterPlan _ _ hr)
  · exact hr

theorem canonical_attAppend (s : State) (i : AttItem) (hs : Memory.wf s.mem = true) : (attAppend s i).Canonical := by
  unfold attAppend
  extract_lets c
  split
  · split
    · exact canonical_attCopy _ _ _ hs
    · trivial
  · refine canonical_attOnOpen _ _ _ _ fun x => ?_
    extract_lets len b0 b1
    split
    · trivial
    · split
      · trivial
      · split
        · trivial
        · next t plan h => exact canonical_attEdit _ _ (canonical_attCopy _ _ _ (s.wf_reserve _ _ hs _ h))

theorem canonical_attShare (s : State) (p : Nat) (c : Cmd) (hs : Memory.wf s.mem = true) : (attShare s p c).Canonical := by
  unfold attShare
  refine canonical_attOnOpen _ _ _ _ fun x => ?_
  extract_lets y lb pages t
  have ht : Memory.wf t.mem = true := wf_foldl _ (fun u e hu => State.wf_setEntry _ _ _ _ _ (u.wf_count _ _ _ hu)) _ _ hs
  split
  · trivial
  · split
    · trivial
    · split
      · trivial
      · split
        · trivial
        · exact canonical_attEdit _ _ (t.wf_setSeq _ _ ht)

theorem canonical_attTruncate (s : State) (p : Nat) (c : Cmd) (hs : Memory.wf s.mem = true) : (attTruncate s p c).Canonical := by
  refine canonical_attOnOpen _ _ _ _ fun x => ?_
  split
  · trivial
  · exact canonical_attEdit _ _ (State.wf_setSeq _ _ _ (s.wf_dropBlocks _ _ _ hs))

theorem canonical_attScore (s : State) (i : AttItem) (hs : Memory.wf s.mem = true) : (attScore s i).Canonical := by
  unfold attScore
  refine canonical_attOnOpen _ _ _ _ fun x => ?_
  extract_lets slot y bs pages z full t u v
  have ht : Memory.wf t.mem = true := wf_foldl _ (fun v g hv => v.wf_count _ _ _ hv) _ _ hs
  have hu : Memory.wf u.mem = true := t.wf_setSeq _ _ ht
  split
  · trivial
  · split
    · trivial
    · split
      · trivial
      · split
        · trivial
        · split
          · trivial
          · split
            · trivial
            · exact hu

theorem canonical_attApply (s : State) (i : AttItem) (hs : Memory.wf s.mem = true) : (attApply s i).Canonical := by
  unfold attApply
  extract_lets slot y
  split
  · trivial
  · split
    · trivial
    · trivial
    · split
      · trivial
      · split
        · trivial
        · split
          · trivial
          · exact hs

theorem canonical_attAbort (s : State) (i : AttItem) (hs : Memory.wf s.mem = true) : (attAbort s i).Canonical := by
  unfold attAbort
  extract_lets slot
  split
  · trivial
  · split
    · trivial
    · exact wf_of_mem hs (State.mem_setPass ..)
    · exact s.wf_failPass _ _ _ _ _ hs

theorem canonical_attPerform (s : State) (i : AttItem) (hs : Memory.wf s.mem = true) : (attPerform s i).Canonical := by
  unfold attPerform
  split
  · exact canonical_attPoolAdd _ _ _ hs
  · exact canonical_attOpen _ _ _ hs
  · exact canonical_attClose _ _ _ hs
  · exact canonical_attAppend _ _ hs
  · exact canonical_attShare _ _ _ hs
  · exact canonical_attTruncate _ _ _ hs
  · exact canonical_attScore _ _ hs
  · exact canonical_attApply _ _ hs
  · exact canonical_attAbort _ _ hs

theorem State.wf_dropAtt (s : State) (i : AttItem) (hs : Memory.wf s.mem = true) : Memory.wf (s.dropAtt i).mem = true := by
  unfold State.dropAtt
  split <;> simp [State.wf_dropPlan, hs]

theorem wf_attFirst (s : State) (n q : Nat) (x1 : List AttItem) (hs : Memory.wf s.mem = true) :
    Memory.wf (attFirst s n q x1).mem = true := by
  induction x1 generalizing s with
  | nil => exact hs
  | cons i is ih =>
    have hi := canonical_attPerform s i hs
    unfold attFirst
    cases h : attPerform s i <;> simp only [h, AttOut.Canonical] at hi ⊢
    · exact ih _ hs
    · exact ih _ hi
    · simpa using s.wf_dropAtt i hs
    · simpa using hi
    · exact hi

theorem wf_attRow (aop : Nat) (s : State) (n q : Nat) (accept : Bool) (hs : Memory.wf s.mem = true) :
    Memory.wf (attRow aop s n q accept).mem = true := by
  unfold attRow
  grind [wf_cmdAtt, State.wf_withHead, wf_attFirst]

theorem wf_passLaunchOrder (s : State) (p slot k : Nat) (hs : Memory.wf s.mem = true) :
    Memory.wf (passLaunchOrder s p slot k).mem = true := by
  unfold passLaunchOrder
  extract_lets x score r t x' cs mask cmd n u v
  have hr : Memory.wf r.1.mem = true := s.wf_track _ _ _ hs fun t ht => t.wf_readMA _ _ _ _ ht
  split
  · exact hs
  · split
    · exact hr
    · simpa using State.wf_failPass _ _ _ _ _ _ hr
    · split
      · exact hr
      · split
        · exact State.wf_failPass _ _ _ _ _ _ hr
        · have hu : u.mem = t.mem := mem_foldl _ (fun _ _ => by rfl) _ _
          simpa [hu] using hr

theorem State.wf_passUnit (s : State) (p slot k c b : Nat) (bs : List Byte) (hs : Memory.wf s.mem = true) :
    Memory.wf (s.passUnit p slot k c b bs).mem = true := by
  unfold State.passUnit
  dsimp only
  (repeat' split) <;> simp [State.wf_scoreUnit, hs]

theorem wf_channelProgramEnd (s : State) (k c : Nat) (hs : Memory.wf s.mem = true) :
    Memory.wf (channelProgramEnd s k c).mem = true := by
  unfold channelProgramEnd
  split
  · split
    · exact hs
    · extract_lets late ended t gone u bs pass
      have hended : ∀ v l, Memory.wf v.mem = true → Memory.wf (ended v l).mem = true := fun v l hv => v.wf_endChannel _ _ _ _ hv
      have hu : Memory.wf u.mem = true := by
        rw [State.mem_dropIfDone]
        exact hended _ _ hs
      have hpass : ∀ p slot, Memory.wf (pass p slot).mem = true := by
        intro p slot
        unfold pass
        split
        · split
          · exact u.wf_failPass _ _ _ _ _ hu
          · exact hu
        · split
          · exact hs
          · exact hended _ _ (wf_foldl _ (fun t b ht => t.wf_passUnit _ _ _ _ _ _ ht) _ _ hs)
      split
      · split
        · exact hended _ _ hs
        · exact hs
      · exact hpass _ _
      · exact hpass _ _
  · exact hs

theorem State.wf_writeAll (s : State) (w : Who) (m : Master) (ws : List (Nat × List Byte)) (hs : Memory.wf s.mem = true) :
    Memory.wf (s.writeAll w m ws).1.mem = true := by
  unfold State.writeAll
  exact wf_foldl_fst _ (fun t x ht => by simp [State.wf_writeMA, ht]) _ _ hs

theorem wf_passReadEnd (s : State) (p slot k : Nat) (hs : Memory.wf s.mem = true) :
    Memory.wf (passReadEnd s p slot k).mem = true := by
  unfold passReadEnd
  grind [State.wf_closePass, State.mem_draw, State.wf_failPass, State.wf_writeAll, State.wf_track, State.mem_dropIfDone,
    State.mem_setPass, State.mem_completeCmd, State.mem_setRsv]

theorem wf_passExpired (s : State) (p slot : Nat) (hs : Memory.wf s.mem = true) :
    Memory.wf (passExpired s p slot).mem = true := by
  unfold passExpired
  dsimp only
  split <;> simp [State.wf_failPass, hs]

/-! ### Machine/Dma -/

theorem State.wf_readRow (s : State) (m : Master) (f : Fmt) (at_ : Int × Nat) (x0 n : Nat) (w : Who) (hs : Memory.wf s.mem = true)
    :
    Memory.wf (s.readRow m f at_ x0 n w).1.mem = true := by
  unfold State.readRow
  dsimp only
  (repeat' split) <;> simp [State.wf_readMA, hs]

theorem State.wf_writeRow (s : State) (m : Master) (f : Fmt) (at_ : Int × Nat) (x0 : Nat) (codes blocks : List Nat) (who : Who)
    (hs : Memory.wf s.mem = true) :
    Memory.wf (s.writeRow m f at_ x0 codes blocks who).1.mem = true := by
  unfold State.writeRow
  extract_lets n lo hi ma headCut tailCut keep h t x
  have hk : ∀ u a, Memory.wf u.mem = true → Memory.wf (keep u a).1.mem = true := fun u a hu => u.wf_readMA _ _ _ _ hu
  have hh : Memory.wf h.1.mem = true := by unfold h; split; exacts [hk _ _ hs, hs]
  have ht : Memory.wf t.1.mem = true := by unfold t; split; exacts [hk _ _ hh, hh]
  split
  · extract_lets first last x' w p
    have hw : Memory.wf w.1.mem = true := t.1.wf_writeMA _ _ _ _ ht
    have hp : Memory.wf p.1.mem = true := w.1.wf_writeMA _ _ _ _ hw
    split
    · exact hw
    · exact hw
    · split
      · split
        · exact hp
        · exact hp
        · exact hp
      · exact hw
  · exact ht
  · exact ht
  · exact ht

@[simp] theorem State.mem_setDma (s : State) (n i : Nat) (x : Option DmaCh) : (s.setDma n i x).mem = s.mem := rfl

@[simp] theorem State.mem_askPage (s : State) (n i : Nat) (x : DmaCh) : (s.askPage n i x).mem = s.mem := by
  unfold State.askPage
  split <;> rfl

@[simp] theorem State.mem_dmaStop (s : State) (n i : Nat) (x : DmaCh) (code detail : Nat) :
    (s.dmaStop n i x code detail).mem = s.mem := by
  simp [State.dmaStop]

@[simp] theorem State.mem_convRow (s : State) (n : Nat) (x : DmaCh) (vals : List XV) : (s.convRow n x vals).1.mem = s.mem := rfl

@[simp] theorem State.mem_asDst (s : State) (n : Nat) (x : DmaCh) (x0 : Nat) (codes blocks : List Nat) :
    (s.asDst n x x0 codes blocks).1.mem = s.mem := by
  unfold State.asDst
  split <;> rfl

theorem State.wf_gatherRow (s : State) (m : Master) (x : DmaCh) (p : Nat) (who : Who) (hs : Memory.wf s.mem = true) :
    Memory.wf (s.gatherRow m x p who).1.mem = true := by
  unfold State.gatherRow
  exact wf_foldl_fst _ (fun t x ht => by dsimp only; (repeat' split) <;> simp [State.wf_readRow, ht]) _ _ hs

theorem State.wf_writeCascade (s : State) (m : Master) (x : DmaCh) (col : Nat) (codes blocks : List Nat) (who : Who) (hs :
    Memory.wf s.mem = true) :
    Memory.wf (s.writeCascade m x col codes blocks who).1.mem = true := by
  unfold State.writeCascade
  exact wf_foldl_fst _ (fun t x ht => by dsimp only; (repeat' split) <;> simp [State.wf_writeMA, ht]) _ _ hs

theorem State.wf_moveRow (s : State) (n : Nat) (x : DmaCh) (r x0 len : Nat) (srcAt dstAt : Int × Nat) (w : Who) (hs : Memory.wf
    s.mem = true) :
    Memory.wf (s.moveRow n x r x0 len srcAt dstAt w).1.mem = true := by
  unfold State.moveRow
  dsimp only
  (repeat' split) <;> simp [State.wf_readRow, State.wf_gatherRow, State.wf_writeCascade, State.wf_writeRow, hs]

theorem State.wf_moveOuter (s : State) (n : Nat) (x : DmaCh) (o : Nat) (w : Who) (hs : Memory.wf s.mem = true) :
    Memory.wf (s.moveOuter n x o w).1.mem = true := by
  unfold State.moveOuter
  extract_lets d
  split
  · exact s.wf_moveRow _ _ _ _ _ _ _ _ hs
  · refine wf_foldl_fst _ (fun a i ha => ?_) _ _ hs
    split
    · exact a.1.wf_moveRow _ _ _ _ _ _ _ _ ha
    · exact ha

theorem State.wf_dmaRow (s : State) (n i : Nat) (x : DmaCh) (o : Nat) (hs : Memory.wf s.mem = true) :
    Memory.wf (s.dmaRow n i x o).1.mem = true := by
  simp +contextual [State.dmaRow, wf_foldl, State.wf_moveOuter, State.wf_track, hs]

theorem State.wf_dmaAhead (s : State) (n i : Nat) (x : DmaCh) (x1 : Nat) (x2 : Nat) (hs : Memory.wf s.mem = true) :
    Memory.wf (s.dmaAhead n i x x1 x2).mem = true := by
  induction x2 generalizing s x1 with
  | zero => exact hs
  | succ k ih =>
    unfold State.dmaAhead
    extract_lets r
    have hr : Memory.wf r.1.mem = true := s.wf_dmaRow _ _ _ _ hs
    split
    · exact ih _ _ hs
    · split
      · exact ih _ _ hr
      · simpa using hr
      · exact ih _ _ hr

theorem State.wf_dmaRun (s : State) (n i : Nat) (x1 : Nat) (hs : Memory.wf s.mem = true) :
    Memory.wf (s.dmaRun n i x1).mem = true := by
  induction x1 generalizing s with
  | zero => exact hs
  | succ fuel ih =>
    unfold State.dmaRun
    dsimp only
    (repeat' split) <;> simp [ih, State.wf_dmaRow, State.wf_dmaAhead, hs]

theorem wf_cmdDma (mode : Nat) (s : State) (n q : Nat) (c : Cmd) (hs : Memory.wf s.mem = true) :
    Memory.wf (cmdDma mode s n q c).mem = true := by
  unfold cmdDma
  dsimp only
  (repeat' split) <;> simp [State.wf_dmaRun, State.wf_useDescs, hs]

theorem wf_dmaComplete (s : State) (n i : Nat) (hs : Memory.wf s.mem = true) : Memory.wf (dmaComplete s n i).mem = true := by
  unfold dmaComplete
  dsimp only
  (repeat' split) <;> simp [State.wf_dmaRun, hs]

theorem State.wf_moveTokens (s : State) (n i : Nat) (x : DmaCh) (fs fd : Nat × Nat) (len : Nat) (hs : Memory.wf s.mem = true) :
    Memory.wf (s.moveTokens n i x fs fd len).1.mem = true := by
  unfold State.moveTokens
  exact wf_foldl_fst _ (fun t x ht => by grind [State.wf_moveRow, State.wf_track]) _ _ hs

@[simp] theorem State.mem_servePage (s : State) (n i : Nat) (x : DmaCh) : (s.servePage n i x).mem = s.mem := by
  unfold State.servePage
  dsimp only
  (repeat' split) <;> simp

theorem State.wf_movePage (s : State) (n i : Nat) (x : DmaCh) (hs : Memory.wf s.mem = true) :
    Memory.wf (s.movePage n i x).mem = true := by
  unfold State.movePage
  dsimp only
  (repeat' split) <;> simp [State.wf_moveTokens, hs]

theorem wf_pagedTranslation (s : State) (n i : Nat) (hs : Memory.wf s.mem = true) :
    Memory.wf (pagedTranslation s n i).mem = true := by
  unfold pagedTranslation
  dsimp only
  (repeat' split) <;> simp [State.wf_movePage, hs]

/-! ### Machine/MemReqs -/

theorem State.wf_again (s : State) (rs : List ReqPart) (hs : Memory.wf s.mem = true) : Memory.wf (s.again rs).mem = true := by
  simp +contextual [State.again, wf_foldl, State.wf_arrive, hs]

theorem wf_cstAccess (s : State) (port part core : Nat) (own wr : Bool) (off len : Nat) (data : List Byte) (hs : Memory.wf s.mem =
    true) :
    Memory.wf (cstAccess s port part core own wr off len data).mem = true := by
  unfold cstAccess
  split <;> simp [State.wf_submit, hs]

theorem State.wf_resume (s : State) (hs : Memory.wf s.mem = true) : Memory.wf (s.resume).mem = true := by
  unfold State.resume
  exact wf_foldl _ (fun t x ht => by grind [State.wf_dmaRun, wf_pagedTranslation, wf_commandFetch]) _ _ hs

theorem wf_writeHot (s : State) (n l : Nat) (hs : Memory.wf s.mem = true) : Memory.wf (writeHot s n l).mem = true := by
  unfold writeHot
  dsimp only
  (repeat' split) <;> simp [State.wf_resume, State.wf_again, hs]

theorem State.wf_releaseHold (s : State) (n l : Nat) (hs : Memory.wf s.mem = true) :
    Memory.wf (s.releaseHold n l).mem = true := by
  simp [State.releaseHold, State.wf_again, hs]

theorem wf_rsvRequest (s : State) (port part k : Nat) (wr : Bool) (x len : Nat) (data : List Byte) (hs : Memory.wf s.mem = true) :
    Memory.wf (rsvRequest s port part k wr x len data).mem = true := by
  simp [rsvRequest, State.wf_submit, hs]

theorem wf_holdTimeout (s : State) (k c : Nat) (hs : Memory.wf s.mem = true) : Memory.wf (holdTimeout s k c).mem = true := by
  unfold holdTimeout
  dsimp only
  split <;> simp [State.wf_serve, State.wf_resume, hs]

@[simp] theorem State.mem_profileChanged (s : State) (src cause d1 d2 d3 : Nat) :
    (s.profileChanged src cause d1 d2 d3).mem = s.mem :=
  rfl

@[simp] theorem State.mem_takeTargets (s : State) : (s.takeTargets).mem = s.mem := rfl

@[simp] theorem State.mem_holdOut (s : State) (n : Nat) : (s.holdOut n).mem = s.mem := by
  unfold State.holdOut
  dsimp only
  split <;> simp

@[simp] theorem State.mem_subRetired (s : State) (n l poisoned : Nat) (evac : Bool) :
    (s.subRetired n l poisoned evac).mem = s.mem := by
  unfold State.subRetired
  dsimp only
  (repeat' split) <;> simp

@[simp] theorem State.mem_chanRetired (s : State) (k c poisoned : Nat) (evac : Bool) :
    (s.chanRetired k c poisoned evac).mem = s.mem :=
  rfl

@[simp] theorem State.mem_retireSub (s : State) (n l : Nat) : (s.retireSub n l).mem = s.mem := by
  unfold State.retireSub
  split <;> rfl

@[simp] theorem State.mem_retireChan (s : State) (k c : Nat) : (s.retireChan k c).mem = s.mem := by
  unfold State.retireChan
  dsimp only
  (repeat' split) <;> simp

@[simp] theorem State.mem_deadPin (s : State) (n l g p : Nat) : (s.deadPin n l g p).mem = s.mem := by
  unfold State.deadPin
  dsimp only
  (repeat' split) <;> simp

@[simp] theorem State.mem_deadRsvPin (s : State) (k c p : Nat) : (s.deadRsvPin k c p).mem = s.mem := by
  unfold State.deadRsvPin
  dsimp only
  (repeat' split) <;> simp

@[simp] theorem State.mem_switchSpare (s : State) (n l : Nat) (e : Nat × Nat) : (s.switchSpare n l e).mem = s.mem := by
  unfold State.switchSpare
  dsimp only
  split <;> simp

@[simp] theorem State.mem_deadSpare (s : State) (n l j : Nat) : (s.deadSpare n l j).mem = s.mem := by
  unfold State.deadSpare
  dsimp only
  (repeat' split) <;> simp

@[simp] theorem mem_cstWindow (s : State) (n l : Nat) (fails : List Nat) : (cstWindow s n l fails).mem = s.mem := by
  unfold cstWindow
  extract_lets x t u used bad v w
  have hu : u.mem = t.mem := mem_foldl _ (fun _ _ => by rw [State.mem_switchSpare]) _ _
  have hv : v.mem = u.mem := mem_foldl _ (fun _ _ => by rw [State.mem_repair, State.mem_setSub]) _ _
  have hw : w.mem = v.mem := mem_foldl _ (fun _ _ => by rw [State.mem_deadPin]) _ _
  split
  · rfl
  · rw [mem_foldl _ (fun _ _ => by rw [State.mem_deadSpare]), hw, hv, hu, State.mem_setSub]

@[simp] theorem State.mem_switchRsvSpare (s : State) (k c p : Nat) : (s.switchRsvSpare k c p).mem = s.mem := by
  unfold State.switchRsvSpare
  dsimp only
  (repeat' split) <;> simp

@[simp] theorem State.mem_deadRsvSpare (s : State) (k c j : Nat) : (s.deadRsvSpare k c j).mem = s.mem := by
  unfold State.deadRsvSpare
  dsimp only
  (repeat' split) <;> simp

@[simp] theorem mem_rsvWindow (s : State) (k c : Nat) (fails : List Nat) : (rsvWindow s k c fails).mem = s.mem := by
  unfold rsvWindow
  extract_lets x t u y used bad v w
  have hu : u.mem = t.mem := mem_foldl _ (fun _ _ => by rw [State.mem_switchRsvSpare]) _ _
  have hv : v.mem = u.mem := mem_foldl _ (fun _ _ => by rw [State.mem_repair, State.mem_setChan]) _ _
  have hw : w.mem = v.mem := mem_foldl _ (fun _ _ => by rw [State.mem_deadRsvPin]) _ _
  split
  · rfl
  · rw [mem_foldl _ (fun _ _ => by rw [State.mem_deadRsvSpare]), hw, hv, hu, State.mem_setChan]

theorem State.wf_overBridge (s : State) (i : BrItem) (hs : Memory.wf s.mem = true) : Memory.wf (s.overBridge i).mem = true := by
  unfold State.overBridge
  split <;> simp [State.wf_cross, hs]

theorem wf_windowEnd (s : State) (w : WinId) (hs : Memory.wf s.mem = true) : Memory.wf (windowEnd s w).mem = true := by
  unfold windowEnd
  split
  · extract_lets x
    split
    · exact hs
    · exact State.wf_again _ _ (wf_of_mem hs (State.mem_setSub ..))
  · extract_lets x
    split
    · exact hs
    · exact State.wf_serve _ _ _ (wf_of_mem hs (State.mem_setChan ..))
  · split
    · exact hs
    · exact wf_foldl _ (fun t i ht => t.wf_overBridge _ ht) _ _ hs

@[simp] theorem mem_cstRefresh (s : State) (n l : Nat) : (cstRefresh s n l).mem = s.mem := rfl

@[simp] theorem mem_rsvRefresh (s : State) (k c b : Nat) : (rsvRefresh s k c b).mem = s.mem := by
  unfold rsvRefresh
  dsimp only
  (repeat' split) <;> simp

@[simp] theorem State.mem_whFault (s : State) (code ma : Nat) : (s.whFault code ma).mem = s.mem := rfl

@[simp] theorem State.mem_setEvac (s : State) (e : Evac) : (s.setEvac e).mem = s.mem := rfl

theorem State.wf_evacPut (s : State) (w : Who) (ma : Nat) (cws : List (Option (List Byte))) (hs : Memory.wf s.mem = true) :
    Memory.wf (s.evacPut w ma cws).1.mem = true := by
  simp [State.evacPut, State.wf_access, hs]

theorem State.wf_evacBurst (s : State) (e : Evac) (w : Nat) (hs : Memory.wf s.mem = true) :
    Memory.wf (s.evacBurst e w).1.mem = true := by
  simp [State.evacBurst, State.wf_evacPut, hs]

theorem State.wf_evacGranule (s : State) (e : Evac) (w : Nat) (hs : Memory.wf s.mem = true) :
    Memory.wf (s.evacGranule e w).1.mem = true := by
  unfold State.evacGranule
  dsimp only
  split <;> simp [State.wf_evacPut, State.wf_access, hs]

theorem State.wf_evacRun (s : State) (e : Evac) (w : Nat) (x1 : Nat) (hs : Memory.wf s.mem = true) :
    Memory.wf (s.evacRun e w x1).1.mem = true := by
  induction x1 generalizing s e with
  | zero => exact hs
  | succ fuel ih =>
    unfold State.evacRun
    extract_lets r t
    have hr : Memory.wf r.1.mem = true := s.wf_track _ _ _ hs fun u hu => by
      split
      · exact u.wf_evacBurst _ _ hu
      · exact u.wf_evacGranule _ _ hu
    have ht : t.mem = r.1.mem := mem_foldl _ (fun _ _ => by split <;> simp) _ _
    split
    · exact hr
    · exact ih _ _ (wf_of_mem hr ht)

theorem State.wf_evacuate (s : State) (cist : Bool) (o c : Nat) (done : State → Nat → State) (hs : Memory.wf s.mem = true) (hf : ∀
    t n, Memory.wf t.mem = true → Memory.wf (done t n).mem = true) :
    Memory.wf (s.evacuate cist o c done).mem = true := by
  unfold State.evacuate
  grind [State.mem_setEvac, State.wf_evacRun]

theorem wf_cstEvacDone (s : State) (n l : Nat) (hs : Memory.wf s.mem = true) : Memory.wf (cstEvacDone s n l).mem = true := by
  simp [cstEvacDone, State.wf_evacuate, hs]

theorem wf_rsvEvacDone (s : State) (k c : Nat) (hs : Memory.wf s.mem = true) : Memory.wf (rsvEvacDone s k c).mem = true :=
  s.wf_evacuate _ _ _ _ hs fun t p ht => wf_of_mem ht (State.mem_chanRetired ..)

@[simp] theorem mem_evacTimeout (s : State) (cist : Bool) (o c : Nat) : (evacTimeout s cist o c).mem = s.mem := by
  unfold evacTimeout
  dsimp only
  (repeat' split) <;> simp

theorem wf_skimRead (s : State) (k c : Nat) (extra : Bool) (hs : Memory.wf s.mem = true) :
    Memory.wf (skimRead s k c extra).mem = true := by
  unfold skimRead
  extract_lets v ch bit g x t ch' due lap before u v'
  have ht : Memory.wf t.mem = true := by
    refine wf_foldl _ (fun u j hu => ?_) _ _ hs
    extract_lets key v o w w'
    have ho : Memory.wf o.1.mem = true := wf_of_mem hu (u.mem_baseCw _ _ _)
    split
    · split
      · exact ho
      · exact wf_of_mem (o.1.wf_putCw _ _ ho) (State.mem_setRsv ..)
    · exact ho
    · have hw : Memory.wf w.mem = true := by
        unfold w
        split
        · exact o.1.wf_putPoison _ ho
        · exact ho
      exact wf_of_mem hw ((State.mem_postEv ..).trans (State.mem_setRsv ..))
  split
  · exact hs
  · split
    · split
      · exact hs
      · exact hs
    · exact wf_of_mem ht ((State.mem_setRsv ..).trans (State.mem_setChan ..))

/-! ### Machine/NetOps -/

theorem wf_sluiceEpoch (s : State) (t : Nat) (hs : Memory.wf s.mem = true) : Memory.wf (sluiceEpoch s t).mem = true := by
  unfold sluiceEpoch
  extract_lets held t
  have ht : t.mem = s.mem := mem_foldl _ (fun _ _ => by dsimp only; split <;> rfl) _ _
  exact State.wf_resume _ (State.wf_issueHeld _ (wf_of_mem hs ht))

theorem wf_sluiceStarved (s : State) (m t : Nat) (hs : Memory.wf s.mem = true) : Memory.wf (sluiceStarved s m t).mem = true := by
  unfold sluiceStarved
  split <;> simp [State.wf_resume, State.wf_issueHeld, hs]

@[simp] theorem mem_clrMax (s : State) (m c : Nat) : (clrMax s m c).mem = s.mem := by
  unfold clrMax
  split <;> rfl

@[simp] theorem State.mem_setBundle (s : State) (d b : Nat) (x : Bundle) : (s.setBundle d b x).mem = s.mem := rfl

@[simp] theorem State.mem_bridgeCap (s : State) (d : Nat) : (s.bridgeCap d).mem = s.mem := rfl

@[simp] theorem State.mem_narrowBundle (s : State) (d b : Nat) (st : BitVec 2) : (s.narrowBundle d b st).mem = s.mem := by
  unfold State.narrowBundle
  rw [State.mem_profileChanged, State.mem_bridgeCap, State.mem_repair, State.mem_setBundle]

@[simp] theorem State.mem_bundleLane (s : State) (d b lane : Nat) : (s.bundleLane d b lane).mem = s.mem := by
  unfold State.bundleLane
  dsimp only
  split <;> simp

@[simp] theorem State.mem_failBundle (s : State) (d b n : Nat) : (s.failBundle d b n).mem = s.mem := by
  unfold State.failBundle
  extract_lets t
  have ht : t.mem = s.mem := State.mem_narrowBundle ..
  clear_value t
  exact ht

@[simp] theorem mem_flitReceive (s : State) (d b n : Nat) (crcOk : Bool) (flit : BitVec 512) (errs : List Nat) :
    (flitReceive s d b n crcOk flit errs).mem = s.mem := by
  unfold flitReceive
  dsimp only
  (repeat' split) <;> simp [mem_foldl]

@[simp] theorem mem_bridgeWindow (s : State) (d : Nat) (fails : List (Nat × Nat)) : (bridgeWindow s d fails).mem = s.mem := by
  unfold bridgeWindow
  extract_lets t u
  have hu : u.mem = t.mem := by
    refine mem_foldl _ (fun v b => mem_foldl _ (fun w lane => ?_) _ _) _ _
    extract_lets y y' z
    have hz : z.mem = w.mem := State.mem_setBundle ..
    split
    · rw [State.mem_setBundle]
    · split
      · rw [State.mem_repair, State.mem_setBundle]
      · split
        · rw [State.mem_narrowBundle, hz]
        · split
          · rw [State.mem_narrowBundle, hz]
          · exact hz
  split
  · rfl
  · rw [mem_foldl _ (fun _ _ => by rw [State.mem_bundleLane]), hu]

/-! ### Machine/LinkOps -/

@[simp] theorem State.mem_setPort (s : State) (p : Nat) (x : Port) : (s.setPort p x).mem = s.mem := rfl

@[simp] theorem State.mem_setTx (s : State) (c : Nat) (x : Option TxStream) : (s.setTx c x).mem = s.mem := rfl

@[simp] theorem State.mem_setRx (s : State) (c : Nat) (x : Option RxStream) : (s.setRx c x).mem = s.mem := rfl

@[simp] theorem State.mem_linkSend (s : State) (p : Nat) (what : LinkOut) : (s.linkSend p what).mem = s.mem := rfl

@[simp] theorem State.mem_sendMsg (s : State) (p : Nat) (m : LinkMsg) (cmd : Option (Nat × Nat)) :
    (s.sendMsg p m cmd).mem = s.mem :=
  rfl

@[simp] theorem State.mem_freeCtx (s : State) (c : Nat) : (s.freeCtx c).mem = s.mem := by
  unfold State.freeCtx
  extract_lets t done _ u
  have ht : t.mem = s.mem := by rw [State.mem_dropAccs, State.mem_setRx, State.mem_setTx]
  clear_value t
  have hu : u.mem = t.mem := rfl
  exact (mem_foldl _ (fun _ _ => by rw [State.mem_complete]) _ u).trans (hu.trans ht)

@[simp] theorem State.mem_txFault (s : State) (c : Nat) (x : TxStream) (code detail : Nat) :
    (s.txFault c x code detail).mem = s.mem := by
  unfold State.txFault
  split <;> simp

@[simp] theorem State.mem_rxFault (s : State) (c : Nat) (x : RxStream) (code detail : Nat) :
    (s.rxFault c x code detail).mem = s.mem := by
  unfold State.rxFault
  split <;> simp

@[simp] theorem State.mem_countBroken (s : State) (p : Nat) : (s.countBroken p).mem = s.mem := rfl

@[simp] theorem State.mem_countCancelled (s : State) (p : Nat) : (s.countCancelled p).mem = s.mem := rfl

@[simp] theorem State.mem_countStale (s : State) (p : Nat) : (s.countStale p).mem = s.mem := rfl

@[simp] theorem State.mem_closeRx (s : State) (c : Nat) (x : RxStream) (code detail cause : Nat) :
    (s.closeRx c x code detail cause).mem = s.mem := by
  simp [State.closeRx]

@[simp] theorem State.mem_answerAdmit (s : State) (p since : Nat) (m : LinkMsg) : (s.answerAdmit p since m).mem = s.mem := by
  unfold State.answerAdmit
  dsimp only
  (repeat' split) <;> simp

@[simp] theorem State.mem_admitKept (s : State) (c : Nat) : (s.admitKept c).mem = s.mem := by
  unfold State.admitKept
  extract_lets mine
  refine mem_foldl _ (fun t p => ?_) _ _
  extract_lets x
  split
  · rw [mem_foldl _ (fun _ _ => by rw [State.mem_answerAdmit]), State.mem_setPort]
  · rfl

@[simp] theorem State.mem_offer (s : State) (p n q : Nat) (hold : Bool) : (s.offer p n q hold).mem = s.mem := rfl

theorem wf_cmdSend (s : State) (n q : Nat) (c : Cmd) (hs : Memory.wf s.mem = true) : Memory.wf (cmdSend s n q c).mem = true := by
  unfold cmdSend
  extract_lets w1 w2 w3 p ctx rate start h r t t' src bytes cells t0 n0 x u
  have hr : Memory.wf r.1.mem = true := s.wf_useDescs _ _ hs
  have ht : Memory.wf t.mem = true := wf_of_mem hr (State.mem_offer ..)
  have hu : Memory.wf u.mem = true := wf_of_mem ht (by rw [State.mem_sendMsg, State.mem_setTx, State.mem_launchCmd])
  clear_value u
  unfold t' at *
  clear_value t r
  have refused (code detail : Nat) : Memory.wf (t.refuseCmd n q c code detail).mem = true :=
    wf_of_mem ht (State.mem_refuseCmd ..)
  split
  · exact wf_of_mem hs (State.mem_waitEngine ..)
  · split
    · exact wf_of_mem hs (State.mem_refuseCmd ..)
    · split
      · exact wf_of_mem hs (State.mem_refuseCmd ..)
      · split
        · exact wf_of_mem hs (State.mem_waitEngine ..)
        · split
          · exact refused _ _
          · exact wf_of_mem hr (State.mem_offer ..)
          · exact refused _ _
          · split
            · exact refused _ _
            · exact refused _ _
            · split_ifs
              · exact refused _ _
              · exact refused _ _
              · exact refused _ _
              · exact wf_of_mem hu (State.mem_admitKept ..)

theorem wf_cmdRecv (s : State) (n q : Nat) (c : Cmd) (hs : Memory.wf s.mem = true) : Memory.wf (cmdRecv s n q c).mem = true := by
  unfold cmdRecv
  dsimp only
  (repeat' split) <;> simp [State.wf_useDescs, hs]

theorem State.wf_readElems (s : State) (w : Who) (m : Master) (d : Desc) (e n : Nat) (hs : Memory.wf s.mem = true) :
    Memory.wf (s.readElems w m d e n).1.mem = true := by
  unfold State.readElems
  exact wf_foldl_fst _ (fun t x ht => by dsimp only; (repeat' split) <;> simp [State.wf_readRow, ht]) _ _ hs

theorem State.canonical_sendCell (s : State) (c : Nat) (x : TxStream) (place : Nat × Nat) (hs : Memory.wf s.mem = true) :
    (s.sendCell c x place).Canonical := by
  unfold State.sendCell
  extract_lets part fed d e0 e1 r n
  have hr : Memory.wf r.1.mem = true := s.wf_track _ _ _ hs fun t ht => t.wf_readElems _ _ _ _ _ ht
  split
  · exact hs
  · split
    · exact hr
    · exact hr
    · exact wf_of_mem hr (State.mem_linkSend ..)

theorem State.wf_sendCells (s : State) (c : Nat) (x1 : Nat) (x2 : List (Nat × Nat)) (hs : Memory.wf s.mem = true) :
    Memory.wf (s.sendCells c x1 x2).1.mem = true := by
  induction x1 generalizing s x2 with
  | zero => exact hs
  | succ n ih =>
    cases x2 with
    | nil => exact hs
    | cons place places =>
      unfold State.sendCells
      split
      · exact hs
      · next x _ =>
        split
        · exact hs
        · have hc := s.canonical_sendCell c x place hs
          cases h : s.sendCell c x place <;> simp only [h, SendRes.Canonical] at hc ⊢
          · exact ih _ _ (wf_of_mem hc (State.mem_setTx ..))
          · exact hc
          · refine wf_of_mem hc ?_
            rw [State.mem_txFault, State.mem_draw, State.mem_sendMsg]

@[simp] theorem State.mem_sendHdr (s : State) (p f : Nat) : (s.sendHdr p f).mem = s.mem := by
  unfold State.sendHdr
  exact mem_foldl _ (fun _ _ => by simp) _ _

@[simp] theorem State.mem_sendHdrs (s : State) (p : Nat) : (s.sendHdrs p).mem = s.mem := by
  unfold State.sendHdrs
  exact mem_foldl _ (fun _ _ => by simp) _ _

@[simp] theorem State.mem_cancelTx (s : State) (c : Nat) (x : TxStream) (why : Option Nat) :
    (s.cancelTx c x why).mem = s.mem := by
  unfold State.cancelTx
  dsimp only
  (repeat' split) <;> simp

theorem State.wf_formBurst (s : State) (w : Who) (x : RxStream) (hs : Memory.wf s.mem = true) :
    Memory.wf (s.formBurst w x).1.mem = true := by
  unfold State.formBurst
  dsimp only
  (repeat' split) <;> simp [State.wf_readMA, State.wf_readElems, hs]

theorem State.wf_writeBurst (s : State) (w : Who) (x : RxStream) (segs : List (Nat × Nat × List Nat)) (hs : Memory.wf s.mem =
    true) :
    Memory.wf (s.writeBurst w x segs).1.mem = true := by
  unfold State.writeBurst
  exact wf_foldl_fst _ (fun t x ht => by simp [State.wf_writeRow, ht]) _ _ hs

theorem State.wf_rxRun (s : State) (c : Nat) (x1 : Nat) (hs : Memory.wf s.mem = true) : Memory.wf (s.rxRun c x1).mem = true := by
  induction x1 generalizing s with
  | zero => exact hs
  | succ fuel ih =>
    unfold State.rxRun
    grind [State.wf_writeMA, State.mem_draw, State.mem_setRx, State.wf_writeBurst, State.mem_countCancelled, State.wf_formBurst,
      State.mem_freeCtx, State.mem_rxFault, State.wf_track, State.mem_signal, State.mem_sendMsg, State.mem_closeRx,
      State.mem_completeCmd]

theorem State.wf_rxAll (s : State) (p : Nat) (hs : Memory.wf s.mem = true) : Memory.wf (s.rxAll p).mem = true := by
  simp +contextual [State.rxAll, wf_foldl, State.wf_rxRun, hs]

theorem wf_sendTick (s : State) (p : Nat) (hs : Memory.wf s.mem = true) : Memory.wf (sendTick s p).mem = true := by
  unfold sendTick
  extract_lets x t u ready r
  have hu : u.mem = t.mem := mem_foldl _ (fun _ _ => by split <;> simp) _ _
  have ht : Memory.wf t.mem = true := wf_of_mem hs (State.mem_setPort ..)
  have hr : Memory.wf r.1.mem = true := wf_foldl_fst _ (fun a e ha => a.1.wf_sendCells _ _ _ ha) _ _ (wf_of_mem ht hu)
  split
  · exact hs
  · split
    · exact wf_of_mem (r.1.wf_rxAll p hr) (State.mem_sendHdrs ..)
    · exact wf_of_mem ht (State.mem_sendHdrs ..)
    · exact ht

theorem State.wf_deliver (s : State) (p : Nat) (cell : Cell) (hs : Memory.wf s.mem = true) :
    Memory.wf (s.deliver p cell).mem = true := by
  unfold State.deliver
  dsimp only
  (repeat' split) <;> simp [State.wf_rxRun, hs]

@[simp] theorem mem_streamBroken (s : State) (c : Nat) : (streamBroken s c).mem = s.mem := by
  unfold streamBroken
  grind [State.mem_countCancelled, State.mem_rxFault, State.mem_closeRx]

@[simp] theorem mem_noClose (s : State) (c : Nat) : (noClose s c).mem = s.mem := by
  unfold noClose
  split
  · rfl
  · split
    · split
      · rw [State.mem_txFault]
      · rfl
    · rfl

@[simp] theorem mem_armTimeout (s : State) (c : Nat) : (armTimeout s c).mem = s.mem := by
  unfold armTimeout
  grind [State.mem_rxFault]

@[simp] theorem mem_admitExpiry (s : State) (p : Nat) : (admitExpiry s p).mem = s.mem := by
  unfold admitExpiry
  dsimp only
  split <;> simp

@[simp] theorem State.mem_granted (s : State) (p c : Nat) (epoch : Byte) : (s.granted p c epoch).mem = s.mem := by
  unfold State.granted
  dsimp only
  (repeat' split) <;> simp

@[simp] theorem State.mem_admitRefused (s : State) (p c reason : Nat) : (s.admitRefused p c reason).mem = s.mem := by
  unfold State.admitRefused
  grind [State.mem_txFault]

theorem State.wf_cancelRx (s : State) (p c : Nat) (epoch : Byte) (last : Option (BitVec 32)) (hs : Memory.wf s.mem = true) :
    Memory.wf (s.cancelRx p c epoch last).mem = true := by
  unfold State.cancelRx
  dsimp only
  (repeat' split) <;> simp [State.wf_rxRun, hs]

@[simp] theorem State.mem_streamReset (s : State) (p c : Nat) (epoch : Byte) (cause : Nat) :
    (s.streamReset p c epoch cause).mem = s.mem := by
  unfold State.streamReset
  grind [State.mem_countCancelled, State.mem_rxFault, State.mem_txFault]

@[simp] theorem State.mem_closed (s : State) (p c : Nat) (epoch : Byte) : (s.closed p c epoch).mem = s.mem := by
  unfold State.closed
  dsimp only
  (repeat' split) <;> simp

@[simp] theorem State.mem_cancelStream (s : State) (c : Nat) (why : Option Nat) : (s.cancelStream c why).mem = s.mem := by
  unfold State.cancelStream
  dsimp only
  (repeat' split) <;> simp

@[simp] theorem State.mem_refreshSync (s : State) (p : Nat) : (s.refreshSync p).mem = s.mem := by
  unfold State.refreshSync
  dsimp only
  split <;> simp

@[simp] theorem State.mem_refreshSyncs (s : State) : (s.refreshSyncs).mem = s.mem := by
  simp [State.refreshSyncs, mem_foldl]

@[simp] theorem State.mem_portDown (s : State) (p : Nat) : (s.portDown p).mem = s.mem := by
  unfold State.portDown
  dsimp only
  split <;> simp [mem_foldl]

@[simp] theorem State.mem_declareLane (s : State) (p l : Nat) : (s.declareLane p l).mem = s.mem := by
  unfold State.declareLane
  dsimp only
  (repeat' split) <;> simp

@[simp] theorem State.mem_planned (s : State) (p : Nat) (tx : Bool) (map : List Nat) (width : Nat) (turn : Word) :
    (s.planned p tx map width turn).mem = s.mem := by
  unfold State.planned
  dsimp only
  split <;> simp

@[simp] theorem State.mem_scaleRates (s : State) (p c0 c1 : Nat) : (s.scaleRates p c0 c1).mem = s.mem := by
  unfold State.scaleRates
  exact mem_foldl _ (fun _ _ => by dsimp only; split <;> simp) _ _

@[simp] theorem State.mem_applyPlan (s : State) (p : Nat) (rx : Bool) (plan : LanePlan) :
    (s.applyPlan p rx plan).mem = s.mem := by
  unfold State.applyPlan
  dsimp only
  (repeat' split) <;> simp

@[simp] theorem State.mem_laneChanges (s : State) (p : Nat) : (s.laneChanges p).mem = s.mem := by
  simp [State.laneChanges, mem_foldl]

@[simp] theorem State.mem_trainPort (s : State) (p : Nat) : (s.trainPort p).mem = s.mem := by
  unfold State.trainPort
  dsimp only
  (repeat' split) <;> simp

theorem wf_cellReceive (s : State) (p : Nat) (corr : List (Nat × Nat)) (bad : Option Nat) (hcrc : Bool) (cell : Option Cell) (hs :
    Memory.wf s.mem = true) :
    Memory.wf (cellReceive s p corr bad hcrc cell).mem = true := by
  unfold cellReceive
  extract_lets x lane t u
  have ht : Memory.wf t.mem = true := wf_of_mem hs (State.mem_setPort ..)
  have hu : Memory.wf u.mem = true := wf_of_mem ht (mem_foldl _ (fun _ _ => by rw [State.mem_declareLane]) _ _)
  split
  · exact hs
  · split
    · refine wf_of_mem hu ?_
      rw [State.mem_declareLane, State.mem_setPort]
    · split
      · exact wf_of_mem hu (State.mem_setPort ..)
      · split
        · exact hu
        · split
          · exact wf_of_mem hu (State.mem_setPort ..)
          · exact u.wf_deliver _ _ hu

@[simp] theorem mem_laneLockLost (s : State) (p l : Nat) : (laneLockLost s p l).mem = s.mem := by
  unfold laneLockLost
  split <;> simp

@[simp] theorem mem_linkPortDown (s : State) (p : Nat) : (linkPortDown s p).mem = s.mem := by
  unfold linkPortDown
  dsimp only
  split <;> simp

@[simp] theorem mem_portUp (s : State) (p : Nat) (txFound rxFound : BitVec 22) (peerPort : BitVec 5) :
    (portUp s p txFound rxFound peerPort).mem = s.mem := by
  unfold portUp
  extract_lets x txGood rxGood tg rg w t known u
  have hu : u.mem = t.mem := mem_foldl _ (fun _ _ => by rw [State.mem_repair]) _ _
  split
  · rfl
  · rw [State.mem_refreshSync, State.mem_postEv, hu, State.mem_setPort]

/-! ### Machine/ClepOps -/

@[simp] theorem State.mem_stepBy (s : State) (d : Int) (all : Bool) : (s.stepBy d all).mem = s.mem := rfl

@[simp] theorem State.mem_setClp (s : State) (m : ClpMode) : (s.setClp m).mem = s.mem := by
  unfold State.setClp
  split <;> simp

@[simp] theorem State.mem_clpEvent (s : State) (m : ClpMode) (code : Nat) (third : Int) :
    (s.clpEvent m code third).mem = s.mem := by
  simp [State.clpEvent]

@[simp] theorem State.mem_misaligned (s : State) (e : Int) : (s.misaligned e).mem = s.mem := by
  unfold State.misaligned
  dsimp only
  (repeat' split) <;> simp

@[simp] theorem State.mem_s2Watch (s : State) : (s.s2Watch).mem = s.mem := by
  unfold State.s2Watch
  dsimp only
  (repeat' split) <;> simp

@[simp] theorem mem_cadencePulse (s : State) : (cadencePulse s).mem = s.mem := by
  unfold cadencePulse
  dsimp only
  (repeat' split) <;> simp

@[simp] theorem mem_cadenceMissing (s : State) : (cadenceMissing s).mem = s.mem := by
  unfold cadenceMissing
  dsimp only
  (repeat' split) <;> simp

@[simp] theorem mem_turnMarker (s0 : State) : (turnMarker s0).mem = s0.mem := by
  unfold turnMarker
  extract_lets s c e t1 c1 t2 t3 u
  have hs : s.mem = s0.mem := State.mem_s2Watch _
  have h1 : t1.mem = s0.mem := by rw [State.mem_setClp, State.mem_stepBy, hs]
  clear_value t1
  split
  · exact hs
  · split
    · rw [mem_foldl _ (fun _ _ => by rw [State.mem_complete]), State.mem_post]
      exact h1
    · split
      · exact hs
      · split
        · exact h1
        · split
          · split
            · exact hs
            · split
              · exact hs
              · rw [State.mem_clpEvent]
                exact hs
          · split
            · exact hs
            · rw [State.mem_misaligned, hs]
          · exact hs

@[simp] theorem mem_slewComplete (s : State) : (slewComplete s).mem = s.mem := by
  unfold slewComplete
  dsimp only
  split <;> simp

@[simp] theorem mem_uncertHigh (s : State) : (uncertHigh s).mem = s.mem := by
  unfold uncertHigh
  dsimp only
  split <;> simp

@[simp] theorem State.mem_setTurn (s : State) (r : Nat × Nat × Word) : (s.setTurn r).mem = s.mem := rfl

@[simp] theorem mem_turnBoundary (s : State) : (turnBoundary s).mem = s.mem := by
  unfold turnBoundary
  extract_lets c t1 _ t2 t3 t4
  have h1 : t1.mem = s.mem := mem_foldl _ (fun u r => u.mem_setTurn r) _ _
  clear_value t1
  have h2 : t2.mem = t1.mem := rfl
  have h3 : t3.mem = t2.mem := mem_foldl _ (fun u i => u.mem_laneChanges i) _ _
  have h4 : t4.mem = t3.mem := mem_foldl _ (fun u i => u.mem_trainPort i) _ _
  clear_value t4
  split
  · rfl
  · rw [State.mem_postEv, State.mem_refreshSyncs]
    exact h4.trans (h3.trans (h2.trans h1))

/-! ### Machine/CoreAsync -/

theorem State.wf_asyncPerform (s : State) (n : Nat) (a : AsyncAcc) (hs : Memory.wf s.mem = true) :
    Memory.wf (s.asyncPerform n a).mem = true := by
  have hw := s.wf_writeSram (padMA n (a.off / 16 * 16)) (leBytes 16 a.data.toNat) hs
  unfold State.asyncPerform
  split
  · rw [State.mem_setCore]
    exact hw
  · rw [State.mem_draw, State.mem_setCore]
    exact hs

theorem wf_asyncAccess (s : State) (n : Nat) (a : AsyncAcc) (hs : Memory.wf s.mem = true) :
    Memory.wf (asyncAccess s n a).mem = true := by
  unfold asyncAccess
  dsimp only
  (repeat' split) <;> simp [State.wf_asyncPerform, hs]

theorem wf_asyncForce (s : State) (n b : Nat) (hs : Memory.wf s.mem = true) : Memory.wf (asyncForce s n b).mem = true := by
  unfold asyncForce
  dsimp only
  (repeat' split) <;> simp [State.wf_asyncPerform, State.wf_serveWord, hs]

/-! ### Machine/RegMap -/

@[simp] theorem State.mem_setRing (s : State) (r : Nat) (x : HostRing) : (s.setRing r x).mem = s.mem := rfl

@[simp] theorem State.mem_setVec (s : State) (v : Nat) (x : Msix) : (s.setVec v x).mem = s.mem := rfl

@[simp] theorem State.mem_readRegs (s : State) (x n : Nat) : (s.readRegs x n).1.mem = s.mem := by
  unfold State.readRegs
  exact mem_foldl_fst _ (fun _ _ => by simp) _ _

/-! ### Machine/RegWrite -/

@[simp] theorem State.mem_coreWrite (s : State) (n o : Nat) (w : RegW) : (s.coreWrite n o w).mem = s.mem := by
  unfold State.coreWrite
  grind [State.mem_setCist, State.mem_setQueue, mem_startQ, mem_resumeQ, State.mem_setCore, mem_haltQ]

@[simp] theorem State.mem_rsvWrite (s : State) (k o : Nat) (w : RegW) : (s.rsvWrite k o w).mem = s.mem := by
  unfold State.rsvWrite
  dsimp only
  (repeat' split) <;> simp

@[simp] theorem State.mem_dieWrite (s : State) (d o : Nat) (w : RegW) : (s.dieWrite d o w).mem = s.mem := by
  unfold State.dieWrite
  dsimp only
  split <;> simp

@[simp] theorem State.mem_portWrite (s : State) (p o : Nat) (w : RegW) : (s.portWrite p o w).mem = s.mem := by
  unfold State.portWrite
  split <;> rfl

@[simp] theorem State.mem_ringCfg (s : State) (r : Nat) (w : RegW) : (s.ringCfg r w).mem = s.mem := by
  unfold State.ringCfg
  dsimp only
  (repeat' split) <;> simp

@[simp] theorem State.mem_ringCoal (s : State) (r : Nat) (w : RegW) : (s.ringCoal r w).mem = s.mem := by
  unfold State.ringCoal
  dsimp only
  split <;> simp

@[simp] theorem State.mem_ringBad (s : State) (r old v : Nat) : (s.ringBad r old v).mem = s.mem := rfl

@[simp] theorem mem_sqDoorbell (s : State) (r v : Nat) : (sqDoorbell s r v).mem = s.mem := by
  unfold sqDoorbell
  dsimp only
  (repeat' split) <;> simp

@[simp] theorem mem_headDoorbell (s : State) (kind r v : Nat) : (headDoorbell s kind r v).mem = s.mem := by
  unfold headDoorbell
  dsimp only
  (repeat' split) <;> simp

@[simp] theorem State.mem_signalVec (s : State) (v : Nat) : (s.signalVec v).mem = s.mem := by
  unfold State.signalVec
  dsimp only
  split <;> simp

@[simp] theorem State.mem_sendPending (s : State) (v : Nat) : (s.sendPending v).mem = s.mem := by
  unfold State.sendPending
  split <;> simp

@[simp] theorem mem_msixUnmask (s : State) (v : Nat) : (msixUnmask s v).mem = s.mem := by
  simp [msixUnmask]

@[simp] theorem mem_msixInterrupt (s : State) (r : Nat) : (msixInterrupt s r).mem = s.mem := by
  unfold msixInterrupt
  dsimp only
  (repeat' split) <;> simp

@[simp] theorem State.mem_hstWrite (s : State) (o : Nat) (w : RegW) : (s.hstWrite o w).mem = s.mem := by
  unfold State.hstWrite
  dsimp only
  (repeat' split) <;> simp

@[simp] theorem State.mem_hubWrite (s : State) (o : Nat) (w : RegW) : (s.hubWrite o w).mem = s.mem := by
  unfold State.hubWrite
  dsimp only
  (repeat' split) <;> simp

@[simp] theorem State.mem_blkWrite (s : State) (x : Nat) (w : RegW) : (s.blkWrite x w).mem = s.mem := by
  unfold State.blkWrite
  split <;> simp

@[simp] theorem State.mem_postChange (s : State) (src : Nat) (as : List Audit) : (s.postChange src as).mem = s.mem := by
  unfold State.postChange
  split <;> rfl

@[simp] theorem State.mem_regStore (s : State) (o : Origin) (x : Nat) (w : RegW) : (s.regStore o x w).mem = s.mem := by
  simp [State.regStore]

@[simp] theorem State.mem_bar0Store (s : State) (x : Nat) (w : RegW) : (s.bar0Store x w).mem = s.mem := by
  simp [State.bar0Store]

@[simp] theorem State.mem_writeRegs (s : State) (o : Origin) (x : Nat) (bs : List Byte) : (s.writeRegs o x bs).1.mem = s.mem := by
  unfold State.writeRegs
  exact mem_foldl_fst _ (fun _ _ => by dsimp only; (repeat' split) <;> simp) _ _

/-! ### Machine/HostOps -/

@[simp] theorem State.mem_regPart (s : State) (p : ReqPart) : (s.regPart p).mem = s.mem := by
  unfold State.regPart
  extract_lets off one t
  have hone : ∀ a r, (one a r).1.mem = a.1.mem := by
    intro a r
    unfold one
    dsimp only
    split <;> simp
  rw [State.mem_partDone]
  exact mem_foldl_fst _ hone _ _

theorem State.wf_hostReq (s : State) (who : Who) (wr : Bool) (ma len : Nat) (data : List Byte) (hs : Memory.wf s.mem = true) :
    Memory.wf (s.hostReq who wr ma len data).mem = true := by
  simp +contextual [State.hostReq, wf_foldl, State.wf_sendReq, hs]

theorem State.wf_hostRead (s : State) (tag ma len : Nat) (since : Option Nat) (hs : Memory.wf s.mem = true) :
    Memory.wf (s.hostRead tag ma len since).mem = true := by
  unfold State.hostRead
  split <;> simp [State.wf_hostReq, hs]

@[simp] theorem State.mem_hostReadFails (s : State) (tag ma len code : Nat) : (s.hostReadFails tag ma len code).mem = s.mem := by
  simp [State.hostReadFails]

theorem State.wf_hostWrite (s : State) (ma : Nat) (bs : List Byte) (hs : Memory.wf s.mem = true) :
    Memory.wf (s.hostWrite ma bs).mem = true := by
  simp [State.hostWrite, State.wf_hostReq, hs]

theorem wf_bar2Read (s : State) (tag off len : Nat) (since : Option Nat) (hs : Memory.wf s.mem = true) :
    Memory.wf (bar2Read s tag off len since).mem = true := by
  unfold bar2Read
  grind [State.wf_hostRead, State.mem_hostReadFails]

theorem wf_bar2Write (s : State) (off : Nat) (bs : List Byte) (hs : Memory.wf s.mem = true) :
    Memory.wf (bar2Write s off bs).mem = true := by
  unfold bar2Write
  grind [State.wf_hostWrite, State.mem_barFault]

theorem wf_bar0Access (s : State) (tag off n : Nat) (data : Option DWord) (since : Option Nat) (hs : Memory.wf s.mem = true) :
    Memory.wf (bar0Access s tag off n data since).mem = true := by
  unfold bar0Access
  dsimp only
  (repeat' split) <;> simp [State.wf_hostRead, State.wf_hostWrite, hs]

theorem wf_registerWrite (s : State) (o : Origin) (bar0 : Bool) (off n : Nat) (d : DWord) (hs : Memory.wf s.mem = true) :
    Memory.wf (registerWrite s o bar0 off n d).mem = true := by
  unfold registerWrite
  dsimp only
  (repeat' split) <;> simp [wf_bar0Access, hs]

@[simp] theorem mem_ringEnable (s : State) (r : Nat) (cfg : Word) : (ringEnable s r cfg).mem = s.mem := by
  unfold ringEnable
  split <;> simp

theorem State.wf_hubPerform (s : State) (t : Nat) (x1 : HubAcc) (hs : Memory.wf s.mem = true) :
    Memory.wf (s.hubPerform t x1).mem = true := by
  unfold State.hubPerform
  split <;> simp [wf_bar2Read, wf_registerWrite, wf_bar0Access, wf_bar2Write, hs]

theorem State.wf_hubDrain (s : State) (x1 : Nat) (hs : Memory.wf s.mem = true) : Memory.wf (s.hubDrain x1).mem = true := by
  induction x1 generalizing s with
  | zero => exact hs
  | succ fuel ih =>
    unfold State.hubDrain
    dsimp only
    (repeat' split) <;> simp [ih, State.wf_hubPerform, hs]

theorem State.wf_hubTake (s : State) (a : HubAcc) (hs : Memory.wf s.mem = true) : Memory.wf (s.hubTake a).mem = true := by
  unfold State.hubTake
  dsimp only
  split <;> simp [State.wf_hubDrain, State.wf_hubPerform, hs]

@[simp] theorem mem_readExpired (s : State) (tag : Nat) : (readExpired s tag).mem = s.mem := by
  unfold readExpired
  dsimp only
  (repeat' split) <;> simp

@[simp] theorem mem_configWrite (s : State) (w : CfgWrite) : (configWrite s w).mem = s.mem := by
  unfold configWrite
  dsimp only
  (repeat' split) <;> simp [mem_foldl]

@[simp] theorem State.mem_refuseCmds (s : State) : (s.refuseCmds).mem = s.mem := by
  exact mem_foldl _ (fun _ _ => by
    split
    · split <;> rfl
    · rfl) _ _

@[simp] theorem State.mem_sqFetchFailed (s : State) (r : Nat) : (s.sqFetchFailed r).mem = s.mem := rfl

@[simp] theorem State.mem_begin_ (s : State) (c : WcsCmd) : (s.begin_ c).mem = s.mem := rfl

@[simp] theorem State.mem_takeAbort (s : State) (c : WcsCmd) : (s.takeAbort c).mem = s.mem := by
  unfold State.takeAbort
  split <;> rfl

@[simp] theorem mem_sqTake (s : State) (r : Nat) (e : HostData) : (sqTake s r e).mem = s.mem := by
  unfold sqTake
  dsimp only
  (repeat' split) <;> simp

@[simp] theorem State.mem_ringWrite (s : State) (r : Nat) (words : List Nat) : (s.ringWrite r words).mem = s.mem := rfl

@[simp] theorem mem_cqWrite (s : State) (cq : Nat) : (cqWrite s cq).mem = s.mem := by
  unfold cqWrite
  dsimp only
  (repeat' split) <;> simp

/-! ### Machine/WcsOps -/

@[simp] theorem State.mem_ends (s : State) (c : WcsCmd) (status : Nat) : (s.ends c status).mem = s.mem := rfl

@[simp] theorem State.mem_ok (s : State) (c : WcsCmd) (r : List Nat) (as : List Audit) : (s.ok c r as).mem = s.mem := rfl

theorem State.wf_withData (s : State) (c : WcsCmd) (d : HostData) (n : Nat) (f : List Byte → Option State) (hs : Memory.wf s.mem =
    true) (hf : ∀ bs u, f bs = some u → Memory.wf u.mem = true) (t : State) (ht : s.withData c d n f = some t) :
    Memory.wf t.mem = true := by
  unfold State.withData at ht
  grind [State.mem_completeFree]

@[simp] theorem State.mem_toHost (s : State) (addr : Nat) (relaxed : Bool) (bs : List Byte) :
    (s.toHost addr relaxed bs).mem = s.mem :=
  rfl

theorem State.wf_whWrites (s : State) (w : Who) (ws : List (Nat × List Byte)) (hs : Memory.wf s.mem = true) :
    Memory.wf (s.whWrites w ws).1.mem = true := by
  unfold State.whWrites
  exact wf_foldl_fst _ (fun t x ht => by simp [State.wf_access, ht]) _ _ hs

theorem State.wf_storing (s : State) (c : WcsCmd) (n : Nat) (ws : List (Nat × List Byte)) (fin : State → State) (hs : Memory.wf
    s.mem = true) (hf : ∀ t, Memory.wf t.mem = true → Memory.wf (fin t).mem = true) :
    Memory.wf (s.storing c n ws fin).mem = true := by
  unfold State.storing
  extract_lets w r keep
  have hr : Memory.wf r.1.mem = true := s.wf_track _ _ _ hs fun t ht => t.wf_whWrites _ _ ht
  split
  · exact hr
  · exact hf _ (wf_of_mem hr (mem_foldl _ (fun _ _ => by split <;> simp) _ _))

@[simp] theorem State.mem_refreshCap (s : State) : (s.refreshCap).mem = s.mem := by
  unfold State.refreshCap
  dsimp only
  (repeat' split) <;> simp

theorem mem_cmdGetParam (s : State) (c : WcsCmd) (t : State) (ht : cmdGetParam s c = some t) : t.mem = s.mem := by
  unfold cmdGetParam at ht
  grind [State.mem_ends, State.mem_ok]

@[simp] theorem State.mem_putSkim (s : State) (v : Nat) : (s.putSkim v).mem = s.mem := by
  unfold State.putSkim
  exact mem_foldl _ (fun _ _ => by simp) _ _

theorem mem_cmdSetParam (s : State) (c : WcsCmd) (t : State) (ht : cmdSetParam s c = some t) : t.mem = s.mem := by
  unfold cmdSetParam at ht
  grind [State.mem_takeTargets, State.mem_putSkim, State.mem_ends, State.mem_refreshCap, State.mem_ok]

theorem mem_cmdSetWallclock (s : State) (c : WcsCmd) (t : State) (ht : cmdSetWallclock s c = some t) : t.mem = s.mem := by
  unfold cmdSetWallclock at ht
  grind [State.mem_ok]

theorem mem_cmdPartCreate (s : State) (c : WcsCmd) (t : State) (ht : cmdPartCreate s c = some t) : t.mem = s.mem := by
  unfold cmdPartCreate at ht
  grind [State.mem_ends, State.mem_ok]

theorem mem_cmdSetShares (s : State) (c : WcsCmd) (t : State) (ht : cmdSetShares s c = some t) : t.mem = s.mem := by
  unfold cmdSetShares at ht
  grind [State.mem_ends, State.mem_setAcct, State.mem_ok]

@[simp] theorem State.mem_dropDescs (s : State) (p : Nat) (mine : Nat → Bool) : (s.dropDescs p mine).mem = s.mem := by
  unfold State.dropDescs
  exact mem_foldl _ (fun _ _ => by simp) _ _

theorem wf_cmdDescWrite (d : HostData) (s : State) (c : WcsCmd) (hs : Memory.wf s.mem = true) (t : State) (ht : cmdDescWrite d s c
    = some t) :
    Memory.wf t.mem = true := by
  unfold cmdDescWrite at ht
  grind [State.mem_ends, State.wf_storing, State.wf_withData, State.mem_ok, State.mem_dropDescs]

theorem mem_cmdFlagRead (s : State) (c : WcsCmd) (t : State) (ht : cmdFlagRead s c = some t) : t.mem = s.mem := by
  unfold cmdFlagRead at ht
  grind [State.mem_ends, State.mem_ok]

theorem mem_cmdFlagWrite (s : State) (c : WcsCmd) (t : State) (ht : cmdFlagWrite s c = some t) : t.mem = s.mem := by
  unfold cmdFlagWrite at ht
  grind [State.mem_ends]

theorem mem_cmdGetProfile (s : State) (c : WcsCmd) (t : State) (ht : cmdGetProfile s c = some t) : t.mem = s.mem := by
  unfold cmdGetProfile at ht
  grind [State.mem_ends, State.mem_toHost, State.mem_ok]

theorem wf_cmdLoad (d : HostData) (s : State) (c : WcsCmd) (hs : Memory.wf s.mem = true) (t : State) (ht : cmdLoad d s c = some t)
    :
    Memory.wf t.mem = true := by
  unfold cmdLoad at ht
  extract_lets p free fin at ht
  have hfin : ∀ n (u : State), Memory.wf u.mem = true → Memory.wf (fin n u).mem = true := by
    intro n u hu
    exact wf_of_mem hu ((State.mem_ok ..).trans (State.mem_dropDescs ..))
  clear_value fin free
  split at ht
  · obtain ⟨x, -, rfl⟩ := Option.map_eq_some_iff.mp ht
    exact s.wf_storing _ _ _ _ hs (hfin _)
  · split at ht
    · cases ht
      exact wf_of_mem hs (State.mem_ends ..)
    · refine s.wf_withData _ _ _ _ hs (fun bs u hu => ?_) _ ht
      split at hu
      · cases hu
        exact wf_of_mem hs (State.mem_ends ..)
      · split at hu
        · cases hu
          exact wf_of_mem hs (State.mem_ends ..)
        · split at hu
          · cases hu
            exact wf_of_mem hs (State.mem_ends ..)
          · split at hu
            · cases hu
              exact wf_of_mem hs (State.mem_ends ..)
            · cases hu
              exact State.wf_storing _ _ _ _ _ hs (hfin _)

theorem mem_cmdUnload (s : State) (c : WcsCmd) (t : State) (ht : cmdUnload s c = some t) : t.mem = s.mem := by
  unfold cmdUnload at ht
  grind [State.mem_ends, State.mem_ok]

theorem wf_cmdJobStart (d : HostData) (s : State) (c : WcsCmd) (hs : Memory.wf s.mem = true) (t : State) (ht : cmdJobStart d s c =
    some t) :
    Memory.wf t.mem = true := by
  unfold cmdJobStart at ht
  extract_lets p n at ht
  split at ht
  · cases ht
    exact wf_of_mem hs (State.mem_ends ..)
  · split at ht
    · cases ht
      exact wf_of_mem hs (State.mem_complete ..)
    · split at ht
      · cases ht
        exact wf_of_mem hs (State.mem_ends ..)
      · split at ht
        · cases ht
          exact wf_of_mem hs (State.mem_ends ..)
        · refine s.wf_withData _ _ _ _ hs (fun bs u hu => ?_) _ ht
          extract_lets es qs okq lim j at hu
          split at hu
          · cases hu
            exact wf_of_mem hs (State.mem_ends ..)
          · cases hu
            exact wf_foldl _ (fun a e ha => by rw [mem_startQ, State.mem_setQueue]; exact ha) _ _ hs

@[simp] theorem mem_jobTimeout (s : State) (sq cid : Nat) : (jobTimeout s sq cid).mem = s.mem := by
  unfold jobTimeout
  dsimp only
  (repeat' split) <;> simp

theorem State.wf_endJob (s : State) (j : Job) (status fault n q : Nat) (hs : Memory.wf s.mem = true) :
    Memory.wf (s.endJob j status fault n q).mem = true := by
  unfold State.endJob
  extract_lets jobs _ t u v w
  have hu : u.mem = t.mem := mem_foldl _ (fun _ _ => by split <;> simp) _ _
  have hv : v.mem = u.mem := mem_foldl _ (fun _ _ => by rw [State.mem_cancelStream]) _ _
  have ht : t.mem = s.mem := rfl
  have hw : Memory.wf w.mem = true := by
    unfold w
    split
    · exact wf_of_mem hs ht
    · exact wf_foldl _ (fun a x ha => a.wf_failPass _ _ _ _ _ ha) _ _ (wf_of_mem hs (hv.trans (hu.trans ht)))
  split
  · exact hs
  · exact wf_of_mem hw (State.mem_finishJobs _)

theorem mem_cmdJobAbort (s : State) (c : WcsCmd) (t : State) (ht : cmdJobAbort s c = some t) : t.mem = s.mem := by
  unfold cmdJobAbort at ht
  grind [State.mem_post]

theorem mem_cmdFaultRead (s : State) (c : WcsCmd) (t : State) (ht : cmdFaultRead s c = some t) : t.mem = s.mem := by
  unfold cmdFaultRead at ht
  grind [State.mem_ends, State.mem_toHost, State.mem_ok]

@[simp] theorem State.mem_putHdma (s : State) (h : Hdma) : (s.putHdma h).mem = s.mem := rfl

@[simp] theorem State.mem_endHdma (s : State) (h : Hdma) (status fault : Nat) : (s.endHdma h status fault).mem = s.mem := rfl

@[simp] theorem State.mem_hdmaSignal (s : State) (h : Hdma) : (s.hdmaSignal h).mem = s.mem := by
  unfold State.hdmaSignal
  split <;> rfl

theorem mem_cmdHostDma (s : State) (c : WcsCmd) (t : State) (ht : cmdHostDma s c = some t) : t.mem = s.mem := by
  unfold cmdHostDma at ht
  grind [State.mem_ends]

theorem State.wf_commitBursts (s : State) (h : Hdma) (x1 : Nat) (hs : Memory.wf s.mem = true) :
    Memory.wf (s.commitBursts h x1).mem = true := by
  induction x1 generalizing s h with
  | zero => exact hs
  | succ fuel ih =>
    unfold State.commitBursts
    extract_lets n bs w h'
    have hw : Memory.wf w.1.mem = true := s.wf_track _ _ _ hs fun t ht => t.wf_writeMA _ _ _ _ ht
    split
    · exact wf_of_mem hs (State.mem_endHdma ..)
    · split
      · exact hs
      · split
        · exact hw
        · exact wf_of_mem hw (State.mem_endHdma ..)
        · exact ih _ _ (wf_of_mem hw ((State.mem_hdmaSignal ..).trans (State.mem_putHdma ..)))

@[simp] theorem State.mem_breakHdma (s : State) (h : Hdma) : (s.breakHdma h).mem = s.mem := rfl

theorem wf_hostDmaData (s : State) (sq cid off : Nat) (d : HostData) (hs : Memory.wf s.mem = true) :
    Memory.wf (hostDmaData s sq cid off d).mem = true := by
  unfold hostDmaData
  dsimp only
  (repeat' split) <;> simp [State.wf_commitBursts, hs]

@[simp] theorem mem_hostDmaBroken (s : State) (sq cid : Nat) : (hostDmaBroken s sq cid).mem = s.mem := by
  unfold hostDmaBroken
  dsimp only
  (repeat' split) <;> simp

theorem wf_hostDmaReturn (s : State) (sq cid : Nat) (hs : Memory.wf s.mem = true) :
    Memory.wf (hostDmaReturn s sq cid).mem = true := by
  unfold hostDmaReturn
  grind [State.mem_endHdma, State.wf_readMA, State.mem_toHost, State.mem_hdmaSignal, State.mem_putHdma, State.wf_track]

@[simp] theorem mem_completionTimeout (s : State) (sq : Nat) (cid : Option Nat) : (completionTimeout s sq cid).mem = s.mem := by
  unfold completionTimeout
  grind [State.mem_sqFetchFailed, State.mem_breakHdma]

theorem mem_cmdStreamCancel (s : State) (c : WcsCmd) (t : State) (ht : cmdStreamCancel s c = some t) : t.mem = s.mem := by
  unfold cmdStreamCancel at ht
  grind [State.mem_ends, State.mem_cancelStream]

theorem mem_cmdSetTurn (s : State) (c : WcsCmd) (t : State) (ht : cmdSetTurn s c = some t) : t.mem = s.mem := by
  unfold cmdSetTurn at ht
  grind

theorem mem_cmdResync (s : State) (c : WcsCmd) (t : State) (ht : cmdResync s c = some t) : t.mem = s.mem := by
  unfold cmdResync at ht
  grind

theorem mem_cmdPeerReset (s : State) (c : WcsCmd) (t : State) (ht : cmdPeerReset s c = some t) : t.mem = s.mem := by
  unfold cmdPeerReset at ht
  grind [State.mem_ends, State.mem_sendMsg]

@[simp] theorem State.mem_startCmd (s : State) (c : WcsCmd) : (s.startCmd c).mem = s.mem := by
  unfold State.startCmd
  split <;> rfl

theorem State.wf_wcsRow (s : State) (sq cid opc : Nat) (p : Bool) (f : State → WcsCmd → Option State) (hs : Memory.wf s.mem =
    true) (hf : ∀ t c u, f t c = some u → Memory.wf t.mem = true → Memory.wf u.mem = true) :
    Memory.wf (s.wcsRow sq cid opc p f).mem = true := by
  unfold State.wcsRow
  grind [State.mem_ends, State.mem_refuseCmds, State.mem_startCmd]

/-! ### Machine/FwOps -/

theorem wf_cmdFwUpdate (d : HostData) (s : State) (c : WcsCmd) (hs : Memory.wf s.mem = true) (t : State) (ht : cmdFwUpdate d s c =
    some t) :
    Memory.wf t.mem = true := by
  unfold cmdFwUpdate at ht
  grind [State.mem_ends, State.wf_withData, State.mem_ok]

@[simp] theorem State.mem_setLic (s : State) (f v : Nat) : (s.setLic f v).mem = s.mem := by
  unfold State.setLic
  split <;> rfl

theorem wf_cmdLicence (d : HostData) (s : State) (c : WcsCmd) (hs : Memory.wf s.mem = true) (t : State) (ht : cmdLicence d s c =
    some t) :
    Memory.wf t.mem = true := by
  unfold cmdLicence at ht
  grind [State.mem_ends, State.mem_profileChanged, State.wf_withData, State.mem_setLic, State.mem_ok]

@[simp] theorem State.mem_writeAudit (s : State) (a : Audit) : (s.writeAudit a).mem = s.mem := by
  unfold State.writeAudit
  dsimp only
  (repeat' split) <;> simp

theorem mem_cmdAuditExport (s : State) (c : WcsCmd) (t : State) (ht : cmdAuditExport s c = some t) : t.mem = s.mem := by
  unfold cmdAuditExport at ht
  grind [State.mem_toHost, State.mem_ok]

@[simp] theorem State.mem_eqWrite (s : State) (code : Nat) (part : Option Nat) (d : List Nat) :
    (s.eqWrite code part d).mem = s.mem := by
  unfold State.eqWrite
  dsimp only
  (repeat' split) <;> simp

@[simp] theorem State.mem_cqQueue (s : State) (sq cid status fault : Nat) (r : List DWord) :
    (s.cqQueue sq cid status fault r).mem = s.mem := by
  unfold State.cqQueue
  split <;> rfl

theorem State.wf_jobIdle (s : State) (n q : Nat) (hs : Memory.wf s.mem = true) : Memory.wf (s.jobIdle n q).mem = true := by
  unfold State.jobIdle
  dsimp only
  (repeat' split) <;> simp [State.wf_endJob, hs]

theorem State.wf_abortSeq (s : State) (sq cid : Nat) (hs : Memory.wf s.mem = true) :
    Memory.wf (s.abortSeq sq cid).mem = true := by
  unfold State.abortSeq
  dsimp only
  (repeat' split) <;> simp [State.wf_endJob, hs]

theorem State.wf_consume (s : State) (e : Event) (hs : Memory.wf s.mem = true) : Memory.wf (s.consume e).mem = true := by
  unfold State.consume
  grind [State.wf_abortSeq, State.wf_jobIdle, State.mem_cqQueue, State.mem_eqWrite, State.wf_endJob]

theorem wf_eventSequence (s : State) (hs : Memory.wf s.mem = true) : Memory.wf (eventSequence s).mem = true := by
  unfold eventSequence
  split
  · exact hs
  · extract_lets es es' w t
    have ht : t.mem = s.mem := rfl
    exact State.wf_consume _ _ (wf_of_mem hs ((mem_foldl _ (fun _ _ => by rw [State.mem_writeAudit]) _ t).trans ht))

/-! ### Machine/ScrubOps -/

theorem mem_cmdScrub (s : State) (c : WcsCmd) (t : State) (ht : cmdScrub s c = some t) : t.mem = s.mem := by
  unfold cmdScrub at ht
  grind [State.mem_ends]

theorem State.wf_scrubCw (s : State) (m : ScrubSum) (poison hold : Bool) (ma key : Nat) (era : Bool) (out : CwOut) (fixed : Nat)
    (hs : Memory.wf s.mem = true) :
    Memory.wf (s.scrubCw m poison hold ma key era out fixed).1.mem = true := by
  unfold State.scrubCw
  dsimp only
  (repeat' split) <;> simp [State.wf_putPoison, State.wf_putCw, hs]

theorem State.wf_scrubCist (s : State) (m : ScrubSum) (poison : Bool) (n x : Nat) (hs : Memory.wf s.mem = true) :
    Memory.wf (s.scrubCist m poison n x).1.mem = true := by
  unfold State.scrubCist
  dsimp only
  (repeat' split) <;> simp [State.wf_scrubCw, hs]

theorem State.wf_scrubRsv (s : State) (m : ScrubSum) (poison : Bool) (k x : Nat) (hs : Memory.wf s.mem = true) :
    Memory.wf (s.scrubRsv m poison k x).1.mem = true := by
  unfold State.scrubRsv
  dsimp only
  (repeat' split) <;> simp [State.wf_scrubCw, hs]

theorem State.wf_scrubSram (s : State) (m : ScrubSum) (ma : Nat) (hs : Memory.wf s.mem = true) :
    Memory.wf (s.scrubSram m ma).1.mem = true := by
  unfold State.scrubSram
  rcases s.decodeSram ma with ⟨_ | w, fix⟩
  · exact wf_of_mem hs (State.mem_draw _)
  · dsimp only
    split
    · exact wf_of_mem (s.wf_setRaw _ _ hs) (State.mem_draw _)
    · exact wf_of_mem hs (State.mem_draw _)

theorem State.wf_scrubPass (s : State) (x : Scrub) (t : Nat × Nat) (hs : Memory.wf s.mem = true) :
    Memory.wf (s.scrubPass x t).1.mem = true := by
  unfold State.scrubPass
  split
  · exact wf_foldl_fst _ (fun a i ha => a.1.wf_scrubSram _ _ ha) _ _ hs
  · refine wf_foldl_fst _ (fun a i ha => ?_) _ _ hs
    split
    · exact a.1.wf_scrubCist _ _ _ _ ha
    · exact a.1.wf_scrubRsv _ _ _ _ ha
    · exact ha

@[simp] theorem State.mem_endScrub (s : State) (x : Scrub) : (s.endScrub x).mem = s.mem := rfl

theorem wf_scrubComplete (s : State) (sq cid : Nat) (hs : Memory.wf s.mem = true) :
    Memory.wf (scrubComplete s sq cid).mem = true := by
  unfold scrubComplete
  dsimp only
  (repeat' split) <;> simp [State.wf_scrubPass, hs]

/-! ### Machine/ThmOps -/

@[simp] theorem State.mem_setSite (s : State) (i : Nat) (x : Site) : (s.setSite i x).mem = s.mem := rfl

@[simp] theorem State.mem_diodeEvent (s : State) (code i k : Nat) (a b : Int) : (s.diodeEvent code i k a b).mem = s.mem := rfl

@[simp] theorem State.mem_diodeNews (s : State) (i k : Nat) (old new : Diode) (other : Int) :
    (s.diodeNews i k old new other).mem = s.mem := by
  unfold State.diodeNews
  dsimp only
  (repeat' split) <;> simp

@[simp] theorem State.mem_sampleSite (s s0 : State) (i : Nat) (v : Int × Int) (cw rw : List Nat) :
    (s.sampleSite s0 i v cw rw).mem = s.mem := by
  unfold State.sampleSite
  extract_lets x v0 v1 first out0 out1 d0 d1 both due e0 e1 d0' d1' apart t u w was est ctrl
  have ht : t.mem = s.mem := State.mem_diodeNews ..
  have hu : u.mem = t.mem := State.mem_diodeNews ..
  have hw : w.mem = u.mem := by
    unfold w
    split
    · exact State.mem_diodeEvent ..
    · rfl
  split
  · rfl
  · rw [State.mem_setSite, hw, hu, ht]

@[simp] theorem State.mem_sampleSyms (s : State) (i : Nat) (newTurn : Bool) : (s.sampleSyms i newTurn).mem = s.mem := rfl

@[simp] theorem State.mem_inForce (s : State) : (s.inForce).mem = s.mem := rfl

@[simp] theorem State.mem_coreDiodeEvent (s : State) (code n : Nat) (v : Int) : (s.coreDiodeEvent code n v).mem = s.mem := rfl

@[simp] theorem State.mem_sampleCore (s s0 : State) (n : Nat) (v : Int) : (s.sampleCore s0 n v).mem = s.mem := by
  unfold State.sampleCore
  dsimp only
  (repeat' split) <;> simp

@[simp] theorem State.mem_sampleWeir (s : State) (j : Nat) : (s.sampleWeir j).mem = s.mem := rfl

theorem State.wf_sampleLayer (s : State) (j l : Nat) (hs : Memory.wf s.mem = true) :
    Memory.wf (s.sampleLayer j l).mem = true := by
  unfold State.sampleLayer
  exact wf_foldl _ (fun t x ht => by dsimp only; split <;> simp [State.wf_releaseHold, ht]) _ _ hs

@[simp] theorem State.mem_refreshAlert (s : State) : (s.refreshAlert).mem = s.mem := rfl

@[simp] theorem State.mem_setCoolant (s : State) (c : Coolant) (code : Nat) (d : List Int) :
    (s.setCoolant c code d).mem = s.mem :=
  rfl

@[simp] theorem State.mem_actEmergency (s : State) : (s.actEmergency).mem = s.mem := by
  unfold State.actEmergency
  split <;> rfl

@[simp] theorem State.mem_enterHalted (s : State) (i : Nat) : (s.enterHalted i).mem = s.mem := by
  unfold State.enterHalted
  extract_lets t js
  refine (mem_foldl _ (fun u j => ?_) _ _).trans (State.mem_setCoolant ..)
  extract_lets v
  have hv : v.mem = u.mem := mem_foldl _ (fun _ _ => by rw [State.mem_cancelStream]) _ _
  exact (mem_foldl _ (fun _ _ => by split <;> simp) _ _).trans hv

@[simp] theorem State.mem_checkHalted (s : State) : (s.checkHalted).mem = s.mem := by
  unfold State.checkHalted
  grind [State.mem_enterHalted]

@[simp] theorem State.mem_samplePower (s : State) (p vin : Nat) : (s.samplePower p vin).mem = s.mem := rfl

theorem wf_sensorSample (s : State) (x : SampleIn) (hs : Memory.wf s.mem = true) : Memory.wf (sensorSample s x).mem = true := by
  unfold sensorSample
  extract_lets newTurn t1 t2 layers t3 _ t4 t5 any _ t6 t7 rates top _ t8 t9 _ t10
  have h1 : t1.mem = s.mem := (mem_foldl _ (fun _ _ => by rw [State.mem_sampleSite]) _ _).trans (State.mem_inForce _)
  have h2 : t2.mem = t1.mem := mem_foldl _ (fun _ _ => by rw [State.mem_sampleCore]) _ _
  have h3 : t3.mem = t2.mem := mem_foldl _ (fun _ _ => by rw [State.mem_sampleSyms]) _ _
  clear_value t3
  have h4 : t4.mem = t3.mem := rfl
  have h5 : t5.mem = t4.mem := mem_foldl _ (fun _ _ => by rw [State.mem_sampleWeir]) _ _
  clear_value t5
  have h6 : t6.mem = t5.mem := rfl
  have h7 : Memory.wf t7.mem = true := wf_foldl _ (fun a i ha => a.wf_sampleLayer _ _ ha) _ _
    (wf_of_mem hs (h6.trans (h5.trans (h4.trans (h3.trans (h2.trans h1))))))
  clear_value t7
  have h8 : t8.mem = t7.mem := rfl
  have h9 : t9.mem = t8.mem := mem_foldl _ (fun _ _ => by rw [State.mem_setChan]) _ _
  clear_value t9
  have h10 : t10.mem = t9.mem := rfl
  clear_value t10
  split
  · exact hs
  · rw [State.mem_refreshCap, State.mem_checkHalted, State.mem_samplePower, State.mem_actEmergency]
    exact wf_of_mem h7 (h10.trans (h9.trans h8))

@[simp] theorem mem_recalWindow (s : State) (g : Nat) : (recalWindow s g).mem = s.mem := by
  unfold recalWindow
  split
  · rfl
  · refine mem_foldl _ (fun t i => ?_) _ _
    extract_lets x
    split
    · rfl
    · split
      · rw [State.mem_setSite]
      · split
        · rw [State.mem_setSite]
        · rfl

@[simp] theorem mem_weirEscalated (s : State) (j : Nat) : (weirEscalated s j).mem = s.mem := by
  unfold weirEscalated
  dsimp only
  (repeat' split) <;> simp

@[simp] theorem mem_escRecovery (s : State) : (escRecovery s).mem = s.mem := by
  unfold escRecovery
  dsimp only
  (repeat' split) <;> simp

@[simp] theorem State.mem_traySensor (s : State) (k b : Nat) (ok : Bool) : (s.traySensor k b ok).mem = s.mem := by
  unfold State.traySensor
  dsimp only
  (repeat' split) <;> simp

@[simp] theorem State.mem_flowReading (s : State) (f : Nat) : (s.flowReading f).mem = s.mem := by
  unfold State.flowReading
  dsimp only
  (repeat' split) <;> simp

@[simp] theorem State.mem_trayTemps (s : State) (x : TrayIn) : (s.trayTemps x).mem = s.mem := by
  simp [State.trayTemps]

@[simp] theorem State.mem_flowLost (s : State) : (s.flowLost).mem = s.mem := by
  unfold State.flowLost
  split <;> rfl

@[simp] theorem State.mem_flowMaybe (s : State) (f : Option Nat) : (s.flowMaybe f).mem = s.mem := by
  unfold State.flowMaybe
  split <;> simp

@[simp] theorem mem_trayReading (s : State) (x : TrayIn) : (trayReading s x).mem = s.mem := by
  unfold trayReading
  split <;> simp

@[simp] theorem mem_capLaw (s : State) : (capLaw s).mem = s.mem := by
  unfold capLaw
  extract_lets t guard r new law
  split_ifs
  · rfl
  · rw [State.mem_refreshCap]

@[simp] theorem mem_gateSlot (s : State) : (gateSlot s).mem = s.mem := by
  unfold gateSlot
  dsimp only
  split <;> simp

@[simp] theorem mem_inputRange (s : State) (v : Nat) : (inputRange s v).mem = s.mem := by
  unfold inputRange
  split <;> simp

@[simp] theorem mem_inputReturn (s : State) (v : Nat) : (inputReturn s v).mem = s.mem := by
  unfold inputReturn
  split <;> simp

@[simp] theorem mem_converterLost (s : State) (c : Nat) : (converterLost s c).mem = s.mem := by
  unfold converterLost
  dsimp only
  split <;> simp

/-! ### Machine/InjOps -/

theorem State.wf_endInj (s : State) (i : Inj) (hs : Memory.wf s.mem = true) : Memory.wf (s.endInj i).mem = true := by
  unfold State.endInj
  dsimp only
  (repeat' split) <;> simp [State.wf_serve, State.wf_memoryMode, State.wf_releaseHold, hs]

theorem wf_injectionEnd (s : State) (n : Nat) (hs : Memory.wf s.mem = true) : Memory.wf (injectionEnd s n).mem = true := by
  unfold injectionEnd
  dsimp only
  (repeat' split) <;> simp [State.wf_endInj, hs]

theorem State.wf_injEffect (s : State) (i : Inj) (no : Nat) (hs : Memory.wf s.mem = true) (t : State) (ht : s.injEffect i no =
    some t) :
    Memory.wf t.mem = true := by
  unfold State.injEffect at ht
  grind [State.mem_setPort, State.mem_setSub, State.mem_setSite, State.mem_setBundle, State.wf_putPoison, State.mem_declareLane,
    State.mem_order]

theorem State.wf_applyInj (s : State) (i : Inj) (hs : Memory.wf s.mem = true) (t : State) (ht : s.applyInj i = some t) :
    Memory.wf t.mem = true := by
  unfold State.applyInj at ht
  extract_lets no j injs w s1 at ht
  have h1 : s1.mem = s.mem := State.mem_postEv ..
  obtain ⟨u, hu, rfl⟩ := Option.map_eq_some_iff.mp ht
  exact wf_of_mem (s1.wf_injEffect _ _ (wf_of_mem hs h1) u hu) (State.mem_complete ..)

theorem wf_injectionApply (s : State) (hs : Memory.wf s.mem = true) : Memory.wf (injectionApply s).mem = true := by
  unfold injectionApply
  split
  · exact hs
  · next i _ =>
    cases h : s.applyInj i with
    | none => exact hs
    | some t => exact s.wf_applyInj i hs t h

theorem wf_cmdInject (ty : Nat) (s : State) (c : WcsCmd) (hs : Memory.wf s.mem = true) (t : State) (ht : cmdInject ty s c = some
    t) :
    Memory.wf t.mem = true := by
  unfold cmdInject at ht
  extract_lets w1 w2 pos i same late _ _ s1 at ht
  have h1 : s1.mem = s.mem := rfl
  clear_value s1
  have hb := wf_of_mem hs (s.mem_ends c stBadArg)
  split at ht
  · cases ht
  · split at ht
    · cases ht; exact hb
    · split at ht
      · cases ht; exact wf_of_mem hs (State.mem_ends ..)
      · split at ht
        · cases ht; exact hb
        · split at ht
          · cases ht; exact wf_of_mem hs (State.mem_complete ..)
          · split at ht
            · cases ht; exact wf_of_mem hs (State.mem_ends ..)
            · split at ht
              · cases ht; exact wf_of_mem hs (State.mem_ends ..)
              · cases ht
                split
                · cases h : s1.applyInj i with
                  | none => exact wf_of_mem hs h1
                  | some t => exact s1.wf_applyInj i (wf_of_mem hs h1) t h
                · exact wf_of_mem hs h1

/-! ### Machine/ResetOps -/

theorem State.wf_takePresent (s : State) (n : Nat) (hs : Memory.wf s.mem = true) : Memory.wf (s.takePresent n).mem = true := by
  unfold State.takePresent
  dsimp only
  split <;> simp [State.wf_zeroMem, hs]

@[simp] theorem State.mem_forget (s : State) (gone : ReqPart → Bool) : (s.forget gone).mem = s.mem := rfl

theorem State.wf_abandon (s : State) (mine port : Nat → Bool) (hs : Memory.wf s.mem = true) :
    Memory.wf (s.abandon mine port).mem = true := by
  unfold State.abandon
  extract_lets who launch pass offers ctxs s1 s2 s3 s4
  have h1 : s1.mem = s.mem := State.mem_forget ..
  have h2 : Memory.wf s2.mem = true := wf_foldl _ (fun a i ha => a.wf_dropAtt i ha) _ _ (wf_of_mem hs h1)
  have h3 : s3.mem = s2.mem := State.mem_dropUpds ..
  have h4 : s4.mem = s3.mem := rfl
  exact wf_of_mem h2 ((mem_foldl _ (fun _ _ => by rw [State.mem_cancelStream]) _ s4).trans (h4.trans h3))

theorem State.wf_resetCores (s : State) (ns : List Nat) (port : Nat → Bool) (hs : Memory.wf s.mem = true) :
    Memory.wf (s.resetCores ns port).mem = true := by
  simp +contextual [State.resetCores, wf_foldl, State.wf_takePresent, State.wf_abandon, hs]

@[simp] theorem State.mem_abortJobs (s : State) (lost : Job → Bool) (fault : Nat) : (s.abortJobs lost fault).mem = s.mem := by
  unfold State.abortJobs
  exact mem_foldl _ (fun _ _ => by simp) _ _

theorem State.wf_dropInjs (s : State) (covered : Inj → Bool) (hs : Memory.wf s.mem = true) :
    Memory.wf (s.dropInjs covered).mem = true := by
  unfold State.dropInjs
  exact wf_foldl _ (fun t x ht => by dsimp only; split <;> simp [State.wf_endInj, ht]) _ _ hs

@[simp] theorem State.mem_absorb (s : State) (find : Nat) (x1 : Nat) (x2 : Nat × Nat) : (s.absorb find x1 x2).mem = s.mem := by
  induction x1 generalizing s x2 with
  | zero => rfl
  | succ fuel ih =>
    unfold State.absorb
    extract_lets a ent rest s1 _ s2
    have h1 : s1.mem = s.mem := by
      unfold s1
      split
      · rfl
      · rw [State.mem_repair]
    split
    · rfl
    · exact (mem_foldl _ (fun u y => ih u y) _ s2).trans h1

@[simp] theorem State.mem_absorbAll (s : State) (find : Nat) (xs : List (Byte × Word)) : (s.absorbAll find xs).mem = s.mem := by
  simp [State.absorbAll, mem_foldl]

@[simp] theorem State.mem_noteFault (s : State) (bad : Bool) : (s.noteFault bad).mem = s.mem := by
  unfold State.noteFault
  split <;> rfl

@[simp] theorem State.mem_settleFindings (s : State) (find : Nat) (mine : Nat → Nat → Bool) (found : List (Byte × Word)) :
    (s.settleFindings find mine found).mem = s.mem := by
  simp [State.settleFindings]

@[simp] theorem State.mem_reconcile (s : State) (classes : List Nat) (full : Bool) (found : List (Byte × Word)) :
    (s.reconcile classes full found).mem = s.mem := by
  unfold State.reconcile
  extract_lets lane passes u
  have hu : u.mem = s.mem := by
    unfold u
    split
    · rfl
    · exact mem_foldl _ (fun _ _ => by rw [State.mem_repair]) _ _
  rw [State.mem_noteFault, State.mem_settleFindings, hu]

@[simp] theorem State.mem_cistFromRecord (s : State) (n site : Nat) : (s.cistFromRecord n site).mem = s.mem := rfl

theorem State.wf_rsvFromRecord (s : State) (k : Nat) (hs : Memory.wf s.mem = true) :
    Memory.wf (s.rsvFromRecord k).mem = true := by
  unfold State.rsvFromRecord
  extract_lets mask put t v sp u
  have ht : t.mem = s.mem := mem_foldl put (fun a c => State.mem_setChan a k c _) _ _
  have hu : u.mem = t.mem := State.mem_setRsv t k _
  dsimp only
  exact State.wf_zeroMem u _ (wf_of_mem hs (hu.trans ht))

@[simp] theorem State.mem_bridgeFromRecord (s : State) : (s.bridgeFromRecord).mem = s.mem := by
  unfold State.bridgeFromRecord
  extract_lets put
  rw [State.mem_bridgeCap, State.mem_bridgeCap]
  exact mem_foldl _ (fun a i => State.mem_setBundle ..) _ _

@[simp] theorem State.mem_placeCore (s : State) (n site u : Nat) : (s.placeCore n site u).mem = s.mem := rfl

@[simp] theorem State.mem_postFence (s : State) (cls obj cause : Nat) (uses : Job → Bool) :
    (s.postFence cls obj cause uses).mem = s.mem := by
  simp [State.postFence]

@[simp] theorem State.mem_answerCist (s : State) (n : Nat) : (s.answerCist n).mem = s.mem := by
  exact mem_foldl _ (fun u l =>
    (mem_foldl _ (fun _ _ => by rw [State.mem_failPart]) _ _).trans (State.mem_setSub ..)) _ _

@[simp] theorem State.mem_answerDie (s : State) (d : Nat) (ns : List Nat) : (s.answerDie d ns).mem = s.mem := by
  simp [State.answerDie, mem_foldl]

@[simp] theorem State.mem_answerRsv (s : State) (k : Nat) : (s.answerRsv k).mem = s.mem := by
  exact mem_foldl _ (fun u c =>
    (mem_foldl _ (fun _ _ => by split <;> simp) _ _).trans (State.mem_setChan ..)) _ _

@[simp] theorem State.mem_fenceDie (s : State) (d cause : Nat) : (s.fenceDie d cause).mem = s.mem := by
  unfold State.fenceDie
  extract_lets f t u v uses
  have hu : u.mem = t.mem := State.mem_answerDie ..
  have hv : v.mem = u.mem := mem_foldl _ (fun _ _ => by rw [State.mem_portDown]) _ _
  split
  · rfl
  · rw [State.mem_postFence, hv, hu]

@[simp] theorem State.mem_fenceRsv (s : State) (k cause : Nat) : (s.fenceRsv k cause).mem = s.mem := by
  unfold State.fenceRsv
  extract_lets f t
  split
  · rfl
  · rw [State.mem_postFence, State.mem_answerRsv]

@[simp] theorem State.mem_beginPartial (s : State) (p : PartialReset) (part : Option Nat) (origin odetail : Nat) :
    (s.beginPartial p part origin odetail).mem = s.mem :=
  rfl

@[simp] theorem State.mem_rejoined (s : State) (p : PartialReset) : (s.rejoined p).mem = s.mem := by
  unfold State.rejoined
  dsimp only
  split <;> simp

@[simp] theorem State.mem_finishPartials (s : State) : (s.finishPartials).mem = s.mem := by
  unfold State.finishPartials
  exact mem_foldl _ (fun _ _ => by grind [State.mem_rejoined]) _ _

theorem State.wf_closeSeq (s : State) (q : Nat) (zeroed : Nat → Bool) (hs : Memory.wf s.mem = true) :
    Memory.wf (s.closeSeq q zeroed).mem = true := by
  unfold State.closeSeq
  extract_lets x t
  have ht : Memory.wf t.mem = true := wf_foldl _ (fun a e ha => by
    extract_lets k
    split
    · exact a.wf_count _ _ _ ha
    · exact ha) _ _ hs
  exact wf_of_mem (State.wf_setSeq _ _ _ ht) (State.mem_profileChanged ..)

theorem State.wf_stopBank (s : State) (p : Nat) (hs : Memory.wf s.mem = true) : Memory.wf (s.stopBank p).mem = true := by
  unfold State.stopBank
  exact wf_foldl _ (fun t x ht => by dsimp only; (repeat' split) <;> simp [State.wf_stopLaunch, ht]) _ _ hs

theorem State.wf_clearPartition (s : State) (p : Nat) (hs : Memory.wf s.mem = true) :
    Memory.wf (s.clearPartition p).mem = true := by
  unfold State.clearPartition
  extract_lets s1 s2 s3 s4 x
  have h1 : Memory.wf s1.mem = true := s.wf_stopBank p hs
  have h2 : s2.mem = s1.mem := State.mem_dropUpds ..
  have h3 : Memory.wf s3.mem = true :=
    wf_foldl _ (fun a e ha => State.wf_closePass _ _ _ _ (a.wf_stopPass _ _ _ ha)) _ _ (wf_of_mem h1 h2)
  have h4 : Memory.wf s4.mem = true := wf_foldl _ (fun a q ha => a.wf_closeSeq _ _ ha) _ _ h3
  clear_value s4
  exact s4.wf_zeroMem _ h4

theorem State.wf_startCoreReset (s : State) (c : WcsCmd) (p : PartialReset) (part : Option Nat) (ns : List Nat) (port : Nat →
    Bool) (hs : Memory.wf s.mem = true) :
    Memory.wf (s.startCoreReset c p part ns port).mem = true := by
  simp [State.startCoreReset, State.wf_resetCores, State.wf_dropInjs, hs]

theorem wf_cmdResetPart (s : State) (c : WcsCmd) (hs : Memory.wf s.mem = true) (t : State) (ht : cmdResetPart s c = some t) :
    Memory.wf t.mem = true := by
  unfold cmdResetPart at ht
  grind [State.mem_ends, State.wf_clearPartition, State.mem_forget, State.wf_startCoreReset, State.mem_finishPartials]

theorem wf_cmdResetCore (s : State) (c : WcsCmd) (hs : Memory.wf s.mem = true) (t : State) (ht : cmdResetCore s c = some t) :
    Memory.wf t.mem = true := by
  unfold cmdResetCore at ht
  grind [State.mem_ends, State.wf_startCoreReset, State.mem_finishPartials]

theorem wf_cmdPartDestroy (s : State) (c : WcsCmd) (hs : Memory.wf s.mem = true) (t : State) (ht : cmdPartDestroy s c = some t) :
    Memory.wf t.mem = true := by
  unfold cmdPartDestroy at ht
  grind [State.mem_ends, State.wf_clearPartition, State.wf_resetCores, State.mem_ok]

@[simp] theorem State.mem_dropEvacs (s : State) (mine : Evac → Bool) : (s.dropEvacs mine).mem = s.mem := by
  unfold State.dropEvacs
  exact mem_foldl _ (fun _ _ => by dsimp only; split <;> simp) _ _

@[simp] theorem State.mem_dropScrubs (s : State) (mine : Nat × Nat → Bool) : (s.dropScrubs mine).mem = s.mem :=
  mem_foldl _ (fun t x => t.mem_endScrub x) _ _

theorem State.wf_resetDie (s : State) (d : Nat) (hs : Memory.wf s.mem = true) : Memory.wf (s.resetDie d).mem = true := by
  unfold State.resetDie
  extract_lets s1 ns port s2 s3 s4 s5 s6 hit
  have h1 : s1.mem = s.mem := State.mem_fenceDie ..
  have h2 : Memory.wf s2.mem = true := s1.wf_dropInjs _ (wf_of_mem hs h1)
  have h3 : s3.mem = s2.mem := State.mem_dropScrubs ..
  have h4 : s4.mem = s3.mem := State.mem_dropEvacs ..
  have h5 : Memory.wf s5.mem = true := s4.wf_abandon _ _ (wf_of_mem h2 (h4.trans h3))
  have h6 : s6.mem = s5.mem := mem_foldl _ (fun _ _ => by rw [State.mem_setCore]) _ _
  exact wf_of_mem h5 h6

theorem wf_cmdResetDie (s : State) (c : WcsCmd) (hs : Memory.wf s.mem = true) (t : State) (ht : cmdResetDie s c = some t) :
    Memory.wf t.mem = true := by
  unfold cmdResetDie at ht
  grind [State.wf_resetDie, State.mem_ends, State.mem_beginPartial]

theorem State.wf_launchLoses (s : State) (k n : Nat) (hs : Memory.wf s.mem = true) :
    Memory.wf (s.launchLoses k n).mem = true := by
  unfold State.launchLoses
  dsimp only
  split <;> simp [State.wf_stopLaunch, hs]

theorem State.wf_resetRsv (s : State) (k : Nat) (hs : Memory.wf s.mem = true) : Memory.wf (s.resetRsv k).mem = true := by
  unfold State.resetRsv
  extract_lets s1 s2 s3 s4 s5 drop s6 s7 hit s8 s9 pageIn
  have h1 : s1.mem = s.mem := State.mem_fenceRsv ..
  have h2 : Memory.wf s2.mem = true := s1.wf_dropInjs _ (wf_of_mem hs h1)
  have h3 : s3.mem = s2.mem := State.mem_dropScrubs ..
  clear_value s2
  have h4 : s4.mem = s3.mem := State.mem_dropEvacs ..
  have h5 : Memory.wf s5.mem = true := wf_foldl _ (fun a n ha => by
    split
    · split
      · exact a.wf_launchLoses _ _ ha
      · exact ha
    · exact ha) _ _ (wf_of_mem h2 (h4.trans h3))
  clear_value s5
  have h6 : s6.mem = s5.mem := mem_foldl _ (fun _ _ => by rw [State.mem_setChan]) _ _
  have h7 : Memory.wf s7.mem = true := wf_foldl _ (fun a e ha => a.wf_failPass _ _ _ _ _ ha) _ _ (wf_of_mem h5 h6)
  clear_value s7
  have h8 : s8.mem = s7.mem := rfl
  have h9 : Memory.wf s9.mem = true := wf_foldl _ (fun a i ha => by
    split
    · exact wf_of_mem (a.wf_dropAtt _ ha) (State.mem_faultCmd ..)
    · split
      · exact wf_of_mem ha (State.mem_dmaStop ..)
      · exact ha) _ _ (wf_of_mem h7 h8)
  clear_value s9
  exact wf_foldl _ (fun a q ha => a.wf_closeSeq _ _ ha) _ _ h9

theorem wf_cmdResetRsv (s : State) (c : WcsCmd) (hs : Memory.wf s.mem = true) (t : State) (ht : cmdResetRsv s c = some t) :
    Memory.wf t.mem = true := by
  unfold cmdResetRsv at ht
  grind [State.wf_resetRsv, State.mem_ends, State.mem_beginPartial]

@[simp] theorem State.mem_rejoinFails (s : State) (p : PartialReset) (cls : Nat) : (s.rejoinFails p cls).mem = s.mem := by
  unfold State.rejoinFails
  dsimp only
  (repeat' split) <;> simp

@[simp] theorem State.mem_rejoinCluster (s : State) (g : Nat) : (s.rejoinCluster g).mem = s.mem := by
  unfold State.rejoinCluster
  extract_lets mine s1 u t sites place
  have ht : t.mem = s.mem := by
    unfold t
    split
    · rfl
    · rw [State.mem_repair]
  have h1 : s1.mem = s.mem := rfl
  clear_value t s1
  split
  · rfl
  · split
    · exact ht
    · exact (mem_foldl _ (fun a e => (State.mem_cistFromRecord ..).trans (State.mem_placeCore ..)) _ _).trans h1

theorem State.wf_dieFresh (s : State) (d : Nat) (hs : Memory.wf s.mem = true) : Memory.wf (s.dieFresh d).mem = true := by
  unfold State.dieFresh
  extract_lets ns s1 s2 port s3
  have h1 : Memory.wf s1.mem = true := s.wf_zeroMem _ hs
  have h2 : s2.mem = s1.mem := by
    rw [State.mem_loadCopies, State.mem_bridgeFromRecord]
    exact mem_foldl _ (fun _ _ => by rw [State.mem_rejoinCluster]) _ _
  have h3 : s3.mem = s2.mem := mem_foldl port (fun a i => State.mem_setPort a _ _) _ _
  clear_value s3
  exact wf_of_mem h1 (h3.trans h2)

theorem wf_dieRejoin (s : State) (d : Nat) (ok : Bool) (found : List (Byte × Word)) (hs : Memory.wf s.mem = true) :
    Memory.wf (dieRejoin s d ok found).mem = true := by
  unfold dieRejoin
  split
  · exact hs
  · extract_lets t u v w
    have ht : Memory.wf t.mem = true := wf_of_mem hs (State.mem_settleFindings ..)
    have hu : Memory.wf u.mem = true := t.wf_dieFresh _ ht
    clear_value u
    have hv : v.mem = u.mem := rfl
    have hw : w.mem = v.mem := by
      unfold w
      split
      · rfl
      · rw [State.mem_profileChanged]
    clear_value t w
    split
    · exact wf_of_mem ht (State.mem_rejoinFails ..)
    · exact wf_of_mem hu ((State.mem_rejoined ..).trans (hw.trans hv))

theorem wf_rsvRejoin (s : State) (k : Nat) (ok : Bool) (found : List (Byte × Word)) (hs : Memory.wf s.mem = true) :
    Memory.wf (rsvRejoin s k ok found).mem = true := by
  unfold rsvRejoin
  dsimp only
  (repeat' split) <;> simp [State.wf_rsvFromRecord, hs]

/-! ### Machine/BootOps -/

theorem State.wf_cleared (s : State) (cold link : Bool) (hs : Memory.wf s.mem = true) :
    Memory.wf (s.cleared cold link).mem = true :=
  Map.wf_drop _ _ _ hs

theorem State.wf_powerLost (s : State) (hs : Memory.wf s.mem = true) : Memory.wf (s.powerLost).mem = true := rfl

@[simp] theorem State.mem_beginStart (s : State) : (s.beginStart).mem = s.mem := by
  unfold State.beginStart
  dsimp only
  split <;> simp

@[simp] theorem State.mem_startIfFree (s : State) : (s.startIfFree).mem = s.mem := by
  unfold State.startIfFree
  split <;> simp

@[simp] theorem State.mem_fileReport (s : State) (result ms code : Nat) : (s.fileReport result ms code).mem = s.mem := rfl

theorem State.wf_fullReset (s : State) (src : Nat) (cold : Bool) (origin odetail : Nat) (full : Bool) (hs : Memory.wf s.mem =
    true) :
    Memory.wf (s.fullReset src cold origin odetail full).mem = true := by
  unfold State.fullReset
  dsimp only
  split <;> simp [State.wf_cleared, hs]

theorem State.wf_restartS1 (s : State) (src : Nat) (cold : Bool) (origin odetail : Nat) (hs : Memory.wf s.mem = true) :
    Memory.wf (s.restartS1 src cold origin odetail).mem = true := by
  unfold State.restartS1
  dsimp only
  (repeat' split) <;> simp [State.wf_cleared, State.wf_fullReset, hs]

theorem State.wf_moduleReset (s : State) (src : Nat) (cold : Bool) (origin odetail : Nat) (full : Bool) (hs : Memory.wf s.mem =
    true) :
    Memory.wf (s.moduleReset src cold origin odetail full).mem = true := by
  unfold State.moduleReset
  dsimp only
  split <;> simp [State.wf_restartS1, State.wf_fullReset, hs]

theorem State.wf_dieEscalation (s : State) (hs : Memory.wf s.mem = true) : Memory.wf (s.dieEscalation).mem = true := by
  unfold State.dieEscalation
  split <;> simp [State.wf_moduleReset, hs]

theorem wf_cmdResetDieEsc (s : State) (c : WcsCmd) (hs : Memory.wf s.mem = true) (t : State) (ht : cmdResetDieEsc s c = some t) :
    Memory.wf t.mem = true := by
  obtain ⟨u, hu, rfl⟩ := Option.map_eq_some_iff.mp ht
  exact u.wf_dieEscalation (wf_cmdResetDie s c hs u hu)

theorem wf_cmdResetModule (cold : Bool) (s : State) (c : WcsCmd) (hs : Memory.wf s.mem = true) (t : State) (ht : cmdResetModule
    cold s c = some t) :
    Memory.wf t.mem = true := by
  unfold cmdResetModule at ht
  grind [State.wf_moduleReset]

theorem wf_dieFence (s : State) (rsv : Bool) (obj cause : Nat) (hs : Memory.wf s.mem = true) :
    Memory.wf (dieFence s rsv obj cause).mem = true := by
  unfold dieFence
  dsimp only
  (repeat' split) <;> simp [State.wf_resetDie, State.wf_dieEscalation, hs]

@[simp] theorem State.mem_filtered (s : State) (ns : Option Nat) : (s.filtered ns).1.mem = s.mem := by
  unfold State.filtered
  grind [State.mem_draw]

theorem wf_powerOn (s : State) (hs : Memory.wf s.mem = true) : Memory.wf (powerOn s).mem = true := by
  unfold powerOn
  split <;> simp [State.wf_moduleReset, hs]

theorem wf_pwrOkFall (s : State) (ns : Option Nat) (hs : Memory.wf s.mem = true) : Memory.wf (pwrOkFall s ns).mem = true := by
  unfold pwrOkFall
  dsimp only
  (repeat' split) <;> simp [wf_powerOn, State.wf_cleared, hs]

theorem wf_modReset (s : State) (e : PinEvt) (cool : Bool) (hs : Memory.wf s.mem = true) :
    Memory.wf (modReset s e cool).mem = true := by
  unfold modReset
  dsimp only
  (repeat' split) <;> simp [State.wf_moduleReset, hs]

theorem wf_perst (s : State) (e : PinEvt) (hs : Memory.wf s.mem = true) : Memory.wf (perst s e).mem = true := by
  unfold perst
  dsimp only
  (repeat' split) <;> simp [State.wf_moduleReset, hs]

theorem wf_hotReset (s : State) (hs : Memory.wf s.mem = true) : Memory.wf (hotReset s).mem = true := by
  unfold hotReset
  split <;> simp [State.wf_moduleReset, hs]

theorem wf_sbmReset (s : State) (cold : Bool) (hs : Memory.wf s.mem = true) : Memory.wf (sbmReset s cold).mem = true := by
  unfold sbmReset
  split <;> simp [State.wf_moduleReset, hs]

theorem wf_watchdogExpiry (s : State) (hs : Memory.wf s.mem = true) : Memory.wf (watchdogExpiry s).mem = true := by
  unfold watchdogExpiry
  split <;> simp [State.wf_moduleReset, hs]

@[simp] theorem mem_resetRelease (s : State) : (resetRelease s).mem = s.mem := by
  unfold resetRelease
  split <;> simp

theorem wf_thermalTrip (s : State) (i k : Nat) (hs : Memory.wf s.mem = true) : Memory.wf (thermalTrip s i k).mem = true := by
  unfold thermalTrip
  dsimp only
  (repeat' split) <;> simp [State.wf_moduleReset, hs]

@[simp] theorem mem_vin48Arrival (s : State) : (vin48Arrival s).mem = s.mem := by
  unfold vin48Arrival
  split <;> rfl

theorem wf_undervoltage (s : State) (hs : Memory.wf s.mem = true) : Memory.wf (undervoltage s).mem = true := by
  unfold undervoltage
  split
  · exact s.wf_powerLost hs
  · exact hs

@[simp] theorem mem_trst (s : State) : (trst s).mem = s.mem := rfl

@[simp] theorem State.mem_writeRecord (s : State) (readback : Bool) : (s.writeRecord readback).mem = s.mem := by
  unfold State.writeRecord
  dsimp only
  (repeat' split) <;> simp

@[simp] theorem mem_recordWrite (s : State) (readback : Bool) : (recordWrite s readback).mem = s.mem := by
  unfold recordWrite
  dsimp only
  (repeat' split) <;> simp

@[simp] theorem State.mem_blowCounter (s : State) : (s.blowCounter).mem = s.mem := by
  unfold State.blowCounter
  dsimp only
  (repeat' split) <;> simp

@[simp] theorem mem_counterRetry (s : State) : (counterRetry s).mem = s.mem := by
  unfold counterRetry
  split
  · split
    · rw [State.mem_blowCounter]
    · rfl
  · rfl

@[simp] theorem State.mem_failStage (s : State) (ms : Nat) : (s.failStage ms).mem = s.mem := by
  simp [State.failStage]

@[simp] theorem State.mem_endStage (s : State) (ms : Nat) : (s.endStage ms).mem = s.mem := by
  unfold State.endStage
  dsimp only
  (repeat' split) <;> simp

@[simp] theorem State.mem_enterRecovery (s : State) (cause : Nat) : (s.enterRecovery cause).mem = s.mem := rfl

@[simp] theorem State.mem_stageS0 (s : State) (x : StageIn) : (s.stageS0 x).mem = s.mem := by
  unfold State.stageS0
  dsimp only
  (repeat' split) <;> simp

@[simp] theorem State.mem_loadLicences (s : State) : (s.loadLicences).mem = s.mem := by
  unfold State.loadLicences
  exact mem_foldl _ (fun _ _ => by dsimp only; (repeat' split) <;> simp) _ _

@[simp] theorem State.mem_loadRecord (s : State) : (s.loadRecord).mem = s.mem := by
  unfold State.loadRecord
  split <;> rfl

@[simp] theorem State.mem_loadBoard (s : State) (b : Option Board) : (s.loadBoard b).mem = s.mem := by
  unfold State.loadBoard
  extract_lets lock c t u
  have hu : u.mem = s.mem := mem_foldl _ (fun _ _ => by rw [State.mem_setPort]) _ _
  exact (u.mem_withBoard ..).trans hu

@[simp] theorem State.mem_bootAudits (s old : State) (xs : List Nat) : (s.bootAudits old xs).mem = s.mem := by
  simp [State.bootAudits]

@[simp] theorem State.mem_postTrip (s : State) : (s.postTrip).mem = s.mem := by
  unfold State.postTrip
  split <;> rfl

@[simp] theorem State.mem_stageS1 (s : State) (x : StageIn) : (s.stageS1 x).mem = s.mem := by
  unfold State.stageS1
  extract_lets s1 s2 t
  have h1 : s1.mem = s.mem := (State.mem_loadRecord _).trans (State.mem_loadLicences _)
  clear_value s1
  have h2 : s2.mem = s1.mem := rfl
  have ht : t.mem = s2.mem := by rw [State.mem_postTrip, State.mem_bootAudits, State.mem_loadBoard]
  clear_value t s2
  rw [State.mem_refreshAlert, State.mem_endStage]
  exact (t.mem_withBup _).trans (ht.trans (h2.trans h1))

@[simp] theorem State.mem_dropDie (s : State) (d : Nat) (cause : Nat) : (s.dropDie d cause).mem = s.mem := rfl

@[simp] theorem State.mem_s2Clock (s : State) (pulses : Bool) : (s.s2Clock pulses).mem = s.mem := by
  unfold State.s2Clock
  split <;> simp

@[simp] theorem State.mem_stageS2 (s : State) (x : StageIn) : (s.stageS2 x).mem = s.mem := by
  unfold State.stageS2
  grind [State.mem_s2Clock, State.mem_absorb, State.mem_dropDie, State.mem_failStage, State.mem_endStage, State.mem_loadCopies,
    State.mem_noteFault]

@[simp] theorem State.mem_placeArea (s : State) (k : Nat) : (s.placeArea k).mem = s.mem := rfl

@[simp] theorem State.mem_rebuildRecord (s : State) : (s.rebuildRecord).mem = s.mem := by
  unfold State.rebuildRecord
  split <;> rfl

theorem State.wf_stageS3 (s : State) (x : StageIn) (hs : Memory.wf s.mem = true) : Memory.wf (s.stageS3 x).mem = true := by
  unfold State.stageS3
  extract_lets s1 s2 s3 s4
  have h2 : Memory.wf s2.mem = true := rfl
  have h3 : Memory.wf s3.mem = true := wf_foldl _ (fun a k ha =>
    wf_of_mem (a.wf_rsvFromRecord k ha) (State.mem_placeArea ..)) _ _ h2
  have h4 : s4.mem = s3.mem := by
    unfold s4
    split
    · exact State.mem_putSkim ..
    · rfl
  exact wf_of_mem (wf_of_mem h3 h4) (State.mem_endStage ..)

@[simp] theorem State.mem_stageS4 (s : State) (x : StageIn) : (s.stageS4 x).mem = s.mem := by
  unfold State.stageS4
  extract_lets t u
  have ht : t.mem = s.mem := (State.mem_bridgeFromRecord _).trans (State.mem_reconcile ..)
  have hu : u.mem = t.mem := by
    unfold u
    split
    · rw [State.mem_dropDie]
    · rfl
  clear_value t u
  split
  · rw [State.mem_failStage, hu, ht]
  · rw [State.mem_endStage, hu, ht]

@[simp] theorem State.mem_retireClusters (s : State) (find : Nat) : (s.retireClusters find).mem = s.mem := by
  unfold State.retireClusters
  exact mem_foldl _ (fun _ _ => by grind [State.mem_absorb]) _ _

@[simp] theorem State.mem_recordMap (s : State) (map : List Nat) : (s.recordMap map).mem = s.mem := by
  unfold State.recordMap
  split <;> rfl

@[simp] theorem State.mem_stageS5 (s : State) (x : StageIn) : (s.stageS5 x).mem = s.mem := by
  unfold State.stageS5
  extract_lets find t map u out _ v w cfg
  have ht : t.mem = s.mem := by rw [State.mem_retireClusters, State.mem_reconcile]
  clear_value t
  have hv : v.mem = t.mem := rfl
  clear_value v
  have hw : w.mem = v.mem :=
    mem_foldl _ (fun a e => (State.mem_cistFromRecord ..).trans (State.mem_placeCore ..)) _ _
  split
  · rw [State.mem_failStage, hv, ht]
  · rw [State.mem_endStage, State.mem_recordMap, State.mem_bootAudits, hw, hv, ht]

@[simp] theorem State.mem_stageS6 (s : State) (x : StageIn) : (s.stageS6 x).mem = s.mem := by
  simp [State.stageS6]

theorem wf_stageEnd (s : State) (st : Nat) (x : StageIn) (hs : Memory.wf s.mem = true) :
    Memory.wf (stageEnd s st x).mem = true := by
  unfold stageEnd
  grind [State.mem_stageS4, State.mem_stageS2, State.mem_stageS0, State.wf_stageS3, State.mem_stageS5, State.mem_stageS1,
    State.mem_stageS6]

@[simp] theorem mem_stageTimeout (s : State) (st ms : Nat) : (stageTimeout s st ms).mem = s.mem := by
  unfold stageTimeout
  split <;> simp

/-! ### Machine/LinkMsgs -/

theorem State.wf_peerResetMsg (s : State) (p : Nat) (warm : Bool) (hs : Memory.wf s.mem = true) :
    Memory.wf (s.peerResetMsg p warm).mem = true := by
  unfold State.peerResetMsg
  dsimp only
  split <;> simp [State.wf_moduleReset, hs]

theorem State.wf_actOn (s : State) (p : Nat) (m : LinkMsg) (hs : Memory.wf s.mem = true) :
    Memory.wf (s.actOn p m).mem = true := by
  unfold State.actOn
  split <;> simp [State.wf_cancelRx, State.wf_peerResetMsg, hs]

theorem State.wf_rxMsg (s : State) (p : Nat) (no : Half) (m : LinkMsg) (hs : Memory.wf s.mem = true) :
    Memory.wf (s.rxMsg p no m).mem = true := by
  unfold State.rxMsg
  dsimp only
  split <;> simp [State.wf_actOn, hs]

theorem wf_frameHeader (s : State) (p : Nat) (ok : Bool) (h : FrameHdr) (hs : Memory.wf s.mem = true) :
    Memory.wf (frameHeader s p ok h).mem = true := by
  unfold frameHeader
  extract_lets x t
  have ht : t.mem = s.mem := (State.mem_refreshSync ..).trans (State.mem_setPort ..)
  split
  · exact hs
  · split
    · rw [State.mem_setPort]; exact hs
    · split
      · rw [State.mem_portDown]; exact hs
      · exact wf_foldl _ (fun a m ha => a.wf_rxMsg _ _ _ ha) _ _ (wf_of_mem hs ht)

theorem wf_scheduledAction (s : State) (port : Option Nat) (hs : Memory.wf s.mem = true) :
    Memory.wf (scheduledAction s port).mem = true := by
  unfold scheduledAction
  split <;> simp [wf_sendTick, wf_injectionApply, hs]

/-! ### Machine/Tick -/

theorem State.wf_servePad (s : State) (n : Nat) (hs : Memory.wf s.mem = true) : Memory.wf (s.servePad n).mem = true := by
  unfold State.servePad
  extract_lets u
  refine wf_foldl _ (fun a x ha => wf_asyncAccess _ _ _ ha) _ u (State.wf_drainPad _ _ ?_)
  split
  · exact hs
  · exact s.wf_drainPipe _ _ hs

theorem State.wf_servePads (s : State) (hs : Memory.wf s.mem = true) : Memory.wf (s.servePads).mem = true := by
  unfold State.servePads
  exact wf_foldl _ (fun t x ht => by grind [State.wf_servePad]) _ _ hs

theorem State.wf_tickDrop (s : State) (hs : Memory.wf s.mem = true) : Memory.wf (s.tickDrop).mem = true := by
  simp [State.tickDrop, State.wf_hubDrain, State.wf_servePads, hs]

/-! ### Every command and every step -/

/-- What a command goes on with, if it goes on, has its memory in the canonical form. -/
def NextCanonical (o : Host.Outcome State Fault Refusal) : Prop := ∀ t, o = .next t → Memory.wf t.mem = true

theorem nextCanonical_next {t : State} (h : Memory.wf t.mem = true) : NextCanonical (.next t) := by
  rintro u ⟨⟩
  exact h

/-- A host's write to BAR0 or to a register goes through the hub, any other origin's at once (13 R286). -/
theorem nextCanonical_registerWrite (o : Origin) (b : Bool) (off : BitVec 36) (len : BitVec 4) (data : BitVec 64) (s : State)
    (hs : Memory.wf s.mem = true) : NextCanonical (execRegisterWrite o b off len data s) := by
  unfold execRegisterWrite
  refine nextCanonical_next ?_
  split
  · exact s.wf_hubTake _ hs
  · exact s.wf_hubTake _ hs
  · exact wf_registerWrite _ _ _ _ _ _ hs

theorem nextCanonical_exec (i : Instr) (s : State) (hs : Memory.wf s.mem = true) : NextCanonical (exec i s) := by
  cases i with
  | bundleIssue => exact nextCanonical_next (wf_bundleIssue _ _ hs)
  | resultVisible | stepLand => exact nextCanonical_next (State.wf_runTo _ _ _ hs)
  | step | stepz | drain | drainz | sopen | vadd | vsub | vmul | vfma | vmax | vmin | vabs | vneg | vhadd | vhmul | vhfma | viadd
  | visub | viadds | vimul | vand | vor | vxor | vshl | vshr | vsra | vcmpeq | vcmplt | vcmple | vsel | vmov | vbcast | vperm |
  vrsum | vrmax | vscan | vcvt | rcp | rsqrt | expOp | exp2 | logOp | log2 | tanh | sigm | sin | cos | expd | add | sub | addi |
  shin | andOp | orOp | xorOp | shl | shr | sra | shli | shri | mul | cmpeq | cmplt | cmpltu | aaddi | amov | smova | getv | getf
  | getlc | gett | vld | vst | sld | sst | ald | ast | pld | pst | br | brl | bri | loop | loopx | endRun | clrf | trap =>
    exact nextCanonical_next (wf_issueRow _ _ _ hs)
  | streamLineFill => exact nextCanonical_next (wf_of_mem hs (mem_streamFill ..))
  | coreFeedTimeout => exact nextCanonical_next (wf_feedTimeout _ _ hs)
  | runComplete => exact nextCanonical_next (wf_runComplete _ _ hs)
  | asyncScratchpadAccess => exact nextCanonical_next (wf_asyncAccess _ _ _ hs)
  | asyncBankForce => exact nextCanonical_next (wf_asyncForce _ _ _ hs)
  | queRunTimeout => exact nextCanonical_next (wf_of_mem hs (mem_runTimeout ..))
  | dmaComplete => exact nextCanonical_next (wf_dmaComplete _ _ _ hs)
  | commandFetch => exact nextCanonical_next (wf_commandFetch _ _ _ hs)
  | flagUpdate => exact nextCanonical_next (wf_of_mem hs (mem_flagArrive ..))
  | queWaitTimeout => exact nextCanonical_next (wf_of_mem hs (mem_waitTimeout ..))
  | startQueue => exact nextCanonical_next (wf_of_mem hs (mem_startQ ..))
  | haltQueue => exact nextCanonical_next (wf_of_mem hs (mem_haltQ ..))
  | resumeRun | resumeStep => exact nextCanonical_next (wf_of_mem hs (mem_resumeQ ..))
  | bankLaunchOrder => exact nextCanonical_next (wf_launchOrder _ _ _ hs)
  | channelSwitch => exact nextCanonical_next (wf_channelSwitch _ _ _ hs)
  | bnkMovi | bnkAddi | bnkAdd | bnkSub | bnkLoop | bnkEnd | bnkClr | bnkMac | bnkMact | bnkSmax | bnkExpl | bnkSt | bnkLvb =>
    exact nextCanonical_next (wf_bankInstr _ _ _ _ _ hs)
  | rsvBankBudget => exact nextCanonical_next (wf_bankBudget _ _ _ hs)
  | channelProgramEnd => exact nextCanonical_next (wf_channelProgramEnd _ _ _ hs)
  | bankComplete => exact nextCanonical_next (wf_bankComplete _ _ hs)
  | poolAdd | seqOpen | seqClose | append | share | truncate | score | apply | abortPass =>
    exact nextCanonical_next (wf_attRow _ _ _ _ _ hs)
  | passReadEnd => exact nextCanonical_next (wf_passReadEnd _ _ _ _ hs)
  | attPassExpired => exact nextCanonical_next (wf_passExpired _ _ _ hs)
  | pagedTranslation => exact nextCanonical_next (wf_pagedTranslation _ _ _ hs)
  | sendTick => exact nextCanonical_next (wf_sendTick _ _ hs)
  | frameHeader => exact nextCanonical_next (wf_frameHeader _ _ _ _ hs)
  | cellReceive => exact nextCanonical_next (wf_cellReceive _ _ _ _ _ _ hs)
  | admitReq | admitGrant | admitRefuse | cancel | streamReset | close | peerResetMsg | lanePlan =>
    exact nextCanonical_next (State.wf_rxMsg _ _ _ _ hs)
  | lnkStreamBroken => exact nextCanonical_next (wf_of_mem hs (mem_streamBroken ..))
  | lnkNoClose => exact nextCanonical_next (wf_of_mem hs (mem_noClose ..))
  | lnkArmTimeout => exact nextCanonical_next (wf_of_mem hs (mem_armTimeout ..))
  | admitWaitExpiry => exact nextCanonical_next (wf_of_mem hs (mem_admitExpiry ..))
  | lnkPortDown => exact nextCanonical_next (wf_of_mem hs (mem_linkPortDown ..))
  | portUp => exact nextCanonical_next (wf_of_mem hs (mem_portUp ..))
  | turnBoundary => exact nextCanonical_next (wf_of_mem hs (mem_turnBoundary ..))
  | flitReceive => exact nextCanonical_next (wf_of_mem hs (mem_flitReceive ..))
  | bridgeCalWindow => exact nextCanonical_next (wf_of_mem hs (mem_bridgeWindow ..))
  | dieFence => exact nextCanonical_next (wf_dieFence _ _ _ _ hs)
  | sluiceEpoch => exact nextCanonical_next (wf_sluiceEpoch _ _ hs)
  | sluiceStarved => exact nextCanonical_next (wf_sluiceStarved _ _ _ hs)
  | cstRead | cstWrite => exact nextCanonical_next (wf_cstAccess _ _ _ _ _ _ _ _ _ hs)
  | cstCalWindow => exact nextCanonical_next (wf_of_mem hs (mem_cstWindow ..))
  | cstEvacuationDone => exact nextCanonical_next (wf_cstEvacDone _ _ _ hs)
  | evacTargetTimeout => exact nextCanonical_next (wf_of_mem hs (mem_evacTimeout ..))
  | cstRefresh => exact nextCanonical_next (wf_of_mem hs (mem_cstRefresh ..))
  | memCstWriteHot => exact nextCanonical_next (wf_writeHot _ _ _ hs)
  | rsvRequest => exact nextCanonical_next (wf_rsvRequest _ _ _ _ _ _ _ _ hs)
  | holdTimeout => exact nextCanonical_next (wf_holdTimeout _ _ _ hs)
  | rsvCalWindow => exact nextCanonical_next (wf_of_mem hs (mem_rsvWindow ..))
  | rsvEvacuationDone => exact nextCanonical_next (wf_rsvEvacDone _ _ _ hs)
  | rsvRefresh => exact nextCanonical_next (wf_of_mem hs (mem_rsvRefresh ..))
  | skimRead => exact nextCanonical_next (wf_skimRead _ _ _ _ hs)
  | cadencePulse => exact nextCanonical_next (wf_of_mem hs (mem_cadencePulse ..))
  | cadenceMissing => exact nextCanonical_next (wf_of_mem hs (mem_cadenceMissing ..))
  | turnMarker => exact nextCanonical_next (wf_of_mem hs (mem_turnMarker ..))
  | slewComplete => exact nextCanonical_next (wf_of_mem hs (mem_slewComplete ..))
  | clpUncertHigh => exact nextCanonical_next (wf_of_mem hs (mem_uncertHigh ..))
  | scheduledAction => exact nextCanonical_next (wf_scheduledAction _ _ hs)
  | sqDoorbell | cqDoorbell | eqDoorbell | ringEnable | hostBar2Read | hostBar2Write | regApertureAccess | msixVectorUnmask =>
    exact nextCanonical_next (State.wf_hubTake _ _ hs)
  | sqEntryTake => exact nextCanonical_next (wf_of_mem hs (mem_sqTake ..))
  | cqEntryWrite => exact nextCanonical_next (wf_of_mem hs (mem_cqWrite ..))
  | msixInterrupt => exact nextCanonical_next (wf_of_mem hs (mem_msixInterrupt ..))
  | hstReadExpired => exact nextCanonical_next (wf_of_mem hs (mem_readExpired ..))
  | clrMax => exact nextCanonical_next (wf_of_mem hs (mem_clrMax ..))
  | jobTimeout => exact nextCanonical_next (wf_of_mem hs (mem_jobTimeout ..))
  | hostDmaData => exact nextCanonical_next (wf_hostDmaData _ _ _ _ _ hs)
  | hstDmaBroken => exact nextCanonical_next (wf_of_mem hs (mem_hostDmaBroken ..))
  | scrubComplete => exact nextCanonical_next (wf_scrubComplete _ _ _ hs)
  | dieRejoin => exact nextCanonical_next (wf_dieRejoin _ _ _ _ hs)
  | reservoirRejoin => exact nextCanonical_next (wf_rsvRejoin _ _ _ _ hs)
  | injectionApply => exact nextCanonical_next (wf_injectionApply _ hs)
  | injectionEnd => exact nextCanonical_next (wf_injectionEnd _ _ hs)
  | eventSequence => exact nextCanonical_next (wf_eventSequence _ hs)
  | powerOn => exact nextCanonical_next (wf_powerOn _ hs)
  | pwrOkFall => exact nextCanonical_next (wf_pwrOkFall _ _ hs)
  | modResetN => exact nextCanonical_next (wf_modReset _ _ _ hs)
  | perstN => exact nextCanonical_next (wf_perst _ _ hs)
  | hotReset => exact nextCanonical_next (wf_hotReset _ hs)
  | sbmReset => exact nextCanonical_next (wf_sbmReset _ _ hs)
  | watchdogExpiry => exact nextCanonical_next (wf_watchdogExpiry _ hs)
  | resetRelease => exact nextCanonical_next (wf_of_mem hs (mem_resetRelease ..))
  | stageEnd => exact nextCanonical_next (wf_stageEnd _ _ _ hs)
  | stageTimeout => exact nextCanonical_next (wf_of_mem hs (mem_stageTimeout ..))
  | recordWrite => exact nextCanonical_next (wf_of_mem hs (mem_recordWrite ..))
  | sensorSample => exact nextCanonical_next (wf_sensorSample _ _ hs)
  | sensorRecalWindow => exact nextCanonical_next (wf_of_mem hs (mem_recalWindow ..))
  | thmWeirEscalated => exact nextCanonical_next (wf_of_mem hs (mem_weirEscalated ..))
  | escWRecovery => exact nextCanonical_next (wf_of_mem hs (mem_escRecovery ..))
  | trayReading => exact nextCanonical_next (wf_of_mem hs (mem_trayReading ..))
  | capLaw => exact nextCanonical_next (wf_of_mem hs (mem_capLaw ..))
  | gateStepSlot => exact nextCanonical_next (wf_of_mem hs (mem_gateSlot ..))
  | thermalTrip => exact nextCanonical_next (wf_thermalTrip _ _ _ hs)
  | thmInputRange => exact nextCanonical_next (wf_of_mem hs (mem_inputRange ..))
  | inputUndervoltage => exact nextCanonical_next (wf_undervoltage _ hs)
  | thmConverterLost => exact nextCanonical_next (wf_of_mem hs (mem_converterLost ..))
  | calibrationWindowEnd => exact nextCanonical_next (wf_windowEnd _ _ hs)
  | vin48Arrival => exact nextCanonical_next (wf_of_mem hs (mem_vin48Arrival ..))
  | inputRangeReturn => exact nextCanonical_next (wf_of_mem hs (mem_inputReturn ..))
  | revocationCounterRetry => exact nextCanonical_next (wf_of_mem hs (mem_counterRetry ..))
  | trstN => exact nextCanonical_next (wf_of_mem hs (mem_trst ..))
  | configurationWrite => exact nextCanonical_next (wf_of_mem hs (mem_configWrite ..))
  | hostDmaReadReturn => exact nextCanonical_next (wf_hostDmaReturn _ _ _ hs)
  | completionTimeout => exact nextCanonical_next (wf_of_mem hs (mem_completionTimeout ..))
  | laneLockLost => exact nextCanonical_next (wf_of_mem hs (mem_laneLockLost ..))
  | passLaunchOrder => exact nextCanonical_next (wf_passLaunchOrder _ _ _ _ hs)
  | runCmd => exact nextCanonical_next (s.wf_withHead _ _ _ _ hs fun t c ht => wf_cmdRun _ _ _ _ ht)
  | copy | cascade | gather | fill =>
    exact nextCanonical_next (s.wf_withHead _ _ _ _ hs fun t c ht => wf_cmdDma _ _ _ _ _ ht)
  | flagSet | flagAdd => exact nextCanonical_next (s.wf_withHead _ _ _ _ hs fun t c ht => wf_of_mem ht (mem_cmdFlagSet ..))
  | flagWait => exact nextCanonical_next (s.wf_withHead _ _ _ _ hs fun t c ht => wf_of_mem ht (mem_cmdFlagWait ..))
  | fence => exact nextCanonical_next (s.wf_withHead _ _ _ _ hs fun t c ht => wf_of_mem ht (mem_cmdFence ..))
  | bank => exact nextCanonical_next (s.wf_withHead _ _ _ _ hs fun t c ht => wf_cmdBank _ _ _ _ ht)
  | send => exact nextCanonical_next (s.wf_withHead _ _ _ _ hs fun t c ht => wf_cmdSend _ _ _ _ ht)
  | recv => exact nextCanonical_next (s.wf_withHead _ _ _ _ hs fun t c ht => wf_cmdRecv _ _ _ _ ht)
  | getProfile =>
    exact nextCanonical_next (s.wf_wcsRow _ _ _ _ _ hs fun t c u hu ht => wf_of_mem ht (mem_cmdGetProfile _ _ _ hu))
  | getParam =>
    exact nextCanonical_next (s.wf_wcsRow _ _ _ _ _ hs fun t c u hu ht => wf_of_mem ht (mem_cmdGetParam _ _ _ hu))
  | setParam =>
    exact nextCanonical_next (s.wf_wcsRow _ _ _ _ _ hs fun t c u hu ht => wf_of_mem ht (mem_cmdSetParam _ _ _ hu))
  | partCreate =>
    exact nextCanonical_next (s.wf_wcsRow _ _ _ _ _ hs fun t c u hu ht => wf_of_mem ht (mem_cmdPartCreate _ _ _ hu))
  | partDestroy => exact nextCanonical_next (s.wf_wcsRow _ _ _ _ _ hs fun t c u hu ht => wf_cmdPartDestroy _ _ ht u hu)
  | setShares =>
    exact nextCanonical_next (s.wf_wcsRow _ _ _ _ _ hs fun t c u hu ht => wf_of_mem ht (mem_cmdSetShares _ _ _ hu))
  | descWrite => exact nextCanonical_next (s.wf_wcsRow _ _ _ _ _ hs fun t c u hu ht => wf_cmdDescWrite _ _ _ ht u hu)
  | flagRead =>
    exact nextCanonical_next (s.wf_wcsRow _ _ _ _ _ hs fun t c u hu ht => wf_of_mem ht (mem_cmdFlagRead _ _ _ hu))
  | flagWrite =>
    exact nextCanonical_next (s.wf_wcsRow _ _ _ _ _ hs fun t c u hu ht => wf_of_mem ht (mem_cmdFlagWrite _ _ _ hu))
  | load => exact nextCanonical_next (s.wf_wcsRow _ _ _ _ _ hs fun t c u hu ht => wf_cmdLoad _ _ _ ht u hu)
  | unload => exact nextCanonical_next (s.wf_wcsRow _ _ _ _ _ hs fun t c u hu ht => wf_of_mem ht (mem_cmdUnload _ _ _ hu))
  | jobStart => exact nextCanonical_next (s.wf_wcsRow _ _ _ _ _ hs fun t c u hu ht => wf_cmdJobStart _ _ _ ht u hu)
  | jobAbort =>
    exact nextCanonical_next (s.wf_wcsRow _ _ _ _ _ hs fun t c u hu ht => wf_of_mem ht (mem_cmdJobAbort _ _ _ hu))
  | faultRead =>
    exact nextCanonical_next (s.wf_wcsRow _ _ _ _ _ hs fun t c u hu ht => wf_of_mem ht (mem_cmdFaultRead _ _ _ hu))
  | hostDma => exact nextCanonical_next (s.wf_wcsRow _ _ _ _ _ hs fun t c u hu ht => wf_of_mem ht (mem_cmdHostDma _ _ _ hu))
  | scrub => exact nextCanonical_next (s.wf_wcsRow _ _ _ _ _ hs fun t c u hu ht => wf_of_mem ht (mem_cmdScrub _ _ _ hu))
  | streamCancel =>
    exact nextCanonical_next (s.wf_wcsRow _ _ _ _ _ hs fun t c u hu ht => wf_of_mem ht (mem_cmdStreamCancel _ _ _ hu))
  | resetModuleCold | resetModuleWarm =>
    exact nextCanonical_next (s.wf_wcsRow _ _ _ _ _ hs fun t c u hu ht => wf_cmdResetModule _ _ _ ht u hu)
  | resetDie => exact nextCanonical_next (s.wf_wcsRow _ _ _ _ _ hs fun t c u hu ht => wf_cmdResetDieEsc _ _ ht u hu)
  | resetReservoir => exact nextCanonical_next (s.wf_wcsRow _ _ _ _ _ hs fun t c u hu ht => wf_cmdResetRsv _ _ ht u hu)
  | resetPartition => exact nextCanonical_next (s.wf_wcsRow _ _ _ _ _ hs fun t c u hu ht => wf_cmdResetPart _ _ ht u hu)
  | resetCore => exact nextCanonical_next (s.wf_wcsRow _ _ _ _ _ hs fun t c u hu ht => wf_cmdResetCore _ _ ht u hu)
  | timebaseSetTurn =>
    exact nextCanonical_next (s.wf_wcsRow _ _ _ _ _ hs fun t c u hu ht => wf_of_mem ht (mem_cmdSetTurn _ _ _ hu))
  | timebaseResync =>
    exact nextCanonical_next (s.wf_wcsRow _ _ _ _ _ hs fun t c u hu ht => wf_of_mem ht (mem_cmdResync _ _ _ hu))
  | peerReset =>
    exact nextCanonical_next (s.wf_wcsRow _ _ _ _ _ hs fun t c u hu ht => wf_of_mem ht (mem_cmdPeerReset _ _ _ hu))
  | setWallclock =>
    exact nextCanonical_next (s.wf_wcsRow _ _ _ _ _ hs fun t c u hu ht => wf_of_mem ht (mem_cmdSetWallclock _ _ _ hu))
  | licenceInstall => exact nextCanonical_next (s.wf_wcsRow _ _ _ _ _ hs fun t c u hu ht => wf_cmdLicence _ _ _ ht u hu)
  | fwUpdate => exact nextCanonical_next (s.wf_wcsRow _ _ _ _ _ hs fun t c u hu ht => wf_cmdFwUpdate _ _ _ ht u hu)
  | auditExport =>
    exact nextCanonical_next (s.wf_wcsRow _ _ _ _ _ hs fun t c u hu ht => wf_of_mem ht (mem_cmdAuditExport _ _ _ hu))
  | cwSymbols | cwPoison | sramBits | pinErrors | channelHold | writeHold | cellDrop | laneFail | frameSilence | flitCrc |
  sensorOffset | cadenceMask =>
    exact nextCanonical_next (s.wf_wcsRow _ _ _ _ _ hs fun t c u hu ht => wf_cmdInject _ _ _ ht u hu)
  | registerWrite => exact nextCanonical_registerWrite _ _ _ _ _ _ hs

theorem nextCanonical_step (s : State) (hs : Memory.wf s.mem = true) : NextCanonical (step s) := by
  cases h : s.pending with
  | nil =>
    rw [step_of_empty h]
    exact nextCanonical_next (s.wf_tickDrop hs)
  | cons c cs =>
    rw [step_of_pending h]
    exact nextCanonical_exec c _ hs

/-- Settles O60: each command's effect either leaves memory as it was or writes it by the operations that keep its form. -/
theorem memoryStaysCanonical : Obligations.MemoryStaysCanonical :=
  ⟨fun i s t hs h => nextCanonical_exec i s hs t h, fun s t hs h => nextCanonical_step s hs t h⟩

end Sys2Proof.Machine
end

section
/-! PROOFS. O40: a core's requests for aligned codewords of its own cistern (06 R134). Such a request is one part, which enters no network
and so stands at its sub-channel at once; what it does there is answered at once too. -/

namespace Sys2Proof.Machine

/-! ### One aligned codeword -/

theorem pieces_single {b fuel a n : Nat} (hn : n ≠ 0) (hfit : a % b + n ≤ b) : pieces b (fuel + 2) a n = [(a, n)] := by
  have hmin : min n (b - a % b) = n := by omega
  simp [pieces, hn, hmin]

theorem popCount_le (n x : Nat) : popCount n x ≤ n := by
  induction n generalizing x with
  | zero => exact Nat.le_refl _
  | succ n ih =>
    have := ih (x / 2)
    simp only [popCount]
    omega

theorem State.cistSize_le (s : State) (n : Nat) : s.cistSize n ≤ 2 ^ 30 := by
  have := popCount_le 4 (s.cist n).active.toNat
  unfold State.cistSize
  omega

/-- A populated offset of a cistern is the target of its module address (01 R17; 06 R133). -/
theorem State.resolve_cist {s : State} {n off : Nat} (hn : n < s.nCores) (hsite : n < 512) (hoff : off < s.cistSize n) :
    s.resolve (n * 2 ^ 30 + off) = .cist n off := by
  have hle := s.cistSize_le n
  have hlow : n * 2 ^ 30 + off < 2 ^ 39 := by omega
  have hdiv : (n * 2 ^ 30 + off) / 2 ^ 30 = n := by omega
  have hmod : (n * 2 ^ 30 + off) % 2 ^ 30 = off := by omega
  unfold State.resolve
  rw [if_pos hlow, hdiv, hmod, if_pos ⟨hn, hoff⟩]

/-- The part that a core's request for the codeword of its own cistern at `ma` is. -/
def State.ownPart (s : State) (port n ma : Nat) (wr : Bool) (data : List Byte) : ReqPart :=
  { id := s.reqId, who := .port port, port := s.clusterOf n, via := s.clusterOf n, part := s.partOf n, wr := wr,
    runs := [(ma, 64)], data := data.take 64 }

/-- The record of that request. -/
def State.ownReq (s : State) (port n ma : Nat) (wr : Bool) : MemReq :=
  { id := s.reqId, who := .port port, port := s.clusterOf n, wr := wr, ma := ma, len := 64, left := 1 }

/-- The state with that request registered. -/
def State.ownOpened (s : State) (port n ma : Nat) (wr : Bool) : State :=
  { s with reqNo := s.reqId + 1, reqs := s.reqs ++ [s.ownReq port n ma wr] }

/-- A part that arrives now. -/
def ReqPart.arriving (p : ReqPart) (s : State) : ReqPart := { p with arrived := some (s.tick, s.time, s.arrNo) }

theorem State.splitReq_own {s : State} {port part n off ma : Nat} {wr : Bool} {data : List Byte}
    (hres : s.resolve ma = .cist n off) (h64 : ma % 64 = 0) :
    s.splitReq (s.rowMaster port part n true) (.port port) s.reqId wr ma 64 data = [s.ownPart port n ma wr data] := by
  have hone : pieces 512 (64 / 512 + 2) ma 64 = [(ma, 64)] := pieces_single (by omega) (by omega)
  unfold State.splitReq
  rw [hone]
  simp [hres, State.sluTarget, State.rowMaster, State.ownPart]

theorem State.openReq_own {s : State} {port part n off ma : Nat} {wr : Bool} {data : List Byte}
    (hres : s.resolve ma = .cist n off) (h64 : ma % 64 = 0) :
    s.openReq (s.rowMaster port part n true) (.port port) false wr ma 64 data =
      (s.ownOpened port n ma wr, [s.ownPart port n ma wr data]) := by
  unfold State.openReq
  extract_lets id ps r t
  have hps : ps = [s.ownPart port n ma wr data] := State.splitReq_own hres h64
  have hr : r = s.ownReq port n ma wr := by simp only [r, hps, id, State.ownReq, State.rowMaster, List.length_singleton, if_true]
  have ht : t = s.ownOpened port n ma wr := by
    unfold t
    rw [hr]
    rfl
  rw [if_neg (by rw [hps]; exact List.cons_ne_nil _ _), hps, ht]

/-- A part that meets no fault before the network and needs none reaches its target at once (10 R409). -/
theorem State.sendReq_single {s : State} {m : Master} {p : ReqPart} (hgate : s.gateFault m p = none) (hnear : p.near = []) :
    s.sendReq m [p] = s.reach p := by
  simp [State.sendReq, hgate, hnear]

/-- A core reaches its own cistern (10 Table NET-4). -/
theorem State.gateFault_own {s : State} {m : Master} {p : ReqPart} {n off : Nat} (hres : s.resolve p.ma = .cist n off)
    (hcore : m.core = some n) : s.gateFault m p = none := by
  simp [State.gateFault, hres, State.permitted, hcore]

/-- A part for a cistern that no reset or fence answers for comes to its sub-channel. -/
theorem State.reach_cist {s : State} {p : ReqPart} {n off k : Nat} (hres : s.resolve p.ma = .cist n off) (hruns : p.runs = [(p.ma, k)])
    (hreset : s.targetReset (.cist n off) = false) (hnew : p.arrived = none) :
    s.reach p = ({ s with arrNo := s.arrNo + 1 } : State).atSub n (s.cistLoc n off).1 (p.arriving s) := by
  have hres' : ({ s with arrNo := s.arrNo + 1 } : State).resolve (p.arriving s).ma = .cist n off := hres
  have harrive : s.arrive p = ({ s with arrNo := s.arrNo + 1 } : State).atSub n (s.cistLoc n off).1 (p.arriving s) := by
    unfold State.arrive
    rw [hnew]
    dsimp only
    simp only [ReqPart.arriving] at hres'
    rw [hres']
    rfl
  rw [← harrive]
  unfold State.reach
  simp [hres, hreset, hruns, State.areaBarred]

theorem cstAccess_own {s : State} {port part n off len : Nat} {wr : Bool} {data : List Byte} (hn : n < s.nCores) (hsite : n < 512)
    (hoff : off < s.cistSize n) (h64 : off % 64 = 0) (hlen : (if wr then data.length else min len 1024) = 64)
    (hreset : s.targetReset (.cist n off) = false) :
    cstAccess s port part n true wr off len data =
      ({ s.ownOpened port n (n * 2 ^ 30 + off) wr with arrNo := s.arrNo + 1 } : State).atSub n (s.cistLoc n off).1
        ((s.ownPart port n (n * 2 ^ 30 + off) wr data).arriving s) := by
  have hres := State.resolve_cist hn hsite hoff
  have hlow : ¬ 2 ^ 30 ≤ off := by have := s.cistSize_le n; omega
  have halign : (n * 2 ^ 30 + off) % 64 = 0 := by omega
  unfold cstAccess
  rw [if_neg hlow, hlen]
  generalize n * 2 ^ 30 + off = ma at *
  unfold State.submit
  rw [State.openReq_own hres halign]
  dsimp only
  rw [State.sendReq_single (State.gateFault_own hres rfl) rfl]
  exact State.reach_cist hres rfl hreset rfl

/-! ### Its answer -/

theorem State.lt_reqId {s : State} {r : MemReq} (h : r ∈ s.reqs) : r.id < s.reqId := by
  have hmono : ∀ (l : List MemReq) (m : Nat), m ≤ l.foldl (fun m r => max m (r.id + 1)) m := by
    intro l
    induction l with
    | nil => exact fun m => Nat.le_refl _
    | cons x l ih => exact fun m => (Nat.le_max_left ..).trans (ih _)
  have hmem : ∀ (l : List MemReq) (m : Nat), r ∈ l → r.id < l.foldl (fun m r => max m (r.id + 1)) m := by
    intro l
    induction l with
    | nil => exact fun m h => absurd h List.not_mem_nil
    | cons x l ih =>
      intro m h
      rcases List.mem_cons.mp h with rfl | h
      · exact (Nat.le_max_right m (r.id + 1)).trans (hmono l _)
      · exact ih _ h
  exact hmem s.reqs s.reqNo h

/-- A new request is the one its number names. -/
theorem State.find_ownReq (s : State) (port n ma : Nat) (wr : Bool) :
    ((s.ownOpened port n ma wr).reqs.find? fun r => decide (r.id = s.reqId)) = some (s.ownReq port n ma wr) := by
  have hold : (s.reqs.find? fun r => decide (r.id = s.reqId)) = none :=
    List.find?_eq_none.mpr fun r hr => by simpa using (State.lt_reqId hr).ne
  simp [State.ownOpened, hold, State.ownReq]

/-- The request numbered `id` answered to its port. -/
def State.answered (s : State) (id port code : Nat) (bs : List Byte) : State :=
  { s with reqs := s.reqs.filter fun x => x.id != id, memDone := s.memDone ++ [(.port port, code, 0, bs)] }

section
variable {s t : State} {port n ma code a : Nat} {wr : Bool} {p : ReqPart} {bs : List Byte}
  (hid : p.id = s.reqId) (hfar : p.far = [])
  (hfind : (t.reqs.find? fun r => decide (r.id = s.reqId)) = some (s.ownReq port n ma wr))
include hid hfar hfind

theorem State.answer_own_fault (hcode : code ≠ 0) : t.answer p code a 0 [] = t.answered s.reqId port code [] := by
  simp [State.answer, ReqPart.cross, hfar, State.partDone, hid, hfind, hcode, State.measure, State.finishReq, State.ownReq,
    State.hostAnswer, State.answered]

theorem State.answer_own_write (hwr : p.wr = true) : t.answer p 0 0 0 bs = t.answered s.reqId port 0 [] := by
  simp [State.answer, ReqPart.cross, hfar, State.partDone, hid, hfind, hwr, State.measure, State.finishReq, State.ownReq,
    State.hostAnswer, State.answered]

theorem State.answer_own_read (hwr : p.wr = false) (hruns : p.runs = [(ma, 64)]) (hlen : bs.length = 64) :
    t.answer p 0 0 0 bs = t.answered s.reqId port 0 bs := by
  have htake : bs.take 64 = bs := List.take_of_length_le hlen.le
  simp [State.answer, ReqPart.cross, hfar, State.partDone, hid, hfind, hwr, hruns, runChunks, insertPiece, htake, State.measure,
    State.finishReq, State.ownReq, State.hostAnswer, State.answered]

end

/-! ### At the sub-channel -/

theorem length_insertArrived (p : ReqPart) (l : List ReqPart) : (insertArrived p l).length = l.length + 1 := by
  induction l with
  | nil => rfl
  | cons x l ih =>
    unfold insertArrived
    split
    · rfl
    · rw [List.length_cons, ih, List.length_cons]

theorem State.sub_setSub_same (s : State) (n l : Nat) (x : SubCh) : (s.setSub n l x).sub n l = x := by
  simp [State.setSub, State.sub, State.setCist, State.cist, Cistern.sub]

/-- A written codeword that covers the whole of one: it is stored with good check symbols (06 R134). -/
theorem State.writeAt_codeword {s : State} {n off ma : Nat} {bs : List Byte} (hres : s.resolve ma = .cist n off)
    (hkey : (Tgt.cist n off).key = ma) (h64 : ma % 64 = 0) (hlen : bs.length = 64) (hst : (s.sub n (s.cistLoc n off).1).st = .active)
    (hwindow : (s.sub n (s.cistLoc n off).1).window = false) (hwhold : (s.sub n (s.cistLoc n off).1).whold = false)
    (hpending : (s.sub n (s.cistLoc n off).1).pendingWrite [(ma, 64)] = false) :
    s.writeAt [(ma, 64)] bs = (s.putCw ma bs, .data []) := by
  have hcut : pieces 64 (64 / 64 + 2) ma 64 = [(ma, 64)] := pieces_single (by omega) (by omega)
  have hround : ma / 64 * 64 = ma := by omega
  have htake : bs.take 64 = bs := List.take_of_length_le hlen.le
  simp [State.writeAt, hres, hst, hwindow, hwhold, hpending, State.writeCws, State.fillCws, runChunks, htake, hlen, hcut, hkey, hround]

/-- What reading a codeword leaves alone (06 R138, R142). -/
structure State.SameStored (s t : State) : Prop where
  mem : t.mem = s.mem
  cw : t.cw = s.cw
  cores : t.cores = s.cores
  chans : t.chans = s.chans
  reqs : t.reqs = s.reqs
  memDone : t.memDone = s.memDone

/-- No injected error hits an element that none is set for (17 R387). -/
theorem State.takePins_none {s : State} {key : Nat} (hinj : ∀ e ∈ s.pinInj, e.1 ≠ key) :
    ∃ t : State, s.takePins key = (t, []) ∧ s.SameStored t := by
  have hnone : (s.pinInj.filter fun p => p.1 = key) = [] := List.filter_eq_nil_iff.mpr fun e he => by simpa using hinj e he
  refine ⟨(s.takePins key).1, ?_, ⟨rfl, rfl, rfl, rfl, rfl, rfl⟩⟩
  unfold State.takePins
  rw [hnone]
  rfl

theorem State.decodeCw_clean {s : State} {key : Nat} (hcw : Map.get {} s.cw (key / 64) = {}) (era : List Nat) (two : Bool) :
    s.decodeCw key era two [] = (.data (s.raw key 64), 0) := by
  simp [State.decodeCw, hcw]

/-- A codeword without errors decodes to the bytes stored. -/
theorem State.cistDecode_clean {s : State} {n off : Nat}
    (hinj : ∀ e ∈ s.pinInj, e.1 ≠ cistPinKey n (s.cistLoc n off).1 (s.cistLoc n off).2)
    (hcw : Map.get {} s.cw ((Tgt.cist n off).key / 64) = {}) :
    ∃ t : State, s.cistDecode n off [] = (t, .data (s.raw ((Tgt.cist n off).key / 64 * 64) 64)) ∧ s.SameStored t := by
  obtain ⟨u, htake, hmem, hcwu, hcores, hchans, hreqs, hdone⟩ := State.takePins_none hinj
  have hraw : u.raw = s.raw := by
    funext key len
    rw [State.raw, State.raw, hmem]
  have hclean : Map.get {} u.cw ((Tgt.cist n off).key / 64 * 64 / 64) = {} := by
    rw [Nat.mul_div_cancel _ (by omega), hcwu, hcw]
  unfold State.cistDecode State.cistDecodeN
  simp only [htake, List.eraseDups_nil, State.decodeCw_clean hclean, hclean, hraw, List.map_nil, List.filter_nil,
    List.foldl_nil, List.append_nil]
  exact ⟨_, rfl, ⟨hmem, hcwu, hcores, hchans, hreqs, hdone⟩⟩

/-- A codeword without errors read: its bytes as stored (06 R134). -/
theorem State.readAt_codeword {s : State} {n off ma : Nat} (hres : s.resolve ma = .cist n off) (hkey : (Tgt.cist n off).key = ma)
    (hoff : ma % 2 ^ 30 = off) (h64 : off % 64 = 0) (hround : ma / 64 * 64 = ma) (hst : (s.sub n (s.cistLoc n off).1).st ≠ .retired)
    (hwindow : (s.sub n (s.cistLoc n off).1).window = false)
    (hpending : (s.sub n (s.cistLoc n off).1).pendingWrite [(ma, 64)] = false)
    (hinj : ∀ e ∈ s.pinInj, e.1 ≠ cistPinKey n (s.cistLoc n off).1 (s.cistLoc n off).2) (hcw : Map.get {} s.cw (ma / 64) = {}) :
    ∃ t : State, s.readAt [(ma, 64)] = (t, .data (s.raw ma 64)) ∧ s.SameStored t := by
  have hcut : pieces 64 (64 / 64 + 2) off 64 = [(off, 64)] := pieces_single (by omega) (by omega)
  obtain ⟨t, hdec, ht⟩ := s.cistDecode_clean hinj (by rw [hkey]; exact hcw)
  rw [hkey, hround] at hdec
  have hlen : (s.raw ma 64).take 64 = s.raw ma 64 := List.take_of_length_le (Map.length_getRange ..).le
  refine ⟨t, ?_, ht⟩
  have hcws : s.readCws (fun s y => s.cistDecode n y []) off 64 false = (t, .ok (s.raw ma 64)) := by
    simp [State.readCws, hcut, hdec, h64, hlen]
  unfold State.readAt
  simp only [List.headD_cons, hres, if_neg hst, hwindow, hpending, Bool.or_self, if_neg Bool.false_ne_true]
  simp only [readRuns, List.foldl_cons, List.foldl_nil, hoff, hcws, List.nil_append]

theorem State.atSub_refused {s : State} {n l : Nat} {p : ReqPart}
    (h : (s.sub n l).st = .retired ∨ (p.wr = true ∧ (s.sub n l).st ≠ .active)) :
    s.atSub n l p = s.refusePart cMemSubchannelRetired 0 p := by
  unfold State.atSub
  exact if_pos h

theorem State.atSub_waits {s : State} {n l : Nat} {p : ReqPart} (hst : (s.sub n l).st = .active) (hwindow : (s.sub n l).window = true) :
    s.atSub n l p = s.setSub n l { s.sub n l with waiting := insertArrived p (s.sub n l).waiting } := by
  simp [State.atSub, hst, hwindow]

theorem State.atSub_held {s : State} {n l : Nat} {p : ReqPart} (hst : (s.sub n l).st = .active) (hwindow : (s.sub n l).window = false)
    (hwr : p.wr = true) (hwhold : (s.sub n l).whold = true) :
    s.atSub n l p = s.setSub n l { s.sub n l with held := insertArrived p (s.sub n l).held } := by
  simp [State.atSub, hst, hwindow, hwr, hwhold]

theorem State.atSub_performs {s : State} {n l : Nat} {p : ReqPart} (hst : (s.sub n l).st ≠ .retired)
    (hwr : p.wr = true → (s.sub n l).st = .active ∧ (s.sub n l).whold = false) (hwindow : (s.sub n l).window = false)
    (hpending : (s.sub n l).pendingWrite p.runs = false) : s.atSub n l p = (s.perform p).getD s := by
  unfold State.atSub
  cases h : p.wr with
  | false => simp [hst, hwindow, hpending]
  | true => simp [hwr h, hwindow, hpending]

theorem State.atSub_writes {s : State} {n off ma : Nat} {p : ReqPart} {bs : List Byte} (hres : s.resolve ma = .cist n off)
    (hkey : (Tgt.cist n off).key = ma) (h64 : ma % 64 = 0) (hlen : bs.length = 64) (hst : (s.sub n (s.cistLoc n off).1).st = .active)
    (hwindow : (s.sub n (s.cistLoc n off).1).window = false) (hwhold : (s.sub n (s.cistLoc n off).1).whold = false)
    (hpending : (s.sub n (s.cistLoc n off).1).pendingWrite [(ma, 64)] = false)
    (hwr : p.wr = true) (hruns : p.runs = [(ma, 64)]) (hdata : p.data = bs) (hpoison : p.poison = []) :
    s.atSub n (s.cistLoc n off).1 p = (s.putCw ma bs).answer p 0 0 0 [] := by
  rw [State.atSub_performs (by rw [hst]; decide) (fun _ => ⟨hst, hwhold⟩) hwindow (by rw [hruns]; exact hpending)]
  simp [State.perform, hwr, hruns, hdata, hpoison, State.writeAt_codeword hres hkey h64 hlen hst hwindow hwhold hpending, State.poisonCws]

theorem State.atSub_reads {s : State} {n off ma : Nat} {p : ReqPart} (hres : s.resolve ma = .cist n off)
    (hkey : (Tgt.cist n off).key = ma) (hoff : ma % 2 ^ 30 = off) (h64 : off % 64 = 0) (hround : ma / 64 * 64 = ma)
    (hst : (s.sub n (s.cistLoc n off).1).st ≠ .retired) (hwindow : (s.sub n (s.cistLoc n off).1).window = false)
    (hpending : (s.sub n (s.cistLoc n off).1).pendingWrite [(ma, 64)] = false)
    (hinj : ∀ e ∈ s.pinInj, e.1 ≠ cistPinKey n (s.cistLoc n off).1 (s.cistLoc n off).2) (hcw : Map.get {} s.cw (ma / 64) = {})
    (hwr : p.wr = false) (hruns : p.runs = [(ma, 64)]) (hpoison : p.poison = []) :
    ∃ t : State, s.atSub n (s.cistLoc n off).1 p = t.answer p 0 0 0 (s.raw ma 64) ∧ s.SameStored t := by
  obtain ⟨t, hread, ht⟩ := State.readAt_codeword hres hkey hoff h64 hround hst hwindow hpending hinj hcw
  refine ⟨t, ?_, ht⟩
  rw [State.atSub_performs hst (fun h => absurd (hwr.symm.trans h) Bool.false_ne_true) hwindow (by rw [hruns]; exact hpending)]
  simp [State.perform, hwr, hruns, hpoison, hread, State.poisonCws]

/-! ### A core's request at its cistern -/

/-- The state in which the part of the request stands at its sub-channel. -/
def State.ownArrived (s : State) (port n ma : Nat) (wr : Bool) : State := { s.ownOpened port n ma wr with arrNo := s.arrNo + 1 }

section
variable {s : State} {port part n off len : Nat} {wr : Bool} {data : List Byte} (hn : n < s.nCores) (hsite : n < 512)
  (hoff : off < s.cistSize n) (h64 : off % 64 = 0) (hreset : s.targetReset (.cist n off) = false)
include hn hsite hoff h64 hreset

/-- A retired sub-channel answers every request with its code, one that retires every write (06 R145). -/
theorem cstAccess_refused (hlen : (if wr then data.length else min len 1024) = 64)
    (hst : (s.sub n (s.cistLoc n off).1).st = .retired ∨ (wr = true ∧ (s.sub n (s.cistLoc n off).1).st ≠ .active)) :
    cstAccess s port part n true wr off len data =
      (s.ownArrived port n (n * 2 ^ 30 + off) wr).answered s.reqId port cMemSubchannelRetired [] := by
  rw [cstAccess_own hn hsite hoff h64 hlen hreset, State.atSub_refused hst]
  exact State.answer_own_fault rfl rfl (s.find_ownReq ..) (by decide)

/-- In a window a request waits (06 R141). -/
theorem cstAccess_waits (hlen : (if wr then data.length else min len 1024) = 64) (hst : (s.sub n (s.cistLoc n off).1).st = .active)
    (hwindow : (s.sub n (s.cistLoc n off).1).window = true) : ∃ p,
    cstAccess s port part n true wr off len data = (s.ownArrived port n (n * 2 ^ 30 + off) wr).setSub n (s.cistLoc n off).1
      { s.sub n (s.cistLoc n off).1 with waiting := insertArrived p (s.sub n (s.cistLoc n off).1).waiting } := by
  rw [cstAccess_own hn hsite hoff h64 hlen hreset]
  exact ⟨_, State.atSub_waits hst hwindow⟩

/-- Under a write hold a write is held (06 R149). -/
theorem cstAccess_held (hlen : data.length = 64) (hst : (s.sub n (s.cistLoc n off).1).st = .active)
    (hwindow : (s.sub n (s.cistLoc n off).1).window = false) (hwhold : (s.sub n (s.cistLoc n off).1).whold = true) : ∃ p,
    cstAccess s port part n true true off len data = (s.ownArrived port n (n * 2 ^ 30 + off) true).setSub n (s.cistLoc n off).1
      { s.sub n (s.cistLoc n off).1 with held := insertArrived p (s.sub n (s.cistLoc n off).1).held } := by
  rw [cstAccess_own hn hsite hoff h64 (by simpa using hlen) hreset]
  exact ⟨_, State.atSub_held hst hwindow rfl hwhold⟩

/-- Else it is stored and answered (06 R134). -/
theorem cstAccess_writes (hlen : data.length = 64) (hst : (s.sub n (s.cistLoc n off).1).st = .active)
    (hwindow : (s.sub n (s.cistLoc n off).1).window = false) (hwhold : (s.sub n (s.cistLoc n off).1).whold = false)
    (hpending : (s.sub n (s.cistLoc n off).1).pendingWrite [(n * 2 ^ 30 + off, 64)] = false) :
    cstAccess s port part n true true off len data =
      ((s.ownArrived port n (n * 2 ^ 30 + off) true).putCw (n * 2 ^ 30 + off) data).answered s.reqId port 0 [] := by
  have hres := State.resolve_cist hn hsite hoff
  have hkey : (Tgt.cist n off).key = n * 2 ^ 30 + off := rfl
  have halign : (n * 2 ^ 30 + off) % 64 = 0 := by omega
  rw [cstAccess_own hn hsite hoff h64 (by simpa using hlen) hreset]
  generalize n * 2 ^ 30 + off = ma at *
  have htake : data.take 64 = data := List.take_of_length_le hlen.le
  have hat := State.atSub_writes (s := s.ownArrived port n ma true) (p := (s.ownPart port n ma true data).arriving s) hres hkey halign
    hlen hst hwindow hwhold hpending rfl rfl htake rfl
  exact hat.trans (State.answer_own_write (p := (s.ownPart port n ma true data).arriving s) rfl rfl (s.find_ownReq ..) rfl)

/-- A read of a codeword without errors is answered with the bytes stored (06 R134, R138). -/
theorem cstAccess_reads (hlen : min len 1024 = 64) (hst : (s.sub n (s.cistLoc n off).1).st ≠ .retired)
    (hwindow : (s.sub n (s.cistLoc n off).1).window = false)
    (hpending : (s.sub n (s.cistLoc n off).1).pendingWrite [(n * 2 ^ 30 + off, 64)] = false)
    (hinj : ∀ e ∈ s.pinInj, e.1 ≠ cistPinKey n (s.cistLoc n off).1 (s.cistLoc n off).2)
    (hcw : Map.get {} s.cw ((n * 2 ^ 30 + off) / 64) = {}) :
    ∃ t : State, cstAccess s port part n true false off len [] = t.answered s.reqId port 0 (s.raw (n * 2 ^ 30 + off) 64) ∧
      (s.ownArrived port n (n * 2 ^ 30 + off) false).SameStored t := by
  have hres := State.resolve_cist hn hsite hoff
  have hkey : (Tgt.cist n off).key = n * 2 ^ 30 + off := rfl
  have hround : (n * 2 ^ 30 + off) / 64 * 64 = n * 2 ^ 30 + off := by omega
  have hmod : (n * 2 ^ 30 + off) % 2 ^ 30 = off := by have := s.cistSize_le n; omega
  rw [cstAccess_own hn hsite hoff h64 (by simpa using hlen) hreset]
  generalize n * 2 ^ 30 + off = ma at *
  obtain ⟨t, hat, ht⟩ := State.atSub_reads (s := s.ownArrived port n ma false) (p := (s.ownPart port n ma false []).arriving s) hres hkey
    hmod h64 hround hst hwindow hpending hinj hcw rfl rfl rfl
  have hfind : (t.reqs.find? fun r => decide (r.id = s.reqId)) = some (s.ownReq port n ma false) := by
    rw [ht.reqs]
    exact s.find_ownReq ..
  exact ⟨t, hat.trans (State.answer_own_read rfl rfl hfind rfl rfl (Map.length_getRange ..)), ht⟩

end

/-- Settles O40: the request's one part comes to its sub-channel, and each state of the sub-channel decides what becomes of it there. -/
theorem cisternAccess : Obligations.CisternAccess := by
  unfold Obligations.CisternAccess
  intro s port part core off data n l g x ma answered hn hoff h64 hlen hreset
  have hsite : n < 512 := core.isLt
  have hwlen : (if true = true then data.length else min 0 1024) = 64 := hlen
  refine ⟨fun hst => ⟨?_, ?_⟩, fun hst => ?_, fun hst hwindow => ?_, fun hst hwindow hwhold => ?_, fun hst hwindow hwhold hpending => ?_,
    fun hst hwindow hpending hinj hcw => ?_⟩
  · exact ⟨_, congrArg Host.Outcome.next (cstAccess_refused hn hsite hoff h64 hreset rfl (.inl hst)), rfl, rfl⟩
  · exact ⟨_, congrArg Host.Outcome.next (cstAccess_refused hn hsite hoff h64 hreset hwlen (.inl hst)), rfl, rfl⟩
  · exact ⟨_, congrArg Host.Outcome.next (cstAccess_refused hn hsite hoff h64 hreset hwlen (.inr ⟨rfl, by rw [hst]; decide⟩)), rfl, rfl⟩
  · obtain ⟨p, hp⟩ := cstAccess_waits (port := port.toNat) (part := part.toNat) hn hsite hoff h64 hreset hwlen hst hwindow
    refine ⟨_, congrArg Host.Outcome.next hp, rfl, rfl, ?_⟩
    rw [State.sub_setSub_same]
    exact length_insertArrived p _
  · obtain ⟨p, hp⟩ := cstAccess_held (port := port.toNat) (part := part.toNat) (len := 0) hn hsite hoff h64 hreset hlen hst hwindow hwhold
    refine ⟨_, congrArg Host.Outcome.next hp, rfl, rfl, ?_⟩
    rw [State.sub_setSub_same]
    exact length_insertArrived p _
  · have hw := cstAccess_writes (port := port.toNat) (part := part.toNat) (len := 0) hn hsite hoff h64 hreset hlen hst hwindow hwhold hpending
    refine ⟨_, congrArg Host.Outcome.next hw, rfl, rfl, rfl, rfl, rfl, fun a => ?_⟩
    rw [← hlen]
    exact Map.get_setRange 0 s.mem ma a data
  · obtain ⟨t, ht, hmem, hcwt, hcores, hchans, -, hdone⟩ :=
      cstAccess_reads (port := port.toNat) (part := part.toNat) (len := 64) hn hsite hoff h64 hreset rfl hst hwindow hpending hinj hcw
    exact ⟨_, congrArg Host.Outcome.next ht, congrArg (· ++ _) hdone, hmem, hcwt, hcores, hchans⟩

end Sys2Proof.Machine
end

section
/-! PROOFS. O54: the stages of a start (15 R331 to R341), the repair record (R344) and the revocation counter (14 R312). -/

namespace Sys2Proof.Machine

/-! ### Reports -/

/-- What a stage's report and end leave as they were. -/
structure State.SameButBup (s t : State) : Prop where
  mem : t.mem = s.mem
  cw : t.cw = s.cw
  wh : t.wh = s.wh
  clp : t.clp = s.clp
  thm : t.thm = s.thm
  params : t.params = s.params
  flash : t.flash = s.flash
  gate : t.gate = s.gate
  profGen : t.profGen = s.profGen
  profMap : t.profMap = s.profMap
  nCores : t.nCores = s.nCores
  cores : t.cores = s.cores
  repairs : t.repairs = s.repairs

theorem State.SameButBup.refl (s : State) : s.SameButBup s := ⟨rfl, rfl, rfl, rfl, rfl, rfl, rfl, rfl, rfl, rfl, rfl, rfl, rfl⟩

theorem State.SameButBup.trans {s t u : State} (h : s.SameButBup t) (h' : t.SameButBup u) : s.SameButBup u :=
  ⟨h'.mem.trans h.mem, h'.cw.trans h.cw, h'.wh.trans h.wh, h'.clp.trans h.clp, h'.thm.trans h.thm, h'.params.trans h.params,
    h'.flash.trans h.flash, h'.gate.trans h.gate, h'.profGen.trans h.profGen, h'.profMap.trans h.profMap, h'.nCores.trans h.nCores, h'.cores.trans h.cores,
    h'.repairs.trans h.repairs⟩

theorem State.sameButBup_withBup (s : State) (b : Bup) : s.SameButBup { s with bup := b } :=
  ⟨rfl, rfl, rfl, rfl, rfl, rfl, rfl, rfl, rfl, rfl, rfl, rfl, rfl⟩

theorem State.sameButBup_post (s : State) (src : Nat) (body : EvBody) (audits : List Audit) : s.SameButBup (s.post src body audits) :=
  ⟨rfl, rfl, rfl, rfl, rfl, rfl, rfl, rfl, rfl, rfl, rfl, rfl, rfl⟩

theorem State.sameButBup_postChange (s : State) (src : Nat) (l : List Audit) : s.SameButBup (s.postChange src l) := by
  unfold State.postChange
  split
  · exact .refl s
  · exact s.sameButBup_post ..

theorem State.sameButBup_draw (s : State) : s.SameButBup s.draw := ⟨rfl, rfl, rfl, rfl, rfl, rfl, rfl, rfl, rfl, rfl, rfl, rfl, rfl⟩

theorem State.sameButBup_fileReport (s : State) (result ms code : Nat) : s.SameButBup (s.fileReport result ms code) :=
  (s.sameButBup_withBup _).trans (State.sameButBup_post _ ..)

theorem State.sameButBup_noteFault (s : State) (bad : Bool) : s.SameButBup (s.noteFault bad) := by
  unfold State.noteFault
  split
  · exact (s.sameButBup_withBup _).trans (State.sameButBup_draw _)
  · exact .refl s

@[simp] theorem State.bup_postChange (s : State) (src : Nat) (l : List Audit) : (s.postChange src l).bup = s.bup := by
  unfold State.postChange
  split <;> rfl

theorem State.bup_fileReport (s : State) (result ms code : Nat) :
    ∃ m, (s.fileReport result ms code).bup = { s.bup with reports := m } := ⟨_, rfl⟩

@[simp] theorem State.stage_noteFault (s : State) (bad : Bool) : (s.noteFault bad).bup.stage = s.bup.stage := by
  unfold State.noteFault
  split <;> rfl

/-! ### The end and the failure of a stage -/

/-- `u` is `s` with the stage in progress done (15 R336). -/
structure State.Ended (s u : State) : Prop where
  stage : u.bup.stage = if s.bup.stage = 6 then 6 else s.bup.stage + 1
  running : u.bup.running = (s.bup.stage != 6)
  ready : u.bup.ready = (s.bup.stage == 6)
  s1Restarts : u.bup.s1Restarts = s.bup.s1Restarts
  ucl : u.bup.ucl = s.bup.ucl
  rest : s.SameButBup u

/-- A report filed keeps the stage, the restarts of S1 and the cube latency. -/
structure State.Reported (s t : State) : Prop where
  stage : t.bup.stage = s.bup.stage
  s1Restarts : t.bup.s1Restarts = s.bup.s1Restarts
  ucl : t.bup.ucl = s.bup.ucl
  rest : s.SameButBup t

theorem State.fileReport_reported (s : State) (result ms code : Nat) : s.Reported (s.fileReport result ms code) := by
  obtain ⟨m, hm⟩ := s.bup_fileReport result ms code
  exact ⟨by rw [hm], by rw [hm], by rw [hm], s.sameButBup_fileReport ..⟩

theorem State.Reported.trans {s t u : State} (h : s.Reported t) (h' : t.Reported u) : s.Reported u :=
  ⟨h'.stage.trans h.stage, h'.s1Restarts.trans h.s1Restarts, h'.ucl.trans h.ucl, h.rest.trans h'.rest⟩

theorem State.Reported.ended {s u : State} (h : s.Reported u) (since : Nat) : s.Ended
    { u with bup := { u.bup with stage := if u.bup.stage = 6 then 6 else u.bup.stage + 1, running := u.bup.stage != 6,
                                 ready := u.bup.stage == 6, since := since, repairs := 0, retired := 0, firstFault := 0 } } := by
  obtain ⟨hstage, hrestarts, hucl, hsame⟩ := h
  exact ⟨by rw [← hstage], by rw [← hstage], by rw [← hstage], hrestarts, hucl, hsame.trans (u.sameButBup_withBup _)⟩

theorem State.endStage_ended (s : State) (ms : Nat) : s.Ended (s.endStage ms) := by
  unfold State.endStage
  extract_lets b deg result t u b'
  have ht : s.Reported t := by
    unfold t
    split
    · have hmark : s.Reported { s with bup := { b with degraded := true } } := ⟨rfl, rfl, rfl, s.sameButBup_withBup _⟩
      exact hmark.trans (State.fileReport_reported ..)
    · exact s.fileReport_reported ..
  have hu : s.Reported u := by
    unfold u
    split
    · exact ht.trans (t.fileReport_reported ..)
    · exact ht
  exact hu.ended _

/-- `u` is `s` with the start stopped in the stage in progress (15 R335). -/
structure State.Stopped (s u : State) : Prop where
  failed : u.bup.failed = true
  running : u.bup.running = false
  stage : u.bup.stage = s.bup.stage
  rest : s.SameButBup u

theorem State.failStage_stopped (s : State) (ms : Nat) : s.Stopped (s.failStage ms) := by
  unfold State.failStage
  extract_lets t u
  have ht : s.SameButBup t := s.sameButBup_noteFault true
  have hstage : t.bup.stage = s.bup.stage := s.stage_noteFault true
  clear_value t
  exact ⟨rfl, rfl, hstage, ht.trans ((t.sameButBup_withBup _).trans
    ((State.sameButBup_fileReport ..).trans (State.sameButBup_fileReport ..)))⟩

/-! ### The command that ends a stage -/

theorem stageEnd_of_idle {s : State} {st : Nat} {x : StageIn}
    (h : s.bup.running = false ∨ s.bup.stage.toNat ≠ st ∨ tooLong st s.bup.full x.durationMs = true) : stageEnd s st x = s := by
  unfold stageEnd
  refine if_pos ?_
  rcases h with h | h | h
  · exact .inl (by rw [h]; rfl)
  · exact .inr (.inl h)
  · exact .inr (.inr h)

/-- Once a stage in progress ends within its time, what it does is its own. -/
theorem stageEnd_goes {s : State} {st : Nat} {x : StageIn} (hrun : s.bup.running = true) (hst : s.bup.stage.toNat = st)
    (hlong : tooLong st s.bup.full x.durationMs = false) :
    ¬ ((!s.bup.running) = true ∨ s.bup.stage.toNat ≠ st ∨ tooLong st s.bup.full x.durationMs = true) := by
  simp [hrun, hst, hlong]

/-! ### S0 -/

theorem State.stageS0_boots {s : State} {x : StageIn} (hmode : s.bup.bootMode ≠ 0) (hflash : x.flashOk = true)
    (hcheck : s.fwCheck s.flash.image = none) :
    s.stageS0 x = ({ s with wh := { s.wh with fw := fwOf s.flash.image } } : State).endStage x.durationMs := by
  unfold State.stageS0
  rw [if_neg hmode, if_neg (by simp [hflash]), hcheck]

theorem State.stageS0_recovers {s : State} {x : StageIn} {k : Nat}
    (h : (s.bup.bootMode = 0 ∧ k = 6) ∨ (s.bup.bootMode ≠ 0 ∧ x.flashOk = false ∧ k = 1) ∨
      (s.bup.bootMode ≠ 0 ∧ x.flashOk = true ∧ s.fwCheck s.flash.image = some k)) : s.stageS0 x = s.enterRecovery k := by
  unfold State.stageS0
  rcases h with ⟨hmode, rfl⟩ | ⟨hmode, hflash, rfl⟩ | ⟨hmode, hflash, hcheck⟩
  · rw [if_pos hmode]
  · rw [if_neg hmode, if_pos (by simp [hflash])]
  · rw [if_neg hmode, if_neg (by simp [hflash]), hcheck]

/-! ### S1 -/

theorem State.sameButBup_setLic (s : State) (f v : Nat) : s.SameButBup (s.setLic f v) := by
  unfold State.setLic
  split <;> exact ⟨rfl, rfl, rfl, rfl, rfl, rfl, rfl, rfl, rfl, rfl, rfl, rfl, rfl⟩

theorem State.bup_setLic (s : State) (f v : Nat) : (s.setLic f v).bup = s.bup := by
  unfold State.setLic
  split <;> rfl

theorem State.loadLicences_keeps (s : State) : s.SameButBup s.loadLicences ∧ s.loadLicences.bup = s.bup := by
  unfold State.loadLicences
  refine foldl_keeps (fun t => s.SameButBup t ∧ t.bup = s.bup) _ (fun t f ht => ?_) _ s ⟨.refl s, rfl⟩
  obtain ⟨hsame, hbup⟩ := ht
  extract_lets r
  split
  · exact ⟨hsame, hbup⟩
  · split
    · exact ⟨hsame.trans (t.sameButBup_setLic ..), (t.bup_setLic ..).trans hbup⟩
    · exact ⟨hsame.trans (t.sameButBup_post ..), hbup⟩

/-- What reading the repair record does (R342, R343). -/
theorem State.loadRecord_loads (s : State) : s.loadRecord.wh = s.wh ∧ s.loadRecord.flash = s.flash ∧
    s.loadRecord.bup.stage = s.bup.stage ∧ (∀ h r, s.flash.record = some (h, r) → s.loadRecord.repairs = r.ents) ∧
    (s.flash.record = none → s.loadRecord.repairs = []) := by
  unfold State.loadRecord
  split
  · next h r hrec =>
    refine ⟨rfl, rfl, rfl, fun h' r' hr => ?_, fun hr => ?_⟩
    · rw [hrec] at hr
      cases hr
      rfl
    · rw [hrec] at hr
      cases hr
  · next hrec =>
    refine ⟨rfl, rfl, rfl, fun h' r' hr => ?_, fun _ => rfl⟩
    rw [hrec] at hr
    cases hr

/-- What board configuration supplies is locked (R331). -/
structure State.Locked (s u : State) (b : Option Board) : Prop where
  stage : u.bup.stage = s.bup.stage
  params : u.params = s.params
  repairs : u.repairs = s.repairs
  cfgLock : u.clp.cfgLock = true
  gateLock : u.thm.gateLock = true
  injLock : u.wh.injLock = true
  injEn : u.wh.injEn = if s.wh.injLock then s.wh.injEn else (b.map Board.injectEn).getD false

theorem State.loadBoard_locked (s : State) (b : Option Board) : s.Locked (s.loadBoard b) b := by
  unfold State.loadBoard
  extract_lets lock c t u
  have hu : u.params = s.params ∧ u.repairs = s.repairs :=
    foldl_keeps (fun v : State => v.params = s.params ∧ v.repairs = s.repairs) (fun s p => s.setPort p (lock (s.lport p)))
      (fun _ _ h => h) (List.range 20) s ⟨rfl, rfl⟩
  clear_value u
  refine ⟨rfl, hu.1, hu.2, rfl, rfl, ?_, ?_⟩
  · exact (apply_ite Wellhead.injLock ..).trans (by split_ifs with h; exacts [h, rfl])
  · exact (apply_ite Wellhead.injEn ..)

theorem State.postTrip_locked {s t : State} {b : Option Board} (h : s.Locked t b) : s.Locked t.postTrip b := by
  obtain ⟨hstage, hparams, hrepairs, hclp, hthm, hlock, hen⟩ := h
  unfold State.postTrip
  split
  · exact ⟨hstage, hparams, hrepairs, hclp, hthm, hlock, hen⟩
  · exact ⟨hstage, hparams, hrepairs, hclp, hthm, hlock, hen⟩

theorem State.postChange_locked {s t : State} {b : Option Board} (h : s.Locked t b) (src : Nat) (l : List Audit) :
    s.Locked (t.postChange src l) b := by
  have hsame := t.sameButBup_postChange src l
  exact ⟨by rw [State.bup_postChange, h.stage], hsame.params.trans h.params, hsame.repairs.trans h.repairs, by rw [hsame.clp, h.cfgLock],
    by rw [hsame.thm, h.gateLock], by rw [hsame.wh, h.injLock], by rw [hsame.wh, h.injEn]⟩

theorem State.bootAudits_locked {s t : State} {b : Option Board} (h : s.Locked t b) (old : State) (l : List Nat) :
    s.Locked (t.bootAudits old l) b := by
  unfold State.bootAudits
  extract_lets one
  generalize l.flatMap one = audits
  exact State.postChange_locked h 0 audits

/-- The state once S1 has read the licences, the repair record and the persistent parameters. -/
def State.s1Loaded (s : State) : State := { s.loadLicences.loadRecord with params := s.loadLicences.loadRecord.flash.params }
/-- The state once S1 has taken the board's configuration into it. -/
def State.s1Configured (s : State) (b : Option Board) : State := ((s.s1Loaded.loadBoard b).bootAudits s.s1Loaded boardRegs).postTrip
/-- S1 restarted no longer. -/
def State.s1Settled (s : State) : State := { s with bup := { s.bup with s1Restarts := 0 } }

theorem State.stageS1_eq (s : State) (x : StageIn) :
    s.stageS1 x = ((s.s1Configured x.board).s1Settled.endStage x.durationMs).refreshAlert := by
  simp only [State.stageS1, State.s1Configured, State.s1Loaded, State.s1Settled]

theorem State.s1Loaded_loads (s : State) : s.s1Loaded.wh = s.wh ∧ s.s1Loaded.bup.stage = s.bup.stage ∧
    s.s1Loaded.params = s.flash.params ∧ (∀ h r, s.flash.record = some (h, r) → s.s1Loaded.repairs = r.ents) ∧
    (s.flash.record = none → s.s1Loaded.repairs = []) := by
  obtain ⟨hlic, hlicBup⟩ := s.loadLicences_keeps
  obtain ⟨hwh, hflash, hstage, hsome, hnone⟩ := s.loadLicences.loadRecord_loads
  rw [hlic.flash] at hsome hnone hflash
  rw [hlic.wh] at hwh
  rw [hlicBup] at hstage
  unfold State.s1Loaded
  exact ⟨hwh, hstage, congrArg Flash.params hflash, hsome, hnone⟩

theorem State.s1Configured_locked (s : State) (b : Option Board) : s.s1Loaded.Locked (s.s1Configured b) b := by
  unfold State.s1Configured
  exact State.postTrip_locked (State.bootAudits_locked (s.s1Loaded.loadBoard_locked b) s.s1Loaded boardRegs)

theorem State.refreshAlert_keeps (s : State) : s.SameButBup s.refreshAlert ∧ s.refreshAlert.bup = s.bup := by
  unfold State.refreshAlert
  exact ⟨⟨rfl, rfl, rfl, rfl, rfl, rfl, rfl, rfl, rfl, rfl, rfl, rfl, rfl⟩, rfl⟩

theorem State.s1Settled_keeps (s : State) : s.SameButBup s.s1Settled ∧ s.s1Settled.bup.stage = s.bup.stage ∧ s.s1Settled.bup.s1Restarts = 0 :=
  ⟨s.sameButBup_withBup _, rfl, rfl⟩

theorem State.stageS1_keeps (s : State) (x : StageIn) : (s.s1Configured x.board).SameButBup (s.stageS1 x) ∧
    (s.stageS1 x).bup.stage = (if s.bup.stage = 6 then 6 else s.bup.stage + 1) ∧ (s.stageS1 x).bup.s1Restarts = 0 := by
  obtain ⟨-, hloaded, -⟩ := s.s1Loaded_loads
  have hstage := (s.s1Configured_locked x.board).stage
  rw [s.stageS1_eq x]
  generalize s.s1Configured x.board = t at hstage ⊢
  obtain ⟨hsettled, hsettledStage, hrestarts⟩ := t.s1Settled_keeps
  have hend := t.s1Settled.endStage_ended x.durationMs
  obtain ⟨halert, halertBup⟩ := (t.s1Settled.endStage x.durationMs).refreshAlert_keeps
  refine ⟨hsettled.trans (hend.rest.trans halert), ?_, ?_⟩
  · rw [halertBup, hend.stage, hsettledStage, hstage, hloaded]
  · rw [halertBup, hend.s1Restarts, hrestarts]

/-- S1 (15 R331): the parameters, the configuration and its locks, and the record. -/
theorem State.stageS1_loads (s : State) (x : StageIn) :
    (s.stageS1 x).params = s.flash.params ∧ (s.stageS1 x).clp.cfgLock = true ∧ (s.stageS1 x).wh.injLock = true ∧
      (s.stageS1 x).thm.gateLock = true ∧
      (s.stageS1 x).wh.injEn = (if s.wh.injLock then s.wh.injEn else (x.board.map Board.injectEn).getD false) ∧
      (∀ h r, s.flash.record = some (h, r) → (s.stageS1 x).repairs = r.ents) ∧
      (s.flash.record = none → (s.stageS1 x).repairs = []) := by
  obtain ⟨hwh, -, hparams, hsome, hnone⟩ := s.s1Loaded_loads
  obtain ⟨hsame, -⟩ := s.stageS1_keeps x
  have hlocked := s.s1Configured_locked x.board
  rw [hsame.params, hsame.clp, hsame.wh, hsame.thm, hsame.repairs, hlocked.params, hlocked.repairs, hlocked.injEn, hwh]
  exact ⟨hparams, hlocked.cfgLock, hlocked.injLock, hlocked.gateLock, rfl, hsome, hnone⟩

/-! ### What keeps the stage in progress -/

/-- A walk over a list keeps what each of its steps keeps. -/
theorem foldl_frame {β δ : Type} (g : State → δ) (f : State → β → State) (hf : ∀ t b, g (f t b) = g t) (l : List β) (s : State) :
    g (l.foldl f s) = g s :=
  foldl_keeps (fun t => g t = g s) f (fun t b ht => (hf t b).trans ht) l s rfl

@[simp] theorem State.bup_refreshSyncs (s : State) : s.refreshSyncs.bup = s.bup :=
  foldl_frame State.bup State.refreshSync (fun t p => by
    unfold State.refreshSync
    dsimp only
    split <;> rfl) (List.range 20) s

@[simp] theorem State.repairs_refreshSyncs (s : State) : s.refreshSyncs.repairs = s.repairs :=
  foldl_frame State.repairs State.refreshSync (fun t p => by
    unfold State.refreshSync
    dsimp only
    split <;> rfl) (List.range 20) s

theorem State.setClp_keeps (s : State) (m : ClpMode) : (s.setClp m).bup = s.bup ∧ (s.setClp m).repairs = s.repairs := by
  unfold State.setClp
  exact ⟨State.bup_refreshSyncs _, State.repairs_refreshSyncs _⟩

theorem State.s2Clock_keeps (s : State) (pulses : Bool) :
    (s.s2Clock pulses).bup = s.bup ∧ (s.s2Clock pulses).repairs = s.repairs := by
  unfold State.s2Clock
  split
  · exact ⟨rfl, rfl⟩
  · exact State.setClp_keeps _ _

@[simp] theorem State.bup_repair (s : State) (src cls elem st action : Nat) (part : Option Nat) (code origin source : Nat) :
    (s.repair src cls elem st action part code origin source).bup = s.bup := rfl

@[simp] theorem State.stage_absorb (s : State) (find fuel : Nat) (x : Nat × Nat) : (s.absorb find fuel x).bup.stage = s.bup.stage := by
  induction fuel generalizing s x with
  | zero => rfl
  | succ fuel ih =>
    unfold State.absorb
    extract_lets a ent rest s1 _ s2
    have h1 : s1.bup.stage = s.bup.stage := by
      unfold s1
      split
      · rfl
      · rw [State.bup_repair]
    clear_value s1
    have h2 : s2.bup.stage = s.bup.stage := h1
    clear_value s2
    split
    · rfl
    · exact (foldl_frame (fun t => t.bup.stage) _ (fun t y => ih t y) a.up s2).trans h2

@[simp] theorem State.stage_absorbAll (s : State) (find : Nat) (xs : List (Byte × Word)) :
    (s.absorbAll find xs).bup.stage = s.bup.stage :=
  foldl_frame (fun t => t.bup.stage) _ (fun t _ => t.stage_absorb find 8 _) xs s

@[simp] theorem State.stage_settleFindings (s : State) (find : Nat) (mine : Nat → Nat → Bool) (found : List (Byte × Word)) :
    (s.settleFindings find mine found).bup.stage = s.bup.stage := by
  simp only [State.settleFindings, State.stage_absorbAll]

@[simp] theorem State.stage_reconcile (s : State) (classes : List Nat) (full : Bool) (found : List (Byte × Word)) :
    (s.reconcile classes full found).bup.stage = s.bup.stage := by
  unfold State.reconcile
  extract_lets lane passes u
  have hu : u.bup = s.bup := by
    unfold u
    split
    · rfl
    · exact foldl_frame State.bup _ (fun t e => t.bup_repair ..) _ s
  rw [State.stage_noteFault, State.stage_settleFindings, hu]

@[simp] theorem State.zeroMem_bup (s : State) (p : Nat → Bool) : (s.zeroMem p).bup = s.bup := rfl

theorem State.withMasks_keeps (s : State) (present active : Map Word) (cap : Map (Option (BitVec 20))) :
    let t : State := { s with rsvPresent := present, rsvActive := active, sluCap := cap }
    t.bup = s.bup ∧ t.mem = s.mem ∧ t.cw = s.cw := ⟨rfl, rfl, rfl⟩

@[simp] theorem State.bup_rsvFromRecord (s : State) (k : Nat) : (s.rsvFromRecord k).bup = s.bup := by
  unfold State.rsvFromRecord
  extract_lets mask put t v sp u w
  have ht : t.bup = s.bup := foldl_frame State.bup put (fun a c => State.setChan_bup a k c _) (List.range 32) s
  have hw : w.bup = s.bup := (State.zeroMem_bup u _).trans ((State.setRsv_bup t k _).trans ht)
  exact (State.withMasks_keeps w _ _ _).1.trans hw

/-- Memory left zero stays zero. -/
theorem State.zero_rsvFromRecord {s : State} (h : s.mem = [] ∧ s.cw = []) (k : Nat) :
    (s.rsvFromRecord k).mem = [] ∧ (s.rsvFromRecord k).cw = [] := by
  unfold State.rsvFromRecord
  extract_lets mask put t v sp u w
  have ht : t.mem = s.mem ∧ t.cw = s.cw :=
    ⟨foldl_frame State.mem put (fun a c => State.setChan_mem a k c _) (List.range 32) s,
      foldl_frame State.cw put (fun a c => State.setChan_cw a k c _) (List.range 32) s⟩
  have hu : u.mem = [] ∧ u.cw = [] :=
    ⟨(State.setRsv_mem t k _).trans (ht.1.trans h.1), (State.setRsv_cw t k _).trans (ht.2.trans h.2)⟩
  have hw : w.mem = [] ∧ w.cw = [] := ⟨congrArg (Map.drop _) hu.1, congrArg (Map.drop _) hu.2⟩
  obtain ⟨-, hmem, hcw⟩ := State.withMasks_keeps w (Map.set 0xFFFFFFFF w.rsvPresent k mask) (Map.set 0xFFFFFFFF w.rsvActive k mask)
    (Map.set none w.sluCap k (some (BitVec.ofNat 20 (896 * popCount 32 mask.toNat))))
  exact ⟨hmem.trans hw.1, hcw.trans hw.2⟩

@[simp] theorem State.bup_bridgeCap (s : State) (d : Nat) : (s.bridgeCap d).bup = s.bup := rfl

@[simp] theorem State.bup_bridgeFromRecord (s : State) : s.bridgeFromRecord.bup = s.bup := by
  unfold State.bridgeFromRecord
  extract_lets put
  rw [State.bup_bridgeCap, State.bup_bridgeCap]
  exact foldl_frame State.bup put (fun _ _ => rfl) (List.range 128) _

@[simp] theorem State.stage_retireClusters (s : State) (find : Nat) : (s.retireClusters find).bup.stage = s.bup.stage := by
  unfold State.retireClusters
  refine foldl_frame (fun t => t.bup.stage) _ (fun t g => ?_) (List.range 32) s
  split
  · exact t.stage_absorb ..
  · rfl

@[simp] theorem State.stage_rebuildRecord (s : State) : s.rebuildRecord.bup.stage = s.bup.stage := by
  unfold State.rebuildRecord
  split <;> rfl

/-! ### S3 and S4 -/

/-- The stage that follows `st` once it is done (15 R336). -/
def nextStage (st : BitVec 4) : BitVec 4 := if st = 6 then 6 else st + 1

theorem State.stage_endStage (s : State) (ms : Nat) : (s.endStage ms).bup.stage = nextStage s.bup.stage := (s.endStage_ended ms).stage

/-- The memories zeroed and the reservoirs set by the record, of which S3 makes no more than registers. -/
structure State.Zeroed (s t : State) : Prop where
  mem : t.mem = []
  cw : t.cw = []
  stage : t.bup.stage = s.bup.stage

theorem State.zeroed_rsvFromRecord {s t : State} (h : s.Zeroed t) (k : Nat) : s.Zeroed ((t.rsvFromRecord k).placeArea k) := by
  obtain ⟨hmem, hcw⟩ := State.zero_rsvFromRecord ⟨h.mem, h.cw⟩ k
  have hbup := t.bup_rsvFromRecord k
  generalize t.rsvFromRecord k = u at hmem hcw hbup
  unfold State.placeArea
  exact ⟨(State.setRsv_mem u k _).trans hmem, (State.setRsv_cw u k _).trans hcw,
    (congrArg Bup.stage ((State.setRsv_bup u k _).trans hbup)).trans h.stage⟩

theorem State.zeroed_putSkim {s t : State} (h : s.Zeroed t) (v : Nat) : s.Zeroed (t.putSkim v) := by
  unfold State.putSkim
  exact foldl_keeps s.Zeroed _ (fun u k hu => ⟨(State.setRsv_mem u k _).trans hu.mem, (State.setRsv_cw u k _).trans hu.cw,
    (congrArg Bup.stage (State.setRsv_bup u k _)).trans hu.stage⟩) (List.range 8) t h

theorem State.stageS3_zeroes (s : State) (x : StageIn) :
    (s.stageS3 x).mem = [] ∧ (s.stageS3 x).cw = [] ∧ (s.stageS3 x).bup.stage = nextStage s.bup.stage := by
  unfold State.stageS3
  extract_lets tested zero placed skim
  have htested : tested.bup.stage = s.bup.stage := by rw [State.stage_reconcile, State.stage_rebuildRecord]
  have hzero : s.Zeroed zero := ⟨rfl, rfl, htested⟩
  clear_value zero
  have hplaced : s.Zeroed placed := foldl_keeps s.Zeroed _ (fun _ k h => State.zeroed_rsvFromRecord h k) (List.range 8) zero hzero
  clear_value placed
  have hskim : s.Zeroed skim := by
    unfold skim
    split
    · exact State.zeroed_putSkim hplaced _
    · exact hplaced
  clear_value skim
  have hend := skim.endStage_ended x.durationMs
  exact ⟨hend.rest.mem.trans hskim.mem, hend.rest.cw.trans hskim.cw, hend.stage.trans (congrArg nextStage hskim.stage)⟩

@[simp] theorem State.bup_dropDie (s : State) (d cause : Nat) : (s.dropDie d cause).bup = s.bup := rfl

theorem State.stageS4_ends (s : State) (x : StageIn) :
    (s.stageS4 x).bup.failed = true ∨ (s.stageS4 x).bup.stage = nextStage s.bup.stage := by
  unfold State.stageS4
  extract_lets bridged dropped
  have hbridged : bridged.bup.stage = s.bup.stage := by rw [State.bup_bridgeFromRecord, State.stage_reconcile]
  clear_value bridged
  have hdropped : dropped.bup.stage = s.bup.stage := by
    unfold dropped
    split
    · rw [State.bup_dropDie, hbridged]
    · exact hbridged
  clear_value dropped
  split
  · exact .inl (dropped.failStage_stopped x.durationMs).failed
  · exact .inr ((dropped.stage_endStage x.durationMs).trans (congrArg nextStage hdropped))

/-! ### S2 -/

/-- The clocks and the counter's copies as S2 sets them. -/
def State.s2Ready (s : State) (x : StageIn) : State :=
  ({ s with clockFrom := s.time }.s2Clock (s.clp.s2Pulses || x.pulses)).loadCopies (List.range 10)
/-- A compute die kept, or retired where its clocks fail or the record retires it. -/
def State.s2Die (find : Nat) (dies : BitVec 2) (s : State) (d : Nat) : State :=
  if dies.toNat.testBit d && !s.isRetired 0xE d then s else ((s.absorb find 8 (0xE, d)).noteFault (!dies.toNat.testBit d)).dropDie d 1
/-- Both dies settled. -/
def State.s2Dies (s : State) (x : StageIn) : State :=
  [0, 1].foldl (fun t d => State.s2Die (if (s.s2Ready x).bup.full then 1 else 2) x.dies t d) (s.s2Ready x)

theorem State.stageS2_eq (s : State) (x : StageIn) : s.stageS2 x =
    if (s.s2Dies x).isRetired 0xE 0 && (s.s2Dies x).isRetired 0xE 1 then (s.s2Dies x).failStage x.durationMs
    else (s.s2Dies x).endStage x.durationMs := by
  unfold State.stageS2 State.s2Dies State.s2Die State.s2Ready
  rfl

theorem State.s2Ready_keeps (s : State) (x : StageIn) : (s.s2Ready x).bup = s.bup ∧ (s.s2Ready x).repairs = s.repairs := by
  obtain ⟨hbup, hreps⟩ := State.s2Clock_keeps { s with clockFrom := s.time } (s.clp.s2Pulses || x.pulses)
  exact ⟨hbup, hreps⟩

theorem State.repairs_noteFault (s : State) (bad : Bool) : (s.noteFault bad).repairs = s.repairs := (s.sameButBup_noteFault bad).repairs

theorem State.stage_s2Die (find : Nat) (dies : BitVec 2) (s : State) (d : Nat) :
    (State.s2Die find dies s d).bup.stage = s.bup.stage := by
  unfold State.s2Die
  split
  · rfl
  · exact (State.stage_noteFault ..).trans (s.stage_absorb ..)

theorem State.stage_s2Dies (s : State) (x : StageIn) : (s.s2Dies x).bup.stage = s.bup.stage := by
  unfold State.s2Dies
  rw [List.foldl_cons, List.foldl_cons, List.foldl_nil, State.stage_s2Die, State.stage_s2Die, (s.s2Ready_keeps x).1]

theorem State.s2Die_of_clocked {find : Nat} {dies : BitVec 2} {s : State} {d : Nat} (hclock : dies.toNat.testBit d = true)
    (hret : s.isRetired 0xE d = false) : State.s2Die find dies s d = s := by
  unfold State.s2Die
  rw [if_pos (by rw [hclock, hret]; rfl)]

/-- A compute die's entry in the repair record once it is retired. -/
structure RepEnt.RetiresDie (e : RepEnt) (d : Nat) : Prop where
  cls : e.cls = 0xE
  st : e.st = 4
  elem : e.elem = BitVec.ofNat 32 d

theorem State.repairs_absorb_die {s : State} {d find : Nat} (hrec : s.recorded 0xE d = false) (hfind : find ≠ 0) :
    ∃ e : RepEnt, e.RetiresDie d ∧ (s.absorb find 8 (0xE, d)).repairs =
      (s.repairs.filter fun e => !(e.cls.toNat == 0xE && e.elem.toNat == d)) ++ [e] := by
  unfold State.absorb
  dsimp only
  rw [hrec, Bool.false_and, Bool.false_and, if_neg Bool.false_ne_true, if_neg hfind]
  exact ⟨_, ⟨rfl, rfl, rfl⟩, rfl⟩

theorem State.repairs_dropDie (s : State) (d cause : Nat) : (s.dropDie d cause).repairs = s.repairs := rfl

/-- A die that does not clock, and of which the record says nothing, is retired. -/
theorem State.repairs_s2Die {s : State} {d find : Nat} {dies : BitVec 2} (hclock : dies.toNat.testBit d = false)
    (hrec : s.recorded 0xE d = false) (hfind : find ≠ 0) :
    ∃ e : RepEnt, e.RetiresDie d ∧ (State.s2Die find dies s d).repairs =
      (s.repairs.filter fun e => !(e.cls.toNat == 0xE && e.elem.toNat == d)) ++ [e] := by
  obtain ⟨e, he, hreps⟩ := State.repairs_absorb_die hrec hfind
  refine ⟨e, he, ?_⟩
  unfold State.s2Die
  rw [hclock, Bool.false_and, if_neg Bool.false_ne_true, State.repairs_dropDie, State.repairs_noteFault, hreps]

theorem State.stageS2_ends (s : State) (x : StageIn) : ((s.stageS2 x).bup.failed = true ∧ (s.stageS2 x).bup.running = false) ∨
    (s.stageS2 x).bup.stage = nextStage s.bup.stage := by
  rw [State.stageS2_eq]
  split
  · have h := (s.s2Dies x).failStage_stopped x.durationMs
    exact .inl ⟨h.failed, h.running⟩
  · exact .inr (by rw [State.stage_endStage, State.stage_s2Dies])

theorem State.stageS2_of_clocked {s : State} {x : StageIn} (hdies : x.dies = 3) (hret : s.isRetired 0xE 0 = false ∧ s.isRetired 0xE 1 = false) :
    (s.stageS2 x).bup.stage = nextStage s.bup.stage := by
  have hreps := (s.s2Ready_keeps x).2
  have hret0 : (s.s2Ready x).isRetired 0xE 0 = false := by rw [State.isRetired, hreps]; exact hret.1
  have hret1 : (s.s2Ready x).isRetired 0xE 1 = false := by rw [State.isRetired, hreps]; exact hret.2
  have hsame : s.s2Dies x = s.s2Ready x := by
    unfold State.s2Dies
    rw [List.foldl_cons, List.foldl_cons, List.foldl_nil, State.s2Die_of_clocked (by rw [hdies]; rfl) hret0,
      State.s2Die_of_clocked (by rw [hdies]; rfl) hret1]
  rw [State.stageS2_eq, hsame, hret0, Bool.false_and, if_neg Bool.false_ne_true, State.stage_endStage, (s.s2Ready_keeps x).1]

theorem State.stageS2_of_dead {s : State} {x : StageIn} (hdies : x.dies = 0) (hreps : s.repairs = []) : (s.stageS2 x).bup.failed = true := by
  have hfind : (if (s.s2Ready x).bup.full then 1 else 2 : Nat) ≠ 0 := by split <;> decide
  have hready : (s.s2Ready x).repairs = [] := (s.s2Ready_keeps x).2.trans hreps
  have hretired : (s.s2Dies x).isRetired 0xE 0 = true ∧ (s.s2Dies x).isRetired 0xE 1 = true := by
    unfold State.s2Dies
    rw [List.foldl_cons, List.foldl_cons, List.foldl_nil]
    generalize (if (s.s2Ready x).bup.full then 1 else 2 : Nat) = find at hfind
    obtain ⟨e, ⟨hcls, hst, helem⟩, h0⟩ := State.repairs_s2Die (s := s.s2Ready x) (d := 0) (dies := x.dies) (by rw [hdies]; rfl)
      (by simp [State.recorded, State.entsOf, hready]) hfind
    rw [hready] at h0
    generalize State.s2Die find x.dies (s.s2Ready x) 0 = t at h0
    obtain ⟨e', ⟨hcls', hst', helem'⟩, h1⟩ := State.repairs_s2Die (s := t) (d := 1) (dies := x.dies) (by rw [hdies]; rfl)
      (by simp [State.recorded, State.entsOf, h0, helem]) hfind
    simp [State.isRetired, h1, h0, hcls, hst, helem, hcls', hst', helem']
  rw [State.stageS2_eq, hretired.1, hretired.2, if_pos (Bool.true_and _)]
  exact ((s.s2Dies x).failStage_stopped x.durationMs).failed

/-! ### S5: the logical map (01 R15) -/

/-- The sites a cluster fields: none, or all but one of its 17 (01 R15). -/
def State.clusterSites (s : State) (g : Nat) : List Nat :=
  if s.clusterOut g then []
  else match s.siteOut g with
    | some out => ((List.range 17).filter fun i => i != out).map fun i => g * 32 + i
    | none => []

theorem State.logicalMap_eq (s : State) : s.logicalMap = (List.range 32).flatMap s.clusterSites := rfl

theorem State.siteOut_lt {s : State} {g out : Nat} (h : s.siteOut g = some out) : out < 17 := by
  unfold State.siteOut State.siteOutFor at h
  dsimp only at h
  split at h
  · cases h
    cases hfind : (List.range 17).find? fun i => s.layersOf (g * 32 + i) != 0xF with
    | none => simp
    | some i => simpa using List.mem_of_find?_eq_some hfind
  · next i hbad =>
    cases h
    have hmem := List.mem_singleton_self out
    rw [← hbad] at hmem
    exact List.mem_range.1 (List.mem_of_mem_filter hmem)
  · cases h

/-- Seventeen sites without one of them are sixteen. -/
theorem length_range_without {out : Nat} (h : out < 17) : ((List.range 17).filter fun i => i != out).length = 16 := by
  rw [← (List.nodup_range (n := 17)).erase_eq_filter, List.length_erase_of_mem (List.mem_range.2 h), List.length_range]

theorem State.length_clusterSites (s : State) (g : Nat) : (s.clusterSites g).length = 0 ∨ (s.clusterSites g).length = 16 := by
  unfold State.clusterSites
  split
  · exact .inl rfl
  · split
    · next out hout => exact .inr (by rw [List.length_map, length_range_without (State.siteOut_lt hout)])
    · exact .inl rfl

theorem State.mem_clusterSites {s : State} {g x : Nat} (hg : g < 32) (h : x ∈ s.clusterSites g) : x < 1024 := by
  unfold State.clusterSites at h
  split at h
  · cases h
  · split at h
    · obtain ⟨i, hi, rfl⟩ := List.mem_map.1 h
      have := List.mem_range.1 (List.mem_of_mem_filter hi)
      omega
    · cases h

theorem State.mem_logicalMap {s : State} {x : Nat} (h : x ∈ s.logicalMap) : x < 1024 := by
  rw [State.logicalMap_eq] at h
  obtain ⟨g, hg, hx⟩ := List.mem_flatMap.1 h
  exact State.mem_clusterSites (List.mem_range.1 hg) hx

theorem State.length_logicalMap (s : State) : s.logicalMap.length % 16 = 0 ∧ s.logicalMap.length ≤ 512 := by
  rw [State.logicalMap_eq, List.length_flatMap]
  constructor
  · refine Nat.mod_eq_zero_of_dvd (List.dvd_sum fun n hn => ?_)
    obtain ⟨g, -, rfl⟩ := List.mem_map.1 hn
    rcases s.length_clusterSites g with h | h <;> simp [h]
  · refine (List.sum_le_card_nsmul _ 16 fun n hn => ?_).trans (by simp)
    obtain ⟨g, -, rfl⟩ := List.mem_map.1 hn
    rcases s.length_clusterSites g with h | h <;> simp [h]

/-! ### S5: cores on their sites -/

/-- A core on its site, with its number and its cube configuration (01 R15; 03 R64 to R66). -/
structure Core.Seated (c : Core) (n site u : Nat) : Prop where
  siteLogical : c.siteLogical = BitVec.ofNat 9 n
  site : c.site = BitVec.ofNat 10 site
  cubeLock : c.cubeLock = true
  eqMode : c.eqMode = (u == 13)

/-- A logical core and its cistern put on a site. -/
def State.seatCore (u : Nat) (s : State) (e : Nat × Nat) : State := (s.placeCore e.2 e.1 u).cistFromRecord e.2 e.1

theorem State.seated_seatCore (u : Nat) (s : State) (e : Nat × Nat) : ((s.seatCore u e).core e.2).Seated e.2 e.1 u := by
  have h : (s.seatCore u e).core e.2 = _ := State.core_setCore s e.2 _
  rw [h]
  exact ⟨rfl, rfl, rfl, rfl⟩

theorem State.core_seatCore_other (u : Nat) (s : State) (e : Nat × Nat) {n : Nat} (h : e.2 ≠ n) : (s.seatCore u e).core n = s.core n :=
  State.core_setCore_other s e.2 _ n h

/-- What placing the cores leaves. -/
structure State.SeatsKept (s t : State) : Prop where
  bup : t.bup = s.bup
  nCores : t.nCores = s.nCores

theorem State.seatCores_seated (u : Nat) (map : List Nat) (k : Nat) (s : State) :
    (∀ n < k, ((map.zipIdx k).foldl (State.seatCore u) s).core n = s.core n) ∧
      ∀ i site, map[i]? = some site → (((map.zipIdx k).foldl (State.seatCore u) s).core (k + i)).Seated (k + i) site u := by
  induction map generalizing k s with
  | nil => exact ⟨fun _ _ => rfl, fun i site h => by simp at h⟩
  | cons x xs ih =>
    obtain ⟨hlow, hseat⟩ := ih (k + 1) (s.seatCore u (x, k))
    rw [List.zipIdx_cons, List.foldl_cons]
    refine ⟨fun n hn => ?_, fun i site h => ?_⟩
    · rw [hlow n (by omega)]
      exact s.core_seatCore_other u (x, k) (by dsimp only; omega)
    · cases i with
      | zero =>
        cases h
        rw [Nat.add_zero k, hlow k (by omega)]
        exact s.seated_seatCore u (x, k)
      | succ i =>
        have := hseat i site h
        rwa [Nat.add_right_comm] at this

theorem State.seatCores_kept (u : Nat) (l : List (Nat × Nat)) (s : State) : s.SeatsKept (l.foldl (State.seatCore u) s) :=
  foldl_keeps s.SeatsKept (State.seatCore u) (fun _ _ h => ⟨h.bup, h.nCores⟩) l s ⟨rfl, rfl⟩

/-- The record and the findings reconciled in S5. -/
def State.s5Reconciled (s : State) (x : StageIn) : State := (s.reconcile [4, 5, 6] s.bup.full x.found).retireClusters (if s.bup.full then 1 else 2)
/-- The uniform cube latency of a map. -/
def State.cubeLatency (s : State) : Nat := if s.logicalMap.any s.needsEq then 13 else 12
/-- The map's number of cores, the clusters out of it and the cube latency in the registers. -/
def State.s5Mapped (s : State) : State :=
  { s with nCores := s.logicalMap.length, clusterRetired := (List.range 32).foldl (fun m g => Map.set false m g (s.clusterOut g)) []
           bup := { s.bup with ucl := BitVec.ofNat 4 s.cubeLatency } }
/-- The cube configuration registers of the cores numbered. -/
def cubeRegs (n : Nat) : List Nat := (List.range n).flatMap fun n => (List.range 5).map fun i => 2 ^ 35 + n * 2 ^ 20 + 0x10 + 8 * i
/-- The cores on their sites and the map recorded. -/
def State.s5Placed (s : State) : State :=
  ((s.logicalMap.zipIdx.foldl (fun t e => t.seatCore s.cubeLatency e) s.s5Mapped).bootAudits s.s5Mapped (cubeRegs s.logicalMap.length)).recordMap
    s.logicalMap

theorem State.stageS5_eq (s : State) (x : StageIn) : s.stageS5 x =
    if (s.s5Reconciled x).logicalMap = [] then (s.s5Reconciled x).s5Mapped.failStage x.durationMs
    else (s.s5Reconciled x).s5Placed.endStage x.durationMs := by
  unfold State.stageS5 State.s5Placed State.s5Mapped State.s5Reconciled State.seatCore cubeRegs State.cubeLatency
  rfl

theorem State.s5Mapped_maps (s : State) : s.s5Mapped.nCores = s.logicalMap.length ∧ s.s5Mapped.bup.stage = s.bup.stage ∧
    s.s5Mapped.bup.ucl = BitVec.ofNat 4 s.cubeLatency := ⟨rfl, rfl, rfl⟩

/-- What recording the map and its audits keep of the cores and the stage. -/
structure State.CoresKept (s t : State) : Prop where
  bup : t.bup = s.bup
  nCores : t.nCores = s.nCores
  cores : t.cores = s.cores

theorem State.coresKept_bootAudits (s old : State) (l : List Nat) : s.CoresKept (s.bootAudits old l) := by
  unfold State.bootAudits
  extract_lets one
  generalize l.flatMap one = audits
  have h := s.sameButBup_postChange 0 audits
  exact ⟨s.bup_postChange 0 audits, h.nCores, h.cores⟩

theorem State.recordMap_records (s : State) (map : List Nat) : s.CoresKept (s.recordMap map) ∧ (s.recordMap map).profMap = map := by
  unfold State.recordMap
  split
  · exact ⟨⟨rfl, rfl, rfl⟩, rfl⟩
  · exact ⟨⟨rfl, rfl, rfl⟩, rfl⟩

theorem State.core_of_cores {s t : State} (h : t.cores = s.cores) (n : Nat) : t.core n = s.core n := by
  unfold State.core
  rw [h]

/-- The cores of a map on their sites (15 R331). -/
structure State.Placed (s u : State) : Prop where
  stage : u.bup.stage = s.bup.stage
  ucl : u.bup.ucl = BitVec.ofNat 4 s.cubeLatency
  nCores : u.nCores = s.logicalMap.length
  profMap : u.profMap = s.logicalMap
  seated : ∀ n site, s.logicalMap[n]? = some site → (u.core n).Seated n site s.cubeLatency

theorem State.s5Placed_placed (s : State) : s.Placed s.s5Placed := by
  obtain ⟨hn, hstage, hucl⟩ := s.s5Mapped_maps
  have hkept := State.seatCores_kept s.cubeLatency s.logicalMap.zipIdx s.s5Mapped
  have hseated := (State.seatCores_seated s.cubeLatency s.logicalMap 0 s.s5Mapped).2
  unfold State.s5Placed
  generalize s.s5Mapped = m at hn hstage hucl hkept hseated ⊢
  generalize s.logicalMap.zipIdx.foldl (State.seatCore s.cubeLatency) m = t at hkept hseated ⊢
  have haudits := t.coresKept_bootAudits m (cubeRegs s.logicalMap.length)
  generalize t.bootAudits m (cubeRegs s.logicalMap.length) = v at haudits ⊢
  obtain ⟨hmap, hprof⟩ := v.recordMap_records s.logicalMap
  generalize v.recordMap s.logicalMap = w at hmap hprof ⊢
  have hbup : w.bup = m.bup := hmap.bup.trans (haudits.bup.trans hkept.bup)
  have hcores : w.cores = t.cores := hmap.cores.trans haudits.cores
  refine ⟨by rw [hbup, hstage], by rw [hbup, hucl], hmap.nCores.trans (haudits.nCores.trans (hkept.nCores.trans hn)), hprof, fun n site h => ?_⟩
  have hcore : w.core n = t.core n := State.core_of_cores hcores n
  rw [hcore]
  simpa only [Nat.zero_add] using hseated n site h

theorem State.stage_s5Reconciled (s : State) (x : StageIn) : (s.s5Reconciled x).bup.stage = s.bup.stage := by
  unfold State.s5Reconciled
  rw [State.stage_retireClusters, State.stage_reconcile]

/-- The device's cores after S5 (01 R15; 03 R64 to R66). -/
structure State.CoresReady (u : State) : Prop where
  pos : 0 < u.nCores
  mod : u.nCores % 16 = 0
  le : u.nCores ≤ 512
  ucl : u.bup.ucl = 12 ∨ u.bup.ucl = 13
  core : ∀ n < u.nCores, (u.core n).siteLogical = BitVec.ofNat 9 n ∧ (u.core n).cubeLock = true ∧
    ((u.core n).eqMode = true ↔ u.bup.ucl = 13) ∧ u.profMap[n]? = some (u.core n).site.toNat

theorem State.cubeLatency_cases (s : State) : s.cubeLatency = 12 ∨ s.cubeLatency = 13 := by
  unfold State.cubeLatency
  split
  · exact .inr rfl
  · exact .inl rfl

theorem State.Placed.coresReady {s u : State} (h : s.Placed u) (hmap : s.logicalMap ≠ []) : u.CoresReady := by
  obtain ⟨hmod, hle⟩ := s.length_logicalMap
  refine ⟨?_, ?_, ?_, ?_, fun n hn => ?_⟩
  · rw [h.nCores]
    exact List.length_pos_of_ne_nil hmap
  · rw [h.nCores, hmod]
  · rw [h.nCores]
    exact hle
  · rw [h.ucl]
    rcases s.cubeLatency_cases with hu | hu <;> simp [hu]
  · rw [h.nCores] at hn
    have hsite := List.getElem?_eq_getElem hn
    obtain ⟨hlogical, hseat, hlock, heq⟩ := h.seated n _ hsite
    have hlt := State.mem_logicalMap (List.getElem_mem hn)
    refine ⟨hlogical, hlock, ?_, ?_⟩
    · rw [heq, h.ucl]
      rcases s.cubeLatency_cases with hu | hu <;> simp [hu]
    · rw [h.profMap, hsite, hseat, BitVec.toNat_ofNat, Nat.mod_eq_of_lt hlt]

theorem State.CoresReady.of_ended {t u : State} (h : t.CoresReady) (hend : t.Ended u) : u.CoresReady := by
  obtain ⟨hpos, hmod, hle, hucl, hcore⟩ := h
  have hcores (n : Nat) : u.core n = t.core n := State.core_of_cores hend.rest.cores n
  rw [← hend.rest.nCores] at hpos hmod hle hcore
  rw [← hend.ucl, ← hend.rest.profMap] at hcore
  rw [← hend.ucl] at hucl
  exact ⟨hpos, hmod, hle, hucl, fun n hn => by rw [hcores n]; exact hcore n hn⟩

theorem State.stageS5_ends (s : State) (x : StageIn) : ((s.stageS5 x).bup.failed = true ∧ (s.stageS5 x).nCores = 0) ∨
    ((s.stageS5 x).bup.stage = nextStage s.bup.stage ∧ (s.stageS5 x).CoresReady) := by
  have hstage := s.stage_s5Reconciled x
  rw [State.stageS5_eq]
  generalize s.s5Reconciled x = t at hstage ⊢
  split
  · next hmap =>
    have h := t.s5Mapped.failStage_stopped x.durationMs
    exact .inl ⟨h.failed, by rw [h.rest.nCores, t.s5Mapped_maps.1, hmap]; rfl⟩
  · next hmap =>
    have h := t.s5Placed_placed
    exact .inr ⟨by rw [State.stage_endStage, h.stage, hstage], (h.coresReady hmap).of_ended (t.s5Placed.endStage_ended x.durationMs)⟩

/-! ### The repair record and the revocation counter -/

/-- What the record's writing and the counter's blowing keep of the state. -/
structure State.SpareKept (s t : State) : Prop where
  stage : t.bup.stage = s.bup.stage
  gate : t.gate = s.gate
  profGen : t.profGen = s.profGen

theorem State.SpareKept.trans {s t u : State} (h : s.SpareKept t) (h' : t.SpareKept u) : s.SpareKept u :=
  ⟨h'.stage.trans h.stage, h'.gate.trans h.gate, h'.profGen.trans h.profGen⟩

/-- The half of the record a write fills (15 R344). -/
def State.recordHalf (s : State) (readback : Bool) : RecHalf :=
  { valid := readback, gen := s.bup.recGen + 1, startNo := s.startNo, quick := s.bup.quick.setWidth 16
    lastFull := if s.bup.full then s.startNo else match s.flash.record with | some (_, h) => h.lastFull | none => 0
    ents := s.repairs.take 524284 }
/-- Whether the half not in use is half B. -/
def State.writesB (s : State) : Bool := match s.flash.record with | some (h, _) => !h | none => false

/-- `u` is `s` with `half` written into the half of the record not in use. -/
structure State.RecordWritten (s u : State) (half : RecHalf) : Prop where
  flash : u.flash = if s.writesB then { s.flash with recB := half } else { s.flash with recA := half }
  repDirty : u.repDirty = none
  recPending : u.bup.recPending = !half.valid
  kept : s.SpareKept u

theorem State.writeRecord_writes {s : State} (readback : Bool) (hwarm : s.flashTemp = true) :
    s.RecordWritten (s.writeRecord readback) (s.recordHalf readback) := by
  unfold State.writeRecord
  extract_lets b old toB lastFull ents more half src t u
  rw [if_neg (by rw [hwarm]; exact Bool.false_ne_true)]
  have ht : t.flash = (if s.writesB then { s.flash with recB := s.recordHalf readback } else { s.flash with recA := s.recordHalf readback }) ∧
    s.SpareKept t := ⟨rfl, rfl, rfl, rfl⟩
  clear_value t
  have hu : u.flash = t.flash ∧ t.SpareKept u := by
    unfold u
    split
    · exact ⟨rfl, rfl, rfl, rfl⟩
    · exact ⟨rfl, rfl, rfl, rfl⟩
  clear_value u
  obtain ⟨htflash, htkept⟩ := ht
  obtain ⟨huflash, hukept⟩ := hu
  have hkept := htkept.trans hukept
  cases readback with
  | true => exact ⟨huflash.trans htflash, rfl, rfl, ⟨rfl, hkept.gate, hkept.profGen⟩⟩
  | false => exact ⟨huflash.trans htflash, rfl, rfl, ⟨rfl, hkept.gate, hkept.profGen⟩⟩

theorem State.writeRecord_kept (s : State) (readback : Bool) : s.SpareKept (s.writeRecord readback) := by
  cases hwarm : s.flashTemp with
  | true => exact (State.writeRecord_writes readback hwarm).kept
  | false =>
    unfold State.writeRecord
    dsimp only
    rw [if_pos (by rw [hwarm]; rfl)]
    exact ⟨rfl, rfl, rfl⟩

theorem recordWrite_of_due {s : State} {readback : Bool} (hready : s.bup.ready = true)
    (hdue : (s.bup.recPending = true ∧ s.bup.recRetry + 96000000000 ≤ s.time) ∨ (s.bup.recPending = false ∧ s.repDirty ≠ none)) :
    recordWrite s readback = s.writeRecord readback := by
  unfold recordWrite
  dsimp only
  rw [if_neg (by simp [hready])]
  rcases hdue with ⟨hpend, hretry⟩ | ⟨hpend, hdirty⟩
  · rw [if_pos hpend, if_pos hretry]
  · rw [if_neg (by simp [hpend]), if_pos (Option.isSome_iff_ne_none.2 hdirty)]

theorem recordWrite_of_clean {s : State} {readback : Bool}
    (h : s.bup.ready = false ∨ (s.bup.recPending = false ∧ s.repDirty = none)) : recordWrite s readback = s := by
  unfold recordWrite
  dsimp only
  rcases h with hready | ⟨hpend, hdirty⟩
  · rw [if_pos (by simp [hready])]
  · rw [if_neg (by simp [hpend] : ¬ s.bup.recPending = true), if_neg (by simp [hdirty] : ¬ s.repDirty.isSome = true), ite_self]

theorem State.blowCounter_kept (s : State) : s.SpareKept s.blowCounter := by
  unfold State.blowCounter
  dsimp only
  split
  · exact ⟨rfl, rfl, rfl⟩
  · split
    · exact ⟨rfl, rfl, rfl⟩
    · exact ⟨rfl, rfl, rfl⟩

/-- Whether the counter is behind an image that commits its SVN. -/
theorem State.blowCounter_behind {s : State} (hcommit : s.wh.fw.commit = true) (hsvn : s.fuses.counter.toNat < s.wh.fw.svn.toNat) :
    ¬ ((!s.wh.fw.commit) = true ∨ s.wh.fw.svn.toNat ≤ s.fuses.counter.toNat) := by
  rw [hcommit]
  simpa using hsvn

theorem State.blowCounter_cold {s : State} (hcommit : s.wh.fw.commit = true) (hsvn : s.fuses.counter.toNat < s.wh.fw.svn.toNat)
    (hcold : s.flashTemp = false) : s.blowCounter = { s with wh := { s.wh with counterRetry := some s.time } } := by
  unfold State.blowCounter
  dsimp only
  rw [if_neg (State.blowCounter_behind hcommit hsvn), if_pos (by rw [hcold]; rfl)]

theorem State.blowCounter_warm {s : State} (hcommit : s.wh.fw.commit = true) (hsvn : s.fuses.counter.toNat < s.wh.fw.svn.toNat)
    (hwarm : s.flashTemp = true) : s.blowCounter.fuses = { s.fuses with counter := s.wh.fw.svn } ∧
      s.blowCounter.wh = { s.wh with counterRetry := none } := by
  unfold State.blowCounter
  dsimp only
  rw [if_neg (State.blowCounter_behind hcommit hsvn), if_neg (by rw [hwarm]; exact Bool.false_ne_true)]
  exact ⟨rfl, rfl⟩

theorem counterRetry_of_some {s : State} {a : Nat} (h : s.wh.counterRetry = some a) :
    counterRetry s = if a + 96000000000 ≤ s.time then s.blowCounter else s := by
  unfold counterRetry
  rw [h]

/-! ### S6 -/

/-- The profile's generation raised, the gate closed at the measured power, the sluices' shares set. -/
def State.s6Profiled (s : State) : State := { s with profGen := s.profGen + 1, gate := { target := s.thm.sampleW }, fwShares := true }

theorem State.stageS6_eq (s : State) (x : StageIn) :
    s.stageS6 x = ((s.s6Profiled.writeRecord x.readback).blowCounter).endStage x.durationMs := by
  simp only [State.stageS6, State.s6Profiled]

theorem State.stageS6_readies {s : State} (hstage : s.bup.stage = 6) (x : StageIn) : (s.stageS6 x).bup.ready = true ∧
    (s.stageS6 x).bup.running = false ∧ (s.stageS6 x).profGen = s.profGen + 1 ∧ (s.stageS6 x).gate = { target := s.thm.sampleW } := by
  have hprofiled : s.s6Profiled.bup.stage = s.bup.stage ∧ s.s6Profiled.profGen = s.profGen + 1 ∧
    s.s6Profiled.gate = { target := s.thm.sampleW } := ⟨rfl, rfl, rfl⟩
  obtain ⟨hprofStage, hprofGen, hgate⟩ := hprofiled
  have hkept := (s.s6Profiled.writeRecord_kept x.readback).trans (State.blowCounter_kept _)
  rw [State.stageS6_eq]
  generalize (s.s6Profiled.writeRecord x.readback).blowCounter = t at hkept ⊢
  have hend := t.endStage_ended x.durationMs
  have ht : t.bup.stage = 6 := hkept.stage.trans (hprofStage.trans hstage)
  exact ⟨by rw [hend.ready, ht]; rfl, by rw [hend.running, ht]; rfl, by rw [hend.rest.profGen, hkept.profGen, hprofGen],
    by rw [hend.rest.gate, hkept.gate, hgate]⟩

/-! ### The stages in their order -/

theorem exec_stageEnd (s : State) (st : BitVec 3) (x : StageIn) : exec (.stageEnd st x) s = .next (stageEnd s st.toNat x) := rfl

/-- Stage `st` is in progress and ends within its time. -/
structure State.InStage (s : State) (st : Nat) (x : StageIn) : Prop where
  running : s.bup.running = true
  stage : s.bup.stage = BitVec.ofNat 4 st
  lt : st < 7
  inTime : tooLong st s.bup.full x.durationMs = false

theorem State.InStage.goes {s : State} {st : Nat} {x : StageIn} (h : s.InStage st x) :
    ¬ ((!s.bup.running) = true ∨ s.bup.stage.toNat ≠ st ∨ tooLong st s.bup.full x.durationMs = true) := by
  obtain ⟨hrun, hstage, hlt, hlong⟩ := h
  exact stageEnd_goes hrun (by rw [hstage, BitVec.toNat_ofNat]; omega) hlong

/-- S0 (15 R331; 14 R309): an image that checks is the firmware that runs. -/
theorem stageEnd_s0_boots {s : State} {x : StageIn} (h : s.InStage 0 x) (hmode : s.bup.bootMode ≠ 0) (hflash : x.flashOk = true)
    (hcheck : s.fwCheck s.flash.image = none) : (stageEnd s 0 x).wh.fw = fwOf s.flash.image ∧ (stageEnd s 0 x).bup.stage = 1 ∧
      (stageEnd s 0 x).bup.running = true := by
  have hgo : stageEnd s 0 x = s.stageS0 x := if_neg h.goes
  rw [hgo, State.stageS0_boots hmode hflash hcheck]
  have hloaded : (({ s with wh := { s.wh with fw := fwOf s.flash.image } } : State).wh.fw = fwOf s.flash.image) ∧
    ({ s with wh := { s.wh with fw := fwOf s.flash.image } } : State).bup.stage = 0 := ⟨rfl, h.stage⟩
  generalize ({ s with wh := { s.wh with fw := fwOf s.flash.image } } : State) = t at hloaded ⊢
  have hend := t.endStage_ended x.durationMs
  exact ⟨by rw [hend.rest.wh, hloaded.1], by rw [hend.stage, hloaded.2]; rfl, by rw [hend.running, hloaded.2]; rfl⟩

/-- The state recovery leaves (14 R310). -/
structure State.Recovering (s u : State) (why : Nat) : Prop where
  recovery : u.wh.recovery = true
  cause : u.wh.cause = BitVec.ofNat 4 why
  running : u.bup.running = false
  stage : u.bup.stage = s.bup.stage
  events : u.events = s.events ++ [{ post := s.time, src := 14, body := .ev cWhdBootRecovery none ([0, 0, why, 0].map (BitVec.ofNat 64)),
                                     audits := [] }]

theorem State.enterRecovery_recovering (s : State) (cause : Nat) : s.Recovering (s.enterRecovery cause) cause :=
  ⟨rfl, rfl, rfl, rfl, rfl⟩

/-- S0 (14 R310): a strap, a flash or an image that fails enters recovery. -/
theorem stageEnd_s0_recovers {s : State} {x : StageIn} {k : Nat} (h : s.InStage 0 x)
    (hk : (s.bup.bootMode = 0 ∧ k = 6) ∨ (s.bup.bootMode ≠ 0 ∧ x.flashOk = false ∧ k = 1) ∨
      (s.bup.bootMode ≠ 0 ∧ x.flashOk = true ∧ s.fwCheck s.flash.image = some k)) : s.Recovering (stageEnd s 0 x) k := by
  have hgo : stageEnd s 0 x = s.stageS0 x := if_neg h.goes
  rw [hgo, State.stageS0_recovers hk]
  exact s.enterRecovery_recovering k

theorem stageEnd_s1 {s : State} {x : StageIn} (h : s.InStage 1 x) :
    stageEnd s 1 x = s.stageS1 x ∧ (stageEnd s 1 x).bup.stage = 2 ∧ (stageEnd s 1 x).bup.s1Restarts = 0 := by
  have hgo : stageEnd s 1 x = s.stageS1 x := if_neg h.goes
  obtain ⟨-, hstage, hrestarts⟩ := s.stageS1_keeps x
  rw [hgo]
  exact ⟨rfl, by rw [hstage, h.stage]; rfl, hrestarts⟩

theorem stageEnd_s2 {s : State} {x : StageIn} (h : s.InStage 2 x) : (stageEnd s 2 x).mem = s.mem ∧
    (((stageEnd s 2 x).bup.failed = true ∧ (stageEnd s 2 x).bup.running = false) ∨ (stageEnd s 2 x).bup.stage = 3) ∧
    (x.dies = 3 → s.isRetired 0x0E 0 = false → s.isRetired 0x0E 1 = false → (stageEnd s 2 x).bup.stage = 3) ∧
    (x.dies = 0 → s.repairs = [] → (stageEnd s 2 x).bup.failed = true) := by
  have hgo : stageEnd s 2 x = s.stageS2 x := if_neg h.goes
  have hnext : nextStage s.bup.stage = 3 := by rw [h.stage]; rfl
  have hends := s.stageS2_ends x
  rw [hnext] at hends
  rw [hgo]
  exact ⟨s.mem_stageS2 x, hends, fun hdies h0 h1 => (State.stageS2_of_clocked hdies ⟨h0, h1⟩).trans hnext,
    fun hdies hreps => State.stageS2_of_dead hdies hreps⟩

theorem stageEnd_s3 {s : State} {x : StageIn} (h : s.InStage 3 x) :
    (stageEnd s 3 x).mem = [] ∧ (stageEnd s 3 x).cw = [] ∧ (stageEnd s 3 x).bup.stage = 4 := by
  have hgo : stageEnd s 3 x = s.stageS3 x := if_neg h.goes
  obtain ⟨hmem, hcw, hstage⟩ := s.stageS3_zeroes x
  rw [hgo]
  exact ⟨hmem, hcw, by rw [hstage, h.stage]; rfl⟩

theorem stageEnd_s4 {s : State} {x : StageIn} (h : s.InStage 4 x) :
    ((stageEnd s 4 x).bup.failed = true ∨ (stageEnd s 4 x).bup.stage = 5) ∧ (stageEnd s 4 x).mem = s.mem := by
  have hgo : stageEnd s 4 x = s.stageS4 x := if_neg h.goes
  have hnext : nextStage s.bup.stage = 5 := by rw [h.stage]; rfl
  have hends := s.stageS4_ends x
  rw [hnext] at hends
  rw [hgo]
  exact ⟨hends, s.mem_stageS4 x⟩

theorem stageEnd_s5 {s : State} {x : StageIn} (h : s.InStage 5 x) :
    ((stageEnd s 5 x).bup.failed = true ∧ (stageEnd s 5 x).nCores = 0) ∨
      ((stageEnd s 5 x).bup.stage = 6 ∧ (stageEnd s 5 x).CoresReady) := by
  have hgo : stageEnd s 5 x = s.stageS5 x := if_neg h.goes
  have hnext : nextStage s.bup.stage = 6 := by rw [h.stage]; rfl
  have hends := s.stageS5_ends x
  rw [hnext] at hends
  rw [hgo]
  exact hends

theorem stageEnd_s6 {s : State} {x : StageIn} (h : s.InStage 6 x) : (stageEnd s 6 x).bup.ready = true ∧
    (stageEnd s 6 x).bup.running = false ∧ (stageEnd s 6 x).profGen = s.profGen + 1 ∧
    (stageEnd s 6 x).gate.target = s.thm.sampleW ∧ (stageEnd s 6 x).gate.opened = 0 := by
  have hgo : stageEnd s 6 x = s.stageS6 x := if_neg h.goes
  obtain ⟨hready, hrun, hgen, hgate⟩ := State.stageS6_readies h.stage x
  rw [hgo]
  exact ⟨hready, hrun, hgen, by rw [hgate], by rw [hgate]⟩

theorem stageTimeout_stops {s : State} {st ms : Nat} (hrun : s.bup.running = true) (hstage : s.bup.stage.toNat = st)
    (hlong : tooLong st s.bup.full ms = true) : s.Stopped (stageTimeout s st ms) := by
  unfold stageTimeout
  rw [if_pos ⟨hrun, hstage, hlong⟩]
  exact s.failStage_stopped ms

theorem stageTimeout_inTime {s : State} {st ms : Nat} (hlong : tooLong st s.bup.full ms = false) : stageTimeout s st ms = s := by
  unfold stageTimeout
  exact if_neg fun h => by simp [hlong] at h

/-- A stage in progress that ends within its time. -/
theorem State.inStage {s : State} {st : BitVec 3} {x : StageIn} {k : Nat} (hrun : s.bup.running = true)
    (hstage : s.bup.stage.toNat = st.toNat) (hlong : tooLong st.toNat s.bup.full x.durationMs = false) (hst : st.toNat = k) (hk : k < 7) :
    s.InStage k x := by
  rw [hst] at hstage hlong
  exact ⟨hrun, by rw [← hstage, BitVec.ofNat_toNat, BitVec.setWidth_eq], hk, hlong⟩

/-- Settles O54: each stage by what it does (S0 to S6 above), then the timeout, the repair record and the revocation counter. -/
theorem startStages : Obligations.StartStages := by
  unfold Obligations.StartStages
  refine ⟨fun s st x => ⟨fun h => ?_, fun hrun hstage hlong => ?_⟩, fun s st ms => ⟨fun hrun hstage hlong => ?_, fun hlong => ?_⟩,
    fun s rb hready hwarm hdue => ?_, fun s rb h => ?_, fun s a ha => ⟨fun hearly => ?_, fun hdue hcommit hsvn => ?_⟩⟩
  · rw [exec_stageEnd, stageEnd_of_idle h]
  · rw [exec_stageEnd]
    refine ⟨?_, ?_, ?_, ?_, ?_, ?_, ?_, ?_⟩
    · rintro rfl hmode hflash hcheck
      exact ⟨_, rfl, stageEnd_s0_boots (State.inStage hrun hstage hlong rfl (by decide)) hmode hflash hcheck⟩
    · rintro k rfl hk
      have h0 := State.inStage hrun hstage hlong rfl (by decide)
      obtain ⟨hrec, hcause, hrun', hstage', hev⟩ := stageEnd_s0_recovers h0 hk
      exact ⟨_, rfl, hrec, hcause, hrun', hstage'.trans h0.stage, hev⟩
    · rintro rfl
      obtain ⟨heq, hnext, hrestarts⟩ := stageEnd_s1 (State.inStage hrun hstage hlong rfl (by decide))
      obtain ⟨hparams, hcfg, hinj, hgate, hen, hrec, hnone⟩ := s.stageS1_loads x
      rw [← heq] at hparams hcfg hinj hgate hen hrec hnone
      exact ⟨_, rfl, hnext, hparams, hcfg, hinj, hgate, hen, hrestarts, hrec, hnone⟩
    · rintro rfl
      exact ⟨_, rfl, stageEnd_s2 (State.inStage hrun hstage hlong rfl (by decide))⟩
    · rintro rfl
      exact ⟨_, rfl, stageEnd_s3 (State.inStage hrun hstage hlong rfl (by decide))⟩
    · rintro rfl
      exact ⟨_, rfl, stageEnd_s4 (State.inStage hrun hstage hlong rfl (by decide))⟩
    · rintro rfl
      refine ⟨_, rfl, (stageEnd_s5 (State.inStage hrun hstage hlong rfl (by decide))).imp_right fun h => ?_⟩
      obtain ⟨hnext, hpos, hmod, hle, hucl, hcore⟩ := h
      exact ⟨hnext, hpos, hmod, hle, hucl, hcore⟩
    · rintro rfl
      exact ⟨_, rfl, stageEnd_s6 (State.inStage hrun hstage hlong rfl (by decide))⟩
  · obtain ⟨hfailed, hstopped, hsame, hrest⟩ := stageTimeout_stops hrun hstage hlong
    exact ⟨_, rfl, hfailed, hstopped, hsame, hrest.mem⟩
  · exact congrArg Host.Outcome.next (stageTimeout_inTime hlong)
  · have hwrite : exec (.recordWrite rb) s = .next (s.writeRecord rb) := congrArg Host.Outcome.next (recordWrite_of_due hready hdue)
    obtain ⟨hflash, hdirty, hpend, -⟩ := State.writeRecord_writes rb hwarm
    refine ⟨_, s.recordHalf rb, hwrite, rfl, rfl, rfl, rfl, hdirty, hpend, fun r hr => ?_, fun r hr => ?_, fun hr => ?_⟩
    · rw [hflash, State.writesB, hr]; rfl
    · rw [hflash, State.writesB, hr]; rfl
    · rw [hflash, State.writesB, hr]; rfl
  · exact congrArg Host.Outcome.next (recordWrite_of_clean h)
  · have hwait : counterRetry s = s := by rw [counterRetry_of_some ha, if_neg (by omega)]
    exact congrArg Host.Outcome.next hwait
  · have hblow : exec .revocationCounterRetry s = .next s.blowCounter :=
      congrArg Host.Outcome.next (by rw [counterRetry_of_some ha, if_pos hdue])
    rw [hblow]
    exact ⟨fun hcold => congrArg Host.Outcome.next (State.blowCounter_cold hcommit hsvn hcold),
      fun hwarm => ⟨_, rfl, State.blowCounter_warm hcommit hsvn hwarm⟩⟩

end Sys2Proof.Machine
end

section
/-! PROOFS. O14: the asynchronous ports of a scratchpad (03 R61, R62). A bank word is two whole SRAM words, so a write of it renews both
check bytes without reading, and a read of it without bit errors decodes both words as stored. -/

namespace Sys2Proof.Machine

/-! ### Little-endian bytes (00 R4) -/

@[simp] theorem length_leBytes (n x : Nat) : (leBytes n x).length = n := by
  induction n generalizing x with
  | zero => rfl
  | succ n ih => simp [leBytes, ih]

theorem getD_leBytes {n i : Nat} (x : Nat) (hi : i < n) : (leBytes n x).getD i 0 = BitVec.ofNat 8 (x / 256 ^ i) := by
  induction n generalizing x i with
  | zero => omega
  | succ n ih =>
    cases i with
    | zero => simp [leBytes]
    | succ i => rw [leBytes, List.getD_cons_succ, ih _ (by omega), Nat.div_div_eq_div_mul, Nat.pow_succ']

theorem leNat_div_mod (bs : List Byte) (i : Nat) : leNat bs / 256 ^ i % 256 = (bs.getD i 0).toNat := by
  induction bs generalizing i with
  | nil => simp [leNat]
  | cons b bs ih =>
    have hb := b.isLt
    cases i with
    | zero => simp only [leNat, List.getD_cons_zero]; omega
    | succ i =>
      have hrest : (b.toNat + 256 * leNat bs) / 256 = leNat bs := by omega
      rw [leNat, List.getD_cons_succ, Nat.pow_succ', ← Nat.div_div_eq_div_mul, hrest, ih]

theorem shiftRight_byte (x i : Nat) : x >>> (8 * i) = x / 256 ^ i := by
  rw [Nat.shiftRight_eq_div_pow, Nat.pow_mul]

/-- A byte of a value's little-endian bytes is that byte of the value. -/
theorem getD_leBytes_toNat {w n i : Nat} (x : BitVec w) (hi : i < n) : (leBytes n x.toNat).getD i 0 = x.extractLsb' (8 * i) 8 := by
  rw [getD_leBytes _ hi, ← shiftRight_byte]
  rfl

/-- A byte of the value of little-endian bytes is that byte of the list. -/
theorem extractLsb'_leNat {w i : Nat} (bs : List Byte) (hi : 8 * i + 8 ≤ w) :
    (BitVec.ofNat w (leNat bs)).extractLsb' (8 * i) 8 = bs.getD i 0 := by
  have hbyte : bs.getD i 0 = BitVec.ofNat 8 (leNat bs >>> (8 * i)) := by
    apply BitVec.eq_of_toNat_eq
    rw [← leNat_div_mod, ← shiftRight_byte, BitVec.toNat_ofNat]
  rw [hbyte]
  ext j hj
  have hin : 8 * i + j < w := by omega
  rw [BitVec.getElem_extractLsb', BitVec.getLsbD_ofNat, ← BitVec.getLsbD_eq_getElem, BitVec.getLsbD_ofNat, Nat.testBit_shiftRight]
  simp [hin, hj]

/-! ### Bank words in SRAM (03 R62) -/

theorem pieces_bankWord {key : Nat} (hkey : key % 8 = 0) : pieces 8 (16 / 8 + 2) key 16 = [(key, 8), (key + 8, 8)] := by
  have hnext : (key + 8) % 8 = 0 := by omega
  simp [pieces, hkey, hnext]

/-- Both words of a bank word are written whole, so that nothing is read and nothing reported. -/
theorem State.writeSram_bankWord (s : State) {key : Nat} {bs : List Byte} (hkey : key % 8 = 0) (hlen : bs.length = 16) :
    s.writeSram key bs =
      ({ (s.setRaw key (bs.take 8)).setRaw (key + 8) ((bs.drop 8).take 8) with
          sram := Map.set 0 (Map.set 0 s.sram (key / 8) 0) ((key + 8) / 8) 0 }, none, 0) := by
  unfold State.writeSram
  rw [hlen, pieces_bankWord hkey]
  simp

theorem State.mem_writeSram_bankWord (s : State) {key : Nat} {bs : List Byte} (hkey : key % 8 = 0) (hlen : bs.length = 16) (a : Nat) :
    Map.get 0 (s.writeSram key bs).1.mem a = if key ≤ a ∧ a < key + 16 then bs.getD (a - key) 0 else Map.get 0 s.mem a := by
  rw [s.writeSram_bankWord hkey hlen]
  change Map.get 0 ((s.setRaw key (bs.take 8)).setRaw (key + 8) ((bs.drop 8).take 8)).mem a = _
  have hlow : (bs.take 8).length = 8 := by simp [hlen]
  have hhigh : ((bs.drop 8).take 8).length = 8 := by simp [hlen]
  rw [State.get_setRaw, State.get_setRaw, hlow, hhigh]
  by_cases hin : key ≤ a ∧ a < key + 16
  · rw [if_pos hin]
    by_cases hword : key + 8 ≤ a
    · rw [if_pos (by omega)]
      simp [List.getD_eq_getElem?_getD, show a - (key + 8) < 8 by omega, show 8 + (a - (key + 8)) = a - key by omega]
    · rw [if_neg (by omega), if_pos (by omega)]
      simp [List.getD_eq_getElem?_getD, show a - key < 8 by omega]
  · rw [if_neg hin, if_neg (by omega), if_neg (by omega)]

/-- Both words of a bank word written have good check bits. -/
theorem State.sram_writeSram_bankWord (s : State) {key : Nat} {bs : List Byte} (hkey : key % 8 = 0) (hlen : bs.length = 16) (w : Nat) :
    Map.get 0 (s.writeSram key bs).1.sram w = if key / 8 ≤ w ∧ w < key / 8 + 2 then 0 else Map.get 0 s.sram w := by
  have hnext : (key + 8) / 8 = key / 8 + 1 := by omega
  rw [s.writeSram_bankWord hkey hlen, hnext]
  change Map.get 0 (Map.set 0 (Map.set 0 s.sram (key / 8) 0) (key / 8 + 1) 0) w = _
  rw [Map.get_set, Map.get_set]
  grind

/-- A word without bit errors is read as stored. -/
theorem State.decodeSram_clean {s : State} {key : Nat} (hclean : Map.get 0 s.sram (key / 8) = 0) :
    s.decodeSram key = (some (s.raw (key / 8 * 8) 8), false) := by
  have hcount : popCount 72 (Map.get 0 s.sram (key / 8)).toNat = 0 := by rw [hclean]; decide
  simp only [State.decodeSram, hcount, if_true]

theorem State.raw_append (s : State) (key m n : Nat) : s.raw key m ++ s.raw (key + m) n = s.raw key (m + n) := by
  simp [State.raw, Map.getRange_eq, List.range_add, Nat.add_assoc]

theorem State.getD_raw (s : State) (key : Nat) {n i : Nat} (hi : i < n) : (s.raw key n).getD i 0 = Map.get 0 s.mem (key + i) := by
  simp [State.raw, Map.getRange_eq, hi]

theorem State.length_raw (s : State) (key n : Nat) : (s.raw key n).length = n := Map.length_getRange ..

theorem State.readSram_bankWord {s : State} {key : Nat} (hkey : key % 8 = 0)
    (hclean : ∀ i, i < 2 → Map.get 0 s.sram (key / 8 + i) = 0) : s.readSram key 16 = (s.raw key 16, none, 0) := by
  have hdiv : (key + 8) / 8 = key / 8 + 1 := by omega
  have hfirst : s.decodeSram key = (some (s.raw key 8), false) := by
    rw [State.decodeSram_clean (hclean 0 (by decide)), show key / 8 * 8 = key by omega]
  have hsecond : s.decodeSram (key + 8) = (some (s.raw (key + 8) 8), false) := by
    rw [State.decodeSram_clean (hdiv ▸ hclean 1 (by decide)), show (key + 8) / 8 * 8 = key + 8 by omega]
  have hlen := fun key => List.take_of_length_le (s.length_raw key 8).le
  unfold State.readSram
  rw [pieces_bankWord hkey]
  simp [hfirst, hsecond, hkey, hlen, s.raw_append key 8 8]

/-! ### An access performed -/

theorem padMA_bankWord (n w : Nat) : padMA n (w * 16) % 8 = 0 := by unfold padMA; omega

/-- A write is one of its bank word in SRAM; of the core it touches its own reports alone. -/
theorem State.asyncPerform_of_write (s : State) (n : Nat) {a : AsyncAcc} (hwr : a.wr = true) :
    ∃ c, s.asyncPerform n a = (s.writeSram (padMA n (a.off / 16 * 16)) (leBytes 16 a.data.toNat)).1.setCore n c := by
  unfold State.asyncPerform
  rw [if_pos hwr]
  exact ⟨_, rfl⟩

section
variable (s : State) (n : Nat) {a : AsyncAcc} (hwr : a.wr = true)
include hwr

theorem State.mem_asyncPerform_write (x : Nat) :
    Map.get 0 (s.asyncPerform n a).mem x =
      if padMA n (a.off / 16 * 16) ≤ x ∧ x < padMA n (a.off / 16 * 16) + 16 then a.data.extractLsb' (8 * (x - padMA n (a.off / 16 * 16))) 8
      else Map.get 0 s.mem x := by
  obtain ⟨c, hwritten⟩ := s.asyncPerform_of_write n hwr
  rw [hwritten, State.setCore_mem, s.mem_writeSram_bankWord (padMA_bankWord n _) (length_leBytes ..)]
  split
  · exact getD_leBytes_toNat a.data (by omega)
  · rfl

theorem State.sram_asyncPerform_write (w : Nat) :
    Map.get 0 (s.asyncPerform n a).sram w =
      if padMA n (a.off / 16 * 16) / 8 ≤ w ∧ w < padMA n (a.off / 16 * 16) / 8 + 2 then 0 else Map.get 0 s.sram w := by
  obtain ⟨c, hwritten⟩ := s.asyncPerform_of_write n hwr
  rw [hwritten, State.setCore_sram, s.sram_writeSram_bankWord (padMA_bankWord n _) (length_leBytes ..)]

end

section
variable (s : State) (n : Nat) {a : AsyncAcc} (hrd : a.wr = false)
include hrd

/-- A read leaves memory alone, whatever its words hold. -/
theorem State.mem_asyncPerform_read : (s.asyncPerform n a).mem = s.mem := by
  simp only [State.asyncPerform, hrd, Bool.false_eq_true, if_false, State.mem_draw, State.setCore_mem]

theorem State.core_asyncPerform_read (hclean : ∀ i, i < 2 → Map.get 0 s.sram (padMA n (a.off / 16 * 16) / 8 + i) = 0) :
    (s.asyncPerform n a).core n =
      { s.core n with asyncData := BitVec.ofNat 128 (leNat (s.raw (padMA n (a.off / 16 * 16)) 16)), asyncBad := false } := by
  simp only [State.asyncPerform, hrd, Bool.false_eq_true, if_false, State.readSram_bankWord (padMA_bankWord n _) hclean]
  exact State.core_setCore ..

end

/-! ### An access that comes to its port, and a bank that has refused for 64 cycles -/

/-- The state with an access of core `n` taken from those waiting, and its bank's refusals counted anew (03 R61). -/
def State.asyncTaken (s : State) (n : Nat) (a : AsyncAcc) : State :=
  s.setCore n { s.core n with asyncWait := (s.core n).asyncWait.erase (.port a),
                              refusals := Map.set 0 (s.core n).refusals (bankOf (a.off / 16)) 0 }

section
variable {s : State} {n : Nat} {a : AsyncAcc}

theorem asyncAccess_of_free (hoff : a.off < 0x600000) (hclock : s.clocked n = true)
    (hfree : (s.core n).bankUsed (bankOf (a.off / 16)) = false) : asyncAccess s n a = (s.asyncTaken n a).asyncPerform n a := by
  have hin : ¬ padSize ≤ a.off := Nat.not_le.mpr hoff
  simp [asyncAccess, hin, hclock, hfree, State.asyncTaken]

theorem asyncAccess_of_busy (hoff : a.off < 0x600000) (hbusy : (s.core n).bankUsed (bankOf (a.off / 16)) = true ∨ s.clocked n = false)
    (hnew : (s.core n).asyncWait.contains (.port a) = false) :
    asyncAccess s n a = s.setCore n { s.core n with asyncWait := (s.core n).asyncWait ++ [.port a] } := by
  have hin : ¬ padSize ≤ a.off := Nat.not_le.mpr hoff
  have hwait : ((s.core n).bankUsed (bankOf (a.off / 16)) || !s.clocked n) = true := by simpa using hbusy
  unfold asyncAccess
  simp only [if_neg hin, hwait, hnew, if_true, Bool.false_eq_true, if_false]

end

theorem asyncForce_of_patient {s : State} {n b : Nat} (hfew : Map.get 0 (s.core n).refusals b < 64) : asyncForce s n b = s := by
  simp [asyncForce, hfew]

/-- The state with the item `i` of bank `b` taken from those that wait, the core held for one cycle where the cycle needs the bank
(03 R61), of which what is swallowed anyway costs nothing. -/
def State.forceTaken (s : State) (n b : Nat) (i : AsyncItem) : State :=
  let c := s.core n
  let held := if c.bankUsed b then 1 else 0
  let sw := swallowedIn (s.swallow n) c.clocks held
  s.setCore n
    { c with asyncWait := c.asyncWait.erase i, refusals := Map.set 0 c.refusals b 0,
             cycBank := c.cycBank + BitVec.ofNat 64 (held - sw), cycSwallow := c.cycSwallow + BitVec.ofNat 64 sw, clocks := c.clocks + held }

/-- An item served: an asynchronous port's access, or a bank word of a master's request. -/
def State.serveItem (s : State) (n : Nat) : AsyncItem → State
  | .port a => s.asyncPerform n a
  | .word q ma k => s.serveWord n q ma k

theorem asyncForce_of_refused {s : State} {n b : Nat} {i : AsyncItem} (hmany : 64 ≤ Map.get 0 (s.core n).refusals b)
    (hclock : s.clocked n = true) (hfind : ((s.core n).asyncWait.find? fun i => decide (i.bank = some b)) = some i) :
    asyncForce s n b = (s.forceTaken n b i).serveItem n i := by
  have hserve : ¬ (decide (Map.get 0 (s.core n).refusals b < 64) || !s.clocked n) = true := by simp [hclock, hmany]
  unfold asyncForce
  simp only [if_neg hserve, hfind]
  cases i <;> rfl

/-- Settles O14: an access that finds its bank free is performed on its bank word, one that does not waits, and a bank that has refused
for 64 cycles serves the first that waits for it. -/
theorem asyncPorts : Obligations.AsyncPorts := by
  unfold Obligations.AsyncPorts
  intro s core
  refine ⟨fun off data hwf hoff hclock hfree => ?_, fun off data hoff hclock hfree hclean => ?_, fun wr off data hoff hbusy hnew => ?_,
    fun bank i hmany hclock hfind => ?_, fun bank hfew => ?_⟩
  · let a : AsyncAcc := ⟨true, off.toNat, data⟩
    refine ⟨_, congrArg Host.Outcome.next (asyncAccess_of_free (a := a) hoff hclock hfree), fun b => ?_, fun b => ?_, ?_⟩
    · exact State.mem_asyncPerform_write _ _ rfl b
    · exact State.sram_asyncPerform_write _ _ rfl (b / 8)
    · exact State.wf_asyncPerform _ _ _ hwf
  · let a : AsyncAcc := ⟨false, off.toNat, data⟩
    have hcore := (s.asyncTaken core.toNat a).core_asyncPerform_read core.toNat (a := a) rfl hclean
    refine ⟨_, congrArg Host.Outcome.next (asyncAccess_of_free (a := a) hoff hclock hfree), State.mem_asyncPerform_read _ _ rfl,
      congrArg Core.asyncBad hcore, fun i hi => ?_⟩
    rw [hcore]
    exact (extractLsb'_leNat _ (by omega)).trans (State.getD_raw _ _ hi)
  · exact congrArg Host.Outcome.next (asyncAccess_of_busy hoff hbusy hnew)
  · refine congrArg Host.Outcome.next ((asyncForce_of_refused hmany hclock hfind).trans ?_)
    cases i <;> rfl
  · exact congrArg Host.Outcome.next (asyncForce_of_patient hfew)

end Sys2Proof.Machine
end

section
/-! PROOFS. O59: slots and bundles decode to what they encode (04 R71 to R74). A word is packed fields, each below the one before it, so
every field reads back; a bundle is its header and the words of its slots one after another. -/

namespace Sys2Proof.Machine

/-! ### Packed fields -/

/-- Fields listed from the highest down: the first ends at most at bit `top`, each next one at most where the one before it begins. -/
def Fits (top : Nat) : List (Nat × Nat) → Prop
  | [] => True
  | (lo, v) :: fs => lo ≤ top ∧ v.size ≤ top - lo ∧ Fits lo fs

@[simp] theorem fits_nil (top : Nat) : Fits top [] := trivial

@[simp] theorem fits_cons {top lo v : Nat} {fs : List (Nat × Nat)} :
    Fits top ((lo, v) :: fs) ↔ lo ≤ top ∧ v.size ≤ top - lo ∧ Fits lo fs := ⟨id, id⟩

theorem pack_cons (lo v : Nat) (fs : List (Nat × Nat)) : pack ((lo, v) :: fs) = v * 2 ^ lo + pack fs := by
  simp [pack]

theorem pack_lt {top : Nat} {fs : List (Nat × Nat)} (h : Fits top fs) : pack fs < 2 ^ top := by
  induction fs generalizing top with
  | nil => simp [pack]
  | cons f fs ih =>
    obtain ⟨lo, v⟩ := f
    obtain ⟨hlo, hv, hfs⟩ := h
    have hrest := ih hfs
    rw [pack_cons]
    calc v * 2 ^ lo + pack fs < (v + 1) * 2 ^ lo := by rw [Nat.add_mul]; omega
      _ ≤ 2 ^ (top - lo) * 2 ^ lo := Nat.mul_le_mul_right _ (Nat.size_le.mp hv)
      _ = 2 ^ top := by rw [← Nat.pow_add, Nat.sub_add_cancel hlo]

@[simp] theorem bitsOf_pack_head {lo v w : Nat} {fs : List (Nat × Nat)} (hfs : Fits lo fs) (hv : v.size ≤ w) :
    bitsOf (pack ((lo, v) :: fs)) lo w = v := by
  have hdiv : pack fs / 2 ^ lo = 0 := Nat.div_eq_of_lt (pack_lt hfs)
  rw [bitsOf, pack_cons, Nat.shiftRight_eq_div_pow, Nat.add_comm, Nat.add_mul_div_right _ _ (Nat.two_pow_pos lo), hdiv, Nat.zero_add,
    Nat.mod_eq_of_lt (Nat.size_le.mp hv)]

@[simp] theorem bitsOf_pack_tail {lo v at_ w : Nat} {fs : List (Nat × Nat)} (h : at_ + w ≤ lo) :
    bitsOf (pack ((lo, v) :: fs)) at_ w = bitsOf (pack fs) at_ w := by
  have hpow : v * 2 ^ lo = v * 2 ^ (lo - (at_ + w)) * 2 ^ w * 2 ^ at_ := by
    rw [Nat.mul_assoc, Nat.mul_assoc, ← Nat.pow_add, ← Nat.pow_add, show lo - (at_ + w) + (w + at_) = lo by omega]
  rw [bitsOf, bitsOf, pack_cons, Nat.shiftRight_eq_div_pow, Nat.shiftRight_eq_div_pow, hpow, Nat.add_comm,
    Nat.add_mul_div_right _ _ (Nat.two_pow_pos at_), Nat.add_mul_mod_self_right]

theorem fld_eq (x lo w : Nat) : fld x lo w = BitVec.ofNat w (bitsOf x lo w) := by
  apply BitVec.eq_of_toNat_eq
  simp [fld, bitsOf]

theorem testBit_eq_bitsOf (x lo : Nat) : x.testBit lo = decide (bitsOf x lo 1 = 1) := by
  rw [Nat.testBit_eq_decide_div_mod_eq, bitsOf, Nat.shiftRight_eq_div_pow, Nat.pow_one]

@[simp] theorem size_toNat_le {w k : Nat} (x : BitVec w) (h : w ≤ k) : x.toNat.size ≤ k :=
  (Nat.size_le.mpr x.isLt).trans h

@[simp] theorem size_bitNat_le {k : Nat} (b : Bool) (h : 1 ≤ k) : (bitNat b).size ≤ k :=
  (Nat.size_le.mpr (by cases b <;> decide)).trans h

@[simp] theorem fld_pack_head {lo w : Nat} {x : BitVec w} {fs : List (Nat × Nat)} (hfs : Fits lo fs) :
    fld (pack ((lo, x.toNat) :: fs)) lo w = x := by
  rw [fld_eq, bitsOf_pack_head hfs (size_toNat_le x le_rfl), BitVec.ofNat_toNat, BitVec.setWidth_eq]

@[simp] theorem fld_pack_tail {lo v at_ w : Nat} {fs : List (Nat × Nat)} (h : at_ + w ≤ lo) :
    fld (pack ((lo, v) :: fs)) at_ w = fld (pack fs) at_ w := by
  rw [fld_eq, fld_eq, bitsOf_pack_tail h]

@[simp] theorem testBit_pack_head {lo : Nat} {b : Bool} {fs : List (Nat × Nat)} (hfs : Fits lo fs) :
    (pack ((lo, bitNat b) :: fs)).testBit lo = b := by
  rw [testBit_eq_bitsOf, bitsOf_pack_head hfs (size_bitNat_le b le_rfl)]
  cases b <;> rfl

@[simp] theorem testBit_pack_tail {lo v at_ : Nat} {fs : List (Nat × Nat)} (h : at_ < lo) :
    (pack ((lo, v) :: fs)).testBit at_ = (pack fs).testBit at_ := by
  rw [testBit_eq_bitsOf, testBit_eq_bitsOf, bitsOf_pack_tail h]

/-! ### Operation codes -/

@[simp] theorem VecOp.ofCode_code (op : VecOp) : VecOp.ofCode op.code = some op := by
  cases op <;> rfl

@[simp] theorem SfuOp.ofCode_code (op : SfuOp) : SfuOp.ofCode op.code = some op := by
  cases op <;> rfl

@[simp] theorem ScaOp.ofCode_code (op : ScaOp) : ScaOp.ofCode op.code = some op := by
  cases op <;> rfl

@[simp] theorem MemOp.ofCode_code (op : MemOp) : MemOp.ofCode op.code = some op := by
  cases op <;> rfl

@[simp] theorem CtlOp.ofCode_code (op : CtlOp) : CtlOp.ofCode op.code = some op := by
  cases op <;> rfl

@[simp] theorem VecOp.size_code_le {k : Nat} (op : VecOp) (h : 8 ≤ k) : op.code.size ≤ k :=
  (Nat.size_le.mpr (by cases op <;> decide)).trans h

@[simp] theorem SfuOp.size_code_le {k : Nat} (op : SfuOp) (h : 6 ≤ k) : op.code.size ≤ k :=
  (Nat.size_le.mpr (by cases op <;> decide)).trans h

@[simp] theorem ScaOp.size_code_le {k : Nat} (op : ScaOp) (h : 6 ≤ k) : op.code.size ≤ k :=
  (Nat.size_le.mpr (by cases op <;> decide)).trans h

@[simp] theorem MemOp.size_code_le {k : Nat} (op : MemOp) (h : 6 ≤ k) : op.code.size ≤ k :=
  (Nat.size_le.mpr (by cases op <;> decide)).trans h

@[simp] theorem CtlOp.size_code_le {k : Nat} (op : CtlOp) (h : 6 ≤ k) : op.code.size ≤ k :=
  (Nat.size_le.mpr (by cases op <;> decide)).trans h

/-- The operation code of the cube slot, a numeral of the encoder's, takes four bits. -/
theorem size_cubeCode_le {v k : Nat} (hv : v < 16) (hk : 4 ≤ k) : v.size ≤ k :=
  (Nat.size_le.mpr (show v < 2 ^ 4 from hv)).trans hk

/-! ### Slots -/

theorem decodeSlot_step (z : Bool) (f : StepF) : decodeSlot 0 (encodeSlot (.step z f)) = some (.step z f) := by
  have hcode : bitsOf (encodeSlot (.step z f)) 92 4 = if z then 2 else 1 := by
    cases z <;> simp [-Nat.size_one, encodeSlot, size_cubeCode_le]
  cases z <;> simp [decodeSlot, hcode] <;> simp [encodeSlot]

theorem decodeSlot_drain (z : Bool) (f : DrainF) : decodeSlot 0 (encodeSlot (.drain z f)) = some (.drain z f) := by
  have hcode : bitsOf (encodeSlot (.drain z f)) 92 4 = if z then 4 else 3 := by
    cases z <;> simp [encodeSlot, size_cubeCode_le]
  cases z <;> simp [decodeSlot, hcode] <;> simp [encodeSlot]

theorem decodeSlot_sopen (f : SopenF) : decodeSlot 0 (encodeSlot (.sopen f)) = some (.sopen f) := by
  have hcode : bitsOf (encodeSlot (.sopen f)) 92 4 = 5 := by
    simp [encodeSlot, size_cubeCode_le]
  simp [decodeSlot, hcode]
  simp [encodeSlot]

theorem decodeSlot_vec (op : VecOp) (f : VecF) : decodeSlot (SlotOp.vec op f).slot (encodeSlot (.vec op f)) = some (.vec op f) := by
  obtain ⟨vec1⟩ := f
  cases vec1 <;> simp [SlotOp.slot, decodeSlot, encodeSlot]

theorem decodeSlot_sfu (op : SfuOp) (f : SfuF) : decodeSlot 3 (encodeSlot (.sfu op f)) = some (.sfu op f) := by
  simp [decodeSlot, encodeSlot]

theorem decodeSlot_sca (op : ScaOp) (f : ScaF) : decodeSlot (SlotOp.sca op f).slot (encodeSlot (.sca op f)) = some (.sca op f) := by
  obtain ⟨sca1⟩ := f
  cases sca1 <;> simp [SlotOp.slot, decodeSlot, encodeSlot]

theorem decodeSlot_mem (op : MemOp) (f : MemF) : decodeSlot 6 (encodeSlot (.mem op f)) = some (.mem op f) := by
  simp [decodeSlot, encodeSlot]

theorem decodeSlot_ctl (op : CtlOp) (f : CtlF) : decodeSlot 7 (encodeSlot (.ctl op f)) = some (.ctl op f) := by
  simp [decodeSlot, encodeSlot]

theorem decodeSlot_encodeSlot (op : SlotOp) : decodeSlot op.slot (encodeSlot op) = some op := by
  cases op with
  | step z f => exact decodeSlot_step z f
  | drain z f => exact decodeSlot_drain z f
  | sopen f => exact decodeSlot_sopen f
  | vec op f => exact decodeSlot_vec op f
  | sfu op f => exact decodeSlot_sfu op f
  | sca op f => exact decodeSlot_sca op f
  | mem op f => exact decodeSlot_mem op f
  | ctl op f => exact decodeSlot_ctl op f

theorem encodeSlot_lt (op : SlotOp) : encodeSlot op < 2 ^ (8 * slotBytes op.slot) := by
  cases op with
  | step z f => exact pack_lt (by cases z <;> simp [-Nat.size_one, SlotOp.slot, slotBytes, size_cubeCode_le])
  | drain z f => exact pack_lt (by cases z <;> simp [SlotOp.slot, slotBytes, size_cubeCode_le])
  | sopen f => exact pack_lt (by simp [SlotOp.slot, slotBytes, size_cubeCode_le])
  | vec op f => exact pack_lt (by cases h : f.vec1 <;> simp [SlotOp.slot, slotBytes, h])
  | sfu op f => exact pack_lt (by simp [SlotOp.slot, slotBytes])
  | sca op f => exact pack_lt (by cases h : f.sca1 <;> simp [SlotOp.slot, slotBytes, h])
  | mem op f => exact pack_lt (by simp [SlotOp.slot, slotBytes])
  | ctl op f => exact pack_lt (by simp [SlotOp.slot, slotBytes])

theorem SlotOp.slot_lt (op : SlotOp) : op.slot < 8 := by
  cases op <;> simp only [SlotOp.slot] <;> (try split) <;> decide

/-! ### Bundles -/

theorem leNat_leBytes (n x : Nat) : leNat (leBytes n x) = x % 256 ^ n := by
  induction n generalizing x with
  | zero => simp [leBytes, leNat, Nat.mod_one]
  | succ n ih => rw [leBytes, leNat, ih, BitVec.toNat_ofNat, Nat.pow_succ' (m := 256), Nat.mod_mul]

theorem mem_onesOf {n x i : Nat} : i ∈ onesOf n x ↔ i < n ∧ x.testBit i = true := by
  simp [onesOf]

theorem pairwise_onesOf (n x : Nat) : (onesOf n x).Pairwise (· < ·) :=
  List.pairwise_lt_range.filter _

/-- The bits of a sum of rising powers of two are the exponents. -/
theorem testBit_sum_two_pow {ks : List Nat} (hks : ks.Pairwise (· < ·)) (i : Nat) : (ks.map (2 ^ ·)).sum.testBit i = true ↔ i ∈ ks := by
  rw [← Nat.mem_bitIndices, Nat.bitIndices_sum_map_two_pow hks.sortedLT]

section
variable {ks : List Nat} {n : Nat} (hks : ks.Pairwise (· < ·)) (hlt : ∀ k ∈ ks, k < n)
include hks hlt

theorem onesOf_sum_two_pow : onesOf n (ks.map (2 ^ ·)).sum = ks :=
  (pairwise_onesOf ..).eq_of_mem_iff hks fun i => by
    rw [mem_onesOf, testBit_sum_two_pow hks]
    exact ⟨And.right, fun h => ⟨hlt i h, h⟩⟩

theorem sum_two_pow_lt : (ks.map (2 ^ ·)).sum < 2 ^ n :=
  Nat.lt_pow_two_of_testBit _ fun i hi => by
    rw [← Bool.not_eq_true, testBit_sum_two_pow hks]
    exact fun h => absurd (hlt i h) (Nat.not_lt.mpr hi)

end

section
variable {h : Header} (hslots : h.slots < 2 ^ 8) (hidle : h.idle < 2 ^ 4)
include hslots hidle

theorem Header.toNat_lt : h.toNat < 2 ^ 16 :=
  pack_lt (by simp [Nat.size_le.mpr hslots, Nat.size_le.mpr hidle])

theorem Header.ofNat_toNat : Header.ofNat h.toNat = h := by
  simp [Header.ofNat, Header.toNat, Nat.size_le.mpr hslots, Nat.size_le.mpr hidle]

end

theorem decodeSlots_encode {len : Nat} {ops : List SlotOp} (hlegal : ∀ o ∈ ops, o.legal len = true) :
    decodeSlots len (ops.map SlotOp.slot) (ops.flatMap fun o => leBytes (slotBytes o.slot) (encodeSlot o)) =
      ops.map fun o => (o.slot, some o) := by
  induction ops with
  | nil => rfl
  | cons o ops ih =>
    obtain ⟨ho, hops⟩ := List.forall_mem_cons.mp hlegal
    have hword : leNat (leBytes (slotBytes o.slot) (encodeSlot o)) = encodeSlot o := by
      rw [leNat_leBytes, show 256 = 2 ^ 8 from rfl, ← Nat.pow_mul, Nat.mod_eq_of_lt (encodeSlot_lt o)]
    have hlen := length_leBytes (slotBytes o.slot) (encodeSlot o)
    rw [List.map_cons, List.flatMap_cons, decodeSlots, List.take_left' hlen, List.drop_left' hlen, hword, decodeSlot_encodeSlot, ih hops]
    simp [ho]

/-- Settles O59: fields of a word read back one by one, and a bundle's slots one after another. -/
theorem bundleWords : Obligations.BundleWords := by
  unfold Obligations.BundleWords
  refine ⟨fun op => ⟨decodeSlot_encodeSlot op, encodeSlot_lt op⟩, ?_⟩
  intro idle bkpt mark last ops hidle hrising bs h
  let h0 : Header := { slots := (ops.map fun o => 2 ^ o.slot).sum, idle := idle, bkpt := bkpt, mark := mark, last := last }
  have hsum : h0.slots = ((ops.map SlotOp.slot).map (2 ^ ·)).sum := by rw [List.map_map]; rfl
  have hlt : ∀ k ∈ ops.map SlotOp.slot, k < 8 := List.forall_mem_map.mpr fun o _ => o.slot_lt
  have hslots : h0.slots < 2 ^ 8 := hsum ▸ sum_two_pow_lt hrising hlt
  have hones : onesOf 8 h0.slots = ops.map SlotOp.slot := hsum ▸ onesOf_sum_two_pow hrising hlt
  have hheader : h = h0 := by
    have hword : leNat (bs.take 2) = h0.toNat := by
      rw [show bs.take 2 = leBytes 2 h0.toNat from List.take_left' (length_leBytes ..), leNat_leBytes]
      exact Nat.mod_eq_of_lt (Header.toNat_lt hslots hidle)
    rw [← Header.ofNat_toNat hslots hidle, ← hword]
  have hlen : h.len = bs.length := by
    simp [hheader, Header.len, hones, bs, encodeBundle, List.length_flatMap, Function.comp_def]
  rw [hheader] at hlen ⊢
  refine ⟨rfl, hlen, hones, fun hlegal => ?_⟩
  rw [hones, show bs.drop 2 = _ from List.drop_left' (length_leBytes ..)]
  exact decodeSlots_encode hlegal

end Sys2Proof.Machine
end

section
/-! PROOFS. O1 to O5: vector and special-function operations (04 R80, R88 to R91). A row of a table names its command, and the command
issues the operation alone; what the operation does in its issue cycle is the row's latency and value. -/

namespace Sys2Proof.Machine

/-! ### Commands -/

/-- The command that issues a vector operation. -/
def VecOp.row : VecOp → CoreId → VecF → Instr
  | .vadd => .vadd | .vsub => .vsub | .vmul => .vmul | .vfma => .vfma | .vmax => .vmax | .vmin => .vmin | .vabs => .vabs
  | .vneg => .vneg | .vhadd => .vhadd | .vhmul => .vhmul | .vhfma => .vhfma | .viadd => .viadd | .visub => .visub
  | .viadds => .viadds | .vimul => .vimul | .vand => .vand | .vor => .vor | .vxor => .vxor | .vshl => .vshl | .vshr => .vshr
  | .vsra => .vsra | .vcmpeq => .vcmpeq | .vcmplt => .vcmplt | .vcmple => .vcmple | .vsel => .vsel | .vmov => .vmov
  | .vbcast => .vbcast | .vperm => .vperm | .vrsum => .vrsum | .vrmax => .vrmax | .vscan => .vscan | .vcvt => .vcvt

theorem exec_vecRow (op : VecOp) (core : CoreId) (f : VecF) (s : State) :
    exec (op.row core f) s = .next (issueRow s core.toNat (.vec op f)) := by
  cases op <;> rfl

/-- The command that issues a special function. -/
def SfuOp.row : SfuOp → CoreId → SfuF → Instr
  | .rcp => .rcp | .rsqrt => .rsqrt | .exp => .expOp | .exp2 => .exp2 | .log => .logOp | .log2 => .log2 | .tanh => .tanh
  | .sigm => .sigm | .sin => .sin | .cos => .cos | .expd => .expd

theorem exec_sfuRow (op : SfuOp) (core : CoreId) (f : SfuF) (s : State) :
    exec (op.row core f) s = .next (issueRow s core.toNat (.sfu op f)) := by
  cases op <;> rfl

/-! ### Rows of the tables -/

/-- What a row of `laneTable` says of its operation: its command, its latency with and without a scratchpad operand, and that it works lane
by lane with the row's value. -/
structure LaneRow (p : VecOp × (CoreId → VecF → Instr) × Nat × LaneVal) : Prop where
  command : p.2.1 = p.1.row
  latency : ∀ f, vecLatency p.1 f = p.2.2.1 + if f.bmem then 3 else 0
  lanewise : p.1.whole = false
  applied : ∀ f m a b c selP sv d bits, vecApply p.1 f m a b c selP sv d bits =
    (let rs := (onesOf 256 m.toNat).map fun i =>
       (i, vecLane p.1 f d i (a.getD i 0) (b.getD i 0) (c.getD i 0) (selP.getLsbD i) sv)
     ([.v f.vd.toNat (rs.map fun r => (r.1, r.2.1))], Flags.all (rs.map fun r => r.2.2)))
  value : ∀ c f d i, vecLane p.1 f d i (laneA c f i) (laneB c f i) (laneC c f i) ((c.preg (f.vc.toNat % 8)).getLsbD i)
    (c.sreg (f.imm.toNat % 32)) = p.2.2.2 c f d i

theorem laneTable_rows : ∀ p ∈ laneTable, LaneRow p := by
  intro p hp
  fin_cases hp <;> exact ⟨rfl, fun _ => rfl, rfl, fun _ _ _ _ _ _ _ _ _ => rfl, fun _ _ _ _ => rfl⟩

/-- Likewise a row of `compareTable`. -/
structure CompareRow (p : VecOp × (CoreId → VecF → Instr) × (Int → Int → Bool)) : Prop where
  command : p.2.1 = p.1.row
  latency : ∀ f, vecLatency p.1 f = 2 + if f.bmem then 3 else 0
  lanewise : p.1.whole = false
  applied : ∀ f m a b c selP sv d bits, vecApply p.1 f m a b c selP sv d bits =
    (let rs := (onesOf 256 m.toNat).map fun i => (i, vecCmp p.1 f (a.getD i 0) (b.getD i 0))
     ([.p (f.vd.toNat % 8) m (bitsToPred (rs.map fun r => (r.1, r.2.1)))], Flags.all (rs.map fun r => r.2.2)))
  value : ∀ c f i, vecCmp p.1 f (laneA c f i) (laneB c f i) = compareLane p.2.2 c f i

theorem compareTable_rows : ∀ p ∈ compareTable, CompareRow p := by
  have hvalue {op : VecOp} {t : Int → Int → Bool} (hop : ∀ f a b, vecCmp op f a b =
      if f.imm.toNat % 2 = 0 then
        if (fpVal .fp32 a.toNat).isNaN || (fpVal .fp32 b.toNat).isNaN then (false, .I)
        else (t (fpKey .fp32 a.toNat) (fpKey .fp32 b.toNat), .none)
      else (t (sgn a) (sgn b), .none)) (c : Core) (f : VecF) (i : Nat) :
      vecCmp op f (laneA c f i) (laneB c f i) = compareLane t c f i := by
    rw [hop, compareLane]
    rcases Nat.mod_two_eq_zero_or_one f.imm.toNat with h | h <;> simp [h, sgn]
  intro p hp
  fin_cases hp <;>
    exact ⟨rfl, fun _ => rfl, rfl, fun _ _ _ _ _ _ _ _ _ => rfl, fun c f i => hvalue (fun _ _ _ => rfl) c f i⟩

theorem Core.getD_vreg (c : Core) (r : Nat) {i : Nat} (hi : i < 256) : (c.vreg r).getD i 0 = c.lane r i := by
  simp [Core.vreg, hi]

/-- What a row of `wholeTable` says of its operation. -/
structure WholeRow (p : VecOp × (CoreId → VecF → Instr) × (VecF → Nat) × (Nat → Core → VecF → Nat → List Dest × Flags)) : Prop where
  command : p.2.1 = p.1.row
  latency : ∀ f : VecF, f.bmem = false → vecLatency p.1 f = p.2.2.1 f
  whole : p.1.whole = true
  register : p.1.mAllowed = false
  value : ∀ n c f d, vecApply p.1 f (c.mask f.pred f.pneg) (c.vreg f.va.toNat)
    (if p.1 = .vcvt then c.vreg (f.va.toNat + 1) else c.vreg f.vb.toNat) (c.vreg f.vc.toNat) (c.preg (f.vc.toNat % 8))
    (c.sreg (f.imm.toNat % 32)) d (c.rngBits n (vecSlot f - 1)) = p.2.2.2 n c f d

theorem vperm_value (c : Core) (f : VecF) :
    ((List.range 256).map fun i => (i, (c.vreg f.va.toNat).getD (((c.vreg f.vb.toNat).getD i 0).toNat % 256) 0)) =
      (List.range 256).map fun i => (i, laneA c f ((laneB c f i).toNat % 256)) := by
  refine List.map_congr_left fun i hi => ?_
  rw [c.getD_vreg _ (List.mem_range.mp hi), c.getD_vreg _ (Nat.mod_lt _ (by decide))]
  rfl

theorem wholeTable_rows : ∀ p ∈ wholeTable, WholeRow p := by
  have hlat {op : VecOp} {f : VecF} (hb : f.bmem = false) : vecLatency op f = vecLatency op { f with bmem := false } := by
    rw [← hb]
  intro p hp
  fin_cases hp
  · exact ⟨rfl, fun f hb => hlat hb, rfl, rfl, fun n c f d => congrArg (fun l => ([Dest.v f.vd.toNat l], Flags.none)) (vperm_value c f)⟩
  all_goals exact ⟨rfl, fun f hb => hlat hb, rfl, rfl, fun _ _ _ _ => rfl⟩

/-! ### Issue -/

section
variable {s : State} {n : Nat} {op : VecOp} {f : VecF}

/-- With source b in a register, an operation queues its result. -/
theorem issueVec_register (pc : Nat) (hb : f.bmem = false) (hdone : op.whole = true → (s.core n).performed f.pred f.pneg = true) :
    issueVec s n pc op f =
      (let c := s.core n
       let r := vecApply op f (c.mask f.pred f.pneg) (c.vreg f.va.toNat)
         (if op = .vcvt then c.vreg (f.va.toNat + 1) else c.vreg f.vb.toNat) (c.vreg f.vc.toNat) (c.preg (f.vc.toNat % 8))
         (c.sreg (f.imm.toNat % 32)) s.free (c.rngBits n (vecSlot f - 1))
       (s.setCore n ((if op = .vcvt then c.converted (vecSlot f - 1) else c).emit (vecSlot f) (vecLatency op f) r.1 r.2), none)) := by
  have hgo : (op.whole && !(s.core n).performed f.pred f.pneg) = false := by
    cases hw : op.whole with
    | false => rfl
    | true => simp [hdone hw]
  unfold issueVec
  simp only [hgo, hb, Bool.false_eq_true, if_false]
  rfl

/-- An operation performed whole is not performed at all where bit 0 of its mask is 0. -/
theorem issueVec_skipped (pc : Nat) (hw : op.whole = true) (hskip : (s.core n).performed f.pred f.pneg = false) :
    issueVec s n pc op f = (s, none) := by
  simp [issueVec, hw, hskip]

/-- The address of source b in the scratchpad (04 R89). -/
def lineAddr (c : Core) (f : VecF) : Nat := ((c.areg (f.imm.toNat / 4096)).toNat + f.imm.toNat % 4096 * 1024) % 2 ^ 23 / 16 * 16

theorem issueVec_memory (pc : Nat) (hb : f.bmem = true) (hw : op.whole = false) (hin : lineAddr (s.core n) f + 1024 ≤ 0x600000) :
    issueVec s n pc op f =
      (let c := s.core n
       (s.setCore n { c with
          loads := c.loads ++ [{ at_ := c.cycle + 1, due := c.cycle + vecLatency op f, slot := vecSlot f, seq := c.seq, pc := pc,
                                 kind := .vec op f (c.mask f.pred f.pneg) (c.vreg f.va.toNat) (c.vreg f.vc.toNat) s.free,
                                 offs := (List.range 64).map fun i => lineAddr c f + 16 * i, width := 16 }]
          seq := c.seq + 1 }, none)) := by
  have hin' : ¬ padSize < (s.core n).padAddr (f.imm.toNat / 4096) (f.imm.toNat % 4096) 1024 / 16 * 16 + 1024 := Nat.not_lt.mpr hin
  unfold issueVec
  simp only [hw, hb, Bool.false_and, Bool.false_eq_true, if_false, if_true, if_neg hin']
  rfl

theorem issueVec_unmapped (pc : Nat) (hb : f.bmem = true) (hw : op.whole = false) (hout : 0x600000 < lineAddr (s.core n) f + 1024) :
    issueVec s n pc op f = (s, some (cMemUnmapped, lineAddr (s.core n) f)) := by
  have hout' : padSize < (s.core n).padAddr (f.imm.toNat / 4096) (f.imm.toNat % 4096) 1024 / 16 * 16 + 1024 := hout
  unfold issueVec
  simp only [hw, hb, Bool.false_and, Bool.false_eq_true, if_false, if_true, if_pos hout']
  rfl

theorem issueSfu_eq (op : SfuOp) (f : SfuF) :
    issueSfu s n op f =
      (let c := s.core n
       let out (i : Nat) : Nat × Flags := sfuLane op s.free i (c.lane f.va.toNat i).toNat (c.lane f.vb.toNat i).toNat
       (s.setCore n (c.emit 3 op.latency [.v f.vd.toNat ((quarterLanes c f).map fun i => (i, BitVec.ofNat 32 (out i).1))]
          (Flags.all ((quarterLanes c f).map fun i => (out i).2))), none)) := by
  unfold issueSfu
  simp only [List.map_map]
  rfl

end

/-! ### The tables' values -/

/-- What a lane-wise operation leaves, by the lanes it is performed in. -/
theorem LaneRow.applied_lanes {p : VecOp × (CoreId → VecF → Instr) × Nat × LaneVal} (h : LaneRow p) (c : Core) (f : VecF) (d : Nat)
    (bits : Nat → Nat) :
    vecApply p.1 f (c.mask f.pred f.pneg) (c.vreg f.va.toNat) (c.vreg f.vb.toNat) (c.vreg f.vc.toNat) (c.preg (f.vc.toNat % 8))
      (c.sreg (f.imm.toNat % 32)) d bits =
      ([.v f.vd.toNat ((maskLanes c f.pred f.pneg).map fun i => (i, (p.2.2.2 c f d i).1))],
        Flags.all ((maskLanes c f.pred f.pneg).map fun i => (p.2.2.2 c f d i).2)) := by
  have hlane : ∀ i ∈ maskLanes c f.pred f.pneg, vecLane p.1 f d i ((c.vreg f.va.toNat).getD i 0) ((c.vreg f.vb.toNat).getD i 0)
      ((c.vreg f.vc.toNat).getD i 0) ((c.preg (f.vc.toNat % 8)).getLsbD i) (c.sreg (f.imm.toNat % 32)) = p.2.2.2 c f d i := by
    intro i hi
    have hlt : i < 256 := (mem_onesOf.mp hi).1
    rw [c.getD_vreg _ hlt, c.getD_vreg _ hlt, c.getD_vreg _ hlt]
    exact h.value c f d i
  rw [h.applied]
  simp only [List.map_map]
  exact Prod.ext (congrArg (fun l => [Dest.v _ l]) (List.map_congr_left fun i hi => congrArg (fun r => (i, r.1)) (hlane i hi)))
    (congrArg Flags.all (List.map_congr_left fun i hi => congrArg Prod.snd (hlane i hi)))

/-- What a compare leaves, by the lanes it is performed in. -/
theorem CompareRow.applied_lanes {p : VecOp × (CoreId → VecF → Instr) × (Int → Int → Bool)} (h : CompareRow p) (c : Core) (f : VecF)
    (x : List Word) (selP : BitVec 256) (sv : DWord) (d : Nat) (bits : Nat → Nat) :
    vecApply p.1 f (c.mask f.pred f.pneg) (c.vreg f.va.toNat) (c.vreg f.vb.toNat) x selP sv d bits =
      ([.p (f.vd.toNat % 8) (c.mask f.pred f.pneg)
          (bitsToPred ((maskLanes c f.pred f.pneg).map fun i => (i, (compareLane p.2.2 c f i).1)))],
        Flags.all ((maskLanes c f.pred f.pneg).map fun i => (compareLane p.2.2 c f i).2)) := by
  have hlane : ∀ i ∈ maskLanes c f.pred f.pneg,
      vecCmp p.1 f ((c.vreg f.va.toNat).getD i 0) ((c.vreg f.vb.toNat).getD i 0) = compareLane p.2.2 c f i := by
    intro i hi
    have hlt : i < 256 := (mem_onesOf.mp hi).1
    rw [c.getD_vreg _ hlt, c.getD_vreg _ hlt]
    exact h.value c f i
  rw [h.applied]
  simp only [List.map_map]
  exact Prod.ext (congrArg (fun l => [Dest.p _ _ (bitsToPred l)])
      (List.map_congr_left fun i hi => congrArg (fun r => (i, r.1)) (hlane i hi)))
    (congrArg Flags.all (List.map_congr_left fun i hi => congrArg Prod.snd (hlane i hi)))

theorem VecOp.ne_vcvt_of_lanewise {op : VecOp} (h : op.whole = false) : op ≠ .vcvt := by
  rintro rfl
  exact absurd h (by decide)

/-- An operation without the mark M has no scratchpad operand (04 R74, R89). -/
theorem bmem_of_vecLegal {op : VecOp} {f : VecF} (hop : op.mAllowed = false) (h : vecLegal op f = true) : f.bmem = false := by
  unfold vecLegal at h
  obtain ⟨hmark, -⟩ := (Bool.and_eq_true _ _).mp h
  simpa [hop] using hmark

/-! ### The statements -/

/-- Settles O1: a row's operation queues the row's value in the lanes its mask names. -/
theorem vectorLaneOperations : Obligations.VectorLaneOperations := by
  unfold Obligations.VectorLaneOperations
  intro p hp s core f r hb hi
  have hrow := laneTable_rows p hp
  have hne := VecOp.ne_vcvt_of_lanewise hrow.lanewise
  have hissue := issueVec_register (s := s) (n := core.toNat) (op := p.1) (s.core core.toNat).pc hb
    fun hw => absurd (hrow.lanewise.symm.trans hw) (by decide)
  simp only [if_neg hne, hrow.applied_lanes, hrow.latency, hb, Bool.false_eq_true, if_false, Nat.add_zero] at hissue
  rw [hrow.command, exec_vecRow]
  exact congrArg Host.Outcome.next (issueRow_slot hi nofun hissue hi.run rfl)

/-- Settles O2: as O1, the destination being the bits of a predicate register. -/
theorem vectorCompares : Obligations.VectorCompares := by
  unfold Obligations.VectorCompares
  intro p hp s core f r hb hi
  have hrow := compareTable_rows p hp
  have hne := VecOp.ne_vcvt_of_lanewise hrow.lanewise
  have hissue := issueVec_register (s := s) (n := core.toNat) (op := p.1) (s.core core.toNat).pc hb
    fun hw => absurd (hrow.lanewise.symm.trans hw) (by decide)
  simp only [if_neg hne, hrow.applied_lanes, hrow.latency, hb, Bool.false_eq_true, if_false, Nat.add_zero] at hissue
  rw [hrow.command, exec_vecRow]
  exact congrArg Host.Outcome.next (issueRow_slot hi nofun hissue hi.run rfl)

/-- Settles O3: no whole operation may have a scratchpad operand, so that a legal one is performed on registers or not at all. -/
theorem vectorWholeOperations : Obligations.VectorWholeOperations := by
  unfold Obligations.VectorWholeOperations
  intro p hp s core f r hi
  have hrow := wholeTable_rows p hp
  have hb : f.bmem = false := bmem_of_vecLegal hrow.register hi.legal
  rw [hrow.command, exec_vecRow]
  refine congrArg Host.Outcome.next ?_
  cases hdone : (s.core core.toNat).performed f.pred f.pneg with
  | true =>
    have hissue := issueVec_register (s := s) (n := core.toNat) (op := p.1) (s.core core.toNat).pc hb fun _ => hdone
    simp only [hrow.value, hrow.latency f hb] at hissue
    rw [if_pos rfl]
    refine issueRow_slot hi nofun hissue ?_ ?_
    · rw [Core.emit_run]
      split <;> exact hi.run
    · rw [Core.emit_cycle]
      split <;> rfl
  | false => exact issueRow_skip hi nofun (issueVec_skipped _ hrow.whole hdone)

/-- An operation with source b in the scratchpad, of latency `lat` without (04 R89). -/
theorem issueRow_vecMemory {s : State} {n lat : Nat} {op : VecOp} {f : VecF} {r : RunState} (hw : op.whole = false)
    (hlat : ∀ f, vecLatency op f = lat + if f.bmem then 3 else 0) (hb : f.bmem = true) (hi : s.Issues n r (.vec op f)) :
    let c := s.core n
    (lineAddr c f + 1024 ≤ 0x600000 →
      issueRow s n (.vec op f) = s.issuedOp n r (.vec op f)
        { c with
          loads := c.loads ++ [{ at_ := c.cycle + 1, due := c.cycle + (lat + 3), slot := vecSlot f, seq := c.seq, pc := c.pc,
                                 kind := .vec op f (c.mask f.pred f.pneg) (c.vreg f.va.toNat) (c.vreg f.vc.toNat) s.free,
                                 offs := (List.range 64).map fun i => lineAddr c f + 16 * i, width := 16 }]
          seq := c.seq + 1 }) ∧
    (0x600000 < lineAddr c f + 1024 → FaultedRun s (issueRow s n (.vec op f)) n r cMemUnmapped) := by
  refine ⟨fun hin => ?_, fun hout => issueRow_fault hi nofun (issueVec_unmapped _ hb hw hout)⟩
  have hissue := issueVec_memory (s := s) (n := n) (s.core n).pc hb hw hin
  simp only [hlat, hb, if_true] at hissue
  exact issueRow_slot hi nofun hissue hi.run rfl

/-- Settles O4: the two tables' operations that take a scratchpad operand read their line, or fault. -/
theorem vectorMemoryOperand : Obligations.VectorMemoryOperand := by
  unfold Obligations.VectorMemoryOperand
  intro p hp s core f r hb hi
  have hrow : p.2.1 = p.1.row ∧ p.1.whole = false ∧ ∀ f, vecLatency p.1 f = p.2.2 + if f.bmem then 3 else 0 := by
    rcases List.mem_append.mp hp with h | h
    · obtain ⟨x, hx, rfl⟩ := List.mem_map.mp h
      have hx := laneTable_rows x (List.mem_of_mem_filter hx)
      exact ⟨hx.command, hx.lanewise, hx.latency⟩
    · obtain ⟨x, hx, rfl⟩ := List.mem_map.mp h
      have hx := compareTable_rows x hx
      exact ⟨hx.command, hx.lanewise, hx.latency⟩
  obtain ⟨hcommand, hlanewise, hlat⟩ := hrow
  obtain ⟨hread, hfault⟩ := issueRow_vecMemory hlanewise hlat hb hi
  rw [hcommand, exec_vecRow]
  exact ⟨fun hin => congrArg Host.Outcome.next (hread hin), fun hout => ⟨_, rfl, hfault hout⟩⟩

theorem sfuTable_rows : ∀ p ∈ sfuTable, p.2.1 = p.1.row ∧ p.1.latency = p.2.2 := by
  intro p hp
  fin_cases hp <;> exact ⟨rfl, rfl⟩

/-- Settles O5: a special function queues its values in the performed lanes of its quarter. -/
theorem specialFunctions : Obligations.SpecialFunctions := by
  unfold Obligations.SpecialFunctions
  intro p hp s core f r hi
  obtain ⟨hcommand, hlat⟩ := sfuTable_rows p hp
  rw [hcommand, exec_sfuRow, ← hlat]
  exact congrArg Host.Outcome.next (issueRow_slot hi nofun (issueSfu_eq p.1 f) hi.run rfl)

end Sys2Proof.Machine
end

section
/-! PROOFS. O6 and O7: scalar operations, loads and stores (04 R80 to R82, R92, R93). -/

namespace Sys2Proof.Machine

/-! ### Commands -/

/-- The command that issues a scalar operation. -/
def ScaOp.row : ScaOp → CoreId → ScaF → Instr
  | .add => .add | .sub => .sub | .addi => .addi | .shin => .shin | .and => .andOp | .or => .orOp | .xor => .xorOp | .shl => .shl
  | .shr => .shr | .sra => .sra | .shli => .shli | .shri => .shri | .mul => .mul | .cmpeq => .cmpeq | .cmplt => .cmplt
  | .cmpltu => .cmpltu | .aaddi => .aaddi | .amov => .amov | .smova => .smova | .getv => .getv | .getf => .getf | .getlc => .getlc
  | .gett => .gett

theorem exec_scaRow (op : ScaOp) (core : CoreId) (f : ScaF) (s : State) :
    exec (op.row core f) s = .next (issueRow s core.toNat (.sca op f)) := by
  cases op <;> rfl

/-- The command that issues a MEM operation. -/
def MemOp.row : MemOp → CoreId → MemF → Instr
  | .vld => .vld | .vst => .vst | .sld => .sld | .sst => .sst | .ald => .ald | .ast => .ast | .pld => .pld | .pst => .pst

theorem exec_memRow (op : MemOp) (core : CoreId) (f : MemF) (s : State) :
    exec (op.row core f) s = .next (issueRow s core.toNat (.mem op f)) := by
  cases op <;> rfl

/-! ### Scalar operations -/

/-- What a row of `scaTable` says of its operation. -/
structure ScaRow (p : ScaOp × (CoreId → ScaF → Instr) × Nat × (State → Core → ScaF → Dest)) : Prop where
  command : p.2.1 = p.1.row
  latency : p.1.latency = p.2.2.1
  value : ∀ s c f, scaDest s c p.1 f = p.2.2.2 s c f

theorem scaTable_rows : ∀ p ∈ scaTable, ScaRow p := by
  intro p hp
  fin_cases hp <;> exact ⟨rfl, rfl, fun _ _ _ => rfl⟩

theorem issueSca_performed {s : State} {n : Nat} {op : ScaOp} {f : ScaF} (h : (s.core n).performed f.pred f.pneg = true) :
    issueSca s n op f =
      (s.setCore n ((s.core n).emit (if f.sca1 then 5 else 4) op.latency [scaDest s (s.core n) op f] .none), none) := by
  simp [issueSca, h]

theorem issueSca_skipped {s : State} {n : Nat} {op : ScaOp} {f : ScaF} (h : (s.core n).performed f.pred f.pneg = false) :
    issueSca s n op f = (s, none) := by
  simp [issueSca, h]

/-- Settles O6: a performed operation queues its row's result. -/
theorem scalarOperations : Obligations.ScalarOperations := by
  unfold Obligations.ScalarOperations
  intro p hp s core f r hi
  have hrow := scaTable_rows p hp
  rw [hrow.command, exec_scaRow, ← hrow.latency, ← hrow.value]
  refine congrArg Host.Outcome.next ?_
  cases hdone : (s.core core.toNat).performed f.pred f.pneg with
  | true => exact issueRow_slot hi nofun (issueSca_performed hdone) hi.run rfl
  | false => exact issueRow_skip hi nofun (issueSca_skipped hdone)

/-! ### Loads and stores -/

theorem memOffs_eq (c : Core) (op : MemOp) (f : MemF) : memOffs c op f = memWords c op op.bytes f := by
  cases op <;> simp [memOffs, memWords, MemOp.byLane, MemOp.bytes, Core.padAddr]

section
variable {s : State} {n : Nat} {op : MemOp} {f : MemF}

/-- Whether a MEM operation is performed at all: in some lanes perhaps, or whole (04 R80). -/
def MemOp.performedIn (op : MemOp) (c : Core) (f : MemF) : Bool := op.byLane || c.performed f.pred f.pneg

theorem MemOp.performedIn_iff {c : Core} :
    op.performedIn c f = true ↔ ¬(¬(op = .vld ∨ op = .vst) ∧ !(c.mask f.pred f.pneg).getLsbD 0) := by
  cases op <;> simp [MemOp.performedIn, MemOp.byLane, Core.performed]

theorem issueMem_skipped (pc : Nat) (h : op.performedIn (s.core n) f = false) : issueMem s n pc op f = (s, none) :=
  if_pos (not_not.mp fun hno => Bool.false_ne_true (h.symm.trans (MemOp.performedIn_iff.mpr hno)))

theorem find_beyondPad_none {w : Nat} {as_ : List Nat} (hin : ∀ a ∈ as_, a + w ≤ 0x600000) :
    (as_.find? fun a => decide (padSize < a + w)) = none :=
  List.find?_eq_none.mpr fun a ha hout => Nat.not_lt.mpr (hin a ha) (of_decide_eq_true hout)

section
variable (pc : Nat) (h : op.performedIn (s.core n) f = true)
include h

theorem issueMem_unmapped (hout : ∃ a ∈ memWords (s.core n) op op.bytes f, 0x600000 < a + op.bytes) :
    ∃ det, issueMem s n pc op f = (s, some (cMemUnmapped, det)) := by
  obtain ⟨x, hx, hbeyond⟩ := hout
  have hfind : ((memWords (s.core n) op op.bytes f).find? fun a => decide (padSize < a + op.bytes)).isSome = true :=
    List.find?_isSome.mpr ⟨x, hx, decide_eq_true hbeyond⟩
  obtain ⟨a, ha⟩ := Option.isSome_iff_exists.mp hfind
  refine ⟨a, ?_⟩
  unfold issueMem
  simp only [if_neg (MemOp.performedIn_iff.mp h), memOffs_eq, ha]

variable (hin : ∀ a ∈ memWords (s.core n) op op.bytes f, a + op.bytes ≤ 0x600000)
include hin

theorem issueMem_load {k : LoadKind} {lat : Nat} (hkind : memKind op f ((s.core n).mask f.pred f.pneg) = some (k, lat)) :
    issueMem s n pc op f =
      (let c := s.core n
       (s.setCore n { c with
          loads := c.loads ++ [{ at_ := c.cycle + 1, due := c.cycle + lat, slot := 6, seq := c.seq, pc := pc, kind := k,
                                 offs := memWords c op op.bytes f, width := op.bytes }]
          seq := c.seq + 1 }, none)) := by
  unfold issueMem
  simp only [if_neg (MemOp.performedIn_iff.mp h), memOffs_eq, find_beyondPad_none hin, hkind]

theorem issueMem_store (hkind : memKind op f ((s.core n).mask f.pred f.pneg) = none) :
    issueMem s n pc op f =
      (let c := s.core n
       (s.setCore n { c with
          stores := c.stores ++ [{ at_ := c.cycle + 1, pc := pc,
                                   chunks := memChunks c op f (c.mask f.pred f.pneg) (memWords c op op.bytes f) }] }, none)) := by
  unfold issueMem
  simp only [if_neg (MemOp.performedIn_iff.mp h), memOffs_eq, find_beyondPad_none hin, hkind]

end

end

/-- What a row of `loadTable` says of its operation. -/
structure LoadRow (p : MemOp × (CoreId → MemF → Instr) × Nat × Nat × (Core → MemF → LoadKind)) : Prop where
  command : p.2.1 = p.1.row
  bytes : p.1.bytes = p.2.2.1
  kind : ∀ (c : Core) f, memKind p.1 f (c.mask f.pred f.pneg) = some (p.2.2.2.2 c f, p.2.2.2.1)

theorem loadTable_rows : ∀ p ∈ loadTable, LoadRow p := by
  intro p hp
  fin_cases hp <;> exact ⟨rfl, rfl, fun _ _ => rfl⟩

/-- What a row of `storeTable` says of its operation. -/
structure StoreRow (p : MemOp × (CoreId → MemF → Instr) × Nat × (Core → MemF → List Nat → List (Nat × List Byte))) : Prop where
  command : p.2.1 = p.1.row
  bytes : p.1.bytes = p.2.2.1
  noLoad : ∀ f m, memKind p.1 f m = none
  chunks : ∀ (c : Core) f, memChunks c p.1 f (c.mask f.pred f.pneg) (memWords c p.1 p.1.bytes f) =
    p.2.2.2 c f (memWords c p.1 p.1.bytes f)

theorem storeTable_rows : ∀ p ∈ storeTable, StoreRow p := by
  intro p hp
  fin_cases hp <;> exact ⟨rfl, rfl, fun _ _ => rfl, fun _ _ => rfl⟩

/-- The two ways a MEM operation leaves memory alone: a word outside the scratchpad ends the RUN, and one not performed does nothing. -/
theorem issueRow_memIdle {s : State} {n : Nat} {op : MemOp} {f : MemF} {r : RunState} (hi : s.Issues n r (.mem op f)) :
    (op.performedIn (s.core n) f = true → (∃ a ∈ memWords (s.core n) op op.bytes f, 0x600000 < a + op.bytes) →
      FaultedRun s (issueRow s n (.mem op f)) n r cMemUnmapped) ∧
    (op.performedIn (s.core n) f = false → issueRow s n (.mem op f) = s.issuedOp n r (.mem op f) (s.core n)) := by
  refine ⟨fun h hout => ?_, fun h => issueRow_skip hi nofun (issueMem_skipped _ h)⟩
  obtain ⟨_, hissue⟩ := issueMem_unmapped (s.core n).pc h hout
  exact issueRow_fault hi nofun hissue

/-- Settles O7: a performed load or store takes its words' banks in the next cycle, each as its table's row says. -/
theorem memOperations : Obligations.MemOperations := by
  unfold Obligations.MemOperations
  refine ⟨fun p hp s core f r hi => ?_, fun p hp s core f r hi => ?_⟩
  · have hrow := loadTable_rows p hp
    obtain ⟨hfault, hskip⟩ := issueRow_memIdle hi
    rw [hrow.command, exec_memRow, ← hrow.bytes]
    refine ⟨fun h hin => congrArg Host.Outcome.next ?_, fun h hout => ⟨_, rfl, hfault h hout⟩, fun h => congrArg Host.Outcome.next (hskip h)⟩
    exact issueRow_slot hi nofun (issueMem_load _ h hin (hrow.kind _ f)) hi.run rfl
  · have hrow := storeTable_rows p hp
    obtain ⟨hfault, hskip⟩ := issueRow_memIdle hi
    rw [hrow.command, exec_memRow, ← hrow.bytes]
    refine ⟨fun h hin => congrArg Host.Outcome.next ?_, fun h hout => ⟨_, rfl, hfault h hout⟩, fun h => congrArg Host.Outcome.next (hskip h)⟩
    have hissue := issueMem_store (s.core core.toNat).pc h hin (hrow.noLoad f _)
    simp only [hrow.chunks] at hissue
    exact issueRow_slot hi nofun hissue hi.run rfl

end Sys2Proof.Machine
end

section
/-! PROOFS. O8: control operations (04 R94 to R97, R99). A CTL operation acts on the flow its bundle has without it, after the other slots
have issued; alone in its bundle it finds the state as it was but for the draw number. -/

namespace Sys2Proof.Machine

/-! ### The issue of a control operation -/

/-- The command that issues a CTL operation. -/
def CtlOp.row : CtlOp → CoreId → CtlF → Instr
  | .br => .br | .brl => .brl | .bri => .bri | .loop => .loop | .loopx => .loopx | .endRun => .endRun | .clrf => .clrf
  | .trap => .trap

theorem exec_ctlRow (op : CtlOp) (core : CoreId) (f : CtlF) (s : State) :
    exec (op.row core f) s = .next (issueRow s core.toNat (.ctl op f)) := by
  cases op <;> rfl

section
variable {s : State} {n : Nat} {r : RunState} {op : CtlOp} {f : CtlF} (h : s.Issues n r (.ctl op f))
include h

/-- A CTL operation that leaves its core alone. -/
theorem issueRow_ctl {fl : Flow}
    (hc : issueCtl s.draw n (s.core n).pc 6 0 op f ((s.core n).flow r (.ctl op f)) = (s.draw, fl, none)) :
    issueRow s n (.ctl op f) = s.issuedFlow n r (.ctl op f) (s.core n) fl :=
  issueRow_flow h (s' := s.draw) (s'' := s.draw) rfl hc rfl (fun _ => rfl) h.run rfl

/-- A CTL operation with effect `d` on its core. -/
theorem issueRow_ctl_core {fl : Flow} {d : Core} (hr : d.run = some r) (hcy : d.cycle = (s.core n).cycle)
    (hc : issueCtl s.draw n (s.core n).pc 6 0 op f ((s.core n).flow r (.ctl op f)) = (s.draw.setCore n d, fl, none)) :
    issueRow s n (.ctl op f) = s.issuedFlow n r (.ctl op f) d fl :=
  issueRow_flow h (s' := s.draw) (s'' := s.draw.setCore n d) rfl hc (State.core_setCore ..)
    (fun e => State.setCore_setCore s.draw n d e (Core.ne_of_run hr)) hr hcy

/-- A CTL operation that faults ends its RUN, as an operation of another slot does. -/
theorem issueRow_ctl_fault {code det : Nat}
    (hc : issueCtl s.draw n (s.core n).pc 6 0 op f ((s.core n).flow r (.ctl op f)) =
      (s.draw, (s.core n).flow r (.ctl op f), some (code, det))) : FaultedRun s (issueRow s n (.ctl op f)) n r code := by
  let hd : Header := { slots := 1 <<< 7, idle := 0, bkpt := false, mark := false, last := false }
  let d : Core := (s.core n).bundleDone r (s.core n).cycle (s.core n).pc hd [.ctl op f] ((s.core n).flow r (.ctl op f))
  let i : StopInfo := ⟨code, (s.core n).pc, 7, det⟩
  have hfree : ¬ (s.core n).cycle < Map.get 0 (s.core n).busy 7 := Nat.not_lt.mpr h.free
  have hflow : s.draw.ctlFlow n (s.core n).pc (2 + slotBytes 7) 0 [.ctl op f]
      { loops := (loopNext (s.core n).loops (s.core n).pc (2 + slotBytes 7)).1,
        next := (loopNext (s.core n).loops (s.core n).pc (2 + slotBytes 7)).2, at_ := (s.core n).cycle + 1 + 0,
        redirect := r.redirect, ended := false } = (s.draw, (s.core n).flow r (.ctl op f), some (code, det)) := hc
  let r' : RunState := { r with
    nextIssue := (s.core n).cycle + 1, redirect := ((s.core n).flow r (.ctl op f)).later, ended := false, skipBkpt := false }
  have hrun : d.run = some r' := by
    simp [d, r', Core.bundleDone, Core.flow, h.run, h.live.2.2]
  have hstop : d.stopRun i = { d with run := (d.run).map fun q => { q with stop := some i } } := by
    simp [Core.stopRun, hrun, r', h.live.2.2]
  have heq : issueRow s n (.ctl op f) = (s.draw.setCore n d).stopNow n i := by
    rw [issueRow_legal h]
    simp only [issueLegal, h.run, List.find?_cons, SlotOp.slot, hfree, decide_false, List.find?_nil, issueAll, List.foldl_cons,
      List.foldl_nil, issueSlot, hflow, Option.map_none, Option.map_some, Option.orElse_none]
    show ((s.draw.setCore n d).setCore n (((s.draw.setCore n d).core n).stopRun i)).checkStop n = _
    unfold State.checkStop State.stopNow
    rw [State.core_setCore s.draw n d, hstop, State.core_setCore (s.draw.setCore n d), hrun]
    exact if_pos le_rfl
  have hcore : (s.draw.setCore n d).core n = d := State.core_setCore s.draw n d
  obtain ⟨hqueue, hended, hfiles, hmemory, hothers⟩ := stopNow_faulted (r := r') i (hcore.symm ▸ hrun) h.live.2.2
  rw [heq]
  refine FaultedRun.from (s' := s.draw.setCore n d) ⟨hqueue, hended, hfiles, hmemory, hothers⟩ ?_ rfl
    fun j hj => State.core_setCore_other s.draw n d j (Ne.symm hj)
  rw [hcore]
  exact ⟨rfl, rfl, rfl, rfl, rfl⟩

end

/-! ### What each control operation does -/

theorem linkFrom_draw (s : State) (n t : Nat) (b : Bool) (fuel : Nat) (loops : List LoopLvl) (y p succ : Nat) :
    linkFrom s.draw n t b fuel loops y p succ = linkFrom s n t b fuel loops y p succ := by
  induction fuel generalizing loops y p succ with
  | zero => rfl
  | succ fuel ih =>
    simp only [linkFrom, ih]
    rfl

theorem issueCtl_skipped {s : State} {n : Nat} {f : CtlF} (h : (s.core n).performed f.pred f.pneg = false) (pc len idle : Nat) (op : CtlOp)
    (fl : Flow) : issueCtl s.draw n pc len idle op f fl = (s.draw, fl, none) := by
  have h' : (s.draw.core n).performed f.pred f.pneg = false := h
  simp [issueCtl, h']

theorem not_skipped_draw {s : State} {n : Nat} {f : CtlF} (h : (s.core n).performed f.pred f.pneg = true) :
    ¬ (!(s.draw.core n).performed f.pred f.pneg) = true := by
  have h' : (s.draw.core n).performed f.pred f.pneg = true := h
  simp [h']

/-- A flow whose fetch is redirected in the third cycle after `t`, unless a redirect is pending already (04 R95). -/
def Flow.jump (fl : Flow) (t dest : Nat) : Flow :=
  { fl with redirect := fl.redirect.orElse fun _ => some { at_ := t + 3, target := dest } }

theorem Flow.jump_pending {fl : Flow} {rd : Redirect} (h : fl.redirect = some rd) (t dest : Nat) : fl.jump t dest = fl := by
  cases fl
  cases h
  rfl

section
variable {s : State} {n : Nat} {f : CtlF} (h : (s.core n).performed f.pred f.pneg = true) (pc len idle : Nat) (fl : Flow)
include h

theorem issueCtl_br : issueCtl s.draw n pc len idle .br f fl =
    (s.draw, fl.jump (s.core n).cycle (wrapPc (pc + 2 * signedOf 18 (f.bits.toNat / 16))), none) := by
  have h' : (s.draw.core n).performed f.pred f.pneg = true := h
  simp only [issueCtl, h', Bool.not_true, Bool.false_eq_true, if_false]
  cases hr : fl.redirect with
  | none => simp only [Flow.jump, hr]; rfl
  | some rd => rw [Flow.jump_pending hr]

theorem issueCtl_brl : issueCtl s.draw n pc len idle .brl f fl =
    (s.draw.setCore n ((s.core n).emit 7 1 [.s (f.bits.toNat / 2 ^ 17) (BitVec.ofNat 64
        (linkFrom s n (s.core n).cycle fl.redirect.isNone 2 fl.loops ((s.core n).cycle + 1 + idle)
          (if fl.redirect.isNone then fl.next else wrapPc (pc + len : Nat)) (wrapPc (pc + len : Nat))))] .none),
      fl.jump (s.core n).cycle (wrapPc (pc + 2 * signedOf 17 (f.bits.toNat % 2 ^ 17))), none) := by
  have h' : (s.draw.core n).performed f.pred f.pneg = true := h
  simp only [issueCtl, h', Bool.not_true, Bool.false_eq_true, if_false, linkFrom_draw]
  cases hr : fl.redirect with
  | none => simp only [Flow.jump, hr]; rfl
  | some rd => rw [Flow.jump_pending hr]; rfl

theorem issueCtl_bri : issueCtl s.draw n pc len idle .bri f fl =
    (s.draw, fl.jump (s.core n).cycle (((s.core n).sreg (f.bits.toNat / 2 ^ 17)).toNat % 2 ^ 19 / 2 * 2), none) := by
  have h' : (s.draw.core n).performed f.pred f.pneg = true := h
  simp only [issueCtl, h', Bool.not_true, Bool.false_eq_true, if_false]
  cases hr : fl.redirect with
  | none => simp only [Flow.jump, hr]; rfl
  | some rd => rw [Flow.jump_pending hr]

theorem issueCtl_loop_full (hfull : 4 ≤ (s.core n).loops.length) :
    issueCtl s.draw n pc len idle .loop f fl = (s.draw, fl, some (cCoreLoopOverflow, 0)) := by
  have h' : (s.draw.core n).performed f.pred f.pneg = true := h
  have hfull' : 4 ≤ (s.draw.core n).loops.length := hfull
  simp only [issueCtl, h', Bool.not_true, Bool.false_eq_true, if_false, if_pos hfull']

theorem issueCtl_loop_zero (hroom : (s.core n).loops.length < 4) (hcount : (s.core n).loopCount f = 0) :
    issueCtl s.draw n pc len idle .loop f fl =
      (let stop := wrapPc (pc + 2 * (f.bits.toNat % 2 ^ 11) : Nat)
       (s.draw, { fl with next := wrapPc (stop + (s.headerAt n stop).len : Nat), at_ := fl.at_ + 2 }, none)) := by
  have h' : (s.draw.core n).performed f.pred f.pneg = true := h
  have hroom' : ¬ 4 ≤ (s.draw.core n).loops.length := Nat.not_le.mpr hroom
  have hcount' : (s.draw.core n).loopCount f = 0 := hcount
  simp only [issueCtl, h', Bool.not_true, Bool.false_eq_true, if_false, if_neg hroom', if_pos hcount']
  rfl

theorem issueCtl_loop_open (hroom : (s.core n).loops.length < 4) (hcount : (s.core n).loopCount f ≠ 0) :
    issueCtl s.draw n pc len idle .loop f fl =
      (s.draw, { fl with loops := { start := wrapPc (pc + len : Nat), stop := wrapPc (pc + 2 * (f.bits.toNat % 2 ^ 11) : Nat),
                                    count := BitVec.ofNat 32 ((s.core n).loopCount f) } :: fl.loops }, none) := by
  have h' : (s.draw.core n).performed f.pred f.pneg = true := h
  have hroom' : ¬ 4 ≤ (s.draw.core n).loops.length := Nat.not_le.mpr hroom
  have hcount' : ¬ (s.draw.core n).loopCount f = 0 := hcount
  simp only [issueCtl, h', Bool.not_true, Bool.false_eq_true, if_false, if_neg hroom', if_neg hcount']
  rfl

theorem issueCtl_loopx : issueCtl s.draw n pc len idle .loopx f fl = (s.draw, { fl with loops := fl.loops.tail }, none) :=
  if_neg (not_skipped_draw h)

theorem issueCtl_endRun : issueCtl s.draw n pc len idle .endRun f fl = (s.draw, { fl with ended := true }, none) :=
  if_neg (not_skipped_draw h)

theorem issueCtl_clrf : issueCtl s.draw n pc len idle .clrf f fl =
    (s.draw.setCore n { s.core n with clrfAt := some ((s.core n).cycle + 1, f.bits.toNat % 16) }, fl, none) :=
  if_neg (not_skipped_draw h)

theorem issueCtl_trap : issueCtl s.draw n pc len idle .trap f fl = (s.draw, fl, some (cCoreSwTrap, f.bits.toNat % 65536)) :=
  if_neg (not_skipped_draw h)

end

/-- Settles O8: each operation acts on the flow of its bundle, or on its core, or faults, as its branch of the issue says. -/
theorem controlOperations : Obligations.ControlOperations := by
  unfold Obligations.ControlOperations
  intro s core f r n c goes fl jump count stop
  refine ⟨fun h => ⟨fun hi => ?_, fun hi => ?_, fun hi => ?_, fun hi hroom hzero => ?_, fun hi hroom hcount => ?_, fun hi hfull => ?_,
    fun hi => ?_, fun hi => ?_, fun hi => ?_, fun hi => ?_⟩, fun h p hp hi => ?_⟩
  · exact congrArg Host.Outcome.next (issueRow_ctl hi (issueCtl_br h ..))
  · exact congrArg Host.Outcome.next (issueRow_ctl_core hi hi.run rfl (issueCtl_brl h ..))
  · exact congrArg Host.Outcome.next (issueRow_ctl hi (issueCtl_bri h ..))
  · exact congrArg Host.Outcome.next (issueRow_ctl hi (issueCtl_loop_zero h _ _ _ _ hroom hzero))
  · exact congrArg Host.Outcome.next (issueRow_ctl hi (issueCtl_loop_open h _ _ _ _ hroom hcount))
  · exact ⟨_, rfl, issueRow_ctl_fault hi (issueCtl_loop_full h _ _ _ _ hfull)⟩
  · exact congrArg Host.Outcome.next (issueRow_ctl hi (issueCtl_loopx h ..))
  · exact congrArg Host.Outcome.next (issueRow_ctl hi (issueCtl_endRun h ..))
  · exact congrArg Host.Outcome.next (issueRow_ctl_core hi hi.run rfl (issueCtl_clrf h ..))
  · exact ⟨_, rfl, issueRow_ctl_fault hi (issueCtl_trap h ..)⟩
  · have hrow : p.2 = p.1.row := by
      fin_cases hp <;> rfl
    rw [hrow, exec_ctlRow]
    exact congrArg Host.Outcome.next (issueRow_ctl hi (issueCtl_skipped h ..))

end Sys2Proof.Machine
end

section
/-! PROOFS. O9: cube and stream operations in their issue cycle (04 R84 to R87). -/

namespace Sys2Proof.Machine

/-! ### A step's post-increments queue results and change nothing else of the RUN -/

@[simp] theorem Core.advanceReg_run (c : Core) (r by_ : Nat) : (c.advanceReg r by_).run = c.run := rfl
@[simp] theorem Core.advanceReg_cycle (c : Core) (r by_ : Nat) : (c.advanceReg r by_).cycle = c.cycle := rfl

@[simp] theorem Core.setCtx_run (c : Core) (b : Bool) (x : StreamCtx) : (c.setCtx b x).run = c.run := by
  cases b <;> rfl

@[simp] theorem Core.setCtx_cycle (c : Core) (b : Bool) (x : StreamCtx) : (c.setCtx b x).cycle = c.cycle := by
  cases b <;> rfl

theorem stepIncr_run_cycle (c : Core) (f : StepF) (fa fb : Fmt) (kf wa wb : Nat) :
    (stepIncr c f fa fb kf wa wb).run = c.run ∧ (stepIncr c f fa fb kf wa wb).cycle = c.cycle := by
  unfold stepIncr
  cases c.window <;> simp [apply_ite Core.run, apply_ite Core.cycle]

theorem stepIssued_run_cycle (s : State) (c : Core) (z : Bool) (f : StepF) (fa fb : Fmt) (kf wa wb : Nat) :
    (stepIssued s c z f fa fb kf wa wb).run = c.run ∧ (stepIssued s c z f fa fb kf wa wb).cycle = c.cycle := by
  unfold stepIssued
  simp only [stepIncr_run_cycle, apply_ite Core.run, apply_ite Core.cycle, Core.setCtx_run, Core.setCtx_cycle, ite_self, and_self]

/-! ### Issue -/

theorem find_outsidePad_none {as_ : List Nat} (hin : ∀ a ∈ as_, a < 0x600000) :
    (as_.find? fun a => decide (padSize ≤ a)) = none :=
  List.find?_eq_none.mpr fun a ha hout => Nat.not_le.mpr (hin a ha) (of_decide_eq_true hout)

section
variable {s : State} {n : Nat} {z : Bool}

section
variable {f : StepF} {fa fb : Fmt} {kf wa wb : Nat} (hshape : stepShapeOf f = some (fa, fb, kf, wa, wb))
include hshape

theorem issueStep_skipped (pc : Nat) (h : (s.core n).performed f.pred f.pneg = false) : issueStep s n pc z f = (s, none) := by
  simp [issueStep, hshape, h]

theorem issueStep_performed (h : (s.core n).performed f.pred f.pneg = true) (hread : stepReadable s n f fa fb kf wa wb) :
    issueStep s n (s.core n).pc z f = (s.setCore n (stepIssued s (s.core n) z f fa fb kf wa wb), none) := by
  obtain ⟨hunits, hplanes, hpad, hstream⟩ := hread
  have ha : (((stepA (s.core n) f fa kf wa).1.filterMap id).find? fun x => decide (padSize < x + wa)) = none := find_beyondPad_none hunits
  have hp : ((stepA (s.core n) f fa kf wa).2.1.find? fun x => decide (padSize ≤ x)) = none :=
    find_outsidePad_none hplanes
  unfold issueStep
  by_cases hb : f.bsrc = 0
  · obtain ⟨hbu, hbp⟩ := hpad hb
    have hbu' : ((stepB (s.core n) f fb wb).1.find? fun x => decide (padSize < x + wb)) = none := find_beyondPad_none hbu
    have hbp' : ((stepB (s.core n) f fb wb).2.find? fun x => decide (padSize ≤ x)) = none := find_outsidePad_none hbp
    simp only [hshape, h, ha, hp, hb, hbu', hbp', Bool.not_true, Bool.false_eq_true, if_false, if_true, Option.orElse_none, stepIssued]
  · simp only [hshape, h, ha, hp, hb, hstream hb, Bool.not_true, Bool.false_eq_true, if_false, Option.orElse_none, stepIssued]

end

theorem issueDrain_skipped {f : DrainF} (h : (s.core n).performed f.pred f.pneg = false) : issueDrain s n z f = (s, none) := by
  simp [issueDrain, h]

theorem issueDrain_performed {f : DrainF} (h : (s.core n).performed f.pred f.pneg = true) : issueDrain s n z f =
    (let c := s.core n
     (s.setCore n { c with
        drains := c.drains ++ [{ t := c.cycle, acc := f.acc.toNat, vd := f.vd.toNat, zero := z, seq := c.seq, vals := [] }]
        seq := c.seq + 1 }, none)) := by
  simp [issueDrain, h]

theorem issueSopen_skipped {f : SopenF} (h : (s.core n).performed f.pred f.pneg = false) : issueSopen s n f = (s, none) := by
  simp [issueSopen, h]

theorem issueSopen_performed {f : SopenF} (h : (s.core n).performed f.pred f.pneg = true) : issueSopen s n f =
    (let c := s.core n
     (s.setCore n (({ c with gens := c.gens + 1 } : Core).setCtx f.ctx
        { opened := true, gen := c.gens + 1,
          base := lineBase ((c.sreg f.sbase.toNat).toNat % 2 ^ 30) (if f.lw then 1024 else 512),
          plane := lineBase ((c.sreg f.splane.toNat).toNat % 2 ^ 30) 64, lw := f.lw, fmtb := f.fmtb.toNat,
          total := f.j.toNat, consumed := 0 }), none)) := by
  simp [issueSopen, h]

end

/-- Settles O9: each operation puts its work in flight, or leaves its core alone. -/
theorem cubeOperations : Obligations.CubeOperations := by
  unfold Obligations.CubeOperations
  intro s core r n c
  refine ⟨fun p hp f fa fb kf wa wb hi hshape => ?_, fun p hp f hi => ?_, fun f hi => ?_⟩
  · have hrow : exec (p.2 core f) s = .next (issueRow s n (.step p.1 f)) := by
      fin_cases hp <;> rfl
    rw [hrow]
    refine ⟨fun h hread => congrArg Host.Outcome.next ?_, fun h => congrArg Host.Outcome.next ?_⟩
    · obtain ⟨hrun, hcycle⟩ := stepIssued_run_cycle s c p.1 f fa fb kf wa wb
      exact issueRow_slot hi nofun (issueStep_performed hshape h hread) (hrun.trans hi.run) hcycle
    · exact issueRow_skip hi nofun (issueStep_skipped hshape _ h)
  · have hrow : exec (p.2 core f) s = .next (issueRow s n (.drain p.1 f)) := by
      fin_cases hp <;> rfl
    rw [hrow]
    refine congrArg Host.Outcome.next ?_
    cases h : c.performed f.pred f.pneg with
    | true => exact issueRow_slot hi nofun (issueDrain_performed h) hi.run rfl
    | false => exact issueRow_skip hi nofun (issueDrain_skipped h)
  · show Host.Outcome.next (issueRow s n (.sopen f)) = _
    refine congrArg Host.Outcome.next ?_
    cases h : c.performed f.pred f.pneg with
    | true => exact issueRow_slot hi nofun (issueSopen_performed h) ((Core.setCtx_run ..).trans hi.run) (Core.setCtx_cycle ..)
    | false => exact issueRow_skip hi nofun (issueSopen_skipped h)

end Sys2Proof.Machine
end

section
/-! PROOFS. O10 and O11: busy slots and the issue of a bundle (04 R73, R74, R78, R98, R99). -/

namespace Sys2Proof.Machine

/-! ### Busy slots -/

theorem issueLegal_busy {s : State} {n : Nat} {r : RunState} {ops : List SlotOp} (pc len : Nat) (h : Header) (hrun : (s.core n).run = some r)
    (hstop : r.stop = none) (hbusy : ∃ o ∈ ops, (s.core n).cycle < Map.get 0 (s.core n).busy o.slot) :
    FaultedRun s (issueLegal s n pc len h ops) n r cCoreSlotBusy := by
  obtain ⟨o, ho, hlate⟩ := hbusy
  have hfind : (ops.find? fun o => decide ((s.core n).cycle < Map.get 0 (s.core n).busy o.slot)).isSome = true :=
    List.find?_isSome.mpr ⟨o, ho, decide_eq_true hlate⟩
  obtain ⟨b, hb⟩ := Option.isSome_iff_exists.mp hfind
  have heq : issueLegal s n pc len h ops = s.stopNow n ⟨cCoreSlotBusy, pc, b.slot, 0⟩ := by
    simp only [issueLegal, hrun, hb]
  rw [heq]
  exact stopNow_faulted _ hrun hstop

theorem SlotOp.occ_gt_one_iff (op : SlotOp) : 1 < op.occ ↔ ∃ v f, op = .vec v f ∧ (v = .vperm ∨ v = .vrsum ∨ v = .vscan) := by
  cases op with
  | vec v f => cases v <;> simp [SlotOp.occ]
  | _ => simp [SlotOp.occ]

/-- Settles O10. -/
theorem busySlotHaltsQueue : Obligations.BusySlotHaltsQueue :=
  ⟨fun _ _ pc len h _ _ hrun hstop hbusy => issueLegal_busy pc len h hrun hstop hbusy, fun _ _ _ _ => Map.get_set_same .., SlotOp.occ_gt_one_iff⟩

/-! ### The issue of a bundle -/

section
variable {s : State} {n : Nat} {r : RunState} (hrun : (s.core n).run = some r) (hstop : r.stop = none)

section
variable (hgoing : r.suspended = false) (hmore : r.ended = false) (hnow : (s.core n).cycle = r.nextIssue)
  (hdelivered : (s.core n).undelivered = false)
include hrun hgoing hmore hnow hdelivered

theorem canIssue_atIssue : (s.core n).canIssue = true ∧ (s.core n).atIssue = true := by
  constructor
  · simp [Core.canIssue, hrun, hgoing, hmore]
  · simp [Core.atIssue, hrun, hgoing, hmore, hnow, hdelivered]

include hstop

/-- In its issue cycle a RUN issues where it stands. -/
theorem bundleIssue_sound (hsound : s.slotError n = none) : bundleIssue s n = fetchIssue s n := by
  obtain ⟨hcan, hat⟩ := canIssue_atIssue hrun hgoing hmore hnow hdelivered
  unfold bundleIssue
  simp only [State.toIssue_now s n r hrun hstop hnow hdelivered, hcan, hat, hsound, Bool.not_true, Bool.false_eq_true, if_false]

/-- A bad word of an earlier load or store stops the RUN before the bundle. -/
theorem bundleIssue_unsound {i : StopInfo} (hbad : s.slotError n = some i) : bundleIssue s n = s.stopNow n i := by
  obtain ⟨hcan, hat⟩ := canIssue_atIssue hrun hgoing hmore hnow hdelivered
  unfold bundleIssue
  simp only [State.toIssue_now s n r hrun hstop hnow hdelivered, hcan, hat, hbad, Bool.not_true, Bool.false_eq_true, if_false]

end

section
variable {hb : List Byte × Option Nat × Nat} (hread : s.readSram (bundleMA n (s.core n).pc) 2 = hb)
include hread

theorem fetchIssue_badHeader (hbad : hb.2.1.isSome = true) : fetchIssue s n = s.fetchFail n (s.core n).pc := by
  subst hread
  exact if_pos hbad

variable {h : Header} (hheader : Header.ofNat (leNat hb.1) = h)
include hrun hheader

theorem fetchIssue_breakpoint (hgood : hb.2.1 = none) (hbkpt : (s.core n).bkptEn = true ∧ h.bkpt = true ∧ r.skipBkpt = false) :
    fetchIssue s n = s.suspend n := by
  obtain ⟨hen, hmark, hskip⟩ := hbkpt
  simp [fetchIssue, hrun, hread, hheader, hgood, hen, hmark, hskip]

theorem fetchIssue_bundle {b : List Byte × Option Nat × Nat} (hgood : hb.2.1 = none)
    (hbkpt : (s.core n).bkptEn = false ∨ h.bkpt = false ∨ r.skipBkpt = true) (hshot : r.oneShot = false ∨ r.skipBkpt = true)
    (hroom : (s.core n).pc + h.len ≤ 2 ^ 19) (hbundle : s.readSram (bundleMA n (s.core n).pc) h.len = b) (hbody : b.2.1 = none) :
    fetchIssue s n = issueBundle (s.setCore n { s.core n with sramFixed := (s.core n).sramFixed + b.2.2 }) n (s.core n).pc h.len h
      (decodeSlots h.len (onesOf 8 h.slots) (b.1.drop 2)) := by
  have hgo : ((s.core n).bkptEn && h.bkpt && !r.skipBkpt) = false := by
    rcases hbkpt with h | h | h <;> simp [h]
  have hone : (s.core n).stepped = false := by
    rcases hshot with h | h <;> simp [Core.stepped, hrun, h]
  unfold fetchIssue
  simp only [hrun, hread, hheader, hgood, hgo, hone, hbundle, hbody, Nat.not_lt.mpr hroom, Option.isSome_none, Bool.false_eq_true,
    Bool.or_self, if_false]

end

include hrun hstop in
theorem issueBundle_illegal (pc len : Nat) (h : Header) {slots : List (Nat × Option SlotOp)} (hbad : ∃ p ∈ slots, p.2 = none) :
    FaultedRun s (issueBundle s n pc len h slots) n r cCoreIllegalBundle := by
  obtain ⟨p, hp, hnone⟩ := hbad
  have hfind : (slots.find? fun p => p.2.isNone).isSome = true := List.find?_isSome.mpr ⟨p, hp, by simp [hnone]⟩
  obtain ⟨b, hb⟩ := Option.isSome_iff_exists.mp hfind
  have heq : issueBundle s n pc len h slots = s.stopNow n ⟨cCoreIllegalBundle, pc, b.1, 0⟩ := by
    simp only [issueBundle, hb]
  rw [heq]
  exact stopNow_faulted _ hrun hstop

theorem issueBundle_legal (pc len : Nat) (h : Header) {slots : List (Nat × Option SlotOp)} (hgood : ∀ p ∈ slots, p.2.isSome = true) :
    issueBundle s n pc len h slots = issueLegal s n pc len h (slots.filterMap Prod.snd) := by
  have hfind : (slots.find? fun p => p.2.isNone) = none :=
    List.find?_eq_none.mpr fun p hp => by simp [Option.isSome_iff_ne_none.mp (hgood p hp)]
  simp only [issueBundle, hfind]

/-- Words corrected in a read of the core's own memory change nothing a RUN's fault looks at. -/
theorem FaultedRun.of_sramFixed {t : State} {k code : Nat}
    (h : FaultedRun (s.setCore n { s.core n with sramFixed := k }) t n r code) : FaultedRun s t n r code := by
  refine h.from ?_ rfl fun j hj => State.core_setCore_other s n _ j (Ne.symm hj)
  rw [State.core_setCore]
  exact ⟨rfl, rfl, rfl, rfl, rfl⟩

end

/-- Settles O11: the bundle's outcomes, in the order the issue looks at them. -/
theorem bundleIssue_outcomes : Obligations.BundleIssue := by
  unfold Obligations.BundleIssue
  intro s core r n c hb h b slots fixed hrun hgoing hmore hstop hnow hdelivered
  have hexec : exec (.bundleIssue core) s = .next (bundleIssue s n) := rfl
  have hfetch (hsound : s.slotError n = none) : exec (.bundleIssue core) s = .next (fetchIssue s n) :=
    hexec.trans (congrArg Host.Outcome.next (bundleIssue_sound hrun hstop hgoing hmore hnow hdelivered hsound))
  have hread : s.readSram (bundleMA n (s.core n).pc) 2 = hb := rfl
  have hheader : Header.ofNat (leNat hb.1) = h := rfl
  have hbytes : s.readSram (bundleMA n (s.core n).pc) h.len = b := rfl
  refine ⟨fun i hi => ?_, fun hsound hbad => ?_, fun hsound hgood hbkpt => ?_, fun hsound hgood hbkpt hshot hroom hbody => ?_⟩
  · exact ⟨_, hexec, bundleIssue_unsound hrun hstop hgoing hmore hnow hdelivered hi ▸ stopNow_faulted i hrun hstop⟩
  · rw [hfetch hsound, fetchIssue_badHeader hread hbad]
  · rw [hfetch hsound, fetchIssue_breakpoint hrun hread hheader hgood hbkpt]
  · rw [hfetch hsound, fetchIssue_bundle hrun hread hheader hgood hbkpt hshot hroom hbytes hbody]
    refine ⟨fun hlegal => congrArg Host.Outcome.next (issueBundle_legal _ _ _ hlegal), fun hillegal => ⟨_, rfl, ?_⟩⟩
    have hrun' : (fixed.core n).run = some r := by
      rw [State.core_setCore]
      exact hrun
    exact FaultedRun.of_sramFixed (issueBundle_illegal hrun' hstop _ _ _ hillegal)

end Sys2Proof.Machine
end

section
/-! PROOFS. O12: a cycle of a quiet core (03 R49, 04 R76). With nothing else in flight the cycle's phases change nothing, and the next cycle
begins with the one result, or the landing elements, of the statement. -/

namespace Sys2Proof.Machine

/-! ### The phases of a cycle with nothing to do -/

theorem State.endHold_none {s : State} {n : Nat} (h : (s.core n).hold = none) : s.endHold n = s := by
  simp [State.endHold, h]

theorem State.feedStep_read (s : State) (n : Nat) {x : Nat} {st : CubeStep} (h : 14 < x - st.t) : s.feedStep n x st = (s, st) :=
  if_pos h

theorem State.feed_read {s : State} {n x : Nat} (h : ∀ st ∈ (s.core n).steps, 14 < x - st.t) : s.feed n x = s.setCore n (s.core n) := by
  have hfold : ∀ (l acc : List CubeStep), (∀ st ∈ l, 14 < x - st.t) →
      l.foldl (fun (a : State × List CubeStep) st => let o := a.1.feedStep n x st; (o.1, a.2 ++ [o.2])) (s, acc) = (s, acc ++ l) := by
    intro l
    induction l with
    | nil => simp
    | cons st l ih =>
      intro acc hl
      rw [List.foldl_cons, State.feedStep_read s n (hl st List.mem_cons_self), ih _ fun y hy => hl y (List.mem_cons_of_mem _ hy)]
      simp
  unfold State.feed
  simp only [hfold _ _ h, List.nil_append]

theorem State.doLoads_none {s : State} {n : Nat} (x : Nat) (h : (s.core n).loads = []) : s.doLoads n x = s.setCore n (s.core n) := by
  have hcore : { s.core n with loads := [] } = s.core n := by rw [← h]
  simp [State.doLoads, h, hcore]

theorem Core.doDrains_none {c : Core} (x : Nat) (h : c.drains = []) : c.doDrains x = c := by
  have hcore : { c with drains := [] } = c := by rw [← h]
  simp [Core.doDrains, h, hcore]

theorem State.doStores_none {s : State} {n : Nat} (x : Nat) (h : (s.core n).stores = []) : s.doStores n x = s.setCore n (s.core n) := by
  have hcore : { s.core n with stores := [] } = s.core n := by rw [← h]
  simp [State.doStores, h, hcore]

/-- A core in its next cycle, with the counts of its clocks. -/
def Core.ticked (c : Core) (exec_ swallow bank : BitVec 64) (clocks : Nat) : Core :=
  { c with cycle := c.cycle + 1, cycExec := exec_, cycSwallow := swallow, cycBank := bank, clocks := clocks }

section
variable {s : State} {n : Nat} (h : s.Quiet n)
include h

theorem State.Quiet.feeds : ∀ st ∈ (s.core n).steps, 14 < (s.core n).cycle - st.t := fun st hst => by
  have := h.read st hst
  omega

theorem State.turnCycle_quiet : ∃ e w b k,
    s.turnCycle n = (s.setCore n (((s.core n).ticked e w b k).purge.beginCycle ((s.core n).cycle + 1))).draw := by
  obtain ⟨r, hrun, -, -⟩ := h.going
  have hne : s.core n ≠ {} := Core.ne_of_run hrun
  have hset (d : Core) : (s.setCore n (s.core n)).setCore n d = s.setCore n d := State.setCore_setCore s n _ d hne
  have hfeed := State.feed_read h.feeds
  have hloads : (s.setCore n (s.core n)).doLoads n (s.core n).cycle = s.setCore n (s.core n) := by
    rw [State.doLoads_none _ (by rw [State.core_setCore]; exact h.loads), State.core_setCore, hset]
  have hstores : (s.setCore n (s.core n)).doStores n (s.core n).cycle = s.setCore n (s.core n) := by
    rw [State.doStores_none _ (by rw [State.core_setCore]; exact h.stores), State.core_setCore, hset]
  unfold State.turnCycle
  simp only [State.endHold_none h.hold, if_pos h.async, hfeed, hloads, State.core_setCore, Core.doDrains_none _ h.drains, hset, hstores]
  exact ⟨_, _, _, _, rfl⟩

theorem State.missing_quiet : (s.core n).missing (s.core n).cycle = [] := by
  unfold Core.missing
  rw [List.filterMap_eq_nil_iff.mpr fun st hst => if_neg (Nat.not_le.mpr (h.feeds st hst))]
  rfl

theorem State.advanceTo_quiet : s.advanceTo n ((s.core n).cycle + 1) 1 = s.turnCycle n := by
  simp [State.advanceTo, State.advance, Nat.not_le.mpr h.clocks, State.missing_quiet h]

end

/-! ### Files: what results write and landing steps add to -/

/-- Two cores that hold the same in their registers, accumulators and flags, and whose steps land alike. -/
structure Core.SameFiles (c d : Core) : Prop where
  v : c.v = d.v
  s : c.s = d.s
  a : c.a = d.a
  p : c.p = d.p
  acc : c.acc = d.acc
  sticky : c.sticky = d.sticky
  eqMode : c.eqMode = d.eqMode

theorem Core.SameFiles.applyRes {c d : Core} (h : c.SameFiles d) (r : Result) : (c.applyRes r).SameFiles (d.applyRes r) := by
  obtain ⟨hv, hs, ha, hp, hacc, hsticky, hmode⟩ := h
  unfold Core.applyRes
  cases r.dest with
  | none => constructor <;> simp [*]
  | v reg ls => constructor <;> simp [Core.setLanes, *]
  | s reg x => by_cases hreg : reg = 0 <;> constructor <;> simp [Core.setS, *]
  | a reg x => by_cases hreg : reg = 0 <;> constructor <;> simp [Core.setA, *]
  | p reg m x => by_cases hreg : reg = 0 <;> constructor <;> simp [Core.setP, *]

/-- A result writes a register file and raises flags; nothing else of its core changes. -/
theorem Core.applyRes_frame (c : Core) (r : Result) :
    ∃ v s a p f, c.applyRes r = { c with v := v, s := s, a := a, p := p, sticky := f } := by
  unfold Core.applyRes
  cases r.dest with
  | none => exact ⟨_, _, _, _, _, rfl⟩
  | v reg ls => exact ⟨_, _, _, _, _, rfl⟩
  | s reg x => by_cases hreg : reg = 0 <;> simp only [Core.setS, hreg, if_true, if_false] <;> exact ⟨_, _, _, _, _, rfl⟩
  | a reg x => by_cases hreg : reg = 0 <;> simp only [Core.setA, hreg, if_true, if_false] <;> exact ⟨_, _, _, _, _, rfl⟩
  | p reg m x => by_cases hreg : reg = 0 <;> simp only [Core.setP, hreg, if_true, if_false] <;> exact ⟨_, _, _, _, _, rfl⟩

theorem Core.SameFiles.landStep {c d : Core} (h : c.SameFiles d) (x : Nat) (st : CubeStep) :
    (c.landStep x st).SameFiles (d.landStep x st) := by
  have hlat : c.cubeLat = d.cubeLat := by simp [Core.cubeLat, h.eqMode]
  unfold Core.landStep
  simp only [hlat]
  split
  · refine List.foldl_rel h fun p _ c' d' h' => ?_
    obtain ⟨hv, hs, ha, hp, hacc, hsticky, hmode⟩ := h'
    constructor <;> simp [*]
  · exact h

/-- `d` is `c` but for its accumulators and its flags. -/
def Core.LandsTo (c d : Core) : Prop := ∃ m f, d = { c with acc := m, sticky := f }

theorem Core.LandsTo.landStep {c d : Core} (h : c.LandsTo d) (x : Nat) (st : CubeStep) : c.LandsTo (d.landStep x st) := by
  unfold Core.landStep
  dsimp only
  split
  · refine foldl_keeps c.LandsTo _ (fun e p he => ?_) _ _ h
    obtain ⟨m, f, rfl⟩ := he
    exact ⟨_, _, rfl⟩
  · exact h

theorem Core.landsTo_landSteps (c : Core) (x : Nat) (l : List CubeStep) : c.LandsTo (l.foldl (fun d st => d.landStep x st) c) :=
  foldl_keeps c.LandsTo _ (fun _ st h => h.landStep x st) l c ⟨c.acc, c.sticky, rfl⟩

theorem Core.commit_none {c : Core} (x : Nat) (h : c.results = []) : c.commit x = c := by
  have hcore : { c with results := [] } = c := by rw [← h]
  simp [Core.commit, h, dropLost, Core.noteCollision, firstCollision, hcore]

theorem Core.commit_single {c : Core} {d : Result} (h : c.results = [d]) :
    c.commit d.due = ({ c with results := [], lastVis := d.due } : Core).applyRes d := by
  have hdrop : dropLost [d] = [d] := by
    cases hd : d.dest <;> simp [dropLost, hd]
  simp [Core.commit, h, insertRes, hdrop, Core.noteCollision, firstCollision]

/-- Without steps, the cycle begins with its results alone. -/
theorem Core.beginCycle_noSteps {c e : Core} {x : Nat} (hclrf : c.clrfAt = none) (hcommit : c.commit x = e) (hsteps : e.steps = []) :
    c.beginCycle x = e := by
  have hcore : { e with steps := [] } = e := by rw [← hsteps]
  unfold Core.beginCycle
  simp only [hclrf, hcommit, hsteps, List.foldl_nil, List.any_nil, Bool.false_eq_true, if_false, List.filter_nil, hcore]

/-- The cycle begins with its one result. -/
theorem Core.beginCycle_single {c : Core} {d : Result} (hclrf : c.clrfAt = none) (hsteps : c.steps = []) (h : c.results = [d]) :
    c.beginCycle d.due = ({ c with results := [], lastVis := d.due } : Core).applyRes d := by
  refine Core.beginCycle_noSteps hclrf (Core.commit_single h) ?_
  obtain ⟨v, s, a, p, f, happly⟩ := Core.applyRes_frame { c with results := [], lastVis := d.due } d
  rw [happly]
  exact hsteps

/-- The cycle begins with the elements that land in it. -/
theorem Core.beginCycle_landing {c : Core} (x : Nat) (hclrf : c.clrfAt = none) (h : c.results = []) :
    ∃ y l, c.beginCycle x = { c.steps.foldl (fun d st => d.landStep x st) c with lastVis := y, steps := l } := by
  unfold Core.beginCycle
  simp only [hclrf, Core.commit_none x h]
  exact ⟨_, _, rfl⟩

/-! ### The commands -/

theorem State.runTo_next {s : State} {n : Nat} (h : s.Quiet n)
    (hbefore : ∀ r, (s.core n).run = some r → r.ended = true ∨ (s.core n).cycle + 1 ≤ r.nextIssue)
    (hrun : ((s.turnCycle n).core n).run = (s.core n).run) : s.runTo n (some ((s.core n).cycle + 1)) = s.turnCycle n := by
  obtain ⟨r, hr, hstop, hgoing⟩ := h.going
  have hturn : (s.advanceTo n ((s.core n).cycle + 1) 1).checkStop n = s.turnCycle n := by
    rw [State.advanceTo_quiet h]
    exact State.checkStop_none _ n (by rw [hrun, hr]; exact hstop)
  unfold State.runTo
  simp only [hr]
  rcases hbefore r hr with hended | hle
  · simp [hended, hturn]
  · cases r.ended <;> simp [hgoing, hle, hturn]

theorem Core.nextLanding_eq (c : Core) : c.nextLanding = (c.steps.map fun st => max (c.cycle + 1) (st.t + c.cubeLat)).min? := by
  unfold Core.nextLanding
  cases c.steps.map fun st => max (c.cycle + 1) (st.t + c.cubeLat) <;> rfl

theorem Core.nextLanding_next {c : Core} (h : ∃ st ∈ c.steps, st.t + c.cubeLat ≤ c.cycle + 1) : c.nextLanding = some (c.cycle + 1) := by
  obtain ⟨st, hst, hdue⟩ := h
  rw [Core.nextLanding_eq, List.min?_eq_some_iff]
  refine ⟨List.mem_map.mpr ⟨st, hst, Nat.max_eq_left hdue⟩, fun b hb => ?_⟩
  obtain ⟨_, -, rfl⟩ := List.mem_map.mp hb
  exact Nat.le_max_left ..

theorem State.setCore_draw (s : State) (n : Nat) (e : Core) : ((s.setCore n e).draw.core n) = e ∧ (s.setCore n e).draw.mem = s.mem ∧
    ∀ j, j ≠ n → (s.setCore n e).draw.core j = s.core j :=
  ⟨State.core_setCore s n e, rfl, fun j hj => State.core_setCore_other s n e j (Ne.symm hj)⟩

/-- In the cycle in which its one result becomes visible, a core changes as the result says. -/
theorem State.turnCycle_single {s : State} {n : Nat} {d : Result} (h : s.Quiet n) (hsteps : (s.core n).steps = [])
    (hresults : (s.core n).results = [d]) (hdue : d.due = (s.core n).cycle + 1) :
    ∃ e, (s.core n).SameFiles e ∧ e.run = (s.core n).run ∧ e.cycle = (s.core n).cycle + 1 ∧ e.results = [] ∧
      s.turnCycle n = (s.setCore n (e.applyRes d)).draw := by
  obtain ⟨x, w, b, k, hturn⟩ := State.turnCycle_quiet h
  rw [← hdue, Core.beginCycle_single (c := ((s.core n).ticked x w b k).purge) h.clrf hsteps hresults] at hturn
  refine ⟨_, ?_, ?_, ?_, ?_, hturn⟩
  · exact ⟨rfl, rfl, rfl, rfl, rfl, rfl, rfl⟩
  all_goals rfl

/-- In a cycle in which steps land, a core changes as they say. -/
theorem State.turnCycle_landing {s : State} {n : Nat} (h : s.Quiet n) (hresults : (s.core n).results = []) :
    ∃ e y l, (s.core n).SameFiles e ∧ e.steps = (s.core n).steps ∧ e.run = (s.core n).run ∧ e.cycle = (s.core n).cycle + 1 ∧
      s.turnCycle n = (s.setCore n
        { e.steps.foldl (fun d st => d.landStep ((s.core n).cycle + 1) st) e with lastVis := y, steps := l }).draw := by
  obtain ⟨x, w, b, k, hturn⟩ := State.turnCycle_quiet h
  obtain ⟨y, l, hbegin⟩ :=
    Core.beginCycle_landing (c := ((s.core n).ticked x w b k).purge) ((s.core n).cycle + 1) h.clrf hresults
  rw [hbegin] at hturn
  exact ⟨((s.core n).ticked x w b k).purge, y, l, ⟨rfl, rfl, rfl, rfl, rfl, rfl, rfl⟩, rfl, rfl, rfl, hturn⟩

/-- Settles O12: the next cycle of a quiet core begins with the result, or with the landing elements, and with nothing else. -/
theorem resultsAndLandings : Obligations.ResultsAndLandings := by
  unfold Obligations.ResultsAndLandings
  refine ⟨fun s core d h hsteps hresults hdue hbefore => ?_, fun s core h hresults hlands hbefore => ?_⟩
  · obtain ⟨e, hsame, hrun, hcycle, hempty, hturn⟩ := State.turnCycle_single h hsteps hresults hdue
    obtain ⟨hv, hs, ha, hp, hacc, hsticky, -⟩ := hsame.applyRes d
    obtain ⟨v, s', a, p, f, happly⟩ := Core.applyRes_frame e d
    obtain ⟨hcore, hmem, hothers⟩ := State.setCore_draw s core.toNat (e.applyRes d)
    rw [← hturn] at hcore hmem hothers
    have hnext : (s.core core.toNat).nextVisible = some ((s.core core.toNat).cycle + 1) := by
      simp [Core.nextVisible, hresults, h.loads, h.stores, h.drains, hdue]
    have hgoes : s.runTo core.toNat (s.core core.toNat).nextVisible = s.turnCycle core.toNat := by
      rw [hnext]
      exact State.runTo_next h hbefore (by rw [hcore, happly]; exact hrun)
    refine ⟨s.turnCycle core.toNat, congrArg Host.Outcome.next hgoes, ?_⟩
    rw [hcore]
    refine ⟨hv.symm, hs.symm, ha.symm, hp.symm, hsticky.symm, ?_, ?_, ?_, hmem, hothers⟩
    · rw [happly]; exact hsame.acc.symm
    · rw [happly]; exact hempty
    · rw [happly]; exact hcycle
  · obtain ⟨e, y, l, hsame, hsteps, hrun, hcycle, hturn⟩ := State.turnCycle_landing h hresults
    have hfold : ((s.core core.toNat).steps.foldl (fun d st => d.landStep ((s.core core.toNat).cycle + 1) st) (s.core core.toNat)).SameFiles
        (e.steps.foldl (fun d st => d.landStep ((s.core core.toNat).cycle + 1) st) e) := by
      rw [hsteps]
      exact List.foldl_rel hsame fun st _ _ _ h' => h'.landStep _ st
    obtain ⟨m, f, hlands'⟩ := e.landsTo_landSteps ((s.core core.toNat).cycle + 1) e.steps
    rw [hlands'] at hturn hfold
    obtain ⟨hcore, hmem, hothers⟩ := State.setCore_draw s core.toNat { e with acc := m, sticky := f, lastVis := y, steps := l }
    rw [← hturn] at hcore hmem hothers
    have hgoes : s.runTo core.toNat (s.core core.toNat).nextLanding = s.turnCycle core.toNat := by
      rw [Core.nextLanding_next hlands]
      exact State.runTo_next h hbefore (by rw [hcore]; exact hrun)
    refine ⟨s.turnCycle core.toNat, congrArg Host.Outcome.next hgoes, ?_⟩
    rw [hcore]
    exact ⟨hfold.acc.symm, hfold.sticky.symm, hsame.v.symm, hsame.s.symm, hsame.a.symm, hsame.p.symm, hcycle, hmem, hothers⟩

end Sys2Proof.Machine
end

section
/-! PROOFS. What answering a part, reading a codeword and executing a cycle leave of the cores: the answers and the decoders touch none, and
a cycle touches its own core alone, whose RUN, once told to stop, stays (04 R75). -/

namespace Sys2Proof.Machine

/-! ### Operations that leave every core alone -/

theorem cores_foldl {β : Type} (f : State → β → State) (hf : ∀ s b, (f s b).cores = s.cores) (l : List β) (s : State) :
    (l.foldl f s).cores = s.cores :=
  foldl_keeps (fun t : State => t.cores = s.cores) f (fun t b h => (hf t b).trans h) l s rfl

@[simp] theorem State.cores_sluLatency (s : State) (m t ns : Nat) : (s.sluLatency m t ns).cores = s.cores := by
  unfold State.sluLatency
  dsimp only
  split <;> rfl

@[simp] theorem State.cores_recordReq (s : State) (w : Who) (i c a : Nat) (bs : List Byte) : (s.recordReq w i c a bs).cores = s.cores := by
  unfold State.recordReq
  split <;> rfl

@[simp] theorem State.cores_barFault (s : State) (c a sub : Nat) : (s.barFault c a sub).cores = s.cores := by
  unfold State.barFault
  dsimp only
  split <;> rfl

@[simp] theorem State.cores_endHostRead (s : State) (h : HostRead) : (s.endHostRead h).cores = s.cores := by
  unfold State.endHostRead
  dsimp only
  split
  · rfl
  · rw [State.cores_barFault]
    split <;> rfl

@[simp] theorem State.cores_hostAnswer (s : State) (r : MemReq) (bs : List Byte) : (s.hostAnswer r bs).cores = s.cores := by
  unfold State.hostAnswer
  split
  · split <;> simp
  · split <;> simp
  · rfl

@[simp] theorem State.cores_finishReq (s : State) (r : MemReq) : (s.finishReq r).cores = s.cores := by
  unfold State.finishReq
  dsimp only
  split <;> simp

@[simp] theorem State.cores_measure (s : State) (r : MemReq) (p : ReqPart) : (s.measure r p).1.cores = s.cores := by
  unfold State.measure
  exact cores_foldl _ (fun t l => by split <;> simp) _ _

@[simp] theorem State.cores_partDone (s : State) (p : ReqPart) (c a sub : Nat) (bs : List Byte) : (s.partDone p c a sub bs).cores = s.cores := by
  unfold State.partDone
  split
  · rfl
  · dsimp only
    split <;> simp

@[simp] theorem State.cores_answer (s : State) (p : ReqPart) (c a sub : Nat) (bs : List Byte) : (s.answer p c a sub bs).cores = s.cores := by
  unfold State.answer
  dsimp only
  split <;> simp

@[simp] theorem State.cores_repair (s : State) (src cls e st a : Nat) (p : Option Nat) (code o x : Nat) :
    (s.repair src cls e st a p code o x).cores = s.cores := rfl

@[simp] theorem State.cores_cistDecode (s : State) (n x : Nat) (e : List Nat) : (s.cistDecode n x e).1.cores = s.cores := by
  unfold State.cistDecode State.cistDecodeN
  dsimp only
  exact cores_foldl _ (fun t p => t.cores_repair ..) _ _

@[simp] theorem State.cores_rsvDecode (s : State) (k x : Nat) (e : List Nat) : (s.rsvDecode k x e).1.cores = s.cores := by
  unfold State.rsvDecode State.rsvDecodeN
  dsimp only
  exact cores_foldl _ (fun t p => t.cores_repair ..) _ _

theorem State.cores_readCws (s : State) (dec : State → Nat → State × CwOut) (hd : ∀ s x, (dec s x).1.cores = s.cores) (x n : Nat)
    (u : Bool) : (s.readCws dec x n u).1.cores = s.cores := by
  unfold State.readCws
  extract_lets r
  have hr : r.1.cores = s.cores :=
    foldl_keeps (fun a : State × List Byte × List Nat => a.1.cores = s.cores) _
      (fun a p ha => by dsimp only; split <;> simp [hd, ha]) _ _ rfl
  split <;> exact hr

@[simp] theorem State.cores_writeSram (s : State) (key : Nat) (bs : List Byte) : (s.writeSram key bs).1.cores = s.cores := by
  unfold State.writeSram
  refine foldl_keeps (fun a : State × Option Nat × Nat => a.1.cores = s.cores) _ (fun a p ha => ?_) _ _ rfl
  dsimp only
  split
  · exact ha
  · split <;> exact ha

/-! ### Reads leave the RUN and the accumulators of every core -/

/-- Every core has the RUN and the accumulators it had. -/
def State.SameRuns (s t : State) : Prop := ∀ j, (t.core j).run = (s.core j).run ∧ (t.core j).acc = (s.core j).acc

theorem State.SameRuns.refl (s : State) : s.SameRuns s := fun _ => ⟨rfl, rfl⟩

theorem State.SameRuns.trans {s t u : State} (h : s.SameRuns t) (h' : t.SameRuns u) : s.SameRuns u := fun j =>
  ⟨(h' j).1.trans (h j).1, (h' j).2.trans (h j).2⟩

theorem State.SameRuns.of_cores {s t : State} (h : t.cores = s.cores) : s.SameRuns t := fun j => by
  rw [State.core_of_cores h j]
  exact ⟨rfl, rfl⟩

theorem State.sameRuns_setCore {s : State} {n : Nat} {d : Core} (hrun : d.run = (s.core n).run) (hacc : d.acc = (s.core n).acc) :
    s.SameRuns (s.setCore n d) := fun j => by
  by_cases hj : n = j
  · subst hj
    rw [State.core_setCore]
    exact ⟨hrun, hacc⟩
  · rw [State.core_setCore_other _ _ _ _ hj]
    exact ⟨rfl, rfl⟩

theorem sameRuns_readRuns (one : State → Nat × Nat → State × Except Nat (List Byte)) (ho : ∀ (s : State) p, s.SameRuns (one s p).1) (s : State)
    (runs : List (Nat × Nat)) : s.SameRuns (readRuns one s runs).1 := by
  unfold readRuns
  extract_lets r
  have hr : s.SameRuns r.1 :=
    foldl_keeps (fun a : State × List Byte × Option (Nat × Nat) => s.SameRuns a.1) _
      (fun a p ha => by dsimp only; split <;> exact ha.trans (ho _ _)) _ _ (.refl s)
  split <;> exact hr

theorem State.sameRuns_readAt (s : State) (runs : List (Nat × Nat)) : s.SameRuns (s.readAt runs).1 := by
  have hpad (c k : Nat) (t : State) : t.SameRuns (t.setCore c { t.core c with sramFixed := (t.core c).sramFixed + k }) :=
    State.sameRuns_setCore rfl rfl
  unfold State.readAt
  dsimp only
  split
  · exact .refl s
  · exact .refl s
  · exact sameRuns_readRuns _ (fun t p => (hpad _ _ t).trans (.of_cores (State.draw_cores _))) _ _
  · exact sameRuns_readRuns _ (fun t p => (hpad _ _ t).trans (.of_cores (State.draw_cores _))) _ _
  · split
    · exact .refl s
    · split
      · exact .refl s
      · exact sameRuns_readRuns _ (fun _ _ => .of_cores (State.cores_readCws _ _ (fun _ _ => by simp) _ _ _)) _ _
  · split
    · exact .refl s
    · split
      · exact .refl s
      · refine sameRuns_readRuns _ (fun t p => .of_cores ?_) _ _
        dsimp only
        exact State.cores_readCws t (fun u y => u.rsvDecode _ y []) (fun u y => u.cores_rsvDecode _ y []) _ _ _

theorem State.sameRuns_readCodewords (s : State) (a k : Nat) : s.SameRuns (s.readCodewords a k).1 :=
  foldl_keeps (fun acc : State × List PieceRes => s.SameRuns acc.1) _ (fun acc _ h => h.trans (acc.1.sameRuns_readAt _)) _ _ (.refl s)

/-! ### A cycle leaves a RUN told to stop, and every other core -/

/-- From `s` to `t`, the RUN of core `n` stays where it has been told to stop, and every other core stands as it did. -/
structure State.StopStays (n : Nat) (s t : State) : Prop where
  run : ∀ r, (s.core n).run = some r → r.stop.isSome = true → (t.core n).run = some r
  others : ∀ j, j ≠ n → t.core j = s.core j

namespace State.StopStays

theorem refl (n : Nat) (s : State) : s.StopStays n s := ⟨fun _ h _ => h, fun _ _ => rfl⟩

theorem trans {n : Nat} {s t u : State} (h : s.StopStays n t) (h' : t.StopStays n u) : s.StopStays n u :=
  ⟨fun r hr hstop => h'.run r (h.run r hr hstop) hstop, fun j hj => (h'.others j hj).trans (h.others j hj)⟩

theorem of_cores {s t : State} (n : Nat) (h : t.cores = s.cores) : s.StopStays n t :=
  ⟨fun _ hr _ => (State.core_of_cores h n) ▸ hr, fun j _ => State.core_of_cores h j⟩

/-- Core `n` replaced by one of the same RUN. -/
theorem setCore {s : State} {n : Nat} {d : Core} (h : d.run = (s.core n).run) : s.StopStays n (s.setCore n d) :=
  ⟨fun r hr _ => by rw [State.core_setCore, h, hr], fun j hj => State.core_setCore_other s n d j (Ne.symm hj)⟩

/-- Core `n` replaced by one of the same RUN, told to stop. -/
theorem setCore_stopRun {s : State} {n : Nat} {d : Core} (i : StopInfo) (h : d.run = (s.core n).run) :
    s.StopStays n (s.setCore n (d.stopRun i)) :=
  ⟨fun r hr hstop => by simp [Core.stopRun, h, hr, hstop], fun j hj => State.core_setCore_other s n _ j (Ne.symm hj)⟩

theorem foldl {β : Type} {n : Nat} {f : State → β → State} (hf : ∀ (s : State) b, s.StopStays n (f s b)) (l : List β) (s : State) :
    s.StopStays n (l.foldl f s) := foldl_keeps (State.StopStays n s) f (fun t b h => h.trans (hf t b)) l s (.refl n s)

theorem foldl_fst {β γ : Type} {n : Nat} {f : State × γ → β → State × γ} (hf : ∀ (a : State × γ) b, a.1.StopStays n (f a b).1) (l : List β)
    (a : State × γ) : a.1.StopStays n (l.foldl f a).1 :=
  foldl_keeps (fun b : State × γ => a.1.StopStays n b.1) f (fun b x h => h.trans (hf b x)) l a (.refl n a.1)

end State.StopStays

theorem State.stopStays_endHold (s : State) (n : Nat) : s.StopStays n (s.endHold n) := by
  unfold State.endHold
  dsimp only
  split
  · exact .refl n s
  · exact .setCore rfl

theorem State.stopStays_feedStep (s : State) (n x : Nat) (st : CubeStep) : s.StopStays n (s.feedStep n x st).1 := by
  unfold State.feedStep
  extract_lets d r r'
  split
  · exact .refl n s
  · have hr : s.StopStays n r.1 := by
      refine State.StopStays.foldl_fst (fun a p => ?_) _ (s, st)
      dsimp only
      split
      · exact .setCore_stopRun _ rfl
      · exact .setCore rfl
    have hr' : s.StopStays n r'.1 := by
      simp only [r']
      split <;> exact hr
    split
    · exact hr'
    · split
      · exact hr'
      · refine hr'.trans (State.StopStays.foldl_fst (fun a p => ?_) _ r')
        dsimp only
        split
        · exact .setCore_stopRun _ rfl
        · exact .refl n a.1

theorem State.stopStays_feed (s : State) (n x : Nat) : s.StopStays n (s.feed n x) := by
  unfold State.feed
  extract_lets r
  have hr : s.StopStays n r.1 :=
    State.StopStays.foldl_fst (γ := List CubeStep) (fun a st => a.1.stopStays_feedStep n x st) _ (s, [])
  exact hr.trans (.setCore rfl)

theorem State.stopStays_doLoads (s : State) (n x : Nat) : s.StopStays n (s.doLoads n x) := by
  unfold State.doLoads
  extract_lets c now t
  have ht : s.StopStays n t := .setCore rfl
  refine ht.trans (State.StopStays.foldl (fun u l => ?_) now t)
  dsimp only
  split
  · exact .setCore_stopRun _ rfl
  · exact .setCore rfl

theorem State.stopStays_doStores (s : State) (n x : Nat) : s.StopStays n (s.doStores n x) := by
  unfold State.doStores
  extract_lets c now t
  have ht : s.StopStays n t := .setCore rfl
  refine ht.trans (State.StopStays.foldl (fun u st => State.StopStays.foldl (fun v ch => ?_) st.chunks u) now t)
  refine State.StopStays.trans (.of_cores n (v.cores_writeSram (padMA n ch.1) ch.2)) ?_
  dsimp only
  split
  · exact .setCore_stopRun _ rfl
  · exact .setCore rfl

theorem State.stopStays_serveWord (s : State) (n seq ma len : Nat) : s.StopStays n (s.serveWord n seq ma len) := by
  unfold State.serveWord
  split
  · exact .refl n s
  · rename_i x _
    extract_lets key count w rd r part y t done
    have hr : s.StopStays n r.1 := by
      simp only [r]
      split
      · exact State.StopStays.trans (.of_cores n (s.cores_writeSram key (x.p.bytesAt ma len))) (.setCore rfl)
      · exact .setCore rfl
    have ht : s.StopStays n t := hr.trans (.of_cores n (State.draw_cores _))
    split
    · split <;> exact ht.trans (.of_cores n (done.cores_answer ..))
    · exact ht.trans (.of_cores n rfl)

theorem State.stopStays_serveWords (s : State) (n : Nat) (used : List Nat) : s.StopStays n (s.serveWords n used) := by
  unfold State.serveWords
  extract_lets is c t
  have ht : s.StopStays n t := .setCore rfl
  refine ht.trans (State.StopStays.foldl (fun u i => ?_) is t)
  split
  · exact u.stopStays_serveWord ..
  · exact .refl n u

@[simp] theorem Core.noteCollision_run (c : Core) (rs : List Result) : (c.noteCollision rs).run = c.run := by
  unfold Core.noteCollision
  split
  · split <;> rfl
  · rfl

@[simp] theorem Core.applyRes_run (c : Core) (r : Result) : (c.applyRes r).run = c.run := by
  obtain ⟨v, s, a, p, f, h⟩ := c.applyRes_frame r
  rw [h]

@[simp] theorem Core.commit_run (c : Core) (x : Nat) : (c.commit x).run = c.run := by
  unfold Core.commit
  exact foldl_keeps (fun d : Core => d.run = c.run) _ (fun d r h => (d.applyRes_run r).trans h) _ _ (by rw [Core.noteCollision_run])

@[simp] theorem Core.beginCycle_run (c : Core) (x : Nat) : (c.beginCycle x).run = c.run := by
  unfold Core.beginCycle
  extract_lets d e f
  have hd : d.run = c.run := by
    simp only [d]
    split
    · split <;> rfl
    · rfl
  have hf : f.run = e.run := by
    obtain ⟨m, k, h⟩ := e.landsTo_landSteps x e.steps
    show (e.steps.foldl (fun d st => d.landStep x st) e).run = e.run
    rw [h]
  exact hf.trans ((d.commit_run x).trans hd)

@[simp] theorem Core.doDrains_run (c : Core) (x : Nat) : (c.doDrains x).run = c.run := rfl

theorem State.stopStays_turnCycle (s : State) (n : Nat) : s.StopStays n (s.turnCycle n) := by
  unfold State.turnCycle
  extract_lets x t w clash used t1 t2 t3 t4 t5 t6 c held sw d
  have h1 : s.StopStays n t1 := by
    refine (s.stopStays_endHold n).trans ?_
    simp only [t1]
    split
    · exact .refl n t
    · exact .setCore rfl
  have h3 : s.StopStays n t3 := (h1.trans (t1.stopStays_feed n x)).trans (t2.stopStays_doLoads n x)
  have h4 : s.StopStays n t4 := h3.trans (.setCore ((t3.core n).doDrains_run x))
  have h6 : s.StopStays n t6 := by
    refine (h4.trans (t4.stopStays_doStores n x)).trans ?_
    simp only [t6]
    split
    · exact .refl n t5
    · exact t5.stopStays_serveWords n used
  have hd : (d.purge.beginCycle (x + 1)).run = c.run := by
    rw [Core.beginCycle_run]
    simp only [Core.purge, d]
  have hturned : s.StopStays n (t6.setCore n (d.purge.beginCycle (x + 1))) := h6.trans (.setCore hd)
  exact hturned.trans (.of_cores n (State.draw_cores (t6.setCore n (d.purge.beginCycle (x + 1)))))

theorem State.stopStays_advance (s : State) (n : Nat) : s.StopStays n (s.advance n).1 := by
  unfold State.advance
  dsimp only
  split
  · exact .refl n s
  · split
    · dsimp only
      split
      · exact .refl n s
      · exact .setCore rfl
    · exact s.stopStays_turnCycle n

theorem State.stopStays_advanceTo (s : State) (n x fuel : Nat) : s.StopStays n (s.advanceTo n x fuel) := by
  induction fuel generalizing s with
  | zero => exact .refl n s
  | succ fuel ih =>
    unfold State.advanceTo
    dsimp only
    split
    · exact .refl n s
    · split
      · exact (s.stopStays_advance n).trans (ih _)
      · exact s.stopStays_advance n

end Sys2Proof.Machine
end

section
/-! PROOFS. O13: how a RUN completes, and how time-outs and late lines end or feed it (04 R97; 05 R109; 03 R55, R56). -/

namespace Sys2Proof.Machine

/-! ### Completion and the limit of a RUN -/

theorem runComplete_delivered {s : State} {n : Nat} {r : RunState} (hrun : (s.core n).run = some r) (hended : r.ended = true)
    (hgoing : r.suspended = false) (hstop : r.stop = none) (hnow : r.nextIssue ≤ (s.core n).cycle)
    (hvisible : (s.core n).lastVis < (s.core n).cycle) (hempty : (s.core n).inFlight = false) :
    runComplete s n =
      (let c := s.core n
       ((s.setCore n (({ c.dropRun with lastRunQ := BitVec.ofNat 2 r.queue } : Core).setQueue r.queue
          { c.queue r.queue with running := none, st := .issuing })).signal n r.queue ((c.queue r.queue).running.bind fun x => x.sig)).settle
            n r.queue) := by
  have hadvanced : s.advanceTo n r.nextIssue (r.nextIssue - (s.core n).cycle) = s := by
    rw [Nat.sub_eq_zero_of_le hnow]
    rfl
  have hdrained : s.drainPipe n 64 = s := by
    simp [State.drainPipe, hempty]
  unfold runComplete
  simp only [hrun, hended, hgoing, hadvanced, hdrained, hempty, hstop, Nat.not_lt.mpr hnow, Nat.not_le.mpr hvisible, Bool.not_true,
    Bool.or_self, Bool.false_eq_true, if_false, decide_false, Option.bind_some, Option.isSome_none]

section
variable {s : State} {n l : Nat} {r : RunState} (hrun : (s.core n).run = some r) (hlimit : r.limit = some l)
include hrun hlimit

theorem runTimeout_reached (hstop : r.stop = none) (hgoing : r.suspended = false) (h : s.reached l = true) :
    FaultedRun s (runTimeout s n) n r cQueRunTimeout := by
  have heq : runTimeout s n = s.stopNow n ⟨cQueRunTimeout, (s.core n).pc, 0, r.ticks⟩ := by
    simp [runTimeout, hrun, hlimit, hgoing, h]
  rw [heq]
  exact stopNow_faulted _ hrun hstop

theorem runTimeout_before (h : s.reached l = false) : runTimeout s n = s := by
  simp [runTimeout, hrun, hlimit, h]

end

/-! ### A hold that has lasted its limit -/

/-- The end of a hold counts its clocks, and leaves everything else of the machine. -/
theorem State.endHold_core (s : State) (n : Nat) :
    ((s.endHold n).core n).run = (s.core n).run ∧ ((s.endHold n).core n).acc = (s.core n).acc ∧
      ((s.endHold n).core n).lines = (s.core n).lines ∧ ∀ j, j ≠ n → (s.endHold n).core j = s.core j := by
  cases hhold : (s.core n).hold with
  | none =>
    rw [State.endHold_none hhold]
    exact ⟨rfl, rfl, rfl, fun _ _ => rfl⟩
  | some h =>
    unfold State.endHold
    simp only [hhold, State.core_setCore, true_and]
    exact fun j hj => State.core_setCore_other _ _ _ _ (Ne.symm hj)

/-- A queue halted, draining while commands of its are in flight, by code `code`, and its RUN gone with any hold of its core. -/
structure State.RunHalted (n q code : Nat) (s t : State) : Prop where
  hold : (t.core n).hold = none
  run : (t.core n).run = none
  fault : (t.queue n q).lastFault = BitVec.ofNat 16 code
  halted : (t.queue n q).st = .halted ∨ (t.queue n q).st = .draining
  others : ∀ j, j ≠ n → t.core j = s.core j

theorem State.haltStop_halted {s : State} {n : Nat} {r : RunState} {i : StopInfo} (hrun : (s.core n).run = some r) (hstop : r.stop = some i) :
    s.RunHalted n r.queue i.code (s.haltStop n) := by
  have heq : s.haltStop n = s.haltQueue n r.queue
      { cmd := ((s.queue n r.queue).running.map fun c => c.idx).getD (s.queue n r.queue).ptr.toNat, code := i.code, opcode := 1,
        pc := some (i.slot, i.pc), detail := i.detail } := by
    simp only [State.haltStop, hrun, hstop]
  obtain ⟨x, hcore, hfault, hst, -, hothers⟩ := State.haltQueue_eq s n r.queue
    { cmd := ((s.queue n r.queue).running.map fun c => c.idx).getD (s.queue n r.queue).ptr.toNat, code := i.code, opcode := 1,
      pc := some (i.slot, i.pc), detail := i.detail }
  rw [← heq] at hcore hothers
  simp only [hrun, if_true] at hcore
  have hqueue : (s.haltStop n).queue n r.queue = x := by
    show ((s.haltStop n).core n).queue r.queue = x
    rw [hcore, Core.queue_setQueue]
  refine ⟨?_, ?_, ?_, ?_, hothers⟩
  · rw [hcore]; rfl
  · rw [hcore]; rfl
  · rw [hqueue]; exact hfault
  · rw [hqueue]; exact hst

theorem State.RunHalted.of_others {n q code : Nat} {s u t : State} (h : u.RunHalted n q code t) (ho : ∀ j, j ≠ n → u.core j = s.core j) :
    s.RunHalted n q code t :=
  ⟨h.hold, h.run, h.fault, h.halted, fun j hj => (h.others j hj).trans (ho j hj)⟩

/-- A RUN told to stop halts its queue once its core has gone on for any number of cycles. -/
theorem stopRun_halts {s : State} {n : Nat} {d : Core} {r : RunState} (i : StopInfo) (x fuel : Nat) (hrun : d.run = some r)
    (hstop : r.stop = none) : s.RunHalted n r.queue i.code (((s.setCore n (d.stopRun i)).advanceTo n x fuel).haltStop n) := by
  have hd : (d.stopRun i).run = some { r with stop := some i } := by
    simp [Core.stopRun, hrun, hstop]
  have hstays := (s.setCore n (d.stopRun i)).stopStays_advanceTo n x fuel
  have hadvanced := hstays.run { r with stop := some i } (by rw [State.core_setCore, hd]) rfl
  refine (State.haltStop_halted hadvanced rfl).of_others fun j hj => ?_
  rw [hstays.others j hj, State.core_setCore_other _ _ _ _ (Ne.symm hj)]

section
variable {s : State} {n : Nat} {h : Hold} (hhold : (s.core n).hold = some h)
include hhold

theorem feedTimeout_before (hlate : (s.pos + 2 ^ 58 - h.pos) % 2 ^ 58 < 1024 * max 1 (s.core n).feedLimit.toNat) : feedTimeout s n = s := by
  unfold feedTimeout
  simp only [hhold, if_pos hlate]

theorem feedTimeout_reached {r : RunState} (hrun : (s.core n).run = some r) (hstop : r.stop = none)
    (hlate : 1024 * max 1 (s.core n).feedLimit.toNat ≤ (s.pos + 2 ^ 58 - h.pos) % 2 ^ 58) :
    s.RunHalted n r.queue cCoreFeedTimeout (feedTimeout s n) := by
  obtain ⟨hrun', -, -, hothers⟩ := s.endHold_core n
  rw [hrun] at hrun'
  unfold feedTimeout
  simp only [hhold, if_neg (Nat.not_lt.mpr hlate)]
  refine State.RunHalted.of_others (stopRun_halts ⟨cCoreFeedTimeout, _, 0, _⟩ _ _ ?_ hstop) hothers
  exact hrun'

end

/-! ### A line for an open stream -/

section
variable {β : Type} {l : List PieceRes} (h : ∀ o ∈ l, ∃ bs, o = .data bs)
include h

theorem any_of_data {p : PieceRes → Bool} (hp : ∀ bs, p (.data bs) = false) : l.any p = false :=
  List.any_eq_false.mpr fun o ho => by
    obtain ⟨bs, rfl⟩ := h o ho
    simp [hp]

theorem findSome_of_data {f : PieceRes → Option β} (hf : ∀ bs, f (.data bs) = none) : l.findSome? f = none :=
  List.findSome?_eq_none_iff.mpr fun o ho => by
    obtain ⟨bs, rfl⟩ := h o ho
    exact hf bs

theorem flatMap_of_data {f g : PieceRes → List β} (hfg : ∀ bs, f (.data bs) = g (.data bs)) : l.flatMap f = l.flatMap g :=
  List.flatMap_congr fun o ho => by
    obtain ⟨bs, rfl⟩ := h o ho
    exact hfg bs

end

theorem mem_of_mem_numbered {α : Type} {i : Nat} {l : List α} {q : Nat × α} (h : q ∈ numbered i l) : q.2 ∈ l := by
  induction l generalizing i with
  | nil => exact absurd h List.not_mem_nil
  | cons x xs ih =>
    rcases List.mem_cons.mp h with rfl | h
    · exact List.mem_cons_self
    · exact List.mem_cons_of_mem _ (ih h)

theorem Core.needed_noSteps {c : Core} (h : c.steps = []) : c.needed = [] := by
  simp [Core.needed, h]

section
variable {s : State} {n line : Nat} {b : Bool} {x : StreamCtx} {rd pl : State × List PieceRes} (hx : (s.core n).ctx b = x)
  (hrd : s.readCodewords (n * 2 ^ 30 + x.base + line * x.lineSize) (x.lineSize / 64) = rd)
  (hpl : (if x.hasPlane then rd.1.readCodewords (n * 2 ^ 30 + x.plane + line * 64) 1 else (rd.1, [])) = pl)
  (hsteps : (s.core n).steps = []) (hopen : x.opened = true) (hfrom : x.consumed ≤ line) (hto : line < x.total + 14)
  (hnew : (s.core n).line x.gen line = none)
  (hroom : x.lineCost + (s.core n).claimed x ((s.core n).ctx !b) + ((s.core n).lines.map fun l => l.bytes.length + l.plane.length).sum ≤ 131072)
  (hdata : ∀ o ∈ rd.2 ++ pl.2, ∃ bs, o = .data bs)
include hx hrd hpl hsteps hopen hfrom hto hnew hroom hdata

/-- A line fetched ahead of use comes into the buffer, and may end a hold. -/
theorem streamFill_ahead {g : PieceRes → List Byte} (hg : ∀ bs, g (.data bs) = bs) :
    ∃ fl : FeedLine, fl.gen = x.gen ∧ fl.line = line ∧ fl.bytes = rd.2.flatMap g ∧ fl.plane = pl.2.flatMap g ∧
      fl.bad = [] ∧ fl.code = 0 ∧
      (let t := pl.1.setCore n { pl.1.core n with lines := (s.core n).lines ++ [fl] }
       streamFill s n b line = t.endHold n ∨ streamFill s n b line = t) := by
  have hroom' : ¬ feedRoom (s.core n).lines < x.lineCost + (s.core n).claimed x ((s.core n).ctx !b) := by
    unfold feedRoom
    omega
  have hread : ∀ o ∈ rd.2, ∃ bs, o = .data bs := fun o ho => hdata o (List.mem_append_left _ ho)
  have hplane : ∀ o ∈ pl.2, ∃ bs, o = .data bs := fun o ho => hdata o (List.mem_append_right _ ho)
  have hwait : ((rd.2 ++ pl.2).any fun o => decide (o = .wait)) = false := any_of_data hdata fun _ => rfl
  unfold streamFill
  simp only [hsteps, List.findSome?_nil, Option.getD_none, hx, Option.isSome_none, Bool.false_or, hopen, hto, hnew, hfrom,
    Core.needed_noSteps hsteps, decide_true, Bool.and_self, Option.isNone_none, beq_self_eq_true, Bool.not_true, Bool.false_eq_true,
    if_false, hroom', hrd, hpl, hwait]
  refine ⟨_, ?_, ?_, ?_, ?_, ?_, ?_, ite_eq_or_eq _ _ _⟩
  · rfl
  · rfl
  · exact flatMap_of_data hread fun bs => (hg bs).symm
  · exact flatMap_of_data hplane fun bs => (hg bs).symm
  · refine List.filterMap_eq_nil_iff.mpr fun q hq => ?_
    obtain ⟨bs, hbs⟩ := hread _ (mem_of_mem_numbered hq)
    simp [hbs]
  · exact congrArg (Option.getD · 0) (findSome_of_data hdata fun _ => rfl)

end

/-- The core once the line is in its buffer, whether or not a hold has ended. -/
theorem core_of_lineStored {t u : State} {n : Nat} {ls : List FeedLine}
    (h : t = (u.setCore n { u.core n with lines := ls }).endHold n ∨ t = u.setCore n { u.core n with lines := ls }) :
    (t.core n).lines = ls ∧ (t.core n).run = (u.core n).run ∧ (t.core n).acc = (u.core n).acc := by
  rcases h with rfl | rfl
  · obtain ⟨hrun, hacc, hlines, -⟩ := (u.setCore n { u.core n with lines := ls }).endHold_core n
    rw [hrun, hacc, hlines, State.core_setCore]
    exact ⟨rfl, rfl, rfl⟩
  · rw [State.core_setCore]
    exact ⟨rfl, rfl, rfl⟩

/-- Settles O13. -/
theorem runEndsAndFeeds : Obligations.RunEndsAndFeeds := by
  unfold Obligations.RunEndsAndFeeds
  intro s core r n c
  refine ⟨fun hrun hended hgoing hstop hnow hvisible hempty => ?_, fun hrun hstop hgoing l hlimit => ⟨fun hl => ?_, fun hl => ?_⟩,
    fun hrun hstop h hhold => ⟨fun hlate => ?_, fun hlate => ?_⟩,
    ?_⟩
  · exact congrArg Host.Outcome.next (runComplete_delivered hrun hended hgoing hstop hnow hvisible hempty)
  · exact ⟨_, rfl, runTimeout_reached hrun hlimit hstop hgoing hl⟩
  · exact congrArg Host.Outcome.next (runTimeout_before hrun hlimit hl)
  · obtain ⟨hnone, hgone, hfault, hst, hothers⟩ := feedTimeout_reached hhold hrun hstop hlate
    exact ⟨_, rfl, hnone, hgone, hfault, hst, hothers⟩
  · exact congrArg Host.Outcome.next (feedTimeout_before hhold hlate)
  · intro b line x rd pl hsteps _ hopen hfrom hto hnew hroom hdata
    obtain ⟨fl, hgen, hnumber, hbytes, hplane, hbad, hcode, hfill⟩ :=
      streamFill_ahead (b := b) (x := x) (rd := rd) (pl := pl) (g := fun o => match o with | .data bs => bs | _ => []) rfl rfl rfl hsteps
        hopen hfrom hto hnew hroom hdata fun _ => rfl
    obtain ⟨hlines, hrun, hacc⟩ := core_of_lineStored hfill
    have hline : s.SameRuns rd.1 := s.sameRuns_readCodewords _ _
    have hread : s.SameRuns pl.1 := by
      refine hline.trans ?_
      simp only [pl]
      split
      · exact rd.1.sameRuns_readCodewords _ _
      · exact .refl rd.1
    exact ⟨_, fl, rfl, hlines, hgen, hnumber, hbytes, hplane, hbad, hcode, hrun.trans (hread n).1, hacc.trans (hread n).2⟩

end Sys2Proof.Machine
end

section
/-! PROOFS. O15 to O20: what a queue does with the command at its head, its flags and waits, and the writes of CORE_QCTL (05 R101 to R109,
R119 to R130). -/

namespace Sys2Proof.Machine

/-! ### The command at the head of a queue -/

section
variable {s : State} {n q : Nat} {c : Cmd} (hhead : s.head n q = some c) (hfence : s.fenced n q c = false)
include hhead hfence

/-- A row meets a command of its own operation. -/
theorem State.withHead_of_op {op : Nat} {f : State → Cmd → State} (hop : c.op = op) (hlegal : opLegal op = true) :
    s.withHead n q op f = f s c := by
  simp [State.withHead, hhead, hfence, hop, hlegal]

/-- Whichever row meets it, an operation that Table QUE-1 does not list is refused (05 R108). -/
theorem State.withHead_of_unlisted {op : Nat} {f : State → Cmd → State} (hlegal : opLegal c.op = false) :
    s.withHead n q op f = s.refuseCmd n q c cQueBadCommand 0 := by
  simp [State.withHead, hhead, hfence, hlegal]

end

/-- The queue of a command that was issued: PTR has moved on. -/
theorem State.queue_issued (s : State) (n q : Nat) :
    (s.issued n q).queue n q =
      { s.queue n q with ptr := (s.queue n q).ptr + 1, fetched := (s.queue n q).fetched.tail, st := .issuing } :=
  State.queue_setQueue s n q _

/-- A queue replaced in a core that was replaced. -/
theorem State.queue_setCore (s : State) (n q : Nat) (c : Core) : (s.setCore n c).queue n q = c.queue q := by
  rw [State.queue, State.core_setCore]

/-! ### RUN (05 R103, R109) -/

/-- The argument registers a RUN loads (05 R109). -/
def runArgs (c : Cmd) : List Nat := (List.range 4).filter fun i => (wordOf c 1).testBit (32 + i)

/-- The handles a RUN names, with the kinds each may be. -/
def runHandles (c : Cmd) : List (Nat × List Nat) :=
  ((runArgs c).map fun i => (bitsOf (wordOf c 2) (12 * i) 12, [0, 1, 2, 3, 4])) ++
    if (wordOf c 1).testBit 19 then [(bitsOf (wordOf c 1) 20 12, [3])] else []

/-- A core whose argument registers were loaded from descriptors. -/
def Core.loadArgs (k : Core) (ps : List (Nat × Desc)) : Core :=
  ps.foldl (fun k p => k.setS (28 + p.1) (BitVec.ofNat 64 p.2.base)) k

/-- A core that starts a RUN of a queue at a tick, with the descriptors it named. -/
def Core.startRun (k : Core) (q tick : Nat) (c : Cmd) (ds : List Desc) : Core :=
  let w := wordOf c 1
  { k.loadArgs ((runArgs c).zip ds) with
    pc := w % 2 ^ 19
    lastRunQ := BitVec.ofNat 2 q
    window := if w.testBit 19 then ds.getLast?.map Desc.window else none
    run := some { queue := q, limit := if bitsOf w 36 24 = 0 then none else some (tick + bitsOf w 36 24), ticks := bitsOf w 36 24,
                  left := none, nextIssue := (k.loadArgs ((runArgs c).zip ds)).cycle + 1, redirect := none, ended := false,
                  suspended := false, skipBkpt := false, oneShot := false, stop := none } }

/-- The machine once a RUN has started: its core runs it, its queue is held by it, and its stage has had a RUN in this slot (16 R364). -/
def State.startRun (s : State) (n q : Nat) (c : Cmd) (ds : List Desc) : State :=
  let u := (({ s with gate := { s.gate with idle := Map.set 0 s.gate.idle (n % 256) 0 } } : State).setCore n
    ((s.core n).startRun q s.tick c ds)).issued n q
  u.setQueue n q { u.queue n q with running := some { idx := (s.queue n q).ptr.toNat, op := 1, sig := c.sig } }

/-- Loading the argument registers leaves the vector registers, the accumulators, the queues and the cycle. -/
theorem Core.loadArgs_keeps (k : Core) (ps : List (Nat × Desc)) :
    (k.loadArgs ps).v = k.v ∧ (k.loadArgs ps).acc = k.acc ∧ (k.loadArgs ps).queues = k.queues ∧ (k.loadArgs ps).cycle = k.cycle :=
  foldl_keeps (fun d : Core => d.v = k.v ∧ d.acc = k.acc ∧ d.queues = k.queues ∧ d.cycle = k.cycle) _
    (fun d p h => by simpa [Core.setS] using h) ps k ⟨rfl, rfl, rfl, rfl⟩

/-- The queue of a RUN that starts has moved on and is held by it. -/
theorem State.queue_startRun (s : State) (n q : Nat) (c : Cmd) (ds : List Desc) :
    (s.startRun n q c ds).queue n q =
      { s.queue n q with ptr := (s.queue n q).ptr + 1, fetched := (s.queue n q).fetched.tail, st := .issuing,
                         running := some { idx := (s.queue n q).ptr.toNat, op := 1, sig := c.sig } } := by
  have hqueue : ((s.core n).startRun q s.tick c ds).queue q = s.queue n q := by
    unfold Core.queue State.queue Core.queue
    exact congrArg (fun m => Map.get {} m q) ((s.core n).loadArgs_keeps _).2.2.1
  rw [State.startRun, State.queue_setQueue, State.queue_issued, State.queue_setCore, hqueue]

/-- The core of a RUN that starts, but for its queues. -/
theorem State.core_startRun (s : State) (n q : Nat) (c : Cmd) (ds : List Desc) :
    ∃ x y : Queue, (s.startRun n q c ds).core n = (((s.core n).startRun q s.tick c ds).setQueue q x).setQueue q y := by
  rw [State.startRun, State.core_setQueue, State.issued, State.core_setQueue, State.core_setCore]
  exact ⟨_, _, rfl⟩

section
variable {s : State} {n q : Nat} {c : Cmd} (heven : wordOf c 1 % 2 = 0)
include heven

/-- A RUN that may start and whose descriptors are good starts (05 R109). -/
theorem cmdRun_of_ready (hfree : (s.core n).run = none) (hturn : s.nextRun n = some q) (hgate : s.gateOpen n = true)
    (hdescs : (s.useDescs n (runHandles c)).2.2 = none) :
    cmdRun s n q c = (s.useDescs n (runHandles c)).1.startRun n q c (s.useDescs n (runHandles c)).2.1 := by
  unfold runHandles runArgs at hdescs
  simp only [cmdRun, heven, hfree, hturn, hgate, hdescs, Option.isSome_none, bne_self_eq_false, Bool.not_true, Bool.or_self,
    Bool.false_eq_true, if_false, zero_ne_one]
  rfl

/-- A RUN whose core, turn or stage is not free waits for the engine (05 R103, R104; 16 R364). -/
theorem cmdRun_of_busy (hbusy : (s.core n).run.isSome = true ∨ s.nextRun n ≠ some q ∨ s.gateOpen n = false) :
    cmdRun s n q c = s.waitEngine n q := by
  have hwaits : ((s.core n).run.isSome || s.nextRun n != some q || !s.gateOpen n) = true := by
    rcases hbusy with h | h | h <;> simp [h]
  simp [cmdRun, heven, hwaits]

end

/-- Settles O15: a RUN that may not start waits; of one that starts the core and the queue are read off `State.startRun`. -/
theorem runStarts : Obligations.RunStarts := by
  unfold Obligations.RunStarts
  intro s core q c n w args ds hhead hfence hop heven
  have hrow : exec (.runCmd core q) s = .next (cmdRun s n q.toNat c) :=
    congrArg Host.Outcome.next (State.withHead_of_op hhead hfence hop rfl)
  refine ⟨fun hfree hturn hgate hdescs => ?_, fun hbusy => ?_⟩
  · refine ⟨_, hrow.trans (congrArg Host.Outcome.next (cmdRun_of_ready heven hfree hturn hgate hdescs)), ?_⟩
    obtain ⟨x, y, hcore⟩ := ds.1.core_startRun n q.toNat c ds.2.1
    obtain ⟨hv, hacc, -, hcycle⟩ := (ds.1.core n).loadArgs_keeps ((runArgs c).zip ds.2.1)
    have hqueue := ds.1.queue_startRun n q.toNat c ds.2.1
    refine ⟨?_, ?_, ?_, ?_, ?_, ?_, ?_, ?_, ?_, ?_⟩
    · exact congrArg Core.pc hcore
    · exact (congrArg Core.lastRunQ hcore).trans (BitVec.ofNat_toNat _ _)
    · refine (congrArg Core.run hcore).trans ?_
      rw [← hcycle]
      rfl
    · exact congrArg Core.window hcore
    · exact (congrArg Core.s hcore).trans rfl
    · exact (congrArg Core.v hcore).trans hv
    · exact (congrArg Core.acc hcore).trans hacc
    · exact congrArg Queue.ptr hqueue
    · exact congrArg Queue.fetched hqueue
    · exact congrArg Queue.running hqueue
  · exact hrow.trans (congrArg Host.Outcome.next (cmdRun_of_busy heven hbusy))

/-! ### COMMAND_FETCH (05 R105, R108) -/

/-- The next command of a queue read, as the access of its fetch (05 R105). -/
def State.fetchNext (s : State) (n q : Nat) : State × AccRes :=
  s.track (.fetch n q) AccRes.isWait fun u => u.readMA (.fetch n q) (u.coreMaster n)
    (((s.queue n q).base.toNat / 32 * 32 + 32 * ((s.queue n q).ptr.toNat + (s.queue n q).fetched.length)) % 2 ^ 48) 32

section
variable {s : State} {n q : Nat} (hstate : (s.queue n q).st = .issuing ∨ (s.queue n q).st = .waitEngine)
  (hroom : (s.queue n q).fetched.length < 8) (hcount : (s.queue n q).ptr.toNat + (s.queue n q).fetched.length < (s.queue n q).count.toNat)
  (hwait : (s.queue n q).wait = none) (hfence : (s.queue n q).fence = none) (hrunning : (s.queue n q).running = none)
  (hpast : ((s.queue n q).fetched.any fun c => c.op == 1 || c.op == 8 || c.op == 9) = false)
  (hreset : s.coreReset.contains n = false) (hstalled : s.queueStalled n q = false) (hclock : s.clocked n = true)
include hstate hroom hcount hwait hfence hrunning hpast hreset hstalled hclock

/-- A queue that may fetch takes the command its fetch brings, and halts where the fetch faults (05 R105). -/
theorem commandFetch_of_open :
    (∀ bs, (s.fetchNext n q).2 = .ok bs → commandFetch s n q = (s.fetchNext n q).1.setQueue n q
      { (s.fetchNext n q).1.queue n q with fetched := (s.queue n q).fetched ++ [BitVec.ofNat 256 (leNat bs)] }) ∧
    (∀ code a, (s.fetchNext n q).2 = .fault code a → commandFetch s n q = (s.fetchNext n q).1.haltQueue n q
      { cmd := (s.queue n q).ptr.toNat + (s.queue n q).fetched.length, code := code, detail := a }) := by
  have hst : ¬((s.queue n q).st ≠ .issuing ∧ (s.queue n q).st ≠ .waitEngine) := by
    rcases hstate with h | h <;> simp [h]
  unfold commandFetch State.fetchNext
  simp only [hst, Nat.not_le.mpr hroom, Nat.not_le.mpr hcount, hwait, hfence, hrunning, hpast, hreset, hstalled, hclock, Option.isSome_none,
    Bool.or_self, Bool.not_true, Bool.false_eq_true, or_self, if_false]
  refine ⟨fun bs hbs => ?_, fun code a hfault => ?_⟩
  · simp only [hbs]
  · simp only [hfault]

end

/-- Whichever row of a queue's commands meets it, a command that Table QUE-1 does not list is refused (05 R108). -/
theorem exec_of_unlisted {core : CoreId} {q : QueueId} {p : CoreId → QueueId → Instr}
    (hp : p ∈ ([.runCmd, .flagSet, .flagAdd, .flagWait, .fence, .copy, .cascade, .gather, .fill, .bank, .send, .recv] :
      List (CoreId → QueueId → Instr))) {s : State} {c : Cmd} (hhead : s.head core.toNat q.toNat = some c)
    (hfence : s.fenced core.toNat q.toNat c = false) (hlegal : opLegal c.op = false) :
    exec (p core q) s = .next (s.refuseCmd core.toNat q.toNat c cQueBadCommand 0) := by
  have hrow : ∃ op f, exec (p core q) s = .next (s.withHead core.toNat q.toNat op f) := by
    simp only [List.mem_cons, List.not_mem_nil, or_false] at hp
    rcases hp with rfl | rfl | rfl | rfl | rfl | rfl | rfl | rfl | rfl | rfl | rfl | rfl <;> exact ⟨_, _, rfl⟩
  obtain ⟨op, f, hexec⟩ := hrow
  rw [hexec, State.withHead_of_unlisted hhead hfence hlegal]

/-- Settles O16: the fetch under way is one access, whose result is taken or halts the queue. -/
theorem commandsAreFetched : Obligations.CommandsAreFetched := by
  unfold Obligations.CommandsAreFetched
  intro s core q n x i rd
  refine ⟨fun hstate hroom hcount hwait hfence hrunning hpast hreset _ hstalled hclock => ?_, fun p hp c hhead hfence hop => ?_⟩
  · obtain ⟨htaken, hfaulted⟩ := commandFetch_of_open hstate hroom hcount hwait hfence hrunning hpast hreset hstalled hclock
    exact ⟨fun bs hbs => congrArg Host.Outcome.next (htaken bs hbs), fun code a hfault => congrArg Host.Outcome.next (hfaulted code a hfault)⟩
  · have hlegal : opLegal c.op = false := by
      simp only [opLegal, Bool.and_eq_false_iff, decide_eq_false_iff_not]
      omega
    exact exec_of_unlisted hp hhead hfence hlegal

/-! ### FLAG_SET, FLAG_ADD and FENCE (05 R102, R107, R120) -/

/-- A command of the row's operation, in a partition, sends its update. -/
theorem cmdFlagSet_of_op {fop : Nat} {s : State} {n q k : Nat} {c : Cmd} (hlt : fop < 2) (hop : bitsOf (wordOf c 1) 12 2 = fop)
    (hpart : s.partOf n = some k) :
    cmdFlagSet fop s n q c = { s.launchCmd n q c with
      flagUpds := (s.launchCmd n q c).flagUpds ++
        [{ part := k, flag := wordOf c 1 % 4096, add := fop == 1, value := BitVec.ofNat 32 (wordOf c 1 >>> 32), by_ := .queue n q,
           done := some (n, q, (s.queue n q).ptr.toNat), wcs := none }] } := by
  simp [cmdFlagSet, hop, Nat.not_le.mpr hlt, hpart]

/-- Settles O17: both flag rows send one update; FENCE issues by definition. -/
theorem flagSetsAndFences : Obligations.FlagSetsAndFences := by
  unfold Obligations.FlagSetsAndFences
  intro s core q c n w hhead hfence
  refine ⟨fun p hp k hop hfop hpart => ?_, fun hop => ?_⟩
  · have hrow : exec (p.2 core q) s = .next (s.withHead n q.toNat 7 fun s c => cmdFlagSet p.1 s n q.toNat c) ∧ p.1 < 2 := by
      simp only [List.mem_cons, List.not_mem_nil, or_false] at hp
      rcases hp with rfl | rfl <;> exact ⟨rfl, by decide⟩
    rw [hrow.1, State.withHead_of_op hhead hfence hop rfl]
    exact congrArg Host.Outcome.next (cmdFlagSet_of_op hrow.2 hfop hpart)
  · exact congrArg Host.Outcome.next (State.withHead_of_op hhead hfence hop rfl)

/-! ### FLAG_WAIT and the updates of flags (05 R121; 10 R223) -/

theorem FWait.holds_iff (w : FWait) (v : Word) :
    w.holds v = true ↔ (w.eq = false ∧ 0 ≤ (v - w.target).toInt) ∨ (w.eq = true ∧ v = w.target) := by
  cases h : w.eq <;> simp [FWait.holds, h]

/-- The wait a FLAG_WAIT of partition `k` registers (05 R121, R122). -/
def State.waitOf (s : State) (n q k : Nat) (c : Cmd) : FWait :=
  let w := wordOf c 1
  { idx := (s.queue n q).ptr.toNat, flag := w % 4096, eq := w.testBit 12, target := BitVec.ofNat 32 (wordOf c 2),
    ticks := bitsOf w 16 24, expiry := s.tick + bitsOf w 16 24, sig := c.sig,
    behind := (s.flagUpds.filter (s.sameWay (.queue n q) k (w % 4096))).length,
    peer := if (wordOf c 2).testBit 43 then some (bitsOf (wordOf c 2) 32 9, bitsOf (wordOf c 2) 41 2) else none }

/-- A FLAG_WAIT of a partition, whose home answers, completes at once or waits. -/
theorem cmdFlagWait_eq {s : State} {n q k : Nat} {c : Cmd} (hticks : bitsOf (wordOf c 1) 16 24 ≠ 0) (hpart : s.partOf n = some k)
    (hhome : (s.issued n q).homeFenced k (wordOf c 1 % 4096) = false) :
    cmdFlagWait s n q c =
      if (s.waitOf n q k c).behind = 0 ∧ (s.waitOf n q k c).holds ((s.issued n q).flag k (wordOf c 1 % 4096)).value then
        (s.issued n q).completeWait n q (s.waitOf n q k c)
      else (s.issued n q).setQueue n q { (s.issued n q).queue n q with wait := some (s.waitOf n q k c), st := .waitFlag } := by
  simp [cmdFlagWait, State.waitOf, hticks, hpart, hhome]

/-- An update that may be performed: the flag, the waits that now hold, what it completes and the waits behind it. -/
theorem flagArrive_of_next {s : State} {p f nth : Nat} {u : FlagUpd}
    (hnth : (s.flagUpds.filter fun u => u.part = p ∧ u.flag = f)[nth]? = some u) :
    ((s.flagUpds.takeWhile (· ≠ u)).any (s.sameWay u.by_ p f) = true → flagArrive s p f nth = s) ∧
    ((s.flagUpds.takeWhile (· ≠ u)).any (s.sameWay u.by_ p f) = false → s.partReset.contains p = false → s.homeFenced p f = false →
      flagArrive s p f nth =
        ((({ s with flagUpds := s.flagUpds.erase u } : State).updateFlag p f u.add u.value u.by_).updateDone u).registerWaits u) := by
  unfold flagArrive
  rw [hnth]
  refine ⟨fun hbefore => if_pos hbefore, fun hbefore hreset hhome => ?_⟩
  simp only [hbefore, hreset, hhome, Bool.or_self, Bool.false_eq_true, if_false]

/-- Settles O18: the condition, then a wait at its issue, then an update at its home. -/
theorem flagWaits : Obligations.FlagWaits := by
  unfold Obligations.FlagWaits
  refine ⟨FWait.holds_iff, ?_, ?_⟩
  · intro s core q c k n w fw hhead hfence hop hticks hpart hhome
    have hrow : exec (.flagWait core q) s = _ := (congrArg Host.Outcome.next (State.withHead_of_op hhead hfence hop rfl)).trans
      (congrArg Host.Outcome.next (cmdFlagWait_eq hticks hpart hhome))
    refine ⟨fun hbehind hholds => ?_, fun hwaits => ?_⟩
    · exact hrow.trans (congrArg Host.Outcome.next (if_pos ⟨hbehind, hholds⟩))
    · refine hrow.trans (congrArg Host.Outcome.next (if_neg fun hnow => ?_))
      rcases hwaits with hbehind | hfails
      · exact hbehind hnow.1
      · exact Bool.false_ne_true (hfails.symm.trans hnow.2)
  · intro s part flag nth u hnth hreset hhome before s1 v s2
    obtain ⟨hbehind, hnext⟩ := flagArrive_of_next hnth
    exact ⟨fun hbefore => congrArg Host.Outcome.next (hbehind hbefore),
      fun hbefore => congrArg Host.Outcome.next (hnext hbefore hreset hhome)⟩

/-! ### START, HALT and RESUME (05 R106, R118, R129, R130) -/

/-- RESUME of a suspended RUN (05 R130). -/
theorem resumeQ_of_suspended {s : State} {n q : Nat} {r : RunState} (one : Bool) (hrun : (s.core n).run = some r)
    (hsuspended : r.suspended = true) (hqueue : r.queue = q) :
    resumeQ s n q one = s.setCore n (({ s.core n with
      run := some { r with
        suspended := false, skipBkpt := true, oneShot := one, limit := r.left.map fun l => s.tick + l, left := none,
        nextIssue := max r.nextIssue (s.core n).cycle, stop := none } } : Core).setQueue q { s.queue n q with st := .issuing }) := by
  have hs : s.suspended n q = true := by simp [State.suspended, hrun, hsuspended, hqueue]
  simp only [resumeQ, hs, hrun, Bool.not_true, Bool.false_eq_true, if_false, Option.map_some]
  rfl

/-- RESUME without a suspended RUN does nothing (05 R130). -/
theorem resumeQ_of_none {s : State} {n q : Nat} (one : Bool) (h : s.suspended n q = false) : resumeQ s n q one = s := by
  simp [resumeQ, h]

/-- Settles O20: each write of CORE_QCTL by the state of its queue and of its RUN. -/
theorem queueControl : Obligations.QueueControl := by
  unfold Obligations.QueueControl
  intro s core q n x
  refine ⟨fun hstill => ?_, fun hidle hhalted => ?_, fun hhalted hdraining => ?_, fun p hp => ?_⟩
  · refine congrArg Host.Outcome.next (if_neg fun h => ?_)
    rcases hstill with hst | hst
    · exact h.1 hst
    · exact h.2 hst
  · exact congrArg Host.Outcome.next (if_pos ⟨hidle, hhalted⟩)
  · exact congrArg Host.Outcome.next (if_neg (not_or.mpr ⟨hhalted, hdraining⟩))
  · have hrow : exec (p.2 core q) s = .next (resumeQ s n q.toNat p.1) := by
      simp only [List.mem_cons, List.not_mem_nil, or_false] at hp
      rcases hp with rfl | rfl <;> rfl
    rw [hrow]
    exact ⟨fun h => congrArg Host.Outcome.next (resumeQ_of_none p.1 h),
      fun r hrun hsuspended hqueue => congrArg Host.Outcome.next (resumeQ_of_suspended p.1 hrun hsuspended hqueue)⟩

/-! ### QUE_WAIT_TIMEOUT (05 R122, R124, R126) -/

/-- A word of eight, each of 64 bits but for the highest, read back: the lowest and the fifth. -/
theorem wordOf_eight {a0 a1 a2 a3 a4 a5 a6 a7 : Nat} (h0 : a0 < 2 ^ 64) (h1 : a1 < 2 ^ 64) (h2 : a2 < 2 ^ 64) (h3 : a3 < 2 ^ 64)
    (h4 : a4 < 2 ^ 64) :
    let x := BitVec.ofNat 512 (a0 + a1 * 2 ^ 64 + a2 * 2 ^ 128 + a3 * 2 ^ 192 + a4 * 2 ^ 256 + a5 * 2 ^ 320 + a6 * 2 ^ 384 + a7 * 2 ^ 448)
    wordOf x 0 = a0 ∧ wordOf x 4 = a4 := by
  simp only [wordOf, BitVec.toNat_ofNat, Nat.shiftRight_eq_div_pow]
  omega

/-- Words 0 and 4 of a record that names no bundle: command, core, queue and code; flag and its value (05 R126). -/
theorem wordOf_encode {f : RecF} (n q tick : Nat) (hcode : f.code < 2 ^ 16) (hpc : f.pc = none) :
    wordOf (f.encode n q tick) 0 = f.cmd % 2 ^ 32 * 2 ^ 32 + n % 512 * 2 ^ 18 + q % 4 * 2 ^ 16 + f.code ∧
    wordOf (f.encode n q tick) 4 = f.flagValue % 2 ^ 32 * 2 ^ 32 + f.flag % 4096 := by
  unfold RecF.encode
  rw [hpc]
  exact wordOf_eight (by omega) (by omega) (show 0 < 2 ^ 64 by decide) (by omega) (by omega)

/-- The queue of a queue that halts on a fault (05 R106, R126). -/
theorem State.queue_haltQueue (s : State) (n q : Nat) (f : RecF) :
    ∃ st, (st = .halted ∨ st = .draining) ∧ (s.haltQueue n q f).queue n q =
      { s.queue n q with st := st, wait := none, fence := none, running := none, fetched := [], lastFault := BitVec.ofNat 16 f.code,
                         record := f.encode n q s.tick } := by
  have hstop : (s.stopQueue n q).queue n q = { s.queue n q with
      st := if (s.queue n q).inflight = [] ∧ !s.updInFlight n q then .halted else .draining
      wait := none, fence := none, running := none, fetched := [] } :=
    (State.queue_setCore _ n q _).trans (Core.queue_setQueue q _ _)
  refine ⟨if (s.queue n q).inflight = [] ∧ !s.updInFlight n q then .halted else .draining, ite_eq_or_eq _ _ _, ?_⟩
  have hhalt : (s.haltQueue n q f).queue n q =
      { (s.stopQueue n q).queue n q with lastFault := BitVec.ofNat 16 f.code, record := f.encode n q s.tick } := by
    rw [State.haltQueue, State.queue, State.finishJobs_core]
    exact State.queue_setQueue (s.stopQueue n q) n q _
  rw [hhalt, hstop]

section
variable {s : State} {n q k : Nat} {w : FWait} (hwait : (s.queue n q).wait = some w) (hpart : s.partOf n = some k)
include hwait

/-- Before its expiry boundary a wait goes on (05 R122). -/
theorem waitTimeout_before (hearly : s.reached w.expiry = false) : waitTimeout s n q = s := by
  simp [waitTimeout, hwait, hearly]

include hpart

/-- A wait that holds at its boundary completes (05 R122). -/
theorem waitTimeout_holds (hhome : s.homeFenced k w.flag = false) (hbehind : w.behind = 0) (hlate : s.reached w.expiry = true)
    (hholds : w.holds (s.flag k w.flag).value = true) : waitTimeout s n q = s.completeWait n q w := by
  simp [waitTimeout, hwait, hpart, hhome, hbehind, hlate, hholds]

/-- A wait that does not hold at its boundary halts its queue, with a record of the flag (05 R122, R124). -/
theorem waitTimeout_fails (hlate : s.reached w.expiry = true) (hfails : w.holds (s.flag k w.flag).value = false) :
    ∃ f : RecF, waitTimeout s n q = s.haltQueue n q f ∧ f.cmd = w.idx ∧ f.code = cQueWaitTimeout ∧ f.pc = none ∧ f.flag = w.flag ∧
      f.flagValue = (s.flag k w.flag).value.toNat := by
  simp only [waitTimeout, hwait, hpart, hlate, hfails, Option.getD_some, Bool.not_true, Bool.false_eq_true, false_and, and_false, if_false]
  cases w.peer with
  | none => exact ⟨_, rfl, rfl, rfl, rfl, rfl, rfl⟩
  | some p => exact ⟨_, rfl, rfl, rfl, rfl, rfl, rfl⟩

end

/-- Settles O19: the wait before and at its boundary, and the words of the record its halt captures. -/
theorem waitsTimeOut : Obligations.WaitsTimeOut := by
  unfold Obligations.WaitsTimeOut
  intro s core q w k n hwait hpart hhome hbehind
  refine ⟨fun hearly => ?_, fun hlate hholds => ?_, fun hlate hfails => ?_⟩
  · exact congrArg Host.Outcome.next (waitTimeout_before hwait hearly)
  · exact congrArg Host.Outcome.next (waitTimeout_holds hwait hpart hhome hbehind hlate hholds)
  · obtain ⟨f, hhalt, hcmd, hcode, hpc, hflag, hvalue⟩ := waitTimeout_fails hwait hpart hlate hfails
    obtain ⟨st, hst, hqueue⟩ := s.queue_haltQueue n q.toNat f
    obtain ⟨hword0, hword4⟩ := wordOf_encode n q.toNat s.tick (hcode ▸ (by decide : cQueWaitTimeout < 2 ^ 16)) hpc
    obtain ⟨-, -, -, -, hmem, -⟩ := s.haltQueue_eq n q.toNat f
    rw [hcmd, hcode] at hword0
    rw [hflag, hvalue, Nat.mod_eq_of_lt (BitVec.isLt _)] at hword4
    refine ⟨_, congrArg Host.Outcome.next hhalt, ?_, ?_, ?_, ?_, ?_, hmem⟩
    · rw [hqueue, hcode]
    · rw [hqueue]
      exact hst
    · rw [hqueue]
    · rw [hqueue]
      exact hword0
    · rw [hqueue]
      exact hword4

end Sys2Proof.Machine
end

section
/-! PROOFS. O22: what a row of the DMA engine moves (05 R112, R114, R116, R118). -/

namespace Sys2Proof.Machine

/-! ### Codes of whole bytes -/

/-- The number whose digits of `b` bits are some codes, the first lowest: what a row of them is stored as (05 R112). -/
def rowNumber (b : Nat) (codes : List Nat) : Nat := codes.foldr (fun c acc => c % 2 ^ b + 2 ^ b * acc) 0

/-- The codes a number is cut into make up its low digits again. -/
theorem rowNumber_cut (b n x : Nat) : rowNumber b ((List.range n).map fun i => (x >>> (i * b)) % 2 ^ b) = x % 2 ^ (b * n) := by
  induction n generalizing x with
  | zero => simp [rowNumber, Nat.mod_one x]
  | succ n ih =>
    have htail : (List.range n).map ((fun i => (x >>> (i * b)) % 2 ^ b) ∘ Nat.succ) =
        (List.range n).map fun i => ((x >>> b) >>> (i * b)) % 2 ^ b := by
      refine List.map_congr_left fun i _ => ?_
      simp only [Function.comp_apply, ← Nat.shiftRight_add, Nat.succ_mul, Nat.add_comm]
    have hcons : rowNumber b ((List.range (n + 1)).map fun i => (x >>> (i * b)) % 2 ^ b) =
        (x >>> (0 * b)) % 2 ^ b % 2 ^ b + 2 ^ b * rowNumber b ((List.range n).map fun i => ((x >>> b) >>> (i * b)) % 2 ^ b) := by
      rw [List.range_succ_eq_map, List.map_cons, List.map_map, htail]
      rfl
    rw [hcons, ih, Nat.zero_mul, Nat.shiftRight_zero, Nat.mod_mod, Nat.shiftRight_eq_div_pow, Nat.mul_succ, Nat.add_comm (b * n),
      Nat.pow_add, Nat.mod_mul]

/-- The bytes of a number are those of what it leaves modulo their range. -/
theorem leBytes_mod (n x : Nat) : leBytes n (x % 256 ^ n) = leBytes n x := by
  induction n generalizing x with
  | zero => rfl
  | succ n ih =>
    have hhead : BitVec.ofNat 8 (x % 256 ^ (n + 1)) = BitVec.ofNat 8 x := by
      apply BitVec.eq_of_toNat_eq
      simp only [BitVec.toNat_ofNat]
      exact Nat.mod_mod_of_dvd x ⟨256 ^ n, by rw [Nat.pow_succ']⟩
    rw [leBytes, hhead, Nat.pow_succ', Nat.mod_mul_right_div_self, ih, leBytes]

/-- The bytes of a row's codes, cut from what was read, are the bytes read. -/
theorem leBytes_rowNumber_cut (w n x : Nat) :
    leBytes (n * w) (rowNumber (8 * w) ((List.range n).map fun i => (x >>> (i * (8 * w))) % 2 ^ (8 * w))) = leBytes (n * w) x := by
  have hrange : 2 ^ (8 * w * n) = 256 ^ (n * w) := by
    rw [show (256 : Nat) = 2 ^ 8 from rfl, ← Nat.pow_mul, Nat.mul_assoc, Nat.mul_comm w n]
  rw [rowNumber_cut, hrange, leBytes_mod]

section
variable {s : State} {m : Master} {f : Fmt} {at_ : Int × Nat} {x0 n w : Nat} {who : Who} (hblock : f.isBlock = false)
  (hbits : f.bits = 8 * w)
include hblock hbits

/-- A row of whole-byte codes without block bytes is read as its bytes (05 R112). -/
theorem readRow_of_bytes :
    ((s.readMA who m (ma48 (at_.1 + (x0 * w : Nat))) (n * w)).2 = .wait →
      s.readRow m f at_ x0 n who = ((s.readMA who m (ma48 (at_.1 + (x0 * w : Nat))) (n * w)).1, .wait)) ∧
    (∀ bs, (s.readMA who m (ma48 (at_.1 + (x0 * w : Nat))) (n * w)).2 = .ok bs →
      s.readRow m f at_ x0 n who = ((s.readMA who m (ma48 (at_.1 + (x0 * w : Nat))) (n * w)).1,
        .ok ((List.range n).map fun i => (leNat bs >>> (i * (8 * w))) % 2 ^ (8 * w)) [])) := by
  have hlo : x0 * (8 * w) / 8 = x0 * w := by
    rw [Nat.mul_left_comm, Nat.mul_div_cancel_left _ (by decide)]
  have hlen : ((x0 + n) * (8 * w) + 7) / 8 - x0 * w = n * w := by
    rw [Nat.mul_left_comm, Nat.add_mul]
    omega
  have hat : ∀ i, (x0 + i) * (8 * w) - 8 * (x0 * w) = i * (8 * w) := fun i => by
    rw [Nat.add_mul, Nat.mul_left_comm x0, Nat.add_sub_cancel_left]
  unfold State.readRow
  simp only [hbits, hblock, hlo, hlen, hat, Bool.false_eq_true, if_false]
  refine ⟨fun hwait => ?_, fun bs hok => ?_⟩
  · simp only [hwait]
  · simp only [hok]

/-- A row of whole-byte codes without block bytes is written as their bytes (05 R112). -/
theorem writeRow_of_bytes (codes : List Nat) :
    let wr := s.writeMA who m (ma48 (at_.1 + (x0 * w : Nat))) (leBytes (codes.length * w) (rowNumber (8 * w) codes))
    (s.writeRow m f at_ x0 codes [] who).1 = wr.1 ∧ (∀ cs, wr.2 = .ok cs → (s.writeRow m f at_ x0 codes [] who).2 = .ok [] []) ∧
      (wr.2 = .wait → (s.writeRow m f at_ x0 codes [] who).2 = .wait) ∧
      (∀ code ma, wr.2 = .fault code ma → (s.writeRow m f at_ x0 codes [] who).2 = .fault code ma) := by
  have hlo : x0 * (8 * w) / 8 = x0 * w := by
    rw [Nat.mul_left_comm, Nat.mul_div_cancel_left _ (by decide)]
  have hlen : ((x0 + codes.length) * (8 * w) + 7) / 8 - x0 * w = codes.length * w := by
    rw [Nat.mul_left_comm, Nat.add_mul]
    omega
  have hwhole : decide (8 * w = 4) = false := by
    rw [decide_eq_false_iff_not]
    omega
  have hfold : codes.foldr (fun c acc => c % 2 ^ (8 * w) + 2 ^ (8 * w) * acc) 0 = rowNumber (8 * w) codes := rfl
  unfold State.writeRow
  simp only [hbits, hblock, hlo, hlen, hwhole, hfold, Bool.false_and, Bool.false_eq_true, if_false, Nat.zero_mul, Nat.add_zero]
  generalize s.writeMA who m (ma48 (at_.1 + (x0 * w : Nat))) (leBytes (codes.length * w) (rowNumber (8 * w) codes)) = wr
  obtain ⟨t, r⟩ := wr
  cases r <;> simp

end

section
variable {s : State} {n r x0 len w : Nat} {x : DmaCh} {a b : Int × Nat} {who : Who}

/-- A COPY row between tensors of one format of whole bytes without block bytes moves the source's bytes (05 R114). -/
theorem moveRow_copy (hmode : x.cmd.dmode = 0) (hsame : x.src.fm = x.dst.fm) (hblock : x.src.fm.isBlock = false)
    (hbits : x.src.fm.bits = 8 * w) :
    let rd := s.readMA who (s.coreMaster n) (ma48 (a.1 + (x0 * w : Nat))) (len * w)
    let mv := s.moveRow n x r x0 len a b who
    (rd.2 = .wait → mv = (rd.1, .wait)) ∧
    ∀ bs, rd.2 = .ok bs →
      let wr := rd.1.writeMA who (s.coreMaster n) (ma48 (b.1 + (x0 * w : Nat))) (leBytes (len * w) (leNat bs))
      mv.1 = wr.1 ∧ (∀ cs, wr.2 = .ok cs → mv.2 = .ok [] []) ∧ (wr.2 = .wait → mv.2 = .wait) ∧
        (∀ code ma, wr.2 = .fault code ma → mv.2 = .fault code ma) := by
  intro rd mv
  obtain ⟨hwaits, hreads⟩ := readRow_of_bytes (s := s) (m := s.coreMaster n) (at_ := a) (x0 := x0) (n := len) (who := who) hblock hbits
  refine ⟨fun hwait => ?_, fun bs hok => ?_⟩
  · simp only [mv, State.moveRow, hmode, hwaits hwait]
    rfl
  · have hmv : mv = rd.1.writeRow (s.coreMaster n) x.src.fm b x0
        ((List.range len).map fun i => (leNat bs >>> (i * (8 * w))) % 2 ^ (8 * w)) [] who := by
      simp only [mv, State.moveRow, hmode, hreads bs hok, State.asDst, if_pos hsame, OfNat.zero_ne_ofNat, zero_ne_one, if_false, ite_self]
      rw [← hsame]
    have hwrites := writeRow_of_bytes (s := rd.1) (m := s.coreMaster n) (at_ := b) (x0 := x0) (who := who) hblock hbits
      ((List.range len).map fun i => (leNat bs >>> (i * (8 * w))) % 2 ^ (8 * w))
    rw [List.length_map, List.length_range, leBytes_rowNumber_cut] at hwrites
    rw [hmv]
    exact hwrites

/-- A FILL row writes the converted fill value at every element (05 R114). -/
theorem moveRow_fill (hmode : x.cmd.dmode = 3) (hfirst : s.accMade who = false) :
    let cv := s.convRow n x (List.replicate len (fpVal .fp32 x.cmd.fillv))
    s.moveRow n x r x0 len a b who = cv.1.writeRow (s.coreMaster n) x.dst.fm b x0 cv.2.1 cv.2.2 who := by
  simp [State.moveRow, hmode, hfirst]

end

/-- A GATHER row whose every tap lies in the padding is zeros (05 R116). -/
theorem gatherRow_of_padding {s : State} {m : Master} {x : DmaCh} {p : Nat} {who : Who}
    (hpad : ∀ tap, x.src.window.position p tap = none) :
    let w := x.src.window
    let taps := w.kw * (if w.twoD then w.kh else 1)
    s.gatherRow m x p who = (s, .ok (List.replicate (taps * w.chans) 0) (List.replicate (taps * (w.chans / 32)) 0)) := by
  intro w taps
  unfold State.gatherRow
  simp only [hpad]
  change (List.range taps).foldl _ _ = _
  induction taps with
  | zero => simp
  | succ k ih =>
    rw [List.range_succ, List.foldl_append, ih]
    simp [Nat.succ_mul, List.replicate_append_replicate, w]

/-- A row that faults stops its channel, and its command with it (05 R118). -/
theorem dmaRun_of_fault {s : State} {n i fuel code ma : Nat} {x : DmaCh} (hch : (s.core n).dmaCh i = some x) (hgoes : x.stopped = false)
    (hleft : x.next < x.stop) (hplain : dmaSeqs x.src x.dst = []) (hnew : s.accFin (.dma n i x.next) = false)
    (hfault : (s.dmaRow n i x x.next).2 = .fault code ma) :
    s.dmaRun n i (fuel + 1) = (s.dmaRow n i x x.next).1.dmaStop n i x code ma := by
  have hopen : (x.stopped || decide (x.stop ≤ x.next) || dmaSeqs x.src x.dst != []) = false := by
    simp [hgoes, Nat.not_le.mpr hleft, hplain]
  simp only [State.dmaRun, hch, hopen, hnew, hfault, Bool.false_eq_true, if_false]

/-- Settles O22: the codes a row is read as make up the bytes it is written as (`leBytes_rowNumber_cut`). -/
theorem dmaRows : Obligations.DmaRows := by
  unfold Obligations.DmaRows
  intro s n r x0 len x a b who
  refine ⟨fun hmode hsame hblock hbits => ?_, moveRow_fill, fun p hpad => gatherRow_of_padding hpad,
    fun i fuel code ma hch hgoes hleft hplain hnew hfault => dmaRun_of_fault hch hgoes hleft hplain hnew hfault⟩
  exact moveRow_copy hmode hsame hblock (Nat.mul_div_cancel' (Nat.dvd_of_mod_eq_zero hbits)).symm

end Sys2Proof.Machine
end

section
/-! PROOFS. O21, O23: how a DMA command starts on its channel, how a paged side obtains its blocks, and how the channel ends (05 R102, R104,
R113, R114, R118; 09 R207, R211). -/

namespace Sys2Proof.Machine

/-! ### A DMA command at issue -/

/-- The rows of the four modes. -/
theorem exec_dmaRow {p : Nat × (CoreId → QueueId → Instr)}
    (hp : p ∈ ([(0, .copy), (1, .cascade), (2, .gather), (3, .fill)] : List (Nat × (CoreId → QueueId → Instr)))) (s : State)
    (core : CoreId) (q : QueueId) :
    exec (p.2 core q) s = .next (s.withHead core.toNat q.toNat 2 fun s c => cmdDma p.1 s core.toNat q.toNat c) := by
  simp only [List.mem_cons, List.not_mem_nil, or_false] at hp
  rcases hp with rfl | rfl | rfl | rfl <;> rfl

section
variable {mode : Nat} {s : State} {n q : Nat} {c : Cmd}

/-- A reserved MODE or RND is refused, whichever row meets it (05 R108). -/
theorem cmdDma_of_reserved (hbad : 4 ≤ c.dmode ∨ bitsOf (wordOf c 1) 28 2 = 3) :
    cmdDma mode s n q c = s.refuseCmd n q c cQueBadCommand 0 := if_pos hbad

/-- The handles a DMA command names, with the kinds its mode takes (05 Table QUE-4). -/
def dmaHandles (mode : Nat) (c : Cmd) : List (Nat × List Nat) :=
  (if mode = 3 then [] else [(c.dsrc, (dmaKinds mode).1)]) ++ [(c.ddst, (dmaKinds mode).2)]

/-- The channel as a DMA command of a queue starts it (05 R114, R118). -/
def State.dmaStart (s : State) (n q : Nat) (c : Cmd) (src dst : Desc) : DmaCh :=
  { queue := q, idx := (s.queue n q).ptr.toNat, cmd := c, src := src, dst := dst, next := c.ostart, stop := c.oend (dst.ext dst.outer),
    stopped := false }

variable (hmode : c.dmode = mode) (hlow : mode < 4) (hrnd : bitsOf (wordOf c 1) 28 2 ≠ 3)
include hmode hlow hrnd

/-- With its stage closed, no channel free or 8 held, the queue waits for an engine (05 R104, R118; 16 R364). -/
theorem cmdDma_of_busy (hbusy : s.gateOpen n = false ∨ (s.core n).freeCh = none ∨ 8 ≤ (s.core n).heldCh q) :
    cmdDma mode s n q c = s.waitEngine n q := by
  have hlegal : ¬(4 ≤ mode ∨ bitsOf (wordOf c 1) 28 2 = 3) := by omega
  simp only [cmdDma, hmode, hlegal, ne_eq, not_true_eq_false, if_false]
  by_cases hgate : s.gateOpen n = false
  · simp [hgate]
  · cases hfree : (s.core n).freeCh with
    | none => simp
    | some i =>
      have hheld : 8 ≤ (s.core n).heldCh q := by simpa [hgate, hfree] using hbusy
      simp [hheld]

/-- With a channel free and everything it names good, it starts on the lowest-numbered free channel and moves (05 R114, R118). -/
theorem cmdDma_of_ready {i : Nat} {src dst : Desc} (hgate : s.gateOpen n = true) (hfree : (s.core n).freeCh = some i)
    (hheld : (s.core n).heldCh q < 8) (hdescs : (s.useDescs n (dmaHandles mode c)).2.2 = none)
    (hdst : dst = (s.useDescs n (dmaHandles mode c)).2.1.getLastD 0)
    (hsrc : src = if mode = 3 then dst else (s.useDescs n (dmaHandles mode c)).2.1.headD 0) (hshape : dmaShape c src dst = none)
    (hseqs : ∀ v ∈ dmaSeqs src dst, ∃ k, (s.useDescs n (dmaHandles mode c)).1.partOf n = some k ∧
      (s.useDescs n (dmaHandles mode c)).1.seqMine k v = true) :
    let u := (s.useDescs n (dmaHandles mode c)).1
    let x := u.dmaStart n q c src dst
    cmdDma mode s n q c = (((u.launchCmd n q c).setDma n i (some x)).askPage n i x).dmaRun n i (x.stop - c.ostart + 1) := by
  intro u x
  have hlegal : ¬(4 ≤ mode ∨ bitsOf (wordOf c 1) 28 2 = 3) := by omega
  unfold cmdDma
  simp only [hlegal, hmode, hgate, hfree, Nat.not_le.mpr hheld, ne_eq, not_true_eq_false, Bool.not_true, Bool.false_eq_true, if_false]
  unfold dmaHandles at hdescs hdst hsrc hseqs
  simp only [hdescs, ← hdst, ← hsrc, hshape]
  refine (if_neg fun hother => ?_).trans rfl
  obtain ⟨v, hv, hother⟩ := List.any_eq_true.mp hother
  obtain ⟨k, hpart, hmine⟩ := hseqs v hv
  simp [hpart, hmine] at hother

end

/-- Settles O21: the row refuses, waits or starts its channel, in the order of the command's checks. -/
theorem dmaCommandsStart : Obligations.DmaCommandsStart := by
  unfold Obligations.DmaCommandsStart
  intro p hp s core q c n ks ds dst src hhead hfence hop
  have hlow : p.1 < 4 := by
    simp only [List.mem_cons, List.not_mem_nil, or_false] at hp
    rcases hp with rfl | rfl | rfl | rfl <;> decide
  have hrow : exec (p.2 core q) s = .next (cmdDma p.1 s n q.toNat c) :=
    (exec_dmaRow hp s core q).trans (congrArg Host.Outcome.next (State.withHead_of_op hhead hfence hop rfl))
  rw [hrow]
  refine ⟨fun hbad => congrArg Host.Outcome.next (cmdDma_of_reserved hbad), fun hmode hrnd => ⟨fun hbusy => ?_, ?_⟩⟩
  · exact congrArg Host.Outcome.next (cmdDma_of_busy hmode hlow hrnd hbusy)
  · intro i hgate hfree hheld hdescs hshape hseqs
    exact congrArg Host.Outcome.next (cmdDma_of_ready hmode hlow hrnd hgate hfree hheld hdescs rfl rfl hshape hseqs)

/-! ### What the end of a command leaves of the channels -/

@[simp] theorem State.core_signal (s : State) (n q j : Nat) (sig : Option (Nat × Word)) : (s.signal n q sig).core j = s.core j := by
  unfold State.signal
  split <;> rfl

@[simp] theorem State.core_post (s : State) (k j : Nat) (b : EvBody) (l : List Audit) : (s.post k b l).core j = s.core j := rfl

/-- A queue with nothing more in flight passes its fence (05 R102, R107). -/
def State.passFence (s : State) (n q : Nat) : State :=
  match (s.queue n q).fence with
  | some f =>
    let t := s.setQueue n q { s.queue n q with fence := none, st := .issuing }
    (if f.dinv then t.setCore n { t.core n with descs := [] } else t).signal n q f.sig
  | none => s

/-- A queue that has issued its last command returns to IDLE once its signals are applied (05 R129). -/
def State.restQueue (s : State) (n q : Nat) : State :=
  let x := s.queue n q
  if x.st = .issuing ∧ x.ptr.toNat = x.count.toNat ∧ x.wait = none ∧ x.running = none ∧ !s.updInFlight n q then
    (s.setQueue n q { x with st := .idle }).post (3 + s.dieOf n) (.queueIdle n q)
  else s

theorem State.settle_eq (s : State) (n q : Nat) : s.settle n q =
    if (s.queue n q).inflight ≠ [] then s
    else if (s.queue n q).st = .draining then
      if s.updInFlight n q then s else (s.setQueue n q { s.queue n q with st := .halted }).finishJobs
    else (s.passFence n q).restQueue n q := rfl

theorem State.dma_passFence (s : State) (n q : Nat) : ((s.passFence n q).core n).dma = (s.core n).dma := by
  unfold State.passFence
  split
  · dsimp only
    rw [State.core_signal]
    split <;> simp
  · rfl

theorem State.dma_restQueue (s : State) (n q : Nat) : ((s.restQueue n q).core n).dma = (s.core n).dma := by
  unfold State.restQueue
  dsimp only
  split <;> simp

theorem State.dma_settle (s : State) (n q : Nat) : ((s.settle n q).core n).dma = (s.core n).dma := by
  rw [State.settle_eq]
  split
  · rfl
  · split
    · split <;> simp
    · rw [State.dma_restQueue, State.dma_passFence]

theorem State.dma_haltQueue (s : State) (n q : Nat) (f : RecF) : ((s.haltQueue n q f).core n).dma = (s.core n).dma := by
  obtain ⟨x, hcore, -⟩ := s.haltQueue_eq n q f
  rw [hcore, Core.setQueue_dma]
  cases (s.core n).run with
  | none => rfl
  | some r =>
    dsimp only
    split <;> rfl

/-- A command that faults leaves every channel of its core alone. -/
theorem State.dma_faultCmd (s : State) (n q idx : Nat) (f : RecF) : ((s.faultCmd n q idx f).core n).dma = (s.core n).dma := by
  unfold State.faultCmd
  dsimp only
  split
  · split
    · rw [State.dma_settle, State.core_setQueue, Core.setQueue_dma]
    · rw [State.dma_haltQueue, State.core_setQueue, Core.setQueue_dma]
  · rfl

/-- A channel written reads back. -/
@[simp] theorem State.dmaCh_setDma (s : State) (n i : Nat) (x : Option DmaCh) : ((s.setDma n i x).core n).dmaCh i = x := by
  rw [State.setDma, State.core_setCore, Core.dmaCh, Map.get_set_same]

/-- A channel stopped by a fault is stopped (05 R118). -/
theorem State.dmaCh_dmaStop (s : State) (n i code detail : Nat) (x : DmaCh) :
    ∃ y, ((s.dmaStop n i x code detail).core n).dmaCh i = some y ∧ y.stopped = true := by
  unfold State.dmaStop Core.dmaCh
  rw [State.dma_faultCmd]
  exact ⟨_, State.dmaCh_setDma _ n i _, rfl⟩

/-! ### The end of a channel -/

/-- A channel that has moved its range is freed, and its command completes (05 R102, R118). -/
theorem dmaComplete_of_done {s : State} {n i : Nat} {x : DmaCh} (hch : (s.core n).dmaCh i = some x) (hgoes : x.stopped = false)
    (hdone : x.stop ≤ x.next) (hclock : s.clocked n = true) :
    dmaComplete s n i = (s.setDma n i none).completeCmd n x.queue x.idx := by
  have hrun : s.dmaRun n i (x.stop - x.next + 1) = s := by
    simp [State.dmaRun, hch, hdone]
  simp [dmaComplete, hclock, hch, hrun, hgoes, Nat.not_lt.mpr hdone]

/-- With its core's clock withheld the engine does nothing (03 R67). -/
theorem dmaComplete_of_unclocked {s : State} {n : Nat} (i : Nat) (hclock : s.clocked n = false) : dmaComplete s n i = s := by
  simp [dmaComplete, hclock]

theorem pagedTranslation_of_unclocked {s : State} {n : Nat} (i : Nat) (hclock : s.clocked n = false) : pagedTranslation s n i = s := by
  unfold pagedTranslation
  cases (s.core n).dmaCh i <;> simp [hclock]

/-! ### The blocks of a paged side (09 R207, R211) -/

/-- A channel with a paged side that has tokens left to move, its core's clock running. -/
structure State.PagedMove (s : State) (n i : Nat) (x : DmaCh) : Prop where
  channel : (s.core n).dmaCh i = some x
  goes : x.stopped = false
  left : x.next < x.stop
  paged : dmaSeqs x.src x.dst ≠ []
  clocked : s.clocked n = true

/-- With a block in progress its tokens move on. -/
theorem State.PagedMove.moves {s : State} {n i : Nat} {x : DmaCh} (h : s.PagedMove n i x) (hpage : x.page.isSome = true) :
    pagedTranslation s n i = s.movePage n i x := by
  obtain ⟨hch, hgoes, hleft, hpaged, hclock⟩ := h
  simp [pagedTranslation, hch, hgoes, Nat.not_le.mpr hleft, hpaged, hclock, hpage]

/-- With none the next block is obtained first; a channel that stops by it moves nothing. -/
theorem State.PagedMove.obtains {s t : State} {n i : Nat} {x y : DmaCh} (h : s.PagedMove n i x) (hpage : x.page = none)
    (hserve : s.servePage n i x = t) (hafter : (t.core n).dmaCh i = some y) :
    pagedTranslation s n i = if y.stopped then t else t.movePage n i y := by
  obtain ⟨hch, hgoes, hleft, hpaged, hclock⟩ := h
  simp [pagedTranslation, hch, hgoes, Nat.not_le.mpr hleft, hpaged, hclock, hpage, hserve, hafter]

/-- A block whose translation faults stops the channel. -/
theorem State.PagedMove.stops {s u : State} {n i code detail : Nat} {x : DmaCh} (h : s.PagedMove n i x) (hpage : x.page = none)
    (hserve : s.servePage n i x = u.dmaStop n i x code detail) : pagedTranslation s n i = u.dmaStop n i x code detail := by
  obtain ⟨y, hafter, hstopped⟩ := u.dmaCh_dmaStop n i code detail x
  exact (h.obtains hpage hserve hafter).trans (if_pos hstopped)

/-- The tokens of the block from a channel's next one on: those left in the block of either side, and of the range (09 R211). -/
def DmaCh.blockLen (x : DmaCh) : Nat := blockLeft x.dst x.cmd.dadj x.next (blockLeft x.src x.cmd.sadj x.next (x.stop - x.next))

/-- The translation of one side of a block of `len` tokens; a plain side needs none. -/
def State.sideFrame (s : State) (d : Desc) (adj : Int) (x1 len : Nat) (wr : Bool) : Except Nat (Nat × Nat) :=
  if d.kind = 4 then s.translate d adj x1 len wr else .ok (0, 0)

section
variable {s : State} {n i : Nat} {x : DmaCh} {a : AttItem} (hfind : (s.att.find? fun b => b.transOf n i && attAtHead s.att b) = some a)
include hfind

/-- A source side that faults stops the channel (09 R211). -/
theorem servePage_source {e : Nat}
    (hsrc : ({ s with att := s.att.erase a } : State).sideFrame x.src x.cmd.sadj x.next x.blockLen false = .error e) :
    s.servePage n i x = ({ s with att := s.att.erase a } : State).dmaStop n i x e (tokenOf x.src x.cmd.sadj x.next) := by
  unfold State.sideFrame DmaCh.blockLen at hsrc
  simp only [State.servePage, hfind, hsrc]

/-- A destination side that faults stops the channel (09 R211). -/
theorem servePage_dest {e : Nat} {fs : Nat × Nat}
    (hsrc : ({ s with att := s.att.erase a } : State).sideFrame x.src x.cmd.sadj x.next x.blockLen false = .ok fs)
    (hdst : ({ s with att := s.att.erase a } : State).sideFrame x.dst x.cmd.dadj x.next x.blockLen true = .error e) :
    s.servePage n i x = ({ s with att := s.att.erase a } : State).dmaStop n i x e (tokenOf x.dst x.cmd.dadj x.next) := by
  unfold State.sideFrame DmaCh.blockLen at hsrc hdst
  simp only [State.servePage, hfind, hsrc, hdst]

/-- With both frames the block is in progress. -/
theorem servePage_both {fs fd : Nat × Nat}
    (hsrc : ({ s with att := s.att.erase a } : State).sideFrame x.src x.cmd.sadj x.next x.blockLen false = .ok fs)
    (hdst : ({ s with att := s.att.erase a } : State).sideFrame x.dst x.cmd.dadj x.next x.blockLen true = .ok fd) :
    s.servePage n i x = ({ s with att := s.att.erase a } : State).setDma n i
      (some { x with page := some (fs, fd, x.next + x.blockLen) }) := by
  unfold State.sideFrame DmaCh.blockLen at hsrc hdst
  simp only [State.servePage, hfind, hsrc, hdst, DmaCh.blockLen]

end

/-- Of a block's tokens all have moved, or fewer where one waits. -/
theorem State.moveTokens_count (s : State) (n i : Nat) (x : DmaCh) (fs fd : Nat × Nat) (len : Nat) :
    (∀ cs bs, (s.moveTokens n i x fs fd len).2.2 = .ok cs bs → (s.moveTokens n i x fs fd len).2.1 = len) ∧
      ((s.moveTokens n i x fs fd len).2.2 = .wait → (s.moveTokens n i x fs fd len).2.1 < len) := by
  induction len with
  | zero => exact ⟨fun _ _ _ => rfl, fun h => nomatch h⟩
  | succ k ih =>
    unfold State.moveTokens at ih ⊢
    rw [List.range_succ, List.foldl_append]
    simp only [List.foldl_cons, List.foldl_nil]
    generalize List.foldl _ _ (List.range k) = acc at ih ⊢
    obtain ⟨t, moved, last⟩ := acc
    obtain ⟨hok, hwait⟩ := ih
    cases last with
    | fault code ma => exact ⟨fun _ _ h => (nomatch h), fun h => (nomatch h)⟩
    | wait => exact ⟨fun _ _ h => (nomatch h), fun _ => Nat.lt_succ_of_lt (hwait rfl)⟩
    | ok cs bs =>
      have hmoved : moved = k := hok cs bs rfl
      dsimp only
      split
      · rename_i hgone
        exact ⟨fun _ _ _ => rfl, fun h => nomatch hgone.symm.trans h⟩
      · rename_i hother
        exact ⟨fun cs bs h => absurd h (hother cs bs), fun _ => hmoved ▸ Nat.lt_succ_self k⟩

section
variable {s : State} {n i : Nat} {x : DmaCh} {fs fd : Nat × Nat} {stop : Nat} (hpage : x.page = some (fs, fd, stop))
include hpage

/-- A token that faults stops the channel there. -/
theorem movePage_fault {code ma : Nat} (hfault : (s.moveTokens n i x fs fd (stop - x.next)).2.2 = .fault code ma) :
    ∃ y : DmaCh, y.next = x.next + (s.moveTokens n i x fs fd (stop - x.next)).2.1 ∧ y.queue = x.queue ∧ y.idx = x.idx ∧ y.cmd = x.cmd ∧
      s.movePage n i x = (s.moveTokens n i x fs fd (stop - x.next)).1.dmaStop n i y code ma := by
  simp only [State.movePage, hpage, hfault]
  refine ⟨_, ?_, ?_, ?_, ?_, rfl⟩ <;> rfl

/-- With a token that waits the block stays in progress. -/
theorem movePage_wait (hwait : (s.moveTokens n i x fs fd (stop - x.next)).2.2 = .wait) :
    s.movePage n i x = (s.moveTokens n i x fs fd (stop - x.next)).1.setDma n i
      (some { x with next := x.next + (s.moveTokens n i x fs fd (stop - x.next)).2.1 }) := by
  have hleft : x.next + (s.moveTokens n i x fs fd (stop - x.next)).2.1 < stop := by
    have := (s.moveTokens_count n i x fs fd (stop - x.next)).2 hwait
    omega
  simp [State.movePage, hpage, hwait, hleft]

/-- Behind the last token of a block the next block's translation is asked for. -/
theorem movePage_done {cs bs : List Nat} (hok : (s.moveTokens n i x fs fd (stop - x.next)).2.2 = .ok cs bs) :
    let y := { x with next := x.next + (stop - x.next), page := none }
    s.movePage n i x = ((s.moveTokens n i x fs fd (stop - x.next)).1.setDma n i (some y)).askPage n i y := by
  have hall : (s.moveTokens n i x fs fd (stop - x.next)).2.1 = stop - x.next := (s.moveTokens_count n i x fs fd _).1 cs bs hok
  have hdone : ¬ x.next + (stop - x.next) < stop := by omega
  simp [State.movePage, hpage, hok, hall, hdone]

end

/-- What a paged side's translation faults with: a token at or beyond LEN, or without a page (09 R211). -/
theorem State.translate_beyond {s : State} {d : Desc} {adj : Int} {x1 len : Nat} {wr : Bool}
    (h : (s.seqAt d.seq).isOpen = false ∨ (s.seqAt d.seq).len.toNat < tokenOf d adj x1 + len ∨
      (s.seqAt d.seq).page d.layer (tokenOf d adj x1 / 64) = none) : s.translate d adj x1 len wr = .error cAttBeyondLen := by
  unfold tokenOf at h
  unfold State.translate
  dsimp only
  split
  · rfl
  · rename_i hinside
    have hpage : (s.seqAt d.seq).page d.layer ((((d.base % 2 ^ 32 : Nat) : Int) + adj + x1).toNat / 64) = none := by
      rcases h with hclosed | hlong | hnone
      · exact absurd (.inl (by rw [hclosed]; rfl)) hinside
      · exact absurd (.inr (.inl hlong)) hinside
      · exact hnone
    rw [hpage]

/-- The frame of a token's page, unless it is to be written and is shared (09 R211). -/
theorem State.translate_page {s : State} {d : Desc} {adj : Int} {x1 len f : Nat} {e : PFrame} (wr : Bool)
    (hopen : (s.seqAt d.seq).isOpen = true) (hlen : tokenOf d adj x1 + len ≤ (s.seqAt d.seq).len.toNat)
    (hlayer : d.layer < (s.seqAt d.seq).layers.toNat) (hpage : (s.seqAt d.seq).page d.layer (tokenOf d adj x1 / 64) = some f)
    (hframe : s.frame (tokenOf d adj x1 / 64 % 8) f = some e) :
    s.translate d adj x1 len wr =
      if wr = true ∧ 1 < e.refs then .error cAttPageShared else .ok (tokenOf d adj x1 / 64 % 8, f) := by
  unfold tokenOf at *
  simp only [State.translate, hopen, Nat.not_lt.mpr hlen, Nat.not_le.mpr hlayer, hpage, hframe, Bool.not_true, Bool.false_eq_true, or_self,
    if_false, Bool.and_eq_true, decide_eq_true_eq]

/-- Settles O23: the end of a channel, then a paged side by whether its block is still to be obtained or in progress, then translation. -/
theorem dmaCompletes : Obligations.DmaCompletes := by
  unfold Obligations.DmaCompletes
  refine ⟨?_, ?_, ?_, ?_, ?_⟩
  · intro s core ch x hch hgoes hdone hclock
    exact congrArg Host.Outcome.next (dmaComplete_of_done hch hgoes hdone hclock)
  · intro s core ch hclock
    exact ⟨congrArg Host.Outcome.next (dmaComplete_of_unclocked _ hclock), congrArg Host.Outcome.next (pagedTranslation_of_unclocked _ hclock)⟩
  · intro s core ch x a n len u hch hgoes hleft hpaged hclock hpage hfind
    have hmove : s.PagedMove n ch.toNat x := ⟨hch, hgoes, hleft, hpaged, hclock⟩
    refine ⟨fun e hkind hsrc => ?_, fun fs hsrc => ⟨fun e hkind hdst => ?_, fun fd hdst => ?_⟩⟩
    · exact congrArg Host.Outcome.next (hmove.stops hpage (servePage_source hfind ((if_pos hkind).trans hsrc)))
    · exact congrArg Host.Outcome.next (hmove.stops hpage (servePage_dest hfind hsrc ((if_pos hkind).trans hdst)))
    · have hmoves := hmove.obtains hpage (servePage_both hfind hsrc hdst) (State.dmaCh_setDma _ n ch.toNat _)
      exact congrArg Host.Outcome.next (hmoves.trans (if_neg (by simp [hgoes])))
  · intro s core ch x fs fd stop n m hch hgoes hleft hpaged hclock hpage
    have hmove : s.PagedMove n ch.toNat x := ⟨hch, hgoes, hleft, hpaged, hclock⟩
    have hexec : exec (.pagedTranslation core ch) s = .next (s.movePage n ch.toNat x) :=
      congrArg Host.Outcome.next (hmove.moves (hpage ▸ rfl))
    rw [hexec]
    refine ⟨fun code ma hfault => ?_, fun hwait => ?_, fun cs bs hok => ?_⟩
    · obtain ⟨y, hnext, hqueue, hidx, hcmd, hstops⟩ := movePage_fault hpage hfault
      exact ⟨y, hnext, hqueue, hidx, hcmd, congrArg Host.Outcome.next hstops⟩
    · exact congrArg Host.Outcome.next (movePage_wait hpage hwait)
    · exact congrArg Host.Outcome.next (movePage_done hpage hok)
  · intro s d adj x1 len wr t c
    exact ⟨State.translate_beyond, fun f e hopen hlen hlayer hpage hframe => State.translate_page wr hopen hlen hlayer hpage hframe⟩

end Sys2Proof.Machine
end

section
/-! PROOFS. O24, O29: how the commands of the bank units and of attention are accepted at the head of a queue (08 R191, R192; 09 R205, R206). -/

namespace Sys2Proof.Machine

/-! ### BANK -/

/-- The channels a BANK command names in each reservoir, those reservoirs, and where its status record goes (08 R191). -/
def bankChans (c : Cmd) : Nat := wordOf c 1 >>> 32
/-- Its reservoirs. -/
def bankRsvs (c : Cmd) : Nat := bitsOf (wordOf c 1) 24 8
/-- Its status address. -/
def bankStatus (c : Cmd) : Nat := wordOf c 2 % 2 ^ 48
/-- Whether it names a vector. -/
def bankVec (c : Cmd) : Bool := (wordOf c 2).testBit 63
/-- The handles it names, with the kinds each may be: its vector's first. -/
def bankHandles (c : Cmd) : List (Nat × List Nat) :=
  (if bankVec c then [(bitsOf (wordOf c 1) 12 12, [0])] else []) ++ [(bitsOf (wordOf c 1) 0 12, [0])]

/-- The image of a BANK command read, as the access of its queue, by the lowest of its reservoirs (08 R192). -/
def State.bankImage (s : State) (n q p : Nat) (c : Cmd) (prog : Desc) : State × AccRes :=
  s.track (.bankImage n q) AccRes.isWait fun u =>
    u.readMA (.bankImage n q) (rsvMaster ((onesOf 8 (bankRsvs c)).headD 0) (some p)) prog.base (prog.ext 0)

/-- The words of an image. -/
def imageWords (bs : List Byte) : List DWord :=
  (List.range (bs.length / 8)).map fun i => BitVec.ofNat 64 (leNat ((bs.drop (8 * i)).take 8))

section
variable {s : State} {n q : Nat} {c : Cmd}

/-- Masks that name nothing, or a status address that is not aligned, are refused (08 R191). -/
theorem cmdBank_of_illegal (hbad : bankChans c = 0 ∨ bankRsvs c = 0 ∨ bankStatus c % 64 ≠ 0) :
    cmdBank s n q c = s.refuseCmd n q c cQueBadCommand 0 := if_pos hbad

variable (hbody : ¬(bankChans c = 0 ∨ bankRsvs c = 0 ∨ bankStatus c % 64 ≠ 0))
include hbody

/-- Without a reservoir it names, or without the compute licence, its engine is absent (05 R125). -/
theorem cmdBank_of_absent (habsent : (∃ k ∈ onesOf 8 (bankRsvs c), s.rsvFused k = true) ∨ s.licCompute = false) :
    ∃ d, cmdBank s n q c = s.refuseCmd n q c cQueEngineAbsent d := by
  have hany : ((onesOf 8 (bankRsvs c)).any s.rsvFused || !s.licCompute) = true := by
    rcases habsent with ⟨k, hk, hfused⟩ | hlic
    · simp [List.any_eq_true.mpr ⟨k, hk, hfused⟩]
    · simp [hlic]
  exact ⟨_, (if_neg hbody).trans (if_pos hany)⟩

variable (hpresent : ((onesOf 8 (bankRsvs c)).any s.rsvFused || !s.licCompute) = false)
include hpresent

/-- With its stage closed or a staging full it waits (08 R192; 16 R364). -/
theorem cmdBank_of_busy (hbusy : s.gateOpen n = false ∨ ∃ k ∈ onesOf 8 (bankRsvs c), 16 ≤ s.staged k) :
    cmdBank s n q c = s.waitEngine n q := by
  have hwaits : !s.gateOpen n ∨ (onesOf 8 (bankRsvs c)).any fun k => decide (16 ≤ s.staged k) := by
    simpa [List.any_eq_true] using hbusy
  exact (if_neg hbody).trans ((if_neg (ne_true_of_eq_false hpresent)).trans (if_pos hwaits))

end

/-- A BANK command of partition `p` that passes every check before those of its channels, with the descriptors it names (08 R191, R192). -/
structure State.BankChecked (s : State) (n p : Nat) (c : Cmd) (prog vec : Desc) : Prop where
  body : ¬(bankChans c = 0 ∨ bankRsvs c = 0 ∨ bankStatus c % 64 ≠ 0)
  present : ((onesOf 8 (bankRsvs c)).any s.rsvFused || !s.licCompute) = false
  gate : s.gateOpen n = true
  room : ∀ k ∈ onesOf 8 (bankRsvs c), s.staged k < 16
  part : s.partOf n = some p
  read : (s.useDescs n (bankHandles c)).2.2 = none
  progRead : (s.useDescs n (bankHandles c)).2.1.getLast?.getD 0 = prog
  vecRead : (s.useDescs n (bankHandles c)).2.1.headD 0 = vec
  vecShape : bankVec c = true → vec.ndim = 1 ∧ vec.fmt = some .l8 ∧ vec.ext 0 ≤ 131072
  progShape : prog.ndim = 1 ∧ prog.fmt = some .int8 ∧ prog.ext 0 % 8 = 0 ∧ prog.ext 0 ≤ 4096

/-- The launch of an accepted BANK command: ordered nowhere yet, its vector still to be fetched (08 R192). -/
def bankLaunch (n q p idx : Nat) (c : Cmd) (vec : Desc) (img : List DWord) : Launch :=
  { kind := .bank, core := n, queue := q, idx := idx, part := p, image := img, chMask := BitVec.ofNat 32 (bankChans c),
    rsvMask := BitVec.ofNat 8 (bankRsvs c), statusMA := bankStatus c, arg0 := BitVec.ofNat 32 (wordOf c 3),
    arg1 := BitVec.ofNat 32 (wordOf c 3 >>> 32), vec := if bankVec c then some (vec.base, vec.ext 0) else none, vecs := [], ordered := 0,
    left := [], units := [], fault := none, runNs := 0, tainted := 0, pauses := 0, flags := {} }

/-- The channels of a BANK command outside its partition's set: the first. -/
def State.bankDenied (u : State) (p : Nat) (c : Cmd) : Option (Nat × Nat) :=
  firstChannel (bankRsvs c) (bankChans c) fun k ch => !(u.chsetOf k p).testBit ch
/-- The channels of a BANK command that are retired or not active: the first. -/
def State.bankRetired (u : State) (c : Cmd) : Option (Nat × Nat) :=
  firstChannel (bankRsvs c) (bankChans c) fun k ch => (u.chan k ch).st != .active || !(u.activeCh k).testBit ch

/-- What becomes of a checked BANK command: a channel outside the partition's set refuses it; else its image is read, and a legal one
launches (08 R192). -/
theorem State.BankChecked.accepts {s : State} {n p : Nat} {c : Cmd} {prog vec : Desc} (h : s.BankChecked n p c prog vec) (q : Nat) :
    let u := (s.useDescs n (bankHandles c)).1
    let im := u.bankImage n q p c prog
    let v := im.1.launchCmd n q c
    let idx := (im.1.queue n q).ptr.toNat
    (∀ x, u.bankDenied p c = some x → cmdBank s n q c = u.refuseCmd n q c cRsvChannelDenied (bankDetail x.1 x.2 0 0)) ∧
    (u.bankDenied p c = none → u.bankRetired c = none →
      (im.2 = .wait → cmdBank s n q c = im.1) ∧
      (∀ code ma, im.2 = .fault code ma → cmdBank s n q c = v.faultCmd n q idx { code := code }) ∧
      (∀ bs, im.2 = .ok bs →
        (∀ i, imageBad (imageWords bs) = some i → cmdBank s n q c = im.1.refuseCmd n q c cRsvBankIllegal (bankDetail 0 0 0 i)) ∧
        (imageBad (imageWords bs) = none →
          cmdBank s n q c = { v with launchNo := v.launchNo + 1 }.setLaunch v.launchNo (bankLaunch n q p idx c vec (imageWords bs))))) := by
  obtain ⟨hbody, hpresent, hgate, hroom, hpart, hread, hprog, hvecRead, hvec, hndim, hfmt, hmod, hext⟩ := h
  have hstaged : ((onesOf 8 (bankRsvs c)).any fun k => decide (16 ≤ s.staged k)) = false := by
    simpa [List.any_eq_false] using hroom
  have hvecOk : (bankVec c && (vec.ndim != 1 || vec.fmt != some .l8 || decide (131072 < vec.ext 0))) = false := by
    cases hv : bankVec c with
    | false => rfl
    | true =>
      obtain ⟨hvdim, hvfmt, hvext⟩ := hvec hv
      simp [hvdim, hvfmt, hvext]
  unfold State.bankImage State.bankDenied State.bankRetired bankLaunch imageWords
  unfold bankHandles bankVec bankRsvs bankChans bankStatus at *
  unfold cmdBank
  simp only [hbody, hpresent, hgate, hstaged, hpart, hread, hprog, hvecRead, hvecOk, hndim, hfmt, hmod, Nat.not_lt.mpr hext,
    bne_self_eq_false, Bool.not_true, Bool.false_eq_true, or_self, Bool.or_self, if_false, decide_false]
  refine ⟨fun x hx => ?_, fun hallowed hactive => ⟨fun hwait => ?_, fun code ma hfault => ?_, fun bs hok => ⟨fun i hi => ?_, fun hgood => ?_⟩⟩⟩
  · simp only [hx]
  · simp only [hallowed, hactive, hwait]
  · simp only [hallowed, hactive, hfault]
  · simp only [hallowed, hactive, hok, hi]
  · simp only [hallowed, hactive, hok, hgood]

/-- Settles O24: the checks before the channels' in their order, then what becomes of a checked command (`State.BankChecked.accepts`). -/
theorem bankAccepts : Obligations.BankAccepts := by
  unfold Obligations.BankAccepts
  intro s core q c p n w1 w2 cm rm sma vecEn ds prog vec hhead hfence hop
  have hrow : exec (.bank core q) s = .next (cmdBank s n q.toNat c) :=
    congrArg Host.Outcome.next (State.withHead_of_op hhead hfence hop rfl)
  rw [hrow]
  have hlegal : cm ≠ 0 → rm ≠ 0 → sma % 64 = 0 → ¬(bankChans c = 0 ∨ bankRsvs c = 0 ∨ bankStatus c % 64 ≠ 0) :=
    fun hcm hrm hsma => not_or.mpr ⟨hcm, not_or.mpr ⟨hrm, not_not.mpr hsma⟩⟩
  refine ⟨fun hbad => congrArg Host.Outcome.next (cmdBank_of_illegal hbad), fun hcm hrm hsma habsent => ?_, fun hcm hrm hsma hrsvs hlic => ?_⟩
  · obtain ⟨d, hd⟩ := cmdBank_of_absent (q := q.toNat) (hlegal hcm hrm hsma) habsent
    exact ⟨d, congrArg Host.Outcome.next hd⟩
  have hbody := hlegal hcm hrm hsma
  have hpresent : ((onesOf 8 (bankRsvs c)).any s.rsvFused || !s.licCompute) = false := by
    rw [hlic, Bool.not_true, Bool.or_false, List.any_eq_false]
    exact fun k hk => ne_true_of_eq_false (hrsvs k hk)
  refine ⟨fun hbusy => congrArg Host.Outcome.next (cmdBank_of_busy hbody hpresent hbusy), ?_⟩
  intro hgate hroom hpart hread hvec hndim hfmt hmod hext
  have hchecked : s.BankChecked n p c prog vec :=
    ⟨hbody, hpresent, hgate, hroom, hpart, hread, rfl, rfl, hvec, hndim, hfmt, hmod, hext⟩
  obtain ⟨hdenied, hallowed⟩ := hchecked.accepts q.toNat
  refine ⟨fun x hx => congrArg Host.Outcome.next (hdenied x hx), fun hset hactive => ?_⟩
  obtain ⟨hwaits, hfaults, hreads⟩ := hallowed hset hactive
  refine ⟨fun hwait => congrArg Host.Outcome.next (hwaits hwait), fun code ma hfault => congrArg Host.Outcome.next (hfaults code ma hfault),
    fun bs hok => ?_⟩
  obtain ⟨hbad, hgood⟩ := hreads bs hok
  exact ⟨fun i hi => congrArg Host.Outcome.next (hbad i hi), fun hnone => congrArg Host.Outcome.next (hgood hnone)⟩

/-! ### ATT -/

/-- The rows of Table ATT-1, each with its operation. -/
theorem exec_attRow {p : Nat × (CoreId → QueueId → Bool → Instr)} (hp : p ∈ attRows) (s : State) (core : CoreId) (q : QueueId) :
    exec (p.2 core q true) s = .next (s.withHead core.toNat q.toNat 4 fun s c => cmdAtt p.1 s core.toNat q.toNat c) := by
  simp only [attRows, List.mem_cons, List.not_mem_nil, or_false] at hp
  rcases hp with rfl | rfl | rfl | rfl | rfl | rfl | rfl | rfl | rfl <;> rfl

/-- The handles an ATT command of an operation names: those of a read's descriptors (09 R212, R214). -/
def attHandles (aop : Nat) (c : Cmd) : List (Nat × List Nat) :=
  if aop = 8 ∨ aop = 9 then [(bitsOf (wordOf c 1) 0 12, [0]), (bitsOf (wordOf c 1) 12 12, [0])] else []

/-- An operation that is no read needs no engine; a read's is there with the licence and every stripe's reservoir (05 R125). -/
theorem attEngine_of_present {aop : Nat} {s : State}
    (h : aop = 8 ∨ aop = 9 → s.licCompute = true ∧ (List.range 8).any s.rsvFused = false) :
    ((aop == 8 || aop == 9) && (!s.licCompute || (List.range 8).any s.rsvFused)) = false := by
  by_cases hreads : aop = 8 ∨ aop = 9
  · simp only [h hreads, Bool.not_true, Bool.or_self, Bool.and_false]
  · have hno : (aop == 8 || aop == 9) = false := by simpa using hreads
    rw [hno, Bool.false_and]

section
variable {aop : Nat} {s : State} {n q k : Nat} {c : Cmd}

/-- An illegal body is refused, whichever row meets it (09 R205). -/
theorem cmdAtt_of_illegal (hbad : attLegal c = false) : cmdAtt aop s n q c = s.refuseCmd n q c cQueBadCommand 0 := by
  simp [cmdAtt, hbad]

variable (hlegal : attLegal c = true) (hop : c.aop = aop)
include hlegal hop

/-- A read without the licence, or without a stripe's reservoir, finds its engine absent (05 R125). -/
theorem cmdAtt_of_absent (hreads : aop = 8 ∨ aop = 9) (habsent : s.licCompute = false ∨ (List.range 8).any s.rsvFused = true) :
    ∃ d, cmdAtt aop s n q c = s.refuseCmd n q c cQueEngineAbsent d := by
  have hgone : ((aop == 8 || aop == 9) && (!s.licCompute || (List.range 8).any s.rsvFused)) = true := by
    simpa using ⟨hreads, by simpa using habsent⟩
  simp only [cmdAtt, hlegal, hop, hgone, ne_eq, not_true_eq_false, Bool.not_true, Bool.false_eq_true, if_false, if_true]
  exact ⟨_, rfl⟩

variable (hengine : aop = 8 ∨ aop = 9 → s.licCompute = true ∧ (List.range 8).any s.rsvFused = false) (hpart : s.partOf n = some k)
include hengine hpart

/-- With its stage closed, or 64 commands of its partition at its home walker, it waits (09 R206; 16 R364). -/
theorem cmdAtt_of_busy (hbusy : s.gateOpen n = false ∨ 64 ≤ s.attHeld k (s.attHome k c)) : cmdAtt aop s n q c = s.waitEngine n q := by
  have hthere := attEngine_of_present hengine
  simp only [cmdAtt, hlegal, hop, hthere, hpart, ne_eq, not_true_eq_false, Bool.not_true, Bool.false_eq_true, if_false]
  by_cases hgate : s.gateOpen n = true
  · simp [hgate, hbusy.resolve_left (by simp [hgate])]
  · simp [hgate]

/-- Else it is issued, and stands at the end of its walker's order (09 R206). -/
theorem cmdAtt_of_ready (hgate : s.gateOpen n = true) (hroom : s.attHeld k (s.attHome k c) < 64)
    (hdescs : (s.useDescs n (attHandles aop c)).2.2 = none) :
    let ds := s.useDescs n (attHandles aop c)
    cmdAtt aop s n q c = { ds.1.launchCmd n q c with
      att := (ds.1.launchCmd n q c).att ++
        [{ core := n, queue := q, idx := (ds.1.queue n q).ptr.toNat, part := k, cmd := c, ha := ds.2.1.getD 0 0, hb := ds.2.1.getD 1 0 }] } := by
  have hthere := attEngine_of_present hengine
  have hhandles : (if (aop == 8 || aop == 9) = true then [(bitsOf (wordOf c 1) 0 12, [0]), (bitsOf (wordOf c 1) 12 12, [0])] else []) =
      attHandles aop c := by
    simp [attHandles]
  simp only [cmdAtt, hlegal, hop, hthere, hhandles, hpart, hgate, Nat.not_le.mpr hroom, hdescs, ne_eq, not_true_eq_false, Bool.not_true,
    Bool.false_eq_true, if_false]

end

/-- Settles O29: every row is one acceptance, which refuses, waits or appends to its walker's order. -/
theorem attAccepts : Obligations.AttAccepts := by
  unfold Obligations.AttAccepts
  intro p hp s core q c k n reads ds hhead hfence hop
  have hrow : exec (p.2 core q true) s = .next (cmdAtt p.1 s n q.toNat c) :=
    (exec_attRow hp s core q).trans (congrArg Host.Outcome.next (State.withHead_of_op hhead hfence hop rfl))
  rw [hrow]
  refine ⟨fun hbad => congrArg Host.Outcome.next (cmdAtt_of_illegal hbad), fun hlegal haop => ⟨fun hreads habsent => ?_, ?_⟩⟩
  · obtain ⟨d, hd⟩ := cmdAtt_of_absent (n := n) (q := q.toNat) hlegal haop hreads habsent
    exact ⟨d, congrArg Host.Outcome.next hd⟩
  · intro hengine hpart
    exact ⟨fun hbusy => congrArg Host.Outcome.next (cmdAtt_of_busy hlegal haop hengine hpart hbusy),
      fun hgate hroom hdescs => congrArg Host.Outcome.next (cmdAtt_of_ready hlegal haop hengine hpart hgate hroom hdescs)⟩

end Sys2Proof.Machine
end

section
/-! PROOFS. O48: what the WCS commands that query and set answer (13 R297, Table HST-4; 05 R111, R120; 10 R229; 11 R242, R248; 12 R278;
14 R318, R322, R323). -/

namespace Sys2Proof.Machine

/-! ### A command that starts -/

theorem State.partExists_startCmd (s : State) (c : WcsCmd) (p : Nat) : (s.startCmd c).partExists p = s.partExists p := by
  unfold State.startCmd
  dsimp only
  split <;> rfl

section
variable {s t : State} {sq : BitVec 4} {cid : BitVec 16} {opc : Nat} {c : WcsCmd} {f : State → WcsCmd → Option State} {p : Bool} {i : Instr}
  (h : s.Starts sq cid opc c t) (hrow : exec i s = .next (s.wcsRow sq.toNat cid.toNat opc p f))
include h hrow

/-- A row that answers a command started in its turn answers with what the command does. -/
theorem State.Starts.answers {u : State} (hpart : p = true → t.partExists c.part = true) (hdoes : f t c = some u) : rowAnswers i s u := by
  obtain ⟨hfound, ⟨hstage, -⟩, hop, hturn, hserved, rfl⟩ := h
  have hthere : (p && !s.partExists c.part) = false := by
    cases p with
    | false => rfl
    | true => rw [← s.partExists_startCmd c, hpart rfl]; rfl
  refine hrow.trans (congrArg Host.Outcome.next ?_)
  unfold State.wcsRow
  simp only [hfound, hstage, hop, hturn, hserved, hthere, hdoes, ne_eq, not_true_eq_false, Bool.not_true, Bool.false_eq_true,
    Option.isSome_none, or_self, and_false, if_false, if_true]

/-- A partition that does not exist completes its command with NO_SUCH_PARTITION (13 R297). -/
theorem State.Starts.refuses (hp : p = true) (hpart : t.partExists c.part = false) : rowAnswers i s (t.ends c stNoPart) := by
  obtain ⟨hfound, ⟨hstage, -⟩, hop, hturn, hserved, rfl⟩ := h
  have hgone : (p && !s.partExists c.part) = true := by rw [hp, ← s.partExists_startCmd c, hpart]; rfl
  refine hrow.trans (congrArg Host.Outcome.next ?_)
  unfold State.wcsRow
  simp only [hfound, hstage, hop, hturn, hserved, hgone, ne_eq, not_true_eq_false, Bool.not_true, Bool.false_eq_true,
    Option.isSome_none, or_self, and_false, if_false, if_true]

end

/-- A command whose writes are not all done is taken up again by its row. -/
theorem wcsRow_of_resumed {s u : State} {sq cid opc : Nat} {c : WcsCmd} {f : State → WcsCmd → Option State} {p : Bool}
    (hfound : (s.host.taken.find? fun c => c.sq == sq && c.cid == cid && (c.stage == 0 || (c.stage == 1 && c.todo.isSome))) = some c)
    (hstage : c.stage = 1) (hop : c.opc = opc) (hpart : s.partExists c.part = true) (hdoes : f s c = some u) :
    s.wcsRow sq cid opc p f = u.refuseCmds := by
  unfold State.wcsRow
  simp only [hfound, hstage, hop, hpart, hdoes, ne_eq, not_true_eq_false, one_ne_zero, false_and, or_self, if_false, Bool.not_true,
    Bool.and_false, Bool.false_eq_true]

/-! ### Parameters (14 R318, Table WHD-6) -/

/-- A cap formed anew leaves parameters, flash, memory and the host alone. -/
theorem State.refreshCap_keeps (s : State) : s.refreshCap.params = s.params ∧ s.refreshCap.flash = s.flash ∧ s.refreshCap.mem = s.mem ∧
    s.refreshCap.host = s.host := by
  unfold State.refreshCap
  dsimp only
  split
  · exact ⟨rfl, rfl, rfl, rfl⟩
  · split <;> exact ⟨rfl, rfl, rfl, rfl⟩

/-- A cap formed anew is the one the rules give (16 R363). -/
theorem State.refreshCap_capW (s : State) : s.refreshCap.thm.capW = BitVec.ofNat 16 s.refreshCap.capNow := by
  unfold State.refreshCap
  dsimp only
  split
  · rename_i hsame
    rw [hsame, BitVec.ofNat_toNat, BitVec.setWidth_eq]
  · split <;> rfl

/-- The skim period written leaves parameters, flash, memory and the host alone. -/
theorem State.putSkim_keeps (s : State) (v : Nat) : (s.putSkim v).params = s.params ∧ (s.putSkim v).flash = s.flash ∧
    (s.putSkim v).mem = s.mem ∧ (s.putSkim v).host = s.host := by
  unfold State.putSkim
  refine foldl_keeps (fun u : State => u.params = s.params ∧ u.flash = s.flash ∧ u.mem = s.mem ∧ u.host = s.host) _
    (fun u k h => ?_) _ s ⟨rfl, rfl, rfl, rfl⟩
  exact h

/-- A parameter stored under its key, a persistent one in flash too (14 R307, R318). -/
def State.storeParam (s : State) (key k v : Nat) : State :=
  let u := { s with params := Map.set none s.params k (some (BitVec.ofNat 64 v)) }
  if key = 0x10 ∨ key = 0x11 then { u with flash := { u.flash with params := Map.set none u.flash.params k (some (BitVec.ofNat 64 v)) } } else u

/-- A parameter stored is in the store, a persistent one in flash, and memory and the host are as they were. -/
theorem State.storeParam_stores (s : State) (key k v : Nat) :
    Map.get none (s.storeParam key k v).params k = some (BitVec.ofNat 64 v) ∧
      ((key = 0x10 ∨ key = 0x11) → Map.get none (s.storeParam key k v).flash.params k = some (BitVec.ofNat 64 v)) ∧
      (s.storeParam key k v).mem = s.mem ∧ (s.storeParam key k v).host = s.host := by
  unfold State.storeParam
  dsimp only
  split
  · simp
  · rename_i htransient
    exact ⟨by simp, fun h => absurd h htransient, rfl, rfl⟩

/-- What a stored parameter brings about. -/
def State.applyParam (s : State) (key v : Nat) : State :=
  if key = 0x10 then s.refreshCap else if key = 0x11 then s.putSkim v else s.takeTargets

theorem State.applyParam_keeps (s : State) (key v : Nat) : (s.applyParam key v).params = s.params ∧ (s.applyParam key v).flash = s.flash ∧
    (s.applyParam key v).mem = s.mem ∧ (s.applyParam key v).host = s.host := by
  unfold State.applyParam
  split
  · exact s.refreshCap_keeps
  · split
    · exact s.putSkim_keeps v
    · exact ⟨rfl, rfl, rfl, rfl⟩

section
variable {t : State} {c : WcsCmd} {old : Nat} (hvalue : t.paramValue (c.arg 0 % 2 ^ 32) (bitsOf (c.arg 0) 32 5) = some old)
include hvalue

theorem cmdSetParam_of_bad (hbad : t.paramOk (c.arg 0 % 2 ^ 32) (bitsOf (c.arg 0) 32 5) (c.arg 1) = false) :
    cmdSetParam t c = some (t.ends c stBadArg) := by
  simp only [cmdSetParam, hvalue, hbad, Bool.not_false, if_true]

variable (hok : t.paramOk (c.arg 0 % 2 ^ 32) (bitsOf (c.arg 0) 32 5) (c.arg 1) = true)
include hok

/-- A persistent key is not written outside the temperature range of flash (14 R307). -/
theorem cmdSetParam_of_cold (hkeep : c.arg 0 % 2 ^ 32 = 0x10 ∨ c.arg 0 % 2 ^ 32 = 0x11) (htemp : t.flashTemp = false) :
    cmdSetParam t c = some (t.ends c stTempForbidden) := by
  simp only [cmdSetParam, hvalue, hok, hkeep, htemp, Bool.not_true, Bool.not_false, Bool.false_eq_true, and_self, if_false, if_true]

/-- A legal value is stored and takes effect (14 R318). -/
theorem cmdSetParam_of_good (htemp : c.arg 0 % 2 ^ 32 = 0x10 ∨ c.arg 0 % 2 ^ 32 = 0x11 → t.flashTemp = true) :
    cmdSetParam t c = some (((t.storeParam (c.arg 0 % 2 ^ 32) (c.arg 0 % 2 ^ 32 + bitsOf (c.arg 0) 32 5 * 2 ^ 32) (c.arg 1)).applyParam
      (c.arg 0 % 2 ^ 32) (c.arg 1)).ok c [] (if c.arg 1 = old then [] else
        [c.audit 0x01 (c.arg 0 % 2 ^ 32 + bitsOf (c.arg 0) 32 5 * 2 ^ 32) old (c.arg 1)])) := by
  have hwarm : ¬((c.arg 0 % 2 ^ 32 = 0x10 ∨ c.arg 0 % 2 ^ 32 = 0x11) ∧ (!t.flashTemp) = true) := fun h => by
    simp [htemp h.1] at h
  simp only [cmdSetParam, hvalue, hok, hwarm, Bool.not_true, Bool.false_eq_true, if_false]
  rfl

end

/-! ### Shares, descriptors and writes to module memory (05 R110, R111; 10 R229) -/

/-- Whether SET_SHARES names an element that is fused off (05 R125). -/
def State.sharesGone (s : State) (k m : Nat) : Bool :=
  (decide (42 ≤ k) && decide (k < 62) && s.portFused (k - 42)) || (decide (42 ≤ m) && decide (m < 62) && s.portFused (m - 42)) ||
    (decide (10 ≤ k) && decide (k < 42) && s.fuses.clusterOff.toNat.testBit (k - 10)) ||
    (decide (m < 32) && s.fuses.clusterOff.toNat.testBit m)

theorem State.sharesGone_iff (s : State) (k m : Nat) : s.sharesGone k m = true ↔
    (42 ≤ k ∧ k < 62 ∧ s.portFused (k - 42) = true) ∨ (42 ≤ m ∧ m < 62 ∧ s.portFused (m - 42) = true) ∨
      (10 ≤ k ∧ k < 42 ∧ s.fuses.clusterOff.toNat.testBit (k - 10) = true) ∨ (m < 32 ∧ s.fuses.clusterOff.toNat.testBit m = true) := by
  simp only [State.sharesGone, Bool.or_eq_true, Bool.and_eq_true, decide_eq_true_eq, or_assoc, and_assoc]

/-- The guarantees of a target's other masters. -/
def State.guarsBut (s : State) (k m : Nat) : Nat := ((List.range 64).map fun i => if i = m then 0 else (s.acct k i).guar.toNat).sum

/-- SET_SHARES of a target and a master (10 R229). -/
theorem cmdSetShares_eq (t : State) (c : WcsCmd) :
    let k := c.arg 0 % 64
    let m := bitsOf (c.arg 0) 8 6
    let g := c.arg 1 % 2 ^ 11
    let w := bitsOf (c.arg 1) 16 8
    ∃ l, cmdSetShares t c = some (
      if 62 < k ∨ 1024 < g then t.ends c stBadArg
      else if t.sharesGone k m then t.ends c stEngineAbsent
      else if 1024 < t.guarsBut k m + g ∨ (g = 0 ∧ w = 0 ∧ t.mayReach k m) then t.ends c stShareOver
      else (t.setAcct k m { t.acct k m with guar := BitVec.ofNat 11 g, weight := BitVec.ofNat 8 w }).ok c [] l) := by
  intro k m g w
  refine ⟨if (t.acct k m).guar.toNat + (t.acct k m).weight.toNat * 2 ^ 16 = g + w * 2 ^ 16 then [] else
    [c.audit 0x04 (k * 2 ^ 8 + m) ((t.acct k m).guar.toNat + (t.acct k m).weight.toNat * 2 ^ 16) (g + w * 2 ^ 16)], ?_⟩
  simp only [apply_ite some]
  rfl

/-- The writes of a command to module memory, as its access. -/
def State.storeAccess (s : State) (c : WcsCmd) (ws : List (Nat × List Byte)) : State × List AccRes :=
  s.track (.wcs c.sq c.cid) (fun l => l.any AccRes.isWait) fun u => u.whWrites (.wcs c.sq c.cid) ws

/-- With every write done the command goes on. -/
theorem State.storing_of_done {s : State} {c : WcsCmd} {ws : List (Nat × List Byte)} (n : Nat) (fin : State → State)
    (hdone : ∀ x ∈ (s.storeAccess c ws).2, ∃ b, x = .ok b) : s.storing c n ws fin = fin (s.storeAccess c ws).1 := by
  have hgoes : (s.storeAccess c ws).2.any AccRes.isWait = false := by
    rw [List.any_eq_false]
    intro x hx
    obtain ⟨b, rfl⟩ := hdone x hx
    simp [AccRes.isWait]
  refine (if_neg (ne_true_of_eq_false hgoes)).trans (congrArg fin ?_)
  refine List.foldlRecOn (s.storeAccess c ws).2 _ (motive := fun u => u = (s.storeAccess c ws).1) rfl fun u hu x hx => ?_
  obtain ⟨b, rfl⟩ := hdone x hx
  exact hu

/-- With a write that waits what is to be written is kept with the command. -/
theorem State.storing_of_wait {s : State} {c : WcsCmd} {ws : List (Nat × List Byte)} (n : Nat) (fin : State → State)
    (hwait : ∃ x ∈ (s.storeAccess c ws).2, x = .wait) :
    (s.storing c n ws fin).mem = (s.storeAccess c ws).1.mem ∧ (s.storing c n ws fin).reqs = (s.storeAccess c ws).1.reqs ∧
      ∀ x ∈ (s.storing c n ws fin).host.taken, x.sq = c.sq → x.cid = c.cid → x.stage = 1 → x.todo = some (n, ws) := by
  obtain ⟨x, hx, rfl⟩ := hwait
  have hheld : (s.storeAccess c ws).2.any AccRes.isWait = true := List.any_eq_true.mpr ⟨_, hx, rfl⟩
  have hkept : s.storing c n ws fin = _ := if_pos hheld
  rw [hkept]
  refine ⟨rfl, rfl, fun y hy hsq hcid hstage => ?_⟩
  obtain ⟨z, -, rfl⟩ := List.mem_map.mp hy
  split
  · rfl
  · rename_i hother
    rw [if_neg hother] at hsq hcid hstage
    exact absurd ⟨hsq, hcid, hstage⟩ hother

/-- DESC_WRITE of descriptors outside the table is a BAD_ARGUMENT; of data of their length it stores them (05 R110, R111). -/
theorem cmdDescWrite_of_fresh {t : State} {c : WcsCmd} (hfresh : c.todo = none) :
    (∀ d, (4096 ≤ c.low 0 ∨ 4096 < c.low 0 + c.low 1) → cmdDescWrite d t c = some (t.ends c stBadArg)) ∧
    ∀ bs : List Byte, c.low 0 < 4096 → c.low 0 + c.low 1 ≤ 4096 → bs.length = 128 * c.low 1 → cmdDescWrite (.ok bs) t c = some
      (t.storing c 0 [((t.part c.part).desc.toNat + 128 * c.low 0, bs)] fun u =>
        (u.dropDescs c.part fun i => decide (c.low 0 ≤ i) && decide (i < c.low 0 + c.low 1)).ok c) := by
  unfold cmdDescWrite
  refine ⟨fun d hbad => ?_, fun bs hlow hfits hlen => ?_⟩
  · simp only [hfresh, hbad, if_true]
  · have hgood : ¬(4096 ≤ c.low 0 ∨ 4096 < c.low 0 + c.low 1) := by omega
    simp only [hfresh, hgood, State.withData, hlen, if_false, if_true]

/-- AUDIT_EXPORT with no change still to be logged (14 R323). -/
theorem cmdAuditExport_of_logged {t : State} (c : WcsCmd) (hlogged : ∀ e ∈ t.events, e.audits = []) :
    let es := (t.wh.audit.filter fun e => decide (c.arg 2 ≤ e.esn.toNat)).take (c.arg 1 / 64)
    let u : State := { t with wh := { t.wh with dropSent := false } }
    cmdAuditExport t c = some (if es = [] then u.ok c [0]
      else (u.toHost (c.arg 0) false (es.flatMap fun e => e.words.flatMap (leBytes 8))).ok c [es.length]) := by
  have hnone : (t.events.any fun e => e.audits != []) = false := by
    rw [List.any_eq_false]
    intro e he
    simp [hlogged e he]
  intro es u
  refine (if_neg (ne_true_of_eq_false hnone)).trans (congrArg some ?_)
  by_cases hempty : es = []
  · simp only [es] at hempty
    simp only [es, u, hempty, if_true, List.length_nil]
  · simp only [es] at hempty
    simp only [es, u, hempty, if_false]

/-- PEER_RESET of a port, in the order of its checks (12 R278). -/
theorem cmdPeerReset_of_port {t : State} {c : WcsCmd} (hlegal : ¬(20 ≤ c.low 0 ∨ 1 < c.low 1)) (hthere : t.portFused (c.low 0) = false)
    (hport : t.portLicensed (c.low 0) = true) (hmulti : t.licMulti = true) :
    cmdPeerReset t c = some (if (t.lport (c.low 0)).st ≠ .up then t.ends c stPortDown
      else t.sendMsg (c.low 0) (.peerReset (c.low 1 == 1)) (some (c.sq, c.cid))) := by
  simp only [cmdPeerReset, hlegal, hthere, hport, hmulti, apply_ite some, Bool.not_true, Bool.false_eq_true, or_self, if_false]

/-! ### The answers -/

/-- The rows that name a partition refuse one that does not exist. -/
theorem partRows_refuse {s t : State} {sq : BitVec 4} {cid : BitVec 16} {c : WcsCmd} {p : Nat × (BitVec 4 → BitVec 16 → Instr)}
    (hp : p ∈ partRows) (h : s.Starts sq cid p.1 c t) (hpart : t.partExists c.part = false) :
    rowAnswers (p.2 sq cid) s (t.ends c stNoPart) := by
  have hrow : ∃ f, exec (p.2 sq cid) s = .next (s.wcsRow sq.toNat cid.toNat p.1 true f) := by
    simp only [partRows, List.mem_cons, List.not_mem_nil, or_false] at hp
    rcases hp with rfl | rfl | rfl | rfl | rfl | rfl | rfl | rfl <;> exact ⟨_, rfl⟩
  obtain ⟨f, hexec⟩ := hrow
  exact h.refuses hexec rfl hpart

/-- Settles O48: each row answers with what its command does (`State.Starts.answers`), and that is read off the command's checks in order. -/
theorem wcsSettings : Obligations.WcsSettings := by
  unfold Obligations.WcsSettings
  intro s t sq cid c
  refine ⟨fun p hp h hpart => partRows_refuse hp h hpart, fun h => ?_, fun h => ?_, fun h => ?_, fun h => ?_, fun h hpart => ?_,
    fun h hpart => ?_, fun h => ?_, fun h => ?_, fun h hpart d bs => ?_, fun n ws fin => ?_, fun d ws hstage htodo hop hpart hfound => ?_,
    fun h => ?_, fun h => ?_, fun h hlogged => ?_⟩
  case refine_1 =>
    refine ⟨fun hsmall => ?_, fun hfits => ?_⟩
    · exact h.answers rfl nofun (if_pos hsmall)
    · exact h.answers rfl nofun (if_neg (Nat.not_lt.mpr hfits))
  case refine_2 =>
    refine ⟨fun v hv => ?_, fun hnone => ?_, rfl, rfl, rfl, rfl⟩
    · exact h.answers rfl nofun (by simp only [cmdGetParam, hv])
    · exact h.answers rfl nofun (by simp only [cmdGetParam, hnone])
  case refine_3 =>
    intro key part
    refine ⟨fun hnone => ?_, fun old hold => ⟨fun hbad => ?_, fun hok hkeep htemp => ?_, fun hok htemp => ?_⟩⟩
    · exact h.answers rfl nofun (by simp only [cmdSetParam, key, part] at hnone ⊢; simp only [hnone])
    · exact h.answers rfl nofun (cmdSetParam_of_bad hold hbad)
    · exact h.answers rfl nofun (cmdSetParam_of_cold hold hok hkeep htemp)
    · obtain ⟨hparam, hflash, hmem, hhost⟩ := t.storeParam_stores key (key + part * 2 ^ 32) (c.arg 1)
      obtain ⟨hparams, hflashes, hmems, hhosts⟩ := (t.storeParam key (key + part * 2 ^ 32) (c.arg 1)).applyParam_keeps key (c.arg 1)
      refine ⟨_, h.answers rfl nofun (cmdSetParam_of_good hold hok htemp), ?_, fun hkeep => ?_, fun hcap => ?_, ?_, ?_⟩
      · exact hparams ▸ hparam
      · exact hflashes ▸ hflash hkeep
      · have hformed : (t.storeParam key (key + part * 2 ^ 32) (c.arg 1)).applyParam key (c.arg 1) =
            (t.storeParam key (key + part * 2 ^ 32) (c.arg 1)).refreshCap := if_pos hcap
        exact hformed ▸ State.refreshCap_capW _
      · exact hmems.trans hmem
      · exact hhosts.trans hhost
  case refine_4 => exact h.answers rfl nofun rfl
  case refine_5 =>
    intro v
    refine ⟨fun hbad => ?_, fun hone height hfits => ?_⟩
    · exact h.answers rfl (fun _ => hpart) (if_pos hbad)
    · exact h.answers rfl (fun _ => hpart) (if_neg (by omega))
  case refine_6 =>
    refine ⟨fun hbad => ?_, fun hflag hop => ?_⟩
    · exact h.answers rfl (fun _ => hpart) (if_pos hbad)
    · exact h.answers rfl (fun _ => hpart) (if_neg (by omega))
  case refine_7 =>
    refine ⟨fun hbad => ?_, fun hcore hqueue => ?_⟩
    · exact h.answers rfl nofun (if_pos hbad)
    · exact h.answers rfl nofun (if_neg (by omega))
  case refine_8 =>
    intro k m g w sum gone
    obtain ⟨l, hshares⟩ := cmdSetShares_eq t c
    have hgone : t.sharesGone k m = true ↔ gone := t.sharesGone_iff k m
    have hanswers : rowAnswers (.setShares sq cid) s _ := h.answers rfl nofun hshares
    refine ⟨fun hbad => ?_, fun hk hg hfused => ?_, fun hk hg hwhole hover => ?_, fun hk hwhole hfits hsome => ⟨l, ?_⟩⟩
    · rwa [if_pos hbad] at hanswers
    · rwa [if_neg (not_or.mpr ⟨Nat.not_lt.mpr hk, Nat.not_lt.mpr hg⟩), if_pos (hgone.mpr hfused)] at hanswers
    · rwa [if_neg (not_or.mpr ⟨Nat.not_lt.mpr hk, Nat.not_lt.mpr hg⟩), if_neg (mt hgone.mp hwhole), if_pos (.inl hover)] at hanswers
    · have hg : ¬(62 < k ∨ 1024 < g) := by omega
      have hroom : ¬(1024 < t.guarsBut k m + g ∨ (g = 0 ∧ w = 0 ∧ t.mayReach k m = true)) := by
        have : t.guarsBut k m + g ≤ 1024 := hfits
        omega
      rwa [if_neg hg, if_neg (mt hgone.mp hwhole), if_neg hroom] at hanswers
  case refine_9 =>
    obtain ⟨hbad, hgood⟩ := cmdDescWrite_of_fresh (t := t) h.fresh.2
    exact ⟨fun hout => h.answers rfl (fun _ => hpart) (hbad d hout),
      fun hlow hfits hlen => h.answers rfl (fun _ => hpart) (hgood bs hlow hfits hlen)⟩
  case refine_10 =>
    exact ⟨State.storing_of_done n fin, fun hwait => ⟨_, rfl, State.storing_of_wait n fin hwait⟩⟩
  case refine_11 =>
    exact congrArg Host.Outcome.next (wcsRow_of_resumed hfound hstage hop hpart (by simp only [cmdDescWrite, htodo]))
  case refine_12 =>
    refine ⟨fun hzero => ?_, fun hone => ?_⟩
    · exact h.answers rfl nofun (if_neg (not_not.mpr hzero))
    · exact h.answers rfl nofun (if_neg (not_not.mpr hone))
  case refine_13 =>
    refine ⟨fun hbad => ?_, fun hport hmode hthere hlic hmulti => ?_⟩
    · exact h.answers rfl nofun (if_pos hbad)
    · have hanswers : rowAnswers (.peerReset sq cid) s _ := h.answers rfl nofun (cmdPeerReset_of_port (by omega) hthere hlic hmulti)
      exact ⟨fun hdown => by rwa [if_pos hdown] at hanswers, fun hup => by rwa [if_neg (not_not.mpr hup)] at hanswers⟩
  case refine_14 =>
    intro es u
    have hanswers : rowAnswers (.auditExport sq cid) s _ := h.answers rfl nofun (cmdAuditExport_of_logged c hlogged)
    exact ⟨fun hempty => by rwa [if_pos hempty] at hanswers, fun hsome => by rwa [if_neg hsome] at hanswers⟩

end Sys2Proof.Machine
end

section
/-! PROOFS. O43, O44: calibration windows, evacuations, refreshes, write holds and the skimmer (06 R140 to R149; 07 R168 to R174). -/

namespace Sys2Proof.Machine

/-! ### Calibration windows (06 R140, R141; 07 R168) -/

theorem cstWindow_of_closed {s : State} {n l : Nat}
    (h : s.opensWindow 4096 (1024 * l + 2 * n) = false ∨ (s.sub n l).window = true ∨ (s.sub n l).st = .retired) (fails : List Nat) :
    cstWindow s n l fails = s := by
  unfold cstWindow
  refine if_pos ?_
  rcases h with h | h | h <;> simp [h]

/-- A window in which no pin is repaired or fails only opens. -/
theorem cstWindow_opens {s : State} {n l : Nat} (hopens : s.opensWindow 4096 (1024 * l + 2 * n) = true)
    (hshut : (s.sub n l).window = false) (hst : (s.sub n l).st ≠ .retired) (hn : n < s.nCores) (hdead : (s.sub n l).dead = [])
    (hprov : (s.sub n l).prov = []) : cstWindow s n l [] = s.setSub n l { s.sub n l with window := true } := by
  simp [cstWindow, hopens, hshut, hst, hn, hdead, hprov]

theorem rsvWindow_of_closed {s : State} {k c : Nat}
    (h : s.opensWindow 4096 (16 * (32 * k + c)) = false ∨ (s.chan k c).window = true ∨ (s.chan k c).st = .retired) (fails : List Nat) :
    rsvWindow s k c fails = s := by
  unfold rsvWindow
  refine if_pos ?_
  rcases h with h | h | h <;> simp [h]

theorem rsvWindow_opens {s : State} {k c : Nat} (hopens : s.opensWindow 4096 (16 * (32 * k + c)) = true)
    (hshut : (s.chan k c).window = false) (hst : (s.chan k c).st ≠ .retired) (hdead : (s.chan k c).dead = [])
    (hprov : (s.chan k c).prov = []) : rsvWindow s k c [] = s.setChan k c { s.chan k c with window := true } := by
  simp [rsvWindow, hopens, hshut, hst, hdead, hprov]

theorem windowEnd_cist_of_over {s : State} {n : CoreId} {l : BitVec 2} (hopen : (s.sub n.toNat l.toNat).window = true)
    (hover : s.inWindow 4096 (1024 * l.toNat + 2 * n.toNat) 2 = false) :
    let x := s.sub n.toNat l.toNat
    windowEnd s (.cist n l) = (s.setSub n.toNat l.toNat
      { x with window := false, waiting := [], refreshes := x.refreshes + x.owed, owed := 0 }).again x.waiting :=
  if_neg (by simp [hopen, hover])

theorem windowEnd_cist_of_shut {s : State} {n : CoreId} {l : BitVec 2} (hshut : (s.sub n.toNat l.toNat).window = false) :
    windowEnd s (.cist n l) = s := if_pos (by simp [hshut])

theorem windowEnd_rsv_of_over {s : State} {k : BitVec 3} {c : BitVec 5} (hopen : (s.chan k.toNat c.toNat).window = true)
    (hover : s.inWindow 4096 (16 * (32 * k.toNat + c.toNat)) 2 = false) :
    windowEnd s (.rsv k c) = (s.setChan k.toNat c.toNat { s.chan k.toNat c.toNat with window := false }).serve k.toNat c.toNat :=
  if_neg (by simp [hopen, hover])

/-! ### Evacuations (06 R146; 07 R171) -/

/-- What an evacuation that has its target comes to. -/
theorem State.evacuate_of_target {s : State} {cist : Bool} {o c : Nat} {e : Evac} {w : DWord} (he : s.evacOf cist o c = some e)
    (hw : e.target = some w) (done : State → Nat → State) :
    s.evacuate cist o c done =
      let r := s.evacRun e w.toNat (e.total - e.pos)
      if r.2.2 = true then done { r.1 with evacs := r.1.evacs.filter fun x => !x.same e } r.2.1.poisoned else r.1.setEvac r.2.1 := by
  simp only [State.evacuate, he, hw]

theorem State.evacuate_of_targetless {s : State} {cist : Bool} {o c : Nat} (h : ∀ e, s.evacOf cist o c = some e → e.target = none)
    (done : State → Nat → State) : s.evacuate cist o c done = s := by
  unfold State.evacuate
  cases he : s.evacOf cist o c with
  | none => rfl
  | some e => simp only [h e he]

theorem evacTimeout_of_early {s : State} {cist : Bool} {o c : Nat} {e : Evac} (he : s.evacOf cist o c = some e)
    (h : e.target.isSome = true ∨ s.time < e.since + 1600000000) : evacTimeout s cist o c = s := by
  simp only [evacTimeout, he]
  exact if_pos (by simpa using h)

theorem evacTimeout_of_late {s : State} {cist : Bool} {o c : Nat} {e : Evac} (he : s.evacOf cist o c = some e) (hnone : e.target = none)
    (hlate : e.since + 1600000000 ≤ s.time) :
    evacTimeout s cist o c =
      let t := { s with evacs := s.evacs.erase e }
      if cist = true then t.subRetired o c 0 false else t.chanRetired o c 0 false := by
  simp only [evacTimeout, he]
  exact if_neg (by simpa [hnone] using hlate)

/-- Settles O43: what each window, each evacuation and a target missing for a second come to. -/
theorem windowsAndRetirement : Obligations.WindowsAndRetirement := by
  unfold Obligations.WindowsAndRetirement
  refine ⟨fun s core layer => ?_, fun s rsv ch => ?_, fun s cist core ch e he => ?_⟩
  · refine ⟨fun h f => congrArg _ (cstWindow_of_closed h f), fun hopens hshut hst hn hdead hprov => ?_, fun hopen hover => ?_,
      fun hshut => congrArg _ (windowEnd_cist_of_shut hshut), fun e w he hw => ?_, fun h => ?_⟩
    · exact congrArg _ (cstWindow_opens hopens hshut hst hn hdead hprov)
    · exact congrArg _ (windowEnd_cist_of_over hopen hover)
    · have hrun := State.evacuate_of_target he hw fun s p => s.subRetired core.toNat layer.toNat p true
      exact ⟨fun hdone => congrArg _ (hrun.trans (if_pos hdone)), fun hwait => congrArg _ (hrun.trans (if_neg (by simp [hwait])))⟩
    · exact congrArg _ (State.evacuate_of_targetless h _)
  · refine ⟨fun h f => congrArg _ (rsvWindow_of_closed h f), fun hopens hshut hst hdead hprov => ?_, fun hopen hover => ?_,
      fun e w he hw => ?_, fun h => ?_⟩
    · exact congrArg _ (rsvWindow_opens hopens hshut hst hdead hprov)
    · exact congrArg _ (windowEnd_rsv_of_over hopen hover)
    · have hrun := State.evacuate_of_target he hw fun s p => s.chanRetired rsv.toNat ch.toNat p true
      exact ⟨fun hdone => congrArg _ (hrun.trans (if_pos hdone)), fun hwait => congrArg _ (hrun.trans (if_neg (by simp [hwait])))⟩
    · exact congrArg _ (State.evacuate_of_targetless h _)
  · exact ⟨fun h => congrArg _ (evacTimeout_of_early he h), fun hnone hlate => congrArg _ (evacTimeout_of_late he hnone hlate)⟩

/-! ### Refresh (06 R141, R148; 07 R173; 08 R196) -/

theorem cstRefresh_of_window {s : State} {n l : Nat} (h : (s.sub n l).window = true) :
    cstRefresh s n l = s.setSub n l { s.sub n l with owed := (s.sub n l).owed + 1 } := by
  simp [cstRefresh, h]

theorem cstRefresh_of_shut {s : State} {n l : Nat} (h : (s.sub n l).window = false) :
    cstRefresh s n l = s.setSub n l { s.sub n l with refreshes := (s.sub n l).refreshes + 1 } := by
  simp [cstRefresh, h]

theorem rsvRefresh_of_idle {s : State} {k c : Nat} (h : (s.chan k c).current = none) (b : Nat) :
    rsvRefresh s k c b = s.setChan k c { s.chan k c with refreshes := (s.chan k c).refreshes + 1 } := by
  simp only [rsvRefresh, h]

/-- A bank group refreshed under a unit that runs pauses it. -/
theorem rsvRefresh_of_running {s : State} {k c b m : Nat} {l : Launch} (hcur : (s.chan k c).current = some (.launch m))
    (hl : s.launch m = some l) (hfault : l.fault = none)
    (hruns : (Map.get {} l.units (256 * k + 8 * c + b)).ended = false) :
    let x := s.chan k c
    let u := Map.get {} l.units (256 * k + 8 * c + b)
    rsvRefresh s k c b = (s.setChan k c { x with refreshes := x.refreshes + 1, runPauses := satAdd x.runPauses 1 }).setLaunch m
      { l with units := Map.set {} l.units (256 * k + 8 * c + b) { u with pauses := u.pauses + 1 } } := by
  simp [rsvRefresh, hcur, hl, hfault, hruns]

/-! ### Held writes (06 R149) -/

/-- The first write held past its limit. -/
def State.lateWrite (s : State) (n l : Nat) : Option ReqPart :=
  (s.sub n l).held.find? fun r => r.wr && s.reached (r.arrivedTick s.tick + max 1 (s.cist n).wholdLimit.toNat)

theorem writeHot_of_late {s : State} {n l : Nat} {r : ReqPart} (h : s.lateWrite n l = some r) :
    writeHot s n l =
      let t := s.setSub n l { s.sub n l with held := [] }
      if (s.sub n l).whold = true then ((t.refusePart cMemCstWriteHot 0 r).again ((s.sub n l).held.erase r)).resume
      else t.again (s.sub n l).held := by
  unfold State.lateWrite at h
  simp only [writeHot, h]

theorem writeHot_of_empty {s : State} {n l : Nat} (h : (s.sub n l).held = []) : writeHot s n l = s := by
  simp only [writeHot, h, List.find?_nil]

/-! ### The skimmer (07 R174) -/

theorem skimRead_of_off {s : State} {k c : Nat} (h : (s.rsv k).skimEnable = false ∨ (s.chan k c).st = .retired) (extra : Bool) :
    skimRead s k c extra = s := by
  unfold skimRead
  refine if_pos ?_
  rcases h with h | h <;> simp [h]

theorem skimRead_of_proc {s : State} {k c : Nat} (hen : (s.rsv k).skimEnable = true) (hst : (s.chan k c).st ≠ .retired)
    (hproc : (s.chan k c).proc = true) :
    skimRead s k c false = (s.setChan k c { s.chan k c with skimDue := (s.chan k c).skimDue + 1 }).setRsv k
      { s.rsv k with skimBehind := (s.rsv k).skimBehind ||| BitVec.ofNat 32 (2 ^ c) } := by
  simp [skimRead, hen, hst, hproc]

@[simp] theorem satAdd_zero {w : Nat} (x : BitVec w) : satAdd x 0 = x := by
  have hlt := x.isLt
  unfold satAdd
  rw [if_neg (by omega), Nat.add_zero, BitVec.ofNat_toNat, BitVec.setWidth_eq]

/-- What reading clean codewords of channel c leaves of a state. -/
structure State.SkimSame (k c : Nat) (s t : State) : Prop where
  mem : t.mem = s.mem
  cw : t.cw = s.cw
  chan : t.chan k c = s.chan k c
  rsv : t.rsv k = s.rsv k
  events : t.events = s.events

theorem State.SkimSame.trans {k c : Nat} {s t u : State} (h : s.SkimSame k c t) (h' : t.SkimSame k c u) : s.SkimSame k c u :=
  ⟨h'.mem.trans h.mem, h'.cw.trans h.cw, h'.chan.trans h.chan, h'.rsv.trans h.rsv, h'.events.trans h.events⟩

/-- A codeword without errors read by a base-die decoder: nothing is corrected and nothing counted. -/
theorem State.baseCw_clean {s : State} {k c key : Nat} (h : Map.get {} s.cw (key / 64) = {}) :
    ∃ t : State, s.baseCw k c key = (t, .data (s.raw key 64), 0) ∧ s.SkimSame k c t := by
  have hdec (era : List Nat) (two : Bool) : s.decodeCw key era two [] = (.data (s.raw key 64), 0) := State.decodeCw_clean h era two
  refine ⟨(s.setChan k c (s.chan k c)).draw, ?_, ⟨rfl, rfl, State.chan_setChan .., rfl, rfl⟩⟩
  simp only [State.baseCw, hdec, satAdd_zero]

/-- What the skimmer does with codeword `j` of the granule at offset `x`. -/
def State.skimCw (s : State) (k c x j : Nat) : State :=
  let key := (Tgt.rsv k x).key + 64 * j
  let v := s.rsv k
  let o := s.baseCw k c key
  match o.2.1 with
  | .data bs => if o.2.2 = 0 then o.1 else (o.1.putCw key bs).setRsv k { v with skimCorrected := satAdd v.skimCorrected 1 }
  | .poison => o.1
  | .uncorr =>
    let s := if v.skimPoison then o.1.putPoison key else o.1
    let s := s.setRsv k { v with skimUncorr := satAdd v.skimUncorr 1,
                                 skimPoisoned := satAdd v.skimPoisoned (if v.skimPoison then 1 else 0) }
    s.postEv (5 + k) cMemUncorrectable none [key + (32 + k) * 2 ^ 48, 0, 0, 0]

/-- The offset of the granule the skimmer reads next. -/
def State.skimOff (s : State) (k c : Nat) : Nat :=
  s.rsvOff k c ((s.chan k c).skimPos % skimGranules / 64 % 8) ((s.chan k c).skimPos % skimGranules / 512)
    ((s.chan k c).skimPos % skimGranules % 64)

/-- The granule read whole. -/
def State.skimGranule (s : State) (k c : Nat) : State := (List.range 8).foldl (fun t j => t.skimCw k c (s.skimOff k c) j) s

theorem skimRead_of_memory {s : State} {k c : Nat} (hen : (s.rsv k).skimEnable = true) (hst : (s.chan k c).st ≠ .retired)
    (hproc : (s.chan k c).proc = false) :
    ∃ v, skimRead s k c false = ((s.skimGranule k c).setChan k c
      { (s.skimGranule k c).chan k c with skimPos := ((s.skimGranule k c).chan k c).skimPos + 1 }).setRsv k v := by
  unfold skimRead
  rw [if_neg (by simp [hen, hst]), if_neg (by simp [hproc])]
  exact ⟨_, rfl⟩

theorem State.skimCw_clean {s : State} {k c x j : Nat} (h : Map.get {} s.cw (((Tgt.rsv k x).key + 64 * j) / 64) = {}) :
    s.SkimSame k c (s.skimCw k c x j) := by
  obtain ⟨t, hread, ht⟩ := State.baseCw_clean (k := k) (c := c) h
  simpa only [State.skimCw, hread, if_pos] using ht

theorem State.skimGranule_clean {s : State} {k c : Nat}
    (h : ∀ j < 8, Map.get {} s.cw (((Tgt.rsv k (s.skimOff k c)).key + 64 * j) / 64) = {}) : s.SkimSame k c (s.skimGranule k c) := by
  unfold State.skimGranule
  refine List.foldlRecOn (List.range 8) _ (motive := s.SkimSame k c) ⟨rfl, rfl, rfl, rfl, rfl⟩ (fun t ht j hj => ?_)
  have hclean := h j (List.mem_range.mp hj)
  rw [← ht.cw] at hclean
  exact ht.trans (State.skimCw_clean hclean)

/-- Settles O44: what a refresh, a write held past its limit and a read of the skimmer come to. -/
theorem refreshes : Obligations.Refreshes := by
  unfold Obligations.Refreshes
  refine ⟨fun s core layer => ?_, fun s rsv ch bg => ?_⟩
  · refine ⟨fun h => congrArg _ (cstRefresh_of_window h), fun h => congrArg _ (cstRefresh_of_shut h), fun r hr => ?_,
      fun h => congrArg _ (writeHot_of_empty h)⟩
    have hhot := writeHot_of_late hr
    exact ⟨fun hold => congrArg _ (hhot.trans (if_pos hold)), fun hfree => congrArg _ (hhot.trans (if_neg (by simp [hfree])))⟩
  · refine ⟨fun h => congrArg _ (rsvRefresh_of_idle h _), fun m l hcur hl hfault hruns => ?_,
      fun h e => congrArg _ (skimRead_of_off h e), fun hen hst hproc => congrArg _ (skimRead_of_proc hen hst hproc),
      fun hen hst hproc hclean => ?_⟩
    · exact congrArg _ (rsvRefresh_of_running hcur hl hfault hruns)
    · obtain ⟨v, hskim⟩ := skimRead_of_memory hen hst hproc
      obtain ⟨hmem, hcw, hchan, -, hevents⟩ := State.skimGranule_clean hclean
      refine ⟨_, congrArg Host.Outcome.next hskim, ?_⟩
      generalize s.skimGranule rsv.toNat ch.toNat = u at *
      have hread (x : Chan) : ((u.setChan rsv.toNat ch.toNat x).setRsv rsv.toNat v).chan rsv.toNat ch.toNat = x := u.chan_setChan ..
      rw [hread, hchan]
      exact ⟨hmem, hcw, rfl, rfl, rfl, hevents⟩

end Sys2Proof.Machine
end

section
/-! PROOFS. What requests, streams and halting queues leave of the sensors, the weir and the refresh rates: no part that arrives at its
target and no stream that is cancelled touches them, though they may answer, decode, repair and halt. -/

namespace Sys2Proof.Machine

/-- The sensors, the weir, the cores' sites and the refresh rates of the sub-channels. -/
structure Heat where
  thm : Thermal
  weirs : Map Weir
  nCores : Nat
  site : Nat → BitVec 10
  refRate : Nat → Nat → BitVec 2

/-- Those of a state. -/
def State.heat (s : State) : Heat where
  thm := s.thm
  weirs := s.weirs
  nCores := s.nCores
  site n := (s.core n).site
  refRate n l := (s.sub n l).refRate

/-! ### Updates of a core and of a sub-channel -/

theorem State.heat_setCore {s : State} {n : Nat} {c : Core} (h : c.site = (s.core n).site) : (s.setCore n c).heat = s.heat := by
  have hsite : (fun j => ((s.setCore n c).core j).site) = fun j => (s.core j).site := by
    funext j
    by_cases hj : n = j
    · subst hj
      rw [State.core_setCore, h]
    · rw [State.core_setCore_other _ _ _ _ hj]
  exact congrArg (fun f => { s.heat with site := f }) hsite

@[simp] theorem State.heat_setQueue (s : State) (n q : Nat) (x : Queue) : (s.setQueue n q x).heat = s.heat := State.heat_setCore rfl

/-- Words corrected in a core's SRAM are counted in the core alone (03 R62). -/
theorem State.heat_countFixed (s : State) (n k : Nat) :
    (s.setCore n { s.core n with sramFixed := (s.core n).sramFixed + k }).heat = s.heat := State.heat_setCore rfl

theorem State.sub_setSub_other {s : State} {n l m j : Nat} (x : SubCh) (h : (m, j) ≠ (n, l)) : (s.setSub n l x).sub m j = s.sub m j := by
  unfold State.setSub State.setCist State.sub State.cist Cistern.sub
  by_cases hm : n = m
  · subst hm
    have hj : l ≠ j := fun e => h (by rw [e])
    simp only [Map.get_set_same, Map.get_set_other _ _ _ _ _ hj]
  · simp only [Map.get_set_other _ _ _ _ _ hm]

theorem State.heat_setSub {s : State} {n l : Nat} {x : SubCh} (h : x.refRate = (s.sub n l).refRate) : (s.setSub n l x).heat = s.heat := by
  have hrate : (fun m j => ((s.setSub n l x).sub m j).refRate) = fun m j => (s.sub m j).refRate := by
    funext m j
    by_cases hmj : (m, j) = (n, l)
    · obtain ⟨rfl, rfl⟩ := Prod.mk.inj hmj
      rw [State.sub_setSub_same, h]
    · rw [State.sub_setSub_other x hmj]
  exact congrArg (fun f => { s.heat with refRate := f }) hrate

@[simp] theorem State.heat_draw (s : State) : s.draw.heat = s.heat := rfl

@[simp] theorem State.heat_post (s : State) (src : Nat) (b : EvBody) (l : List Audit) : (s.post src b l).heat = s.heat := rfl

@[simp] theorem State.heat_setPort (s : State) (p : Nat) (x : Port) : (s.setPort p x).heat = s.heat := rfl

@[simp] theorem State.heat_setTx (s : State) (c : Nat) (x : Option TxStream) : (s.setTx c x).heat = s.heat := rfl

@[simp] theorem State.heat_setRx (s : State) (c : Nat) (x : Option RxStream) : (s.setRx c x).heat = s.heat := rfl

@[simp] theorem State.heat_dropAccs (s : State) (gone : Who → Bool) : (s.dropAccs gone).heat = s.heat := rfl

@[simp] theorem State.heat_setChan (s : State) (k c : Nat) (x : Chan) : (s.setChan k c x).heat = s.heat := rfl

/-- As `foldl_frame`, for a walk that carries a second value. -/
theorem foldl_frame_fst {β γ δ : Type} (g : State → δ) (f : State × γ → β → State × γ) (hf : ∀ a b, g (f a b).1 = g a.1)
    (l : List β) (a : State × γ) : g (l.foldl f a).1 = g a.1 :=
  foldl_keeps (fun b : State × γ => g b.1 = g a.1) f (fun b x hb => (hf b x).trans hb) l a rfl

/-! ### Answers (10 R409; 13 R287, R288) -/

@[simp] theorem State.heat_sluLatency (s : State) (m t ns : Nat) : (s.sluLatency m t ns).heat = s.heat := by
  unfold State.sluLatency
  dsimp only
  split <;> rfl

@[simp] theorem State.heat_recordReq (s : State) (w : Who) (i c a : Nat) (bs : List Byte) : (s.recordReq w i c a bs).heat = s.heat := by
  unfold State.recordReq
  split <;> rfl

@[simp] theorem State.heat_barFault (s : State) (c a sub : Nat) : (s.barFault c a sub).heat = s.heat := by
  unfold State.barFault
  dsimp only
  split <;> rfl

@[simp] theorem State.heat_endHostRead (s : State) (h : HostRead) : (s.endHostRead h).heat = s.heat := by
  unfold State.endHostRead
  dsimp only
  split
  · rfl
  · rw [State.heat_barFault]
    split <;> rfl

@[simp] theorem State.heat_hostAnswer (s : State) (r : MemReq) (bs : List Byte) : (s.hostAnswer r bs).heat = s.heat := by
  unfold State.hostAnswer
  split
  · split <;> simp
  · split <;> simp
  · rfl

@[simp] theorem State.heat_finishReq (s : State) (r : MemReq) : (s.finishReq r).heat = s.heat := by
  unfold State.finishReq
  dsimp only
  split
  · exact State.heat_recordReq ..
  · exact State.heat_hostAnswer ..

@[simp] theorem State.heat_measure (s : State) (r : MemReq) (p : ReqPart) : (s.measure r p).1.heat = s.heat :=
  foldl_frame State.heat _ (fun t l => by split <;> simp) _ s

@[simp] theorem State.heat_partDone (s : State) (p : ReqPart) (c a sub : Nat) (bs : List Byte) : (s.partDone p c a sub bs).heat = s.heat := by
  unfold State.partDone
  split
  · rfl
  · dsimp only
    split
    · rw [State.heat_finishReq, State.heat_measure]
    · exact State.heat_measure ..

@[simp] theorem State.heat_answer (s : State) (p : ReqPart) (c a sub : Nat) (bs : List Byte) : (s.answer p c a sub bs).heat = s.heat := by
  unfold State.answer
  dsimp only
  split
  · rfl
  · exact State.heat_partDone ..

@[simp] theorem State.heat_refusePart (s : State) (c sub : Nat) (p : ReqPart) : (s.refusePart c sub p).heat = s.heat := s.heat_answer ..

@[simp] theorem State.heat_channelBusy (s : State) (k sub : Nat) (p : ReqPart) : (s.channelBusy k sub p).heat = s.heat :=
  State.heat_refusePart _ _ sub p

/-! ### Reads and writes at their target (03 R62; 06 R134, R142; 07 R158, R165) -/

@[simp] theorem State.heat_cistDecode (s : State) (n x : Nat) (e : List Nat) : (s.cistDecode n x e).1.heat = s.heat := by
  unfold State.cistDecode State.cistDecodeN
  dsimp only
  exact (foldl_frame State.heat _ (fun t p => by rfl) _ _).trans (State.heat_setSub (s := (s.takePins _).1) rfl)

@[simp] theorem State.heat_rsvDecode (s : State) (k x : Nat) (e : List Nat) : (s.rsvDecode k x e).1.heat = s.heat := by
  unfold State.rsvDecode State.rsvDecodeN
  dsimp only
  exact foldl_frame State.heat _ (fun t p => by rfl) _ _

section
variable {dec : State → Nat → State × CwOut} (hdec : ∀ t x, (dec t x).1.heat = t.heat)
include hdec

theorem State.heat_readCws (s : State) (x n : Nat) (u : Bool) : (s.readCws dec x n u).1.heat = s.heat := by
  unfold State.readCws
  extract_lets r
  have hr : r.1.heat = s.heat := foldl_frame_fst State.heat _ (fun a p => by dsimp only; split <;> exact hdec ..) _ _
  split <;> exact hr

theorem State.heat_fillCws (s : State) (at_ : Nat → Nat × Nat) (ws : List (Nat × List Byte)) : (s.fillCws dec at_ ws).1.heat = s.heat := by
  unfold State.fillCws
  refine foldl_frame_fst State.heat _ (fun a w => ?_) _ _
  dsimp only
  split
  · rfl
  · split <;> exact hdec ..

theorem State.heat_writeCws (s : State) (at_ : Nat → Nat × Nat) (ws : List (Nat × List Byte)) : (s.writeCws dec at_ ws).1.heat = s.heat := by
  unfold State.writeCws
  dsimp only
  split
  · exact s.heat_fillCws hdec ..
  · exact (foldl_frame State.heat _ (fun t w => by rfl) _ _).trans (s.heat_fillCws hdec ..)

end

theorem heat_readRuns {one : State → Nat × Nat → State × Except Nat (List Byte)} (hone : ∀ t p, (one t p).1.heat = t.heat) (s : State)
    (runs : List (Nat × Nat)) : (readRuns one s runs).1.heat = s.heat := by
  unfold readRuns
  extract_lets r
  have hr : r.1.heat = s.heat := foldl_frame_fst State.heat _ (fun a p => by dsimp only; split <;> exact hone ..) _ _
  split <;> exact hr

@[simp] theorem State.heat_readAt (s : State) (runs : List (Nat × Nat)) : (s.readAt runs).1.heat = s.heat := by
  unfold State.readAt
  dsimp only
  split
  · rfl
  · rfl
  · exact heat_readRuns (fun t p => t.heat_countFixed ..) _ _
  · exact heat_readRuns (fun t p => t.heat_countFixed ..) _ _
  · split
    · rfl
    · split
      · rfl
      · exact heat_readRuns (fun t p => State.heat_readCws (fun u y => u.heat_cistDecode ..) ..) _ _
  · split
    · rfl
    · split
      · rfl
      · refine heat_readRuns (fun t p => ?_) _ _
        dsimp only
        exact State.heat_readCws (dec := fun u y => u.rsvDecode _ y []) (fun u y => u.heat_rsvDecode _ y []) t _ _ _

@[simp] theorem State.heat_writeSram (s : State) (key : Nat) (bs : List Byte) : (s.writeSram key bs).1.heat = s.heat := by
  unfold State.writeSram
  refine foldl_frame_fst State.heat _ (fun a p => ?_) _ _
  dsimp only
  split
  · rfl
  · split <;> rfl

@[simp] theorem State.heat_writeAt (s : State) (runs : List (Nat × Nat)) (bs : List Byte) : (s.writeAt runs bs).1.heat = s.heat := by
  unfold State.writeAt
  dsimp only
  split
  · rfl
  · rfl
  · exact foldl_frame_fst State.heat _ (fun a w => by rw [State.heat_countFixed, State.heat_writeSram]) _ _
  · exact foldl_frame_fst State.heat _ (fun a w => by rw [State.heat_countFixed, State.heat_writeSram]) _ _
  · split
    · rfl
    · split
      · rfl
      · exact State.heat_writeCws (fun t y => t.heat_cistDecode ..) ..
  · split
    · rfl
    · split
      · rfl
      · exact State.heat_writeCws (fun t y => t.heat_rsvDecode ..) ..

@[simp] theorem State.heat_poisonCws (s : State) (l : List Nat) : (s.poisonCws l).heat = s.heat :=
  foldl_frame State.heat _ (fun t a => by rfl) l s

theorem State.heat_perform {s t : State} {p : ReqPart} (h : s.perform p = some t) : t.heat = s.heat := by
  have ho : (if p.wr then s.writeAt p.runs p.data else s.readAt p.runs).1.heat = s.heat := by split <;> simp
  unfold State.perform at h
  dsimp only at h
  split at h
  · cases h
    rw [State.heat_answer, State.heat_poisonCws, ho]
  · cases h
    rw [State.heat_answer, ho]
  · cases h

theorem State.heat_performD (s : State) (p : ReqPart) : ((s.perform p).getD s).heat = s.heat := by
  cases h : s.perform p with
  | none => rfl
  | some t => exact State.heat_perform h

/-! ### Parts that arrive (03 R61; 06 R134, R141; 07 R162) -/

@[simp] theorem State.heat_serveN (s : State) (k c fuel : Nat) : (s.serveN k c fuel).heat = s.heat := by
  induction fuel generalizing s with
  | zero => rfl
  | succ fuel ih =>
    unfold State.serveN
    dsimp only
    split
    · rfl
    · split
      · split
        · split
          · rw [ih, State.heat_channelBusy, State.heat_setChan]
          · split
            · rename_i t ht
              rw [ih, State.heat_setChan, State.heat_perform ht, State.heat_setChan]
            · rfl
        · rfl
      · rfl

@[simp] theorem State.heat_arbitrate (s : State) (k c : Nat) (r : ReqPart) : (s.arbitrate k c r).heat = s.heat := by
  unfold State.arbitrate
  dsimp only
  split
  · split
    · rename_i t ht
      exact State.heat_perform ht
    · rfl
  · split
    · exact State.heat_channelBusy ..
    · exact State.heat_serveN ..

@[simp] theorem State.heat_atSub (s : State) (n l : Nat) (r : ReqPart) : (s.atSub n l r).heat = s.heat := by
  unfold State.atSub
  dsimp only
  split
  · exact State.heat_refusePart ..
  · split
    · exact State.heat_setSub rfl
    · split
      · exact State.heat_setSub rfl
      · exact s.heat_performD r

@[simp] theorem State.heat_serveWord (s : State) (n seq ma len : Nat) : (s.serveWord n seq ma len).heat = s.heat := by
  unfold State.serveWord
  split
  · rfl
  · rename_i x _
    extract_lets key count w rd r part y t done
    have hr : r.1.heat = s.heat := by
      unfold r
      split
      · exact (State.heat_countFixed ..).trans (s.heat_writeSram key (x.p.bytesAt ma len))
      · exact s.heat_countFixed ..
    have ht : t.heat = s.heat := (State.heat_draw r.1).trans hr
    split
    · split <;> exact (State.heat_answer ..).trans ht
    · exact ht

@[simp] theorem State.heat_atPad (s : State) (n : Nat) (p : ReqPart) : (s.atPad n p).heat = s.heat := by
  unfold State.atPad
  extract_lets c ws t
  split
  · exact foldl_frame State.heat _ (fun u w => u.heat_serveWord ..) ws t
  · exact State.heat_setCore (s := t) rfl

@[simp] theorem State.heat_arrive (s : State) (p : ReqPart) : (s.arrive p).heat = s.heat := by
  unfold State.arrive
  extract_lets q t
  have ht : t.heat = s.heat := by
    unfold t
    split <;> rfl
  clear_value t
  split
  · exact (State.heat_atSub ..).trans ht
  · exact (State.heat_arbitrate ..).trans ht
  · exact (State.heat_atPad ..).trans ht
  · exact (State.heat_atPad ..).trans ht
  · exact (t.heat_performD q).trans ht

@[simp] theorem State.heat_again (s : State) (rs : List ReqPart) : (s.again rs).heat = s.heat :=
  foldl_frame State.heat _ (fun t p => t.heat_arrive p) rs s

@[simp] theorem State.heat_releaseHold (s : State) (n l : Nat) : (s.releaseHold n l).heat = s.heat :=
  (State.heat_again ..).trans (State.heat_setSub rfl)

/-! ### Queues that halt and streams that are cancelled (05 R106; 12 R266) -/

@[simp] theorem State.heat_complete (s : State) (q i st f : Nat) (r : List Nat) (l : List Audit) (o : Option Nat) :
    (s.complete q i st f r l o).heat = s.heat := rfl

@[simp] theorem State.heat_signal (s : State) (n q : Nat) (sig : Option (Nat × Word)) : (s.signal n q sig).heat = s.heat := by
  unfold State.signal
  split <;> rfl

@[simp] theorem State.heat_finishJobs (s : State) : s.finishJobs.heat = s.heat := by
  refine foldl_frame State.heat _ (fun t j => ?_) s.host.jobs s
  dsimp only
  split
  · rfl
  · split
    · exact foldl_frame State.heat _ (fun u a => by rfl) j.aborts _
    · rfl

@[simp] theorem State.heat_settle (s : State) (n q : Nat) : (s.settle n q).heat = s.heat := by
  have hdescs (t : State) : (t.setCore n { t.core n with descs := [] }).heat = t.heat := State.heat_setCore rfl
  unfold State.settle
  extract_lets x u c t y
  have ht : t.heat = s.heat := by
    unfold t
    split
    · rw [State.heat_signal]
      split
      · exact (hdescs u).trans (State.heat_setQueue ..)
      · exact State.heat_setQueue ..
    · rfl
  split
  · rfl
  · split
    · split
      · rfl
      · exact (State.heat_finishJobs _).trans (State.heat_setQueue ..)
    · split
      · exact (State.heat_setQueue t ..).trans ht
      · exact ht

@[simp] theorem State.heat_stopQueue (s : State) (n q : Nat) : (s.stopQueue n q).heat = s.heat := by
  refine State.heat_setCore (s := s.dropWaits n q) ?_
  dsimp only [Core.setQueue]
  split
  · split <;> rfl
  · rfl

@[simp] theorem State.heat_haltQueue (s : State) (n q : Nat) (f : RecF) : (s.haltQueue n q f).heat = s.heat := by
  unfold State.haltQueue
  rw [State.heat_finishJobs, State.heat_post, State.heat_setQueue, State.heat_stopQueue]

@[simp] theorem State.heat_faultCmd (s : State) (n q idx : Nat) (f : RecF) : (s.faultCmd n q idx f).heat = s.heat := by
  unfold State.faultCmd
  dsimp only
  split
  · split <;> simp
  · rfl

@[simp] theorem State.heat_freeCtx (s : State) (c : Nat) : (s.freeCtx c).heat = s.heat := by
  unfold State.freeCtx
  extract_lets t done _ u
  have ht : t.heat = s.heat := by rw [State.heat_dropAccs, State.heat_setRx, State.heat_setTx]
  clear_value t
  have hu : u.heat = t.heat := rfl
  exact (foldl_frame State.heat _ (fun v k => by rw [State.heat_complete]) done u).trans (hu.trans ht)

@[simp] theorem State.heat_rxFault (s : State) (c : Nat) (x : RxStream) (code detail : Nat) : (s.rxFault c x code detail).heat = s.heat := by
  unfold State.rxFault
  dsimp only
  split <;> simp

@[simp] theorem State.heat_cancelStream (s : State) (c : Nat) (why : Option Nat) : (s.cancelStream c why).heat = s.heat := by
  unfold State.cancelStream
  dsimp only
  split
  · split <;> exact State.heat_setTx ..
  · rw [State.heat_rxFault]
    split <;> simp only [State.sendMsg, State.countCancelled, State.heat_setPort]
  · rfl

end Sys2Proof.Machine
end

section
/-! PROOFS. O55: sensor samples, spares, the weir, refresh rates, tray readings and the coolant state (16 R351 to R361, R370; 06 R148). -/

namespace Sys2Proof.Machine

/-! ### A walk that reaches a place once -/

section
variable {σ β γ : Type} {P : σ → Prop} {g : σ → γ} {f : σ → β → σ} {a : β} (hP : ∀ t b, P t → P (f t b))
  (hother : ∀ t b, P t → b ≠ a → g (f t b) = g t)
include hP hother

/-- A walk that never comes to the place `a` leaves what stands there. -/
theorem foldl_of_notMem {l : List β} (ha : a ∉ l) {s : σ} (hs : P s) : g (l.foldl f s) = g s := by
  induction l generalizing s with
  | nil => rfl
  | cons b l ih =>
    obtain ⟨hb, hl⟩ := not_or.mp (mt List.mem_cons.mpr ha)
    exact (ih hl (hP s b hs)).trans (hother s b hs (Ne.symm hb))

/-- A walk that comes to the place `a` once does there what its step does. -/
theorem foldl_of_mem {new : γ → γ} (hat : ∀ t, P t → g (f t a) = new (g t)) {l : List β} (hl : l.Nodup) (ha : a ∈ l) {s : σ} (hs : P s) :
    g (l.foldl f s) = new (g s) := by
  induction l generalizing s with
  | nil => exact absurd ha List.not_mem_nil
  | cons b l ih =>
    obtain ⟨hb, hnodup⟩ := List.nodup_cons.mp hl
    rcases List.mem_cons.mp ha with rfl | ha
    · exact (foldl_of_notMem hP hother hb (hP s _ hs)).trans (hat s hs)
    · have hne : b ≠ a := fun h => hb (h ▸ ha)
      rw [List.foldl_cons, ih hnodup ha (hP s b hs), hother s b hs hne]

end

/-! ### The cap, the alert and the coolant state (16 R360, R363, R370) -/

/-- A cap formed anew changes CAP_W and posts; nothing else. -/
theorem State.refreshCap_eq (s : State) :
    ∃ es, s.refreshCap = { s with thm := { s.thm with capW := BitVec.ofNat 16 s.capNow }, events := es } := by
  unfold State.refreshCap
  dsimp only
  split
  · rename_i hsame
    rw [hsame, BitVec.ofNat_toNat, BitVec.setWidth_eq]
    exact ⟨_, rfl⟩
  · split <;> exact ⟨_, rfl⟩

theorem State.refreshCap_leaves (s : State) :
    s.refreshCap.thm = { s.thm with capW := BitVec.ofNat 16 s.capNow } ∧ s.refreshCap.weirs = s.weirs ∧
      s.refreshCap.capNow = s.capNow := by
  obtain ⟨es, hcap⟩ := s.refreshCap_eq
  rw [hcap]
  exact ⟨rfl, rfl, rfl⟩

theorem State.sampleW_refreshCap (s : State) : s.refreshCap.thm.sampleW = s.thm.sampleW := by rw [s.refreshCap_leaves.1]

/-- ALERT_N as R370 drives it. -/
def State.alertNow (s : State) : Bool :=
  !decide (1 ≤ s.bup.stage.toNat ∧ (s.thm.coolant ≠ .normal ∨ s.thm.trayLost ≠ 0 ∨ s.thm.inputRange = true))

/-- A move of the coolant state changes it, the swallowing of every core, ALERT_N and the events. -/
theorem State.setCoolant_eq (s : State) (c : Coolant) (code : Nat) (d : List Int) :
    ∃ es pins, s.setCoolant c code d =
      { s with thm := { s.thm with coolant := c }, allSwallowed := c == .halted, pins := pins, events := es } := ⟨_, _, rfl⟩

/-! ### Diodes (16 R352, R353) -/

section
variable {d : Diode} (hkept : d.ejected = false) (v : Int) (inj : Bool)
include hkept

theorem Diode.sample_of_first (out : Bool) : d.sample v out true inj = { d with value := v } := by simp [Diode.sample, hkept]

theorem Diode.suspect_of_eighth (hsus : d.suspect = false) (hrun : d.outRun = 7) : (d.sample v true false inj).suspect = true := by
  simp [Diode.sample, hkept, hsus, hrun]

theorem Diode.trusted_of_inBand (hsus : d.suspect = false) :
    (d.sample v false false inj).suspect = false ∧ (d.sample v false false inj).outRun = 0 := by simp [Diode.sample, hkept, hsus]

theorem Diode.cleared_of_inBand (hsus : d.suspect = true) (hrun : d.inRun = 255) : (d.sample v false false inj).suspect = false := by
  simp [Diode.sample, hkept, hsus, hrun]

theorem Diode.ejected_of_suspect (hsus : d.suspect = true) (hrun : d.susRun = 655) : (d.sample v true false inj).ejected = !inj := by
  simp [Diode.sample, hkept, hsus, hrun]

end

/-! ### Swallows and refresh rates (06 R148; 16 R356) -/

theorem swallowOf_of_pos {t : Int} (h : 1 ≤ t) : swallowOf t = min 230 (8 * t / 5).toNat := if_pos (by omega)

theorem swallowOf_of_nonpos {t : Int} (h : t ≤ 0) : swallowOf t = 0 := if_neg (by omega)

theorem refNext_of_hot {t : Int} (h : 760 < t) (r : Nat) : refNext r t = 2 := if_pos h

theorem refNext_of_warm {t : Int} (hlow : 680 < t) (hhigh : t ≤ 743) (r : Nat) : refNext r t = 1 := by
  unfold refNext
  rw [if_neg (by omega), if_neg (by omega), if_pos hlow]

theorem refNext_of_cool {t : Int} (h : t < 664) (r : Nat) : refNext r t = 0 := by
  unfold refNext
  rw [if_neg (by omega), if_neg (by omega), if_neg (by omega), if_neg (by omega)]

/-- Just below 95 °C the double rate holds on, and from below the middle one is reached. -/
theorem refNext_of_falling {t : Int} (hlow : 744 ≤ t) (hhigh : t ≤ 760) : refNext 2 t = 2 ∧ refNext 1 t = 1 ∧ refNext 0 t = 1 := by
  have hmid : ¬760 < t := by omega
  have hwarm : 680 < t := by omega
  simp [refNext, hmid, hwarm, hlow]

theorem refNext_of_settling {t : Int} (hlow : 664 ≤ t) (hhigh : t ≤ 680) : refNext 2 t = 1 ∧ refNext 1 t = 1 ∧ refNext 0 t = 0 := by
  have hhot : ¬760 < t := by omega
  have hmid : ¬744 ≤ t := by omega
  have hwarm : ¬680 < t := by omega
  simp [refNext, hhot, hmid, hwarm, hlow]

/-! ### Spares (16 R354, R355) -/

/-- A site whose spare takes the place of an ejected diode, if the spare is left. -/
def Site.spared (x : Site) : Site :=
  if x.spareUsed then x
  else if x.d0.ejected then { x with d0 := {}, spareUsed := true }
  else if x.d1.ejected then { x with d1 := {}, spareUsed := true }
  else x

/-- The spare of site `i` at its window. -/
def State.spareIn (s : State) (i : Nat) : State :=
  let x := s.site i
  if x.spareUsed then s
  else if x.d0.ejected then s.setSite i { x with d0 := {}, spareUsed := true }
  else if x.d1.ejected then s.setSite i { x with d1 := {}, spareUsed := true }
  else s

theorem State.site_setSite_same (s : State) (i : Nat) (x : Site) : (s.setSite i x).site i = x := Map.get_set_same ..

theorem State.site_setSite_other {s : State} {i k : Nat} (x : Site) (h : i ≠ k) : (s.setSite i x).site k = s.site k :=
  Map.get_set_other _ _ _ _ _ h

theorem State.site_spareIn_same (s : State) (i : Nat) : (s.spareIn i).site i = (s.site i).spared := by
  unfold State.spareIn Site.spared
  dsimp only
  split
  · rfl
  · split
    · exact State.site_setSite_same ..
    · split
      · exact State.site_setSite_same ..
      · rfl

theorem State.site_spareIn_other {s : State} {i k : Nat} (h : i ≠ k) : (s.spareIn i).site k = s.site k := by
  unfold State.spareIn
  dsimp only
  split
  · rfl
  · split
    · exact State.site_setSite_other _ h
    · split
      · exact State.site_setSite_other _ h
      · rfl

/-- The sites of a recalibration group (11 Table CLP-2). -/
def recalGroup (g : Nat) : List Nat := (List.range 266).filter fun i => i % 16 == g % 16

theorem recalWindow_of_open {s : State} {g : Nat} (hopens : s.opensWindow 65536 (49152 + 4 * g) = true) (hstage : 1 ≤ s.bup.stage.toNat) :
    recalWindow s g = (recalGroup g).foldl State.spareIn s := if_neg (by rw [hopens]; simp; omega)

theorem site_recal (s : State) (g i : Nat) :
    ((recalGroup g).foldl State.spareIn s).site i = if i ∈ recalGroup g then (s.site i).spared else s.site i := by
  have hother (t : State) (b : Nat) (_ : True) (h : b ≠ i) : (t.spareIn b).site i = t.site i := State.site_spareIn_other h
  split
  · rename_i hi
    exact foldl_of_mem (P := fun _ => True) (g := fun t : State => t.site i) (fun _ _ h => h) hother (fun t _ => t.site_spareIn_same i)
      (List.nodup_range.filter _) hi trivial
  · rename_i hi
    exact foldl_of_notMem (P := fun _ => True) (g := fun t : State => t.site i) (fun _ _ h => h) hother hi trivial

theorem mem_recalGroup {g : BitVec 4} {i : Nat} : i ∈ recalGroup g.toNat ↔ i < 266 ∧ i % 16 = g.toNat := by
  have hg := g.isLt
  have hmod : g.toNat % 16 = g.toNat := by omega
  simp [recalGroup, hmod]

/-! ### The weir (16 R356, R357) -/

/-- The largest excess over a region. -/
def State.regionExcess (s : State) (j : Nat) : Int := match s.hottest j with | some n => s.excess n | none => 0

/-- A region's comparison made. -/
def State.compared (s : State) (j : Nat) (e : Engage) : State :=
  { s with thm := { s.thm with
      engaged := Map.set none s.thm.engaged j (some { e with last := s.regionExcess j, due := e.due + 8000000 }) } }

/-- The weir escalated over a region. -/
def State.escalated (s : State) (j : Nat) : State :=
  { s with
    weirs := Map.set {} s.weirs j { Map.get {} s.weirs j with escalations := satAdd (Map.get {} s.weirs j).escalations 1 }
    thm := { s.thm with escW := BitVec.ofNat 16 (max 600 (s.thm.slotW.toNat - 200)), escAt := none } }

theorem State.engaged_compared (s : State) (j : Nat) (e : Engage) :
    Map.get none (s.compared j e).thm.engaged j = some { e with last := s.regionExcess j, due := e.due + 8000000 } := by
  unfold State.compared
  dsimp only
  rw [Map.get_set_same]

theorem State.escalations_escalated (s : State) (j : Nat) :
    (Map.get {} (s.escalated j).weirs j).escalations = satAdd (Map.get {} s.weirs j).escalations 1 := by
  unfold State.escalated
  dsimp only
  rw [Map.get_set_same]

section
variable {s : State} {j : Nat} {e : Engage} (he : Map.get none s.thm.engaged j = some e)
include he

theorem weirEscalated_of_early (h : s.time < e.due) : weirEscalated s j = s := by
  simp only [weirEscalated, he, if_pos h]

theorem weirEscalated_of_flat (hdue : e.due ≤ s.time) (h : s.regionExcess j ≤ e.last) : weirEscalated s j = s.compared j e := by
  simp only [weirEscalated, he, if_neg (Nat.not_lt.mpr hdue)]
  exact if_pos h

theorem weirEscalated_of_grown (hdue : e.due ≤ s.time) (h : e.last < s.regionExcess j) :
    ∃ es, weirEscalated s j = ({ (s.compared j e).escalated j with events := es } : State).refreshCap := by
  simp only [weirEscalated, he, if_neg (Nat.not_lt.mpr hdue)]
  exact ⟨_, if_neg (Int.not_le.mpr h)⟩

end

/-- The time from which ESC_W may recover again: a second without an engaged region, and a second since it last rose. -/
def State.recoverFrom (s : State) (a : Nat) : Nat := max (a + 1600000000) ((s.thm.escAt.map fun x => x + 1600000000).getD 0)

theorem escRecovery_of_early {s : State} {a : Nat} (hquiet : s.thm.quietSince = some a)
    (h : s.time < s.recoverFrom a ∨ 4800 ≤ s.thm.escW.toNat) : escRecovery s = s := by
  simp only [escRecovery, hquiet]
  exact if_pos h

theorem escRecovery_of_quiet {s : State} {a : Nat} (hquiet : s.thm.quietSince = some a) (hfrom : s.recoverFrom a ≤ s.time)
    (hlow : s.thm.escW.toNat < 4800) :
    escRecovery s = ({ s with thm := { s.thm with escW := BitVec.ofNat 16 (min 4800 (s.thm.escW.toNat + 200))
                                                  escAt := some s.time } } : State).refreshCap := by
  simp only [escRecovery, hquiet]
  exact if_neg (not_or.mpr ⟨Nat.not_lt.mpr hfrom, Nat.not_le.mpr hlow⟩)

/-! ### Tray readings (16 R360, R361) -/

/-- A sensor in service is lost by the fifth miss in a row. -/
theorem State.getLsbD_trayLost_traySensor {s : State} {b : Nat} (hb : b < 3) (hfound : s.thm.trayLost.getLsbD b = false) (k : Nat)
    (ok : Bool) :
    (s.traySensor k b ok).thm.trayLost.getLsbD b = decide (5 ≤ if ok then 0 else s.thm.missRuns.getD k 0 + 1) := by
  have hmask : (BitVec.ofNat 3 (2 ^ b)).getLsbD b = true := by
    rw [BitVec.getLsbD_ofNat, Nat.testBit_two_pow_self, Bool.and_true, decide_eq_true hb]
  have hset : (s.thm.trayLost ||| BitVec.ofNat 3 (2 ^ b)).getLsbD b = true := by rw [BitVec.getLsbD_or, hmask, Bool.or_true]
  have hclear : (s.thm.trayLost &&& ~~~BitVec.ofNat 3 (2 ^ b)).getLsbD b = false := by rw [BitVec.getLsbD_and, hfound, Bool.false_and]
  unfold State.traySensor
  extract_lets t miss good lost now m new u
  have hnew : new.getLsbD b = decide (5 ≤ miss) := by
    have hnow : now = decide (5 ≤ miss) := if_neg (by simp [lost, t, hfound])
    unfold new
    rw [hnow]
    by_cases hmiss : 5 ≤ miss
    · rw [decide_eq_true hmiss]
      exact hset
    · rw [decide_eq_false hmiss]
      exact hclear
  split <;> exact hnew

/-- With no sensor lost, a reading of one is counted and nothing else. -/
theorem State.traySensor_of_good {s : State} (hnone : s.thm.trayLost = 0) (k b : Nat) :
    ∃ m g, s.traySensor k b true = { s with thm := { s.thm with missRuns := m, goodRuns := g } } := by
  refine ⟨s.thm.missRuns.set k 0, s.thm.goodRuns.set k (s.thm.goodRuns.getD k 0 + 1), ?_⟩
  simp [State.traySensor, hnone]

/-- The temperatures taken. -/
def State.tempsTaken (s : State) (m g : List Nat) (a c : Int) : State :=
  { s with thm := { s.thm with missRuns := m, goodRuns := g, inlet := a, outlet := c, lastReading := some s.time } }

/-- A reading of all three sensors with none lost: the temperatures are taken. -/
theorem State.trayTemps_of_good {s : State} (hnone : s.thm.trayLost = 0) (a c : Int) (f : Nat) :
    ∃ m g, s.trayTemps { inlet := some a, outlet := some c, flow := some f } = s.tempsTaken m g a c := by
  obtain ⟨m1, g1, h1⟩ := State.traySensor_of_good hnone 0 2
  obtain ⟨m2, g2, h2⟩ := State.traySensor_of_good (s := { s with thm := { s.thm with missRuns := m1, goodRuns := g1 } }) hnone 1 1
  obtain ⟨m3, g3, h3⟩ := State.traySensor_of_good (s := { s with thm := { s.thm with missRuns := m2, goodRuns := g2 } }) hnone 2 0
  refine ⟨m3, g3, ?_⟩
  simp only [State.trayTemps, Option.isSome_some, h1, h2, h3, Option.getD_some, State.tempsTaken]

/-- The largest flow of the last 200 ms. -/
def State.topFlow (s : State) : Nat :=
  ((s.thm.flows.filter fun e => decide (s.time ≤ e.1 + 320000000)).map Prod.snd).foldl max 0
/-- The flow read last. -/
def State.lastFlow (s : State) : Nat := (s.thm.flows.head?.map Prod.snd).getD 65535

/-- A flow taken down, before what it makes of the coolant state. -/
def State.flowTaken (s : State) (f : Nat) : State :=
  { s with thm := { s.thm with flow := f, lowSince := holdsSince s.thm.lowSince s.time (decide (f < 1536))
                               goodSince := holdsSince s.thm.goodSince s.time (decide (1664 ≤ f))
                               fullSince := holdsSince s.thm.fullSince s.time (decide (1536 ≤ f))
                               flows := (s.time, f) :: s.thm.flows.filter fun e => decide (s.time ≤ e.1 + 320000000) } }

/-- Two flows below 3 L/min in a row: EMERGENCY. -/
theorem State.flowReading_of_stopped {s : State} {f : Nat} (hnone : s.thm.trayLost = 0) (hcool : s.thm.coolant = .normal)
    (hf : f < 768) (hprev : s.lastFlow < 768) :
    ∃ es pins since temps, s.flowReading f =
      { s.flowTaken f with thm := { (s.flowTaken f).thm with coolant := .emergency, emSince := since, emTemps := temps, emAct := true }
                           allSwallowed := false, pins := pins, events := es } := by
  unfold State.flowReading
  extract_lets t top prev low good full lost em u cool
  have hem : em = true := by simp [em, lost, t, prev, hnone, hf, show (s.thm.flows.head?.map Prod.snd).getD 65535 < 768 from hprev]
  have ht : t.coolant = .normal := hcool
  rw [ht]
  exact ⟨_, _, _, _, if_pos hem⟩

/-- A flow that neither stops nor falls steeply: ALARM once it has been low for 100 ms. -/
theorem State.flowReading_of_steady {s : State} {f : Nat} (hcool : s.thm.coolant = .normal) (hf : 768 ≤ f) (hsteep : 6 * s.topFlow ≤ 10 * f) :
    s.flowReading f =
      if heldFor (s.flowTaken f).thm.lowSince s.time 160000000 = true then
        (s.flowTaken f).setCoolant .alarm cThmCoolantAlarm [0, s.thm.flow, f, 0]
      else s.flowTaken f := by
  unfold State.flowReading
  extract_lets t top prev low good full lost em u cool
  have hem : ¬em = true := by
    have hflows : ¬f < 768 := Nat.not_lt.mpr hf
    have hholds : ¬10 * f < 6 * top := Nat.not_lt.mpr hsteep
    simp [em, hflows, hholds]
  have ht : t.coolant = .normal := hcool
  rw [ht]
  exact (if_neg hem).trans (if_pos rfl)

/-- A reading taken with no sensor lost: then ALERT_N and the cap follow. -/
theorem trayReading_of_found {s v : State} {x : TrayIn} {f : Nat} (hstage : 1 ≤ s.bup.stage.toNat) (hx : x.flow = some f)
    (hv : (s.trayTemps x).flowReading f = v) (hnone : v.thm.trayLost = 0) :
    ∃ es, trayReading s x =
      { v with thm := { v.thm with capW := BitVec.ofNat 16 v.capNow }, pins := { v.pins with alertN := v.alertNow }, events := es } := by
  have hlost : v.flowLost = v := if_neg (by simp [hnone])
  obtain ⟨es, hcap⟩ := v.refreshAlert.refreshCap_eq
  refine ⟨es, ?_⟩
  unfold trayReading
  rw [if_neg (Nat.not_lt.mpr hstage), hx]
  show (((s.trayTemps x).flowReading f).flowLost).refreshAlert.refreshCap = _
  rw [hv, hlost, hcap]
  rfl

/-- In S1 or later a coolant state other than NORMAL drives ALERT_N low (R370). -/
theorem State.alertNow_of_coolant {s : State} (hstage : 1 ≤ s.bup.stage.toNat) (hcool : s.thm.coolant ≠ .normal) : s.alertNow = false := by
  simp [State.alertNow, hstage, hcool]

section
variable {s : State} (a c : Int) {f : Nat} (hstage : 1 ≤ s.bup.stage.toNat) (hnone : s.thm.trayLost = 0) (hcool : s.thm.coolant = .normal)
include hstage hnone hcool

theorem trayReading_of_stopped (hf : f < 768) (hprev : s.lastFlow < 768) :
    ∃ u, trayReading s { inlet := some a, outlet := some c, flow := some f } = u ∧ u.thm.coolant = .emergency ∧ u.thm.emAct = true ∧
      u.thm.capW = 800 ∧ u.pins.alertN = false ∧ u.thm.flow = f ∧ u.thm.inlet = a := by
  obtain ⟨m, g, htemps⟩ := State.trayTemps_of_good hnone a c f
  obtain ⟨es, pins, since, temps, hflow⟩ := State.flowReading_of_stopped (s := s.tempsTaken m g a c) hnone hcool hf hprev
  replace hflow := (congrArg (State.flowReading · f) htemps).trans hflow
  obtain ⟨fs, hread⟩ := trayReading_of_found hstage rfl hflow hnone
  exact ⟨_, hread, rfl, rfl, rfl, State.alertNow_of_coolant hstage Coolant.noConfusion, rfl, rfl⟩

section
variable (hf : 768 ≤ f) (hsteep : 6 * s.topFlow ≤ 10 * f)
include hf hsteep

theorem trayReading_of_low {w : Nat} (hlow : f < 1536) (hsince : s.thm.lowSince = some w) (hheld : w + 160000000 ≤ s.time) :
    ∃ u, trayReading s { inlet := some a, outlet := some c, flow := some f } = u ∧ u.thm.coolant = .alarm ∧ u.pins.alertN = false ∧
      u.allSwallowed = false := by
  obtain ⟨m, g, htemps⟩ := State.trayTemps_of_good hnone a c f
  have hflow := State.flowReading_of_steady (s := s.tempsTaken m g a c) hcool hf hsteep
  have hlate : heldFor (holdsSince s.thm.lowSince s.time (decide (f < 1536))) s.time 160000000 = true := by
    simp [heldFor, holdsSince, hlow, hsince, hheld]
  obtain ⟨es, pins, halarm⟩ := ((s.tempsTaken m g a c).flowTaken f).setCoolant_eq .alarm cThmCoolantAlarm [0, s.thm.flow, f, 0]
  replace hflow := (congrArg (State.flowReading · f) htemps).trans hflow
  obtain ⟨fs, hread⟩ := trayReading_of_found hstage rfl ((hflow.trans (if_pos hlate)).trans halarm) hnone
  exact ⟨_, hread, rfl, State.alertNow_of_coolant hstage Coolant.noConfusion, rfl⟩

theorem trayReading_of_full (hfull : 1536 ≤ f) :
    ∃ u, trayReading s { inlet := some a, outlet := some c, flow := some f } = u ∧ u.thm.coolant = .normal ∧ u.thm.lowSince = none ∧
      u.pins.alertN = !s.thm.inputRange ∧ u.mem = s.mem ∧ u.cores = s.cores := by
  obtain ⟨m, g, htemps⟩ := State.trayTemps_of_good hnone a c f
  have hflow := State.flowReading_of_steady (s := s.tempsTaken m g a c) hcool hf hsteep
  have hlow : holdsSince s.thm.lowSince s.time (decide (f < 1536)) = none := by simp [holdsSince, Nat.not_lt.mpr hfull]
  have hearly : ¬heldFor (holdsSince s.thm.lowSince s.time (decide (f < 1536))) s.time 160000000 = true := by simp [hlow, heldFor]
  replace hflow := (congrArg (State.flowReading · f) htemps).trans hflow
  obtain ⟨fs, hread⟩ := trayReading_of_found hstage rfl (hflow.trans (if_neg hearly)) hnone
  refine ⟨_, hread, hcool, hlow, ?_, rfl, rfl⟩
  simp [State.alertNow, State.flowTaken, State.tempsTaken, hstage, hnone, hcool]

end
end

/-! ### A sample: what the weir and the refresh rates are formed from (16 R351) -/

/-- What the excesses and the layers' temperatures are read from, and what counts the samples. -/
structure Control where
  sites : Map Site
  coreAct : Map Int
  samples : Nat
  lastSample : Option Nat
  nCores : Nat
  site : Nat → BitVec 10

/-- The control values in force. -/
def Heat.control (h : Heat) : Control where
  sites := h.thm.sites
  coreAct := h.thm.coreAct
  samples := h.thm.samples
  lastSample := h.thm.lastSample
  nCores := h.nCores
  site := h.site

section
variable {s t : State} (h : t.heat.control = s.heat.control)
include h

theorem State.site_of_control (n : Nat) : (t.core n).site = (s.core n).site := congrFun (congrArg Control.site h) n

theorem State.samples_of_control : t.thm.samples = s.thm.samples ∧ t.thm.lastSample = s.thm.lastSample :=
  ⟨congrArg Control.samples h, congrArg Control.lastSample h⟩

theorem State.ctrlOn_of_control : t.ctrlOn = s.ctrlOn := by
  have hsites : t.thm.sites = s.thm.sites := congrArg Control.sites h
  funext i
  unfold State.ctrlOn State.site
  rw [hsites]

theorem State.regionCores_of_control (j : Nat) : t.regionCores j = s.regionCores j := by
  have hcores : t.nCores = s.nCores := congrArg Control.nCores h
  unfold State.regionCores
  simp only [hcores, State.site_of_control h]

theorem State.layerTemp_of_control (j l : Nat) : t.layerTemp j l = s.layerTemp j l := by
  unfold State.layerTemp
  rw [State.ctrlOn_of_control h]

theorem State.coreOn_of_control : t.coreOn = s.coreOn := by
  have hact : t.thm.coreAct = s.thm.coreAct := congrArg Control.coreAct h
  funext n
  unfold State.coreOn
  rw [hact]

theorem State.excess_of_control : t.excess = s.excess := by
  funext n
  unfold State.excess State.clusterOf
  rw [State.ctrlOn_of_control h, State.coreOn_of_control h, State.site_of_control h]

theorem State.hottest_of_control (j : Nat) : t.hottest j = s.hottest j := by
  unfold State.hottest
  rw [State.regionCores_of_control h, State.excess_of_control h, State.coreOn_of_control h]

theorem State.regionExcess_of_control (j : Nat) : t.regionExcess j = s.regionExcess j := by
  unfold State.regionExcess
  rw [State.hottest_of_control h, State.excess_of_control h]

end

@[simp] theorem State.heat_thm (s : State) : s.heat.thm = s.thm := rfl

@[simp] theorem State.heat_weirs (s : State) : s.heat.weirs = s.weirs := rfl

theorem State.refRate_of_heat {s t : State} (h : t.heat.refRate = s.heat.refRate) (n l : Nat) :
    (t.sub n l).refRate = (s.sub n l).refRate := congrFun (congrFun h n) l

/-! ### A sample's diodes (16 R351 to R354) -/

/-- What the diodes' part of a sample leaves. -/
def Heat.seats (h : Heat) : Nat × Nat × (Nat → BitVec 10) × (Nat → Nat → BitVec 2) := (h.thm.samples, h.nCores, h.site, h.refRate)

theorem Heat.seats_inj {h k : Heat} (e : h.seats = k.seats) : h.thm.samples = k.thm.samples ∧ h.refRate = k.refRate := by
  obtain ⟨hsamples, hrest⟩ := Prod.mk.inj e
  exact ⟨hsamples, (Prod.mk.inj (Prod.mk.inj hrest).2).2⟩

@[simp] theorem State.heat_diodeNews (s : State) (i k : Nat) (old new : Diode) (other : Int) :
    (s.diodeNews i k old new other).heat = s.heat := by
  unfold State.diodeNews
  dsimp only
  split <;> split <;> rfl

theorem State.seats_sampleSite (s s0 : State) (i : Nat) (v : Int × Int) (cw rw : List Nat) :
    (s.sampleSite s0 i v cw rw).heat.seats = s.heat.seats := by
  unfold State.sampleSite
  extract_lets x v0 v1 first out0 out1 d0 d1 both due e0 e1 d0' d1' apart t u w was est ctrl
  have hw : w.heat = s.heat := by
    have hu : u.heat = s.heat := (State.heat_diodeNews ..).trans (State.heat_diodeNews ..)
    unfold w
    split
    · exact hu
    · exact hu
  split
  · rfl
  · exact (congrArg Heat.seats hw : w.heat.seats = s.heat.seats)

theorem State.seats_sampleCore (s s0 : State) (n : Nat) (v : Int) : (s.sampleCore s0 n v).heat.seats = s.heat.seats := by
  unfold State.sampleCore
  dsimp only
  split <;> split <;> rfl

/-- The diodes' part of a sample. -/
def State.sampleDiodes (s : State) (x : SampleIn) : State :=
  let newTurn := match s.thm.lastSample with | some t => t / 65536 != s.turn | none => true
  let s1 := (x.sites.zipIdx.filter fun p => decide (p.2 < 266)).foldl (fun a p => a.sampleSite s p.2 p.1 x.clusterW x.rsvW) s.inForce
  let s1 := (x.cores.zipIdx.filter fun p => decide (p.2 < s.nCores)).foldl (fun a p => a.sampleCore s p.2 p.1) s1
  ((List.range 264).filter fun i => (siteStack i).2.1 != 0).foldl (fun a i => a.sampleSyms i newTurn) s1

theorem State.seats_sampleDiodes (s : State) (x : SampleIn) : (s.sampleDiodes x).heat.seats = s.heat.seats := by
  let seats (t : State) := t.heat.seats
  unfold State.sampleDiodes
  extract_lets newTurn s1 s2
  have h1 : seats s1 = seats s := foldl_frame seats _ (fun t p => t.seats_sampleSite ..) _ s.inForce
  have h2 : seats s2 = seats s1 := foldl_frame seats _ (fun t p => t.seats_sampleCore ..) _ s1
  exact (foldl_frame seats _ (fun t i => by rfl) _ s2).trans (h2.trans h1)

/-! ### A sample's weirs (16 R357) -/

/-- The weirs' part of a sample. -/
def State.sampleWeirs (s : State) : State := (List.range 8).foldl State.sampleWeir s

theorem State.sampleWeir_leaves (s : State) (j : Nat) :
    (s.sampleWeir j).heat.control = s.heat.control ∧ (s.sampleWeir j).heat.refRate = s.heat.refRate := by
  unfold State.sampleWeir
  extract_lets w x on w' e
  clear_value w' e
  exact ⟨rfl, rfl⟩

theorem State.sampleWeirs_leaves (s : State) :
    s.sampleWeirs.heat.control = s.heat.control ∧ s.sampleWeirs.heat.refRate = s.heat.refRate :=
  Prod.mk.inj (foldl_frame (fun t : State => (t.heat.control, t.heat.refRate)) State.sampleWeir
    (fun t j => Prod.ext (t.sampleWeir_leaves j).1 (t.sampleWeir_leaves j).2) (List.range 8) s)

/-- What a sample sets of the weir of a region. -/
def weirSet (w : Weir) : Bool × BitVec 8 := (w.engaged, w.swallow)

theorem State.weirSet_sampleWeir (s : State) (j : Nat) :
    weirSet (Map.get {} (s.sampleWeir j).weirs j) = (decide (0 < s.regionExcess j), BitVec.ofNat 8 (swallowOf (s.regionExcess j))) := by
  have hweir : Map.get {} (s.sampleWeir j).weirs j = _ := Map.get_set_same ..
  rw [hweir]
  rfl

theorem State.weirSet_sampleWeirs (s : State) {j : Nat} (hj : j < 8) :
    weirSet (Map.get {} s.sampleWeirs.weirs j) = (decide (0 < s.regionExcess j), BitVec.ofNat 8 (swallowOf (s.regionExcess j))) := by
  refine foldl_of_mem (P := fun t : State => t.heat.control = s.heat.control) (g := fun t : State => weirSet (Map.get {} t.weirs j))
    (new := fun _ => (decide (0 < s.regionExcess j), BitVec.ofNat 8 (swallowOf (s.regionExcess j))))
    (fun t b ht => (t.sampleWeir_leaves b).1.trans ht) (fun t b _ hb => ?_) (fun t ht => ?_) List.nodup_range (List.mem_range.mpr hj) rfl
  · exact congrArg weirSet (Map.get_set_other _ _ _ _ _ hb)
  · rw [State.weirSet_sampleWeir, State.regionExcess_of_control ht]

/-! ### A sample's refresh rates (06 R148, R149) -/

/-- A sub-channel at the temperature of its layer, and the hold of its writes with it. -/
def State.rateSub (t : Int) (hot : Bool) (l : Nat) (s : State) (n : Nat) : State :=
  let x := s.sub n l
  let injected := s.wh.injs.any fun i => i.ty == 6 && i.applied.isSome && i.w1 % 512 == n && bitsOf i.w1 16 2 == l
  let s := s.setSub n l { x with refRate := BitVec.ofNat 2 (refNext x.refRate.toNat t), whold := x.whold || hot }
  if x.whold && !hot && !injected then s.releaseHold n l else s

/-- Whether a layer over a region calls for a write hold after a sample. -/
def State.hotLayer (s : State) (j l : Nat) : Bool :=
  decide (840 < s.layerTemp j l) || (Map.get false s.thm.layerHot (4 * j + l) && decide (800 ≤ s.layerTemp j l))

theorem State.sampleLayer_eq (s : State) (j l : Nat) :
    s.sampleLayer j l = (s.regionCores j).foldl (State.rateSub (s.layerTemp j l) (s.hotLayer j l) l)
      { s with thm := { s.thm with layerHot := Map.set false s.thm.layerHot (4 * j + l) (s.hotLayer j l) } } := rfl

theorem State.heat_rateSub (t : Int) (hot : Bool) (l : Nat) (s : State) (n : Nat) :
    ∃ x : SubCh, x.refRate = BitVec.ofNat 2 (refNext (s.sub n l).refRate.toNat t) ∧ (s.rateSub t hot l n).heat = (s.setSub n l x).heat := by
  refine ⟨{ s.sub n l with refRate := BitVec.ofNat 2 (refNext (s.sub n l).refRate.toNat t), whold := (s.sub n l).whold || hot }, rfl, ?_⟩
  unfold State.rateSub
  dsimp only
  split
  · exact State.heat_releaseHold ..
  · rfl

/-- What the layers' part of a sample leaves. -/
def Heat.still (h : Heat) : Control × Map Weir := (h.control, h.weirs)

theorem Heat.still_inj {h k : Heat} (e : h.still = k.still) : h.control = k.control ∧ h.weirs = k.weirs := Prod.mk.inj e

theorem State.still_rateSub (t : Int) (hot : Bool) (l : Nat) (s : State) (n : Nat) :
    (s.rateSub t hot l n).heat.still = s.heat.still := by
  obtain ⟨x, -, h⟩ := State.heat_rateSub t hot l s n
  rw [h]
  rfl

theorem State.refRate_rateSub_same (t : Int) (hot : Bool) (l : Nat) (s : State) (n : Nat) :
    ((s.rateSub t hot l n).sub n l).refRate = BitVec.ofNat 2 (refNext (s.sub n l).refRate.toNat t) := by
  obtain ⟨x, hx, h⟩ := State.heat_rateSub t hot l s n
  exact (State.refRate_of_heat (congrArg Heat.refRate h) n l).trans ((congrArg SubCh.refRate (State.sub_setSub_same ..)).trans hx)

theorem State.refRate_rateSub_other (t : Int) (hot : Bool) {l m j : Nat} (s : State) {n : Nat} (hne : (m, j) ≠ (n, l)) :
    ((s.rateSub t hot l n).sub m j).refRate = (s.sub m j).refRate := by
  obtain ⟨x, -, h⟩ := State.heat_rateSub t hot l s n
  exact (State.refRate_of_heat (congrArg Heat.refRate h) m j).trans (congrArg SubCh.refRate (State.sub_setSub_other x hne))

theorem State.still_sampleLayer (s : State) (j l : Nat) : (s.sampleLayer j l).heat.still = s.heat.still := by
  rw [State.sampleLayer_eq]
  exact foldl_frame (fun t : State => t.heat.still) _ (fun t n => State.still_rateSub _ _ l t n) _ _

theorem State.refRate_sampleLayer_of_mem {s : State} {j n : Nat} (hn : n ∈ s.regionCores j) (l : Nat) :
    ((s.sampleLayer j l).sub n l).refRate = BitVec.ofNat 2 (refNext (s.sub n l).refRate.toNat (s.layerTemp j l)) := by
  rw [State.sampleLayer_eq]
  exact foldl_of_mem (P := fun _ => True) (g := fun t : State => (t.sub n l).refRate)
    (new := fun r => BitVec.ofNat 2 (refNext r.toNat (s.layerTemp j l))) (fun _ _ h => h)
    (fun t m _ hm => State.refRate_rateSub_other _ _ t (fun h => hm (Prod.mk.inj h).1.symm)) (fun t _ => State.refRate_rateSub_same ..)
    (List.nodup_range.filter _) hn trivial

theorem State.refRate_sampleLayer_of_other {s : State} {j l n i : Nat} (h : n ∉ s.regionCores j ∨ i ≠ l) :
    ((s.sampleLayer j l).sub n i).refRate = (s.sub n i).refRate := by
  rw [State.sampleLayer_eq]
  rcases h with hn | hi
  · exact foldl_of_notMem (P := fun _ => True) (g := fun t : State => (t.sub n i).refRate) (fun _ _ h => h)
      (fun t m _ hm => State.refRate_rateSub_other _ _ t (fun h => hm (Prod.mk.inj h).1.symm)) hn trivial
  · exact foldl_frame (fun t : State => (t.sub n i).refRate) _
      (fun t m => State.refRate_rateSub_other _ _ t (fun h => hi (Prod.mk.inj h).2)) _ _

/-- The layers' part of a sample. -/
def State.sampleLayers (s : State) : State := (List.range 32).foldl (fun a i => a.sampleLayer (i / 4) (i % 4)) s

theorem State.still_sampleLayers (s : State) : s.sampleLayers.heat.still = s.heat.still :=
  foldl_frame (fun t : State => t.heat.still) _ (fun t i => t.still_sampleLayer (i / 4) (i % 4)) (List.range 32) s

theorem State.refRate_sampleLayers {s : State} {j l n : Nat} (hj : j < 8) (hl : l < 4) (hn : n ∈ s.regionCores j) :
    (s.sampleLayers.sub n l).refRate = BitVec.ofNat 2 (refNext (s.sub n l).refRate.toNat (s.layerTemp j l)) := by
  have hregion : (s.core n).site.toNat / 128 = j := by simpa using (List.mem_filter.mp hn).2
  refine foldl_of_mem (a := 4 * j + l) (P := fun t : State => t.heat.control = s.heat.control) (g := fun t : State => (t.sub n l).refRate)
    (new := fun r => BitVec.ofNat 2 (refNext r.toNat (s.layerTemp j l)))
    (fun t i ht => (Heat.still_inj (t.still_sampleLayer (i / 4) (i % 4))).1.trans ht) (fun t i ht hi => ?_) (fun t ht => ?_)
    List.nodup_range (List.mem_range.mpr (by omega)) rfl
  · refine State.refRate_sampleLayer_of_other ?_
    by_cases hlayer : l = i % 4
    · left
      intro hmem
      have hother : (t.core n).site.toNat / 128 = i / 4 := by simpa using (List.mem_filter.mp hmem).2
      rw [State.site_of_control ht, hregion] at hother
      omega
    · exact .inr hlayer
  · have hdiv : (4 * j + l) / 4 = j := by omega
    have hmod : (4 * j + l) % 4 = l := by omega
    rw [hdiv, hmod, State.refRate_sampleLayer_of_mem (by rwa [State.regionCores_of_control ht]), State.layerTemp_of_control ht]

/-! ### The end of a sample (16 R358, R362, R367, R368) -/

/-- What the end of a sample leaves. -/
def Heat.sampled (h : Heat) : Control × Map Weir × (Nat → Nat → BitVec 2) := (h.control, h.weirs, h.refRate)

theorem Heat.sampled_inj {h k : Heat} (e : h.sampled = k.sampled) :
    h.control = k.control ∧ h.weirs = k.weirs ∧ h.refRate = k.refRate := by
  obtain ⟨hcontrol, hrest⟩ := Prod.mk.inj e
  exact ⟨hcontrol, Prod.mk.inj hrest⟩

/-- The reservoirs' part of a sample, and the activation budgets. -/
def State.sampleReservoirs (s : State) : State :=
  let rates := ((List.range 264).filter fun i => decide (160 ≤ i) && (siteStack i).2.1 != 0).foldl
    (fun m i => Map.set 0 m i (refNext (Map.get 0 m i) (s.ctrlOn i))) s.thm.rsvRate
  let top (k : Nat) : Nat := ((List.range 12).map fun l => Map.get 0 rates (161 + 13 * k + l)).foldl max 0
  let s1 := { s with thm := { s.thm with rsvRate := rates } }
  let s1 := (List.range 256).foldl
    (fun a i => a.setChan (i / 32) (i % 32) { a.chan (i / 32) (i % 32) with refRate := BitVec.ofNat 2 (top (i / 32)) }) s1
  { s1 with thm := { s1.thm with
    budget := (List.range 264).foldl (fun m i => Map.set 0 m i (budgetNext (Map.get 0 s1.thm.budget i) (s1.ctrlOn i))) s1.thm.budget } }

theorem State.sampled_withBudget (s : State) (b : Map Nat) :
    ({ s with thm := { s.thm with budget := b } } : State).heat.sampled = s.heat.sampled := rfl

theorem State.sampled_withRates (s : State) (r : Map Nat) :
    ({ s with thm := { s.thm with rsvRate := r } } : State).heat.sampled = s.heat.sampled := rfl

theorem State.sampled_sampleReservoirs (s : State) : s.sampleReservoirs.heat.sampled = s.heat.sampled := by
  unfold State.sampleReservoirs
  extract_lets rates top _ t u
  have hu : u.heat = t.heat := foldl_frame State.heat _ (fun a i => State.heat_setChan ..) _ t
  clear_value u
  rw [State.sampled_withBudget, hu]
  exact State.sampled_withRates s rates

theorem State.sampled_actEmergency (s : State) : s.actEmergency.heat.sampled = s.heat.sampled := by
  unfold State.actEmergency
  split <;> rfl

theorem State.sampled_samplePower (s : State) (p vin : Nat) :
    (s.samplePower p vin).heat.sampled = s.heat.sampled ∧ (s.samplePower p vin).thm.sampleW = BitVec.ofNat 16 p := ⟨rfl, rfl⟩

/-- A module that enters HALTED stops queues and streams; of the sensors only the coolant state changes. -/
theorem State.heat_enterHalted (s : State) (i : Nat) :
    (s.enterHalted i).heat = { s.heat with thm := { s.thm with coolant := .halted } } := by
  unfold State.enterHalted
  extract_lets t js
  have ht : t.heat = { s.heat with thm := { s.thm with coolant := .halted } } := rfl
  clear_value t
  refine (foldl_frame State.heat _ (fun u j => ?_) js t).trans ht
  extract_lets v
  have hv : v.heat = u.heat := foldl_frame State.heat _ (fun w c => w.heat_cancelStream ..) _ u
  clear_value v
  refine (foldl_frame State.heat _ (fun w p => ?_) j.queues v).trans hv
  split
  · rfl
  · exact State.heat_haltQueue ..

theorem State.heat_checkHalted (s : State) : ∃ c, s.checkHalted.heat = { s.heat with thm := { s.thm with coolant := c } } := by
  unfold State.checkHalted
  split
  · exact ⟨s.thm.coolant, rfl⟩
  · split
    · exact ⟨_, State.heat_enterHalted ..⟩
    · exact ⟨s.thm.coolant, rfl⟩

/-! ### SENSOR_SAMPLE -/

/-- A sample counted. -/
def State.sampleCounted (s : State) (now : Nat) : State :=
  { s with thm := { s.thm with samples := s.thm.samples + 1, lastSample := some now } }

/-- Since when no region is engaged. -/
def State.sampleQuiet (s : State) (now : Nat) : State :=
  { s with thm := { s.thm with
      quietSince := if (Map.keys s.thm.engaged) != [] then none else some (s.thm.quietSince.getD now) } }

theorem State.sampled_sampleQuiet (s : State) (now : Nat) : (s.sampleQuiet now).heat.sampled = s.heat.sampled := rfl

/-- The state of a sample once its diodes are read and it is counted. -/
def State.sampleRead (s : State) (x : SampleIn) : State := (s.sampleDiodes x).sampleCounted s.tick

/-- A sample once its weirs are formed. -/
def State.sampleWeired (s : State) (x : SampleIn) : State := (s.sampleRead x).sampleWeirs.sampleQuiet s.time

/-- A sample up to the cap, in the order its parts are formed. -/
def State.sampleFormed (s : State) (x : SampleIn) : State :=
  (((s.sampleWeired x).sampleLayers.sampleReservoirs).actEmergency.samplePower x.inputW x.vin).checkHalted

/-- The state a sample leaves. -/
def State.sampleEnd (s : State) (x : SampleIn) : State := (s.sampleFormed x).refreshCap

theorem sensorSample_of_early {s : State} (h : s.tick % 100 ≠ 0 ∨ s.thm.lastSample = some s.tick ∨ s.bup.stage.toNat < 1) (x : SampleIn) :
    sensorSample s x = s := if_pos h

theorem sensorSample_of_due {s : State} (htick : s.tick % 100 = 0) (hlast : s.thm.lastSample ≠ some s.tick) (hstage : 1 ≤ s.bup.stage.toNat)
    (x : SampleIn) : sensorSample s x = s.sampleEnd x := by
  have hgo : ¬(s.tick % 100 ≠ 0 ∨ s.thm.lastSample = some s.tick ∨ s.bup.stage.toNat < 1) := by
    rintro (h | h | h)
    · exact h htick
    · exact hlast h
    · omega
  unfold sensorSample
  rw [if_neg hgo]
  extract_lets newTurn a b layers c _ d e any _ f g rates top _ h i _ j
  have hc : c = s.sampleDiodes x := rfl
  clear_value c
  have he : e = (c.sampleCounted s.tick).sampleWeirs := rfl
  clear_value e
  have hg : g = (e.sampleQuiet s.time).sampleLayers := rfl
  clear_value g
  have hj : j = g.sampleReservoirs := by
    unfold State.sampleReservoirs
    rfl
  clear_value j
  rw [hj, hg, he, hc, State.sampleEnd, State.sampleFormed, State.sampleWeired, State.sampleRead]

section
variable (s : State) (x : SampleIn)

theorem State.sampleRead_counts :
    (s.sampleRead x).thm.samples = s.thm.samples + 1 ∧ (s.sampleRead x).thm.lastSample = some s.tick ∧
      (s.sampleRead x).heat.refRate = s.heat.refRate := by
  obtain ⟨hsamples, hrate⟩ := Heat.seats_inj (s.seats_sampleDiodes x)
  have hcounted (t : State) (n : Nat) : (t.sampleCounted n).thm.samples = t.heat.thm.samples + 1 ∧
      (t.sampleCounted n).thm.lastSample = some n ∧ (t.sampleCounted n).heat.refRate = t.heat.refRate := ⟨rfl, rfl, rfl⟩
  obtain ⟨hn, hlast, hkept⟩ := hcounted (s.sampleDiodes x) s.tick
  exact ⟨hn.trans (congrArg (· + 1) hsamples), hlast, hkept.trans hrate⟩

theorem State.sampleWeired_leaves :
    (s.sampleWeired x).heat.control = (s.sampleRead x).heat.control ∧ (s.sampleWeired x).heat.weirs = (s.sampleRead x).sampleWeirs.heat.weirs ∧
      (s.sampleWeired x).heat.refRate = s.heat.refRate := by
  obtain ⟨hcontrol, hrate⟩ := (s.sampleRead x).sampleWeirs_leaves
  obtain ⟨hquiet, hweirs, hkept⟩ := Heat.sampled_inj ((s.sampleRead x).sampleWeirs.sampled_sampleQuiet s.time)
  exact ⟨hquiet.trans hcontrol, hweirs, hkept.trans (hrate.trans (s.sampleRead_counts x).2.2)⟩

/-- What follows the layers' part of a sample leaves what they formed. -/
theorem State.sampleFormed_leaves :
    (s.sampleFormed x).heat.sampled = (s.sampleWeired x).sampleLayers.heat.sampled ∧
      (s.sampleFormed x).thm.sampleW = BitVec.ofNat 16 x.inputW := by
  have hends (t : State) : ((t.samplePower x.inputW x.vin).checkHalted).heat.sampled = t.heat.sampled ∧
      ((t.samplePower x.inputW x.vin).checkHalted).thm.sampleW = BitVec.ofNat 16 x.inputW := by
    obtain ⟨c, hhalted⟩ := (t.samplePower x.inputW x.vin).heat_checkHalted
    rw [← State.heat_thm, hhalted]
    exact t.sampled_samplePower x.inputW x.vin
  obtain ⟨hsampled, hpower⟩ := hends (((s.sampleWeired x).sampleLayers.sampleReservoirs).actEmergency)
  rw [State.sampled_actEmergency, State.sampled_sampleReservoirs] at hsampled
  unfold State.sampleFormed
  exact ⟨hsampled, hpower⟩

theorem State.sampled_refreshCap (s : State) : s.refreshCap.heat.sampled = s.heat.sampled := by
  obtain ⟨es, hcap⟩ := s.refreshCap_eq
  rw [hcap]
  rfl

theorem State.sampleEnd_forms :
    (s.sampleEnd x).heat.control = (s.sampleWeired x).sampleLayers.heat.control ∧
      (s.sampleEnd x).heat.weirs = (s.sampleWeired x).sampleLayers.heat.weirs ∧
      (s.sampleEnd x).heat.refRate = (s.sampleWeired x).sampleLayers.heat.refRate :=
  Heat.sampled_inj ((State.sampled_refreshCap _).trans (s.sampleFormed_leaves x).1)

/-- A sample stands on the control values it has read. -/
theorem State.control_sampleEnd :
    (s.sampleEnd x).heat.control = (s.sampleWeired x).heat.control ∧ (s.sampleEnd x).heat.control = (s.sampleRead x).heat.control := by
  have hlayers := (s.sampleEnd_forms x).1.trans (Heat.still_inj (s.sampleWeired x).still_sampleLayers).1
  exact ⟨hlayers, hlayers.trans (s.sampleWeired_leaves x).1⟩

theorem State.weirSet_sampleEnd {j : Nat} (hj : j < 8) :
    weirSet (Map.get {} (s.sampleEnd x).weirs j) =
      (decide (0 < (s.sampleEnd x).regionExcess j), BitVec.ofNat 8 (swallowOf ((s.sampleEnd x).regionExcess j))) := by
  have hweirs : (s.sampleEnd x).heat.weirs = (s.sampleRead x).sampleWeirs.heat.weirs :=
    calc (s.sampleEnd x).heat.weirs = (s.sampleWeired x).sampleLayers.heat.weirs := (s.sampleEnd_forms x).2.1
      _ = (s.sampleWeired x).heat.weirs := (Heat.still_inj (s.sampleWeired x).still_sampleLayers).2
      _ = (s.sampleRead x).sampleWeirs.heat.weirs := (s.sampleWeired_leaves x).2.1
  rw [State.heat_weirs, State.heat_weirs] at hweirs
  rw [hweirs, State.weirSet_sampleWeirs _ hj, State.regionExcess_of_control (s.control_sampleEnd x).2]

theorem State.refRate_sampleEnd {j l n : Nat} (hj : j < 8) (hl : l < 4) (hn : n ∈ (s.sampleEnd x).regionCores j) :
    ((s.sampleEnd x).sub n l).refRate =
      BitVec.ofNat 2 (refNext (s.sub n l).refRate.toNat ((s.sampleEnd x).layerTemp j l)) := by
  obtain ⟨hsame, -⟩ := s.control_sampleEnd x
  have hbefore := State.refRate_of_heat (s.sampleWeired_leaves x).2.2 n l
  have hafter := State.refRate_of_heat (s.sampleEnd_forms x).2.2 n l
  rw [State.regionCores_of_control hsame] at hn
  rw [hafter, State.refRate_sampleLayers hj hl hn, hbefore, State.layerTemp_of_control hsame]

theorem State.sampleEnd_counts :
    (s.sampleEnd x).thm.samples = s.thm.samples + 1 ∧ (s.sampleEnd x).thm.lastSample = some s.tick ∧
      (s.sampleEnd x).thm.sampleW = BitVec.ofNat 16 x.inputW := by
  obtain ⟨hsamples, hlast, -⟩ := s.sampleRead_counts x
  obtain ⟨hcount, hat⟩ := State.samples_of_control (s.control_sampleEnd x).2
  have hpower : (s.sampleEnd x).thm.sampleW = BitVec.ofNat 16 x.inputW := by
    rw [State.sampleEnd, State.sampleW_refreshCap, (s.sampleFormed_leaves x).2]
  exact ⟨hcount.trans hsamples, hat.trans hlast, hpower⟩

theorem State.capW_sampleEnd : (s.sampleEnd x).thm.capW = BitVec.ofNat 16 (s.sampleEnd x).capNow := by
  unfold State.sampleEnd
  exact State.refreshCap_capW _

end

/-! ### The statement -/

/-- A sample counts, sets the weirs and the refresh rates, and forms the cap anew. -/
theorem sensorSample_settles {s : State} (htick : s.tick % 100 = 0) (hlast : s.thm.lastSample ≠ some s.tick)
    (hstage : 1 ≤ s.bup.stage.toNat) (x : SampleIn) : exec (.sensorSample x) s = .next (s.sampleEnd x) :=
  congrArg Host.Outcome.next (sensorSample_of_due htick hlast hstage x)

/-- A comparison due: recorded, and the weir escalated where the excess has grown. -/
theorem weirEscalated_settles {s : State} {j : Nat} {e : Engage} (he : Map.get none s.thm.engaged j = some e) (hdue : e.due ≤ s.time) :
    Map.get none (weirEscalated s j).thm.engaged j = some { e with last := s.regionExcess j, due := e.due + 8000000 } ∧
      (s.regionExcess j ≤ e.last → (weirEscalated s j).thm.escW = s.thm.escW ∧ (weirEscalated s j).weirs = s.weirs) ∧
      (e.last < s.regionExcess j → (weirEscalated s j).thm.escW = BitVec.ofNat 16 (max 600 (s.thm.slotW.toNat - 200)) ∧
        (Map.get {} (weirEscalated s j).weirs j).escalations = satAdd (Map.get {} s.weirs j).escalations 1 ∧
        (weirEscalated s j).thm.capW = BitVec.ofNat 16 (weirEscalated s j).capNow) := by
  by_cases hflat : s.regionExcess j ≤ e.last
  · rw [weirEscalated_of_flat he hdue hflat]
    exact ⟨s.engaged_compared j e, fun _ => ⟨rfl, rfl⟩, fun hgrown => absurd hflat (Int.not_le.mpr hgrown)⟩
  · obtain ⟨es, hgrown⟩ := weirEscalated_of_grown he hdue (Int.not_le.mp hflat)
    obtain ⟨hthm, hweirs, hnow⟩ := ({ (s.compared j e).escalated j with events := es } : State).refreshCap_leaves
    rw [hgrown, hthm, hweirs, hnow]
    exact ⟨s.engaged_compared j e, fun h => absurd h hflat, fun _ => ⟨rfl, (s.compared j e).escalations_escalated j, rfl⟩⟩

/-- Settles O55: a sample by its parts, each control element by its own rule, and a tray reading by what its flow makes of the coolant
state. -/
theorem samplesAndCoolant : Obligations.SamplesAndCoolant := by
  unfold Obligations.SamplesAndCoolant
  refine ⟨fun s x => ?sample, fun d v out inj => ?diode, fun t => ?rates, fun s g hopens hstage => ?recal, fun s j e he => ?weir,
    fun s a hquiet => ?recovery, fun s k b _ hb hfound => ?sensor, fun s a c f hstage hnone hcool => ?tray⟩
  case sample =>
    refine ⟨fun h => congrArg Host.Outcome.next (sensorSample_of_early h x), fun htick hlast hstage => ?_⟩
    obtain ⟨hsamples, hcounted, hpower⟩ := s.sampleEnd_counts x
    refine ⟨_, sensorSample_settles htick hlast hstage x, hsamples, hcounted, hpower, s.capW_sampleEnd x, fun j hj => ?_⟩
    have hweir := Prod.mk.inj (s.weirSet_sampleEnd x hj)
    have hrates := fun n hn l hl => s.refRate_sampleEnd x hj (l := l) (n := n) hl hn
    generalize s.sampleEnd x = u at hweir hrates ⊢
    exact ⟨hweir.1, hweir.2, hrates⟩
  case diode =>
    refine ⟨fun hout => if_pos hout, fun hin => Diode.sample_of_first hin v inj out,
      fun hin hsus hrun => Diode.suspect_of_eighth hin v inj hsus hrun, fun hin hsus hband => ?_,
      fun hin hsus hrun => Diode.cleared_of_inBand hin v inj hsus hrun, fun hin hsus hband hrun => ?_⟩
    · rw [hband]
      exact Diode.trusted_of_inBand hin v inj hsus
    · rw [hband]
      exact ⟨Diode.ejected_of_suspect hin v false hsus hrun, Diode.ejected_of_suspect hin v true hsus hrun⟩
  case rates =>
    exact ⟨swallowOf_of_nonpos, swallowOf_of_pos, fun r h => refNext_of_hot h r, refNext_of_warm, fun h r => refNext_of_cool h r,
      refNext_of_falling, refNext_of_settling⟩
  case recal =>
    have hsite := site_recal s g.toNat
    refine ⟨_, congrArg Host.Outcome.next (recalWindow_of_open hopens hstage), fun i hi hgroup hleft hej => ?_,
      fun i hi hgroup hleft hok hej => ?_, fun i h => ?_⟩
    · rw [hsite, if_pos (mem_recalGroup.mpr ⟨hi, hgroup⟩)]
      simp [Site.spared, hleft, hej]
    · rw [hsite, if_pos (mem_recalGroup.mpr ⟨hi, hgroup⟩)]
      simp [Site.spared, hleft, hok, hej]
    · rw [hsite]
      rcases h with hother | hused
      · exact if_neg fun h => hother (mem_recalGroup.mp h).2
      · simp [Site.spared, hused]
  case weir =>
    exact ⟨fun h => congrArg Host.Outcome.next (weirEscalated_of_early he h), fun hdue => ⟨_, rfl, weirEscalated_settles he hdue⟩⟩
  case recovery =>
    refine ⟨fun h => congrArg Host.Outcome.next (escRecovery_of_early hquiet h), fun hfrom hlow => ?_⟩
    obtain ⟨es, hcap⟩ := ({ s with thm := { s.thm with escW := BitVec.ofNat 16 (min 4800 (s.thm.escW.toNat + 200))
                                                       escAt := some s.time } } : State).refreshCap_eq
    exact ⟨_, congrArg Host.Outcome.next ((escRecovery_of_quiet hquiet hfrom hlow).trans hcap), rfl, rfl, rfl⟩
  case sensor =>
    refine ⟨fun hfifth => ?_, fun hfew => ?_, ?_⟩
    · rw [State.getLsbD_trayLost_traySensor hb hfound, hfifth]
      rfl
    · rw [State.getLsbD_trayLost_traySensor hb hfound]
      exact decide_eq_false (by simp only [if_neg Bool.false_ne_true]; omega)
    · rw [State.getLsbD_trayLost_traySensor hb hfound]
      rfl
  case tray =>
    intro prev top
    refine ⟨fun hf hprev => ?_, fun w hf hlow hsteep hsince hheld => ?_, fun hfull hsteep => ?_⟩
    · obtain ⟨u, hread, hends⟩ := trayReading_of_stopped a c hstage hnone hcool hf hprev
      exact ⟨u, congrArg Host.Outcome.next hread, hends⟩
    · obtain ⟨u, hread, hends⟩ := trayReading_of_low a c hstage hnone hcool hf hsteep hlow hsince hheld
      exact ⟨u, congrArg Host.Outcome.next hread, hends⟩
    · obtain ⟨u, hread, hends⟩ := trayReading_of_full a c hstage hnone hcool (by omega) hsteep hfull
      exact ⟨u, congrArg Host.Outcome.next hread, hends⟩

end Sys2Proof.Machine
end

section
/-! PROOFS. O25: the life of a bank launch, from a reservoir's staging to its status record (07 R162; 08 R179, R192 to R195). -/

namespace Sys2Proof.Machine

/-! ### The arrival order of a channel (07 R162) -/

/-- Whether an item put into the arrival order comes before `x`, which stands in it. -/
def ArbEntry.Before (e x : ArbEntry) : Prop := e.cycle < x.cycle ∨ (e.cycle = x.cycle ∧ e.rank < x.rank)

/-- An item joins the order behind every entry it does not come before, up to the first it does. -/
theorem orderIn_split (e : ArbEntry) (l : List ArbEntry) :
    ∃ a b, l = a ++ b ∧ orderIn e l = a ++ e :: b ∧ (∀ x ∈ a, ¬e.Before x) ∧ ∀ x ∈ b.head?, e.Before x := by
  induction l with
  | nil => exact ⟨[], [], rfl, rfl, by simp, by simp⟩
  | cons x l ih =>
    by_cases hx : e.Before x
    · exact ⟨[], x :: l, rfl, if_pos hx, by simp, by simpa using hx⟩
    · obtain ⟨a, b, hl, horder, ha, hb⟩ := ih
      refine ⟨x :: a, b, congrArg (x :: ·) hl, (if_neg hx).trans (congrArg (x :: ·) horder), ?_, hb⟩
      exact List.forall_mem_cons.mpr ⟨hx, ha⟩

theorem State.ops_order (s : State) (k c rank : Nat) (i : ArbItem) :
    ((s.order k c rank i).chan k c).ops = orderIn { cycle := nsIn s.time, rank := rank, item := i } (s.chan k c).ops :=
  congrArg Chan.ops (State.chan_setChan ..)

/-- A launch at the head of a channel's order lets no request pass. -/
theorem State.serve_of_launch {s : State} {k c m : Nat} {e : ArbEntry} {rest : List ArbEntry} (hops : (s.chan k c).ops = e :: rest)
    (he : e.item = .launch m) : s.serve k c = s := by
  simp [State.serve, State.serveN, hops, he]

/-! ### A launch ordered (08 R192) -/

@[simp] theorem State.launch_setLaunch (s : State) (m : Nat) (l : Launch) : (s.setLaunch m l).launch m = some l :=
  Map.get_set_same none s.launches m (some l)

/-- Bank launch `l`, numbered `m`, stands in the staging of reservoir `k`. -/
structure State.Staged (s : State) (k m : Nat) (l : Launch) : Prop where
  launch : s.launch m = some l
  kind : l.kind = .bank
  named : l.rsvMask.toNat.testBit k = true
  unordered : l.ordered.toNat.testBit k = false
  live : l.fault = none

namespace State.Staged
variable {s : State} {k m : Nat} {l : Launch} (h : s.Staged k m l)
include h

theorem order_of_fault {code ma : Nat} (hf : (s.fetchVec k m l).2 = .fault code ma) :
    launchOrder s k m = (s.fetchVec k m l).1.stopLaunch m (some (code, bankDetail k 0 0 0)) := by
  simp [launchOrder, h.launch, h.kind, h.named, h.unordered, h.live, hf]

theorem order_of_wait (hf : (s.fetchVec k m l).2 = .wait) : launchOrder s k m = (s.fetchVec k m l).1 := by
  simp [launchOrder, h.launch, h.kind, h.named, h.unordered, h.live, hf]

variable {bs : List Byte} {v : Launch} (hf : (s.fetchVec k m l).2 = .ok bs) (hv : (s.fetchVec k m l).1.launch m = some v)
include hf hv

theorem order_of_retired {c : Nat}
    (hc : ((onesOf 32 v.chMask.toNat).find? fun c => ((s.fetchVec k m l).1.chan k c).st != .active) = some c) :
    launchOrder s k m = (s.fetchVec k m l).1.stopLaunch m (some (cRsvChannelRetired, bankDetail k c 0 0)) := by
  simp [launchOrder, h.launch, h.kind, h.named, h.unordered, h.live, hf, hv, hc]

theorem order_of_active (hc : ∀ c ∈ onesOf 32 v.chMask.toNat, ((s.fetchVec k m l).1.chan k c).st = .active) :
    let t := (onesOf 32 v.chMask.toNat).foldl (fun s c => s.order k c (64 + v.part) (.launch m)) (s.fetchVec k m l).1
    launchOrder s k m = (t.setRsv k { t.rsv k with launches := (t.rsv k).launches + 1 }).setLaunch m
      { v with ordered := v.ordered ||| BitVec.ofNat 8 (2 ^ k), left := Map.set 0 v.left k v.chMask } := by
  have hnone : ((onesOf 32 v.chMask.toNat).find? fun c => ((s.fetchVec k m l).1.chan k c).st != .active) = none :=
    List.find?_eq_none.mpr fun c hm => by simp [hc c hm]
  simp only [launchOrder, h.launch, h.kind, h.named, h.unordered, h.live, hf, hv, hnone, bne_self_eq_false, Bool.not_true,
    Option.isSome_none, Bool.or_self, Bool.false_eq_true, if_false]

end State.Staged

/-! ### A launch that takes its channel (07 R162; 08 R179) -/

/-- A register after a write (08 R177, R181). -/
theorem BUnit.reg_setReg (u : BUnit) (r x j : Nat) : (u.setReg r x).reg j = if r = j ∧ r ≠ 0 then x % 2 ^ 32 else u.reg j := by
  unfold BUnit.reg BUnit.setReg
  by_cases hr : r = 0
  · simp [hr]
  · by_cases hj : r = j
    · subst hj
      simp [hr]
    · simp [hr, hj, Map.get_set_other]

/-- The unit of a bank program at its start: g1 to g5 written, nothing else (08 R179). -/
def Launch.startUnit (l : Launch) (k c b : Nat) : BUnit :=
  (List.range 5).foldl (fun u i => u.setReg (i + 1)
    (if i + 1 = 1 then l.arg0.toNat else if i + 1 = 2 then l.arg1.toNat else if i + 1 = 3 then c else if i + 1 = 4 then b else k)) {}

theorem Launch.startUnit_eq (l : Launch) (k c b : Nat) : l.startUnit k c b =
    ((((({} : BUnit).setReg 1 l.arg0.toNat).setReg 2 l.arg1.toNat).setReg 3 c).setReg 4 b).setReg 5 k := rfl

theorem Launch.startUnit_starts (l : Launch) {k c b : Nat} (hc : c < 32) (hb : b < 8) (hk : k < 8) :
    let u := l.startUnit k c b
    u.reg 1 = l.arg0.toNat ∧ u.reg 2 = l.arg1.toNat ∧ u.reg 3 = c ∧ u.reg 4 = b ∧ u.reg 5 = k ∧
      (∀ r, 5 < r → u.reg r = 0) ∧ u.pc = 0 ∧ u.acc = [] ∧ u.vb = [] ∧ u.ended = false := by
  intro u
  have hread : ∀ r, u.reg r = if r = 5 then k % 2 ^ 32 else if r = 4 then b % 2 ^ 32 else if r = 3 then c % 2 ^ 32 else
      if r = 2 then l.arg1.toNat % 2 ^ 32 else if r = 1 then l.arg0.toNat % 2 ^ 32 else 0 := by
    intro r
    have hclear : ({} : BUnit).reg r = 0 := by simp [BUnit.reg, Map.get]
    simp [u, l.startUnit_eq, BUnit.reg_setReg, hclear, eq_comm]
  exact ⟨(hread 1).trans (Nat.mod_eq_of_lt l.arg0.isLt), (hread 2).trans (Nat.mod_eq_of_lt l.arg1.isLt),
    (hread 3).trans (Nat.mod_eq_of_lt (by omega)), (hread 4).trans (Nat.mod_eq_of_lt (by omega)),
    (hread 5).trans (Nat.mod_eq_of_lt (by omega)), fun r hr => by simp (disch := omega) only [hread, if_neg], rfl, rfl, rfl, rfl⟩

/-- The units of a channel of a bank launch started. -/
def Launch.startUnits (l : Launch) (k c : Nat) : Map BUnit :=
  (List.range 8).foldl (fun m b => Map.set {} m (256 * k + 8 * c + b) (l.startUnit k c b)) l.units

theorem Launch.get_startUnits (l : Launch) (k c : Nat) {b : Nat} (hb : b < 8) :
    Map.get {} (l.startUnits k c) (256 * k + 8 * c + b) = l.startUnit k c b :=
  foldl_of_mem (P := fun _ => True) (g := fun m : Map BUnit => Map.get {} m (256 * k + 8 * c + b)) (new := fun _ => l.startUnit k c b)
    (fun _ _ _ => trivial) (fun _ _ _ hne => Map.get_set_other _ _ _ _ _ (by omega)) (fun _ _ => Map.get_set_same ..)
    List.nodup_range (List.mem_range.mpr hb) trivial

theorem channelSwitch_of_launch {s : State} {k c m : Nat} {l : Launch} {e : ArbEntry} {rest : List ArbEntry}
    (hops : (s.chan k c).ops = e :: rest) (he : e.item = .launch m) (hcur : (s.chan k c).current = none) (hproc : (s.chan k c).proc = false)
    (hl : s.launch m = some l) (hkind : l.kind = .bank) :
    channelSwitch s k c = (s.setLaunch m { l with units := l.startUnits k c }).setChan k c
      { s.chan k c with ops := rest, current := some (.launch m), proc := true, runNs := 0, runPauses := 0,
                        runPart := BitVec.ofNat 5 l.part } := by
  simp only [channelSwitch, State.serve_of_launch hops he, hcur, hproc, hops, he, hl, hkind, Option.isSome_none, Bool.or_self,
    Bool.false_eq_true, if_false]
  rfl

/-- The channel a launch takes is its own until its program ends; memory and cores stand as they did. -/
theorem channelSwitch_takes {s : State} {k c m : Nat} {l : Launch} {e : ArbEntry} {rest : List ArbEntry}
    (hops : (s.chan k c).ops = e :: rest) (he : e.item = .launch m) (hcur : (s.chan k c).current = none) (hproc : (s.chan k c).proc = false)
    (hl : s.launch m = some l) (hkind : l.kind = .bank) :
    let t := channelSwitch s k c
    (t.chan k c).current = some (.launch m) ∧ (t.chan k c).proc = true ∧ (t.chan k c).ops = rest ∧ t.mem = s.mem ∧ t.cores = s.cores ∧
      t.launch m = some { l with units := l.startUnits k c } := by
  intro t
  have ht : t = _ := channelSwitch_of_launch hops he hcur hproc hl hkind
  rw [ht, State.chan_setChan]
  exact ⟨rfl, rfl, rfl, rfl, rfl, State.launch_setLaunch ..⟩

/-! ### The end of a launch (08 R193 to R195) -/

section
variable {s : State} {k c m : Nat} {l : Launch} (hcur : (s.chan k c).current = some (.launch m)) (hl : s.launch m = some l)
include hcur hl

theorem bankBudget_of_spent (hgoing : l.chanEnded k c = false) (hspent : (s.rsv k).budgetUs.toNat * 1000 ≤ l.chanNs k c) :
    bankBudget s k c = (s.setRsv k { s.rsv k with budgetStops := satAdd (s.rsv k).budgetStops 1 }).stopLaunch m
      (some (cRsvBankBudget, bankDetail k c 0 0)) (some ((s.rsv k).budgetUs.toNat * 1000)) := by
  simp [bankBudget, hcur, hl, hgoing, hspent]

theorem channelProgramEnd_of_ended (hkind : l.kind = .bank) (hended : l.chanEnded k c = true) :
    channelProgramEnd s k c = s.endChannel k c m l := by
  simp [channelProgramEnd, hcur, hl, hkind, hended]

end

/-- The write of a launch's status record, if it names one (08 R194). -/
def State.writeStatus (s : State) (m : Nat) (l : Launch) : State × AccRes :=
  if l.statusMA = 0 then (s, .ok []) else s.track (.bankStatus m) AccRes.isWait fun s =>
    s.writeMA (.bankStatus m) (rsvMaster ((onesOf 8 l.rsvMask.toNat).headD 0) (some l.part)) l.statusMA ((statusWords l).flatMap (leBytes 8))

/-- A launch forgotten. -/
def State.dropLaunch (s : State) (m : Nat) : State := { s with launches := Map.set none s.launches m none }

section
variable {s : State} {m : Nat} {l : Launch} (hl : s.launch m = some l) (hkind : l.kind = .bank) (hleft : l.left = [])
  (hall : l.ordered = l.rsvMask ∨ l.fault.isSome = true)
include hkind hleft hall

/-- A bank launch is over once no channel of it is left, and it has been ordered everywhere or has faulted (08 R193, R197). -/
theorem bankComplete_over {f : Option (Nat × Nat)} (hf : l.fault = f) :
    (l.kind != .bank || !(l.left == []) || !(l.ordered == l.rsvMask || f.isSome)) = false := by
  have hor : (l.ordered == l.rsvMask || f.isSome) = true := by simpa [← hf] using hall
  rw [hkind, hleft, hor]
  rfl

include hl

theorem bankComplete_of_wait (hw : (s.writeStatus m l).2 = .wait) : bankComplete s m = (s.writeStatus m l).1 := by
  unfold State.writeStatus at hw ⊢
  simp only [bankComplete, hl, bankComplete_over hkind hleft hall rfl, Bool.false_eq_true, if_false, hw]

theorem bankComplete_of_fault {f : Nat × Nat} (hw : (s.writeStatus m l).2 ≠ .wait) (hf : l.fault = some f) :
    bankComplete s m = ((s.writeStatus m l).1.dropLaunch m).faultCmd l.core l.queue l.idx { code := f.1, detail := f.2 } := by
  unfold State.writeStatus at hw ⊢
  simp only [bankComplete, hl, bankComplete_over hkind hleft hall hf, Bool.false_eq_true, if_false, hf, State.dropLaunch]

theorem bankComplete_of_written {bs : List Byte} (hf : l.fault = none) (hw : (s.writeStatus m l).2 = .ok bs) :
    bankComplete s m = ((s.writeStatus m l).1.dropLaunch m).completeCmd l.core l.queue l.idx := by
  unfold State.writeStatus at hw ⊢
  simp only [bankComplete, hl, bankComplete_over hkind hleft hall hf, Bool.false_eq_true, if_false, hf, hw, State.dropLaunch]

theorem bankComplete_of_lost {code ma : Nat} (hf : l.fault = none) (hw : (s.writeStatus m l).2 = .fault code ma) :
    bankComplete s m = ((s.writeStatus m l).1.dropLaunch m).faultCmd l.core l.queue l.idx { code := code, detail := ma } := by
  unfold State.writeStatus at hw ⊢
  simp only [bankComplete, hl, bankComplete_over hkind hleft hall hf, Bool.false_eq_true, if_false, hf, hw, State.dropLaunch]

end

/-- Settles O25: a launch is ordered, takes its channels, is stopped by its budget, leaves its channels and completes, each by its own rule. -/
theorem launchLife : Obligations.LaunchLife := by
  unfold Obligations.LaunchLife
  refine ⟨fun s rsv m l => ?ordered, fun s m k l => ?novec, fun s k c rank i => ?queue, fun s rsv ch m l e rest => ?switch,
    fun s rsv ch m l => ?ended, fun s m l => ?complete⟩
  case ordered =>
    intro k f hl hkind hnamed hnew hlive
    have hstaged : s.Staged k m l := ⟨hl, hkind, hnamed, hnew, hlive⟩
    refine ⟨fun code ma hf => congrArg Host.Outcome.next (hstaged.order_of_fault hf),
      fun hf => congrArg Host.Outcome.next (hstaged.order_of_wait hf), fun bs v hf hv => ⟨fun c hc => ?_, fun hc => ?_⟩⟩
    · exact congrArg Host.Outcome.next (hstaged.order_of_retired hf hv hc)
    · exact congrArg Host.Outcome.next (hstaged.order_of_active hf hv hc)
  case novec =>
    intro hvec
    simp only [State.fetchVec, hvec]
  case queue =>
    obtain ⟨a, b, hops, horder, ha, hb⟩ := orderIn_split { cycle := nsIn s.time, rank := rank, item := i } (s.chan k c).ops
    exact ⟨a, b, hops, (s.ops_order k c rank i).trans horder, ha, hb⟩
  case switch =>
    intro k c hops he hcur hproc hl hkind
    obtain ⟨htakes, hshut, hrest, hmem, hcores, hunits⟩ := channelSwitch_takes hops he hcur hproc hl hkind
    refine ⟨_, rfl, htakes, hshut, hrest, hmem, hcores, _, hunits, fun b hb => ?_⟩
    simp only [l.get_startUnits k c hb]
    exact l.startUnit_starts ch.isLt hb rsv.isLt
  case ended =>
    intro k c hcur hl
    exact ⟨fun hgoing hspent => congrArg Host.Outcome.next (bankBudget_of_spent hcur hl hgoing hspent),
      fun hkind hended => congrArg Host.Outcome.next (channelProgramEnd_of_ended hcur hl hkind hended)⟩
  case complete =>
    intro hl hkind hleft hall w t
    refine ⟨fun hw => congrArg Host.Outcome.next (bankComplete_of_wait hl hkind hleft hall hw),
      fun hw f hf => congrArg Host.Outcome.next (bankComplete_of_fault hl hkind hleft hall hw hf), fun hf => ⟨fun bs hw => ?_, fun code ma hw => ?_⟩⟩
    · exact congrArg Host.Outcome.next (bankComplete_of_written hl hkind hleft hall hf hw)
    · exact congrArg Host.Outcome.next (bankComplete_of_lost hl hkind hleft hall hf hw)

end Sys2Proof.Machine
end

section
/-! PROOFS. O33: the reads of a pass, from the fetch of a stripe to its outputs, and a pass's expiry (09 R212 to R218). -/

namespace Sys2Proof.Machine

/-! ### An access already answered -/

theorem State.who_of_accOf {s : State} {w : Who} {a : HeldAcc} (h : s.accOf w = some a) : a.who = w := by
  simpa using List.find?_some h

/-- An access under way, replaced, is what its master finds. -/
theorem State.accOf_setAcc {s : State} {w : Who} {a b : HeldAcc} (h : s.accOf w = some b) (ha : a.who = w) :
    (s.setAcc a).accOf w = some a := by
  have hsame : ∀ x : HeldAcc, decide ((if x.who = a.who then a else x).who = w) = decide (x.who = w) := fun x => by
    by_cases hx : x.who = a.who
    · simp [hx, ha]
    · simp [hx]
  have hfind : s.accs.find? (fun x => decide (x.who = w)) = some b := h
  simp only [State.accOf, State.setAcc, List.find?_map, Function.comp_def, hsame, hfind, Option.map_some]
  rw [if_pos ((State.who_of_accOf h).trans ha.symm)]

/-- Replacing an access that is then dropped leaves nothing behind. -/
theorem State.dropAcc_setAcc {s : State} {w : Who} {a : HeldAcc} (ha : a.who = w) : (s.setAcc a).dropAcc w = s.dropAcc w := by
  subst ha
  have hdrop : ∀ l : List HeldAcc, (l.map fun x => if x.who = a.who then a else x).filter (fun x => !decide (x.who = a.who)) =
      l.filter fun x => !decide (x.who = a.who) := by
    intro l
    induction l with
    | nil => rfl
    | cons x l ih =>
      by_cases hx : x.who = a.who
      · simp [hx, ih]
      · simp [hx, ih]
  exact congrArg (fun l => ({ s with accs := l } : State)) (hdrop s.accs)

/-- A request already made for the same bytes is not made again: its data answer it. -/
theorem State.access_answered {s : State} {w : Who} {a : HeldAcc} {e : AccReq} {base n ma : Nat} {bs : List Byte} (hacc : s.accOf w = some a)
    (hreq : a.reqs[a.pos]? = some e) (hma : e.ma = base) (hlen : e.len = n) (hres : e.res = some (0, ma, bs)) (m : Master) (wr : Bool)
    (data : List Byte) : s.access w m wr base n data = (s.setAcc { a with pos := a.pos + 1 }, .ok bs) := by
  have hwho := State.who_of_accOf hacc
  have hafter : (s.setAcc { a with pos := a.pos + 1 }).accOf w = some { a with pos := a.pos + 1 } :=
    State.accOf_setAcc hacc hwho
  simp [State.access, hacc, hreq, hma, hlen, hafter, hres]

/-- A read whose one request has been answered gives its data, and its access is over. -/
theorem State.track_read_answered {s : State} {w : Who} {a : HeldAcc} {e : AccReq} {base n ma : Nat} {bs : List Byte}
    (hacc : s.accOf w = some a) (hreq : a.reqs[0]? = some e) (hma : e.ma = base) (hlen : e.len = n) (hres : e.res = some (0, ma, bs))
    (m : Master) : (s.track w AccRes.isWait fun t => t.readMA w m base n) = (s.dropAcc w, .ok bs) := by
  have hwho := State.who_of_accOf hacc
  have hstart : (s.setAcc { a with pos := 0 }).accOf w = some { a with pos := 0 } := State.accOf_setAcc hacc hwho
  have hread := State.access_answered hstart hreq hma hlen hres m false []
  have hdrop : ((s.setAcc { a with pos := 0 }).setAcc { a with pos := 1 }).dropAcc w = s.dropAcc w :=
    (State.dropAcc_setAcc (a := { a with pos := 1 }) hwho).trans (State.dropAcc_setAcc (a := { a with pos := 0 }) hwho)
  simp only [State.track, hacc, State.readMA, hread, AccRes.isWait, Bool.false_eq_true, if_false, hdrop]

/-! ### The launch of a read in a stripe (09 R212, R214, R216) -/

/-- What stripe `k` fetches for the read of pass `x`: the queries of a SCORE, the pairs of an APPLY. -/
def State.fetchRead (s : State) (x : Pass) (p sl k : Nat) : State × AccRes :=
  s.track (.pass p sl k) AccRes.isWait fun t =>
    t.readMA (.pass p sl k) (rsvMaster k (some p)) x.ha.base (if x.read = 1 then 512 * x.heads else 4 * x.heads)

section
variable {s : State} {p sl k : Nat} (hopen : (s.pass p sl).st = .opened) (hread : (s.pass p sl).read = 1 ∨ (s.pass p sl).read = 3)
  (hnew : (s.pass p sl).launched.toNat.testBit k = false)
include hopen hread hnew

/-- The read of an open pass is due in a stripe that has not launched it. -/
theorem readDue : ¬((s.pass p sl).st ≠ .opened ∨ ((s.pass p sl).read ≠ 1 ∧ (s.pass p sl).read ≠ 3) ∨
    (s.pass p sl).launched.toNat.testBit k = true) := by
  rw [hopen, hnew]
  rcases hread with h | h <;> simp [h]

theorem passLaunchOrder_of_wait (hf : (s.fetchRead (s.pass p sl) p sl k).2 = .wait) :
    passLaunchOrder s p sl k = (s.fetchRead (s.pass p sl) p sl k).1 := by
  unfold State.fetchRead at hf ⊢
  simp only [passLaunchOrder, if_neg (readDue hopen hread hnew), beq_iff_eq, hf]

theorem passLaunchOrder_of_fault {code ma : Nat} (hf : (s.fetchRead (s.pass p sl) p sl k).2 = .fault code ma) :
    passLaunchOrder s p sl k = (s.fetchRead (s.pass p sl) p sl k).1.failPass p sl code ma := by
  unfold State.fetchRead at hf ⊢
  simp only [passLaunchOrder, if_neg (readDue hopen hread hnew), beq_iff_eq, hf]

variable {t : State} {bs : List Byte} (hf : s.fetchRead (s.pass p sl) p sl k = (t, .ok bs))
include hf

theorem passLaunchOrder_of_noPage (hnone : t.passChans (s.pass p sl) k = []) :
    passLaunchOrder s p sl k = t.setPass p sl
      { s.pass p sl with launched := (s.pass p sl).launched ||| BitVec.ofNat 8 (2 ^ k) } := by
  unfold State.fetchRead at hf
  unfold State.passChans at hnone
  simp only [passLaunchOrder, if_neg (readDue hopen hread hnew), beq_iff_eq, hf, hnone, if_true]

theorem passLaunchOrder_of_active (hsome : t.passChans (s.pass p sl) k ≠ [])
    (hactive : ∀ c ∈ t.passChans (s.pass p sl) k, (t.chan k c).st = .active) :
    passLaunchOrder s p sl k = t.passLaunched (s.pass p sl) p sl k bs := by
  have hfind : ((t.passChans (s.pass p sl) k).find? fun c => (t.chan k c).st != .active) = none :=
    List.find?_eq_none.mpr fun c hc => by simp [hactive c hc]
  unfold State.fetchRead at hf
  unfold State.passLaunched Pass.launchOf
  unfold State.passChans at hsome hfind ⊢
  simp only [passLaunchOrder, if_neg (readDue hopen hread hnew), beq_iff_eq, hf, if_neg hsome, hfind]

theorem passLaunchOrder_of_retired (hgone : ∃ c ∈ t.passChans (s.pass p sl) k, (t.chan k c).st ≠ .active) :
    passLaunchOrder s p sl k = t.failPass p sl cRsvChannelRetired 0 := by
  obtain ⟨c, hc, hst⟩ := hgone
  have hsome : t.passChans (s.pass p sl) k ≠ [] := List.ne_nil_of_mem hc
  obtain ⟨d, hfind⟩ : ∃ d, ((t.passChans (s.pass p sl) k).find? fun c => (t.chan k c).st != .active) = some d :=
    Option.isSome_iff_exists.mp (List.find?_isSome.mpr ⟨c, hc, by simpa using hst⟩)
  unfold State.fetchRead at hf
  unfold State.passChans at hsome hfind
  simp only [passLaunchOrder, if_neg (readDue hopen hread hnew), beq_iff_eq, hf, if_neg hsome, hfind]

end

/-! ### The end of a read in a stripe (09 R212, R214, R216, R218) -/

/-- The outputs of stripe `k` written. -/
def State.writeOutputs (s : State) (x : Pass) (p sl k : Nat) : State × AccRes :=
  s.track (.passOut p sl k) AccRes.isWait fun t => t.writeAll (.passOut p sl k) (rsvMaster k (some p)) (passOutputs s x k).1

/-- The launch of a stripe whose outputs are written forgotten, and the flags they raised kept. -/
def State.outputsKept (t : State) (p sl k : Nat) (fl : Flags) : State :=
  let v := match t.passLaunch p sl k with | some e => t.dropIfDone e.1 | none => t
  (v.setRsv k { v.rsv k with bnkFlags := (v.rsv k).bnkFlags.or fl }).draw

/-- What the written outputs of a stripe make of pass `y`: it goes on before the last stripe; after the last its poison faults the command, or a
SCORE completes and the pass waits for its APPLY, or the APPLY completes and the pass closes. -/
def State.stripeDone (t : State) (p sl : Nat) (y : Pass) : State :=
  if y.done.toNat ≠ 255 then t
  else
    match y.poison, y.cmd with
    | some d, _ => t.failPass p sl cAttPagePoisoned (d + y.layer * 2 ^ 8)
    | none, some (n, q, i) =>
      if y.read = 1 then (t.setPass p sl { y with read := 2, cmd := none, launched := 0, done := 0 }).completeCmd n q i
      else (t.closePass p sl .free).completeCmd n q i
    | none, none => t

section
variable {t : State} {p sl : Nat} {y : Pass}

theorem State.stripeDone_of_more (hmore : y.done.toNat ≠ 255) : t.stripeDone p sl y = t := if_pos hmore

variable (hall : y.done.toNat = 255)
include hall

theorem State.stripeDone_of_poison {d : Nat} (hbad : y.poison = some d) :
    t.stripeDone p sl y = t.failPass p sl cAttPagePoisoned (d + y.layer * 2 ^ 8) := by
  simp only [State.stripeDone, hall, hbad, ne_eq, not_true_eq_false, if_false]

variable {n q i : Nat} (hgood : y.poison = none) (hcmd : y.cmd = some (n, q, i))
include hgood hcmd

theorem State.stripeDone_of_score (hone : y.read = 1) : t.stripeDone p sl y =
    (t.setPass p sl { y with read := 2, cmd := none, launched := 0, done := 0 }).completeCmd n q i := by
  simp only [State.stripeDone, hall, hgood, hcmd, hone, ne_eq, not_true_eq_false, if_false, if_true]

theorem State.stripeDone_of_apply (htwo : y.read = 3) : t.stripeDone p sl y = (t.closePass p sl .free).completeCmd n q i := by
  simp [State.stripeDone, hall, hgood, hcmd, htwo]

end

/-- What the write of a stripe's outputs comes to, `y` being its pass with the stripe done and `fl` the flags they raised. -/
def State.outputsEnd (t : State) (r : AccRes) (p sl k : Nat) (fl : Flags) (y : Pass) : State :=
  match r with
  | .wait => t
  | .fault code ma => t.failPass p sl code ma
  | .ok _ => ((t.outputsKept p sl k fl).setPass p sl y).stripeDone p sl y

section
variable {s : State} {p sl k : Nat} (hopen : (s.pass p sl).st = .opened) (hread : (s.pass p sl).read = 1 ∨ (s.pass p sl).read = 3)
  (hlaunched : (s.pass p sl).launched.toNat.testBit k = true) (hdue : (s.pass p sl).done.toNat.testBit k = false)
  (hover : ∀ e, s.passLaunch p sl k = some e → e.2.left = [] ∧ e.2.fault = none)
include hopen hread hlaunched hdue hover

/-- A stripe whose launch has ended writes its outputs, and is done once they are written. -/
theorem passReadEnd_eq : passReadEnd s p sl k =
    let w := s.writeOutputs (s.pass p sl) p sl k
    w.1.outputsEnd w.2 p sl k (passOutputs s (s.pass p sl) k).2
      { s.pass p sl with done := (s.pass p sl).done ||| BitVec.ofNat 8 (2 ^ k) } := by
  rcases hw : s.writeOutputs (s.pass p sl) p sl k with ⟨t, r⟩
  unfold State.writeOutputs at hw
  simp only [passReadEnd, hw]
  refine (if_neg ?_).trans ?_
  · rintro (hst | ⟨hscore, happly⟩ | hwaits | hwritten | hgoing)
    · exact hst hopen
    · exact hread.elim hscore happly
    · simp [hlaunched] at hwaits
    · simp [hdue] at hwritten
    · split at hgoing
      · next n l hl =>
        obtain ⟨hleft, hlive⟩ := hover _ hl
        simp [show l.left = [] from hleft, show l.fault = none from hlive] at hgoing
      · exact Bool.false_ne_true hgoing
  · unfold State.outputsEnd State.outputsKept State.stripeDone
    cases r <;> cases t.passLaunch p sl k <;> rfl

end

theorem passExpired_of_late {s : State} {p sl : Nat} (hopen : (s.pass p sl).st = .opened)
    (hlate : s.reached ((s.pass p sl).tick + max 1 (s.rsv ((s.pass p sl).seq % 8)).passLimit.toNat) = true) :
    let h := (s.pass p sl).seq % 8
    passExpired s p sl = ((((s.setRsv h { s.rsv h with expired := satAdd (s.rsv h).expired 1 }).failPass p sl cAttPassExpired 0
      .expired).postEv (5 + h) cAttPassExpired (some p) [sl + (s.pass p sl).seq * 2 ^ 16, 0, 0, 0])) := by
  simp only [passExpired, hopen, hlate, ne_eq, not_true_eq_false, Bool.not_true, Bool.false_eq_true, or_self, if_false]

/-- Settles O33: the order of a stripe's launch by what its fetch comes to, the end of its read by what its write comes to, and expiry. -/
theorem passReads : Obligations.PassReads := by
  unfold Obligations.PassReads
  intro s part slot stripe p sl k x hopen
  refine ⟨fun hread hnew => ?order, fun hread hlaunched hdue hover => ?ended,
    fun hlate => congrArg Host.Outcome.next (passExpired_of_late hopen hlate)⟩
  case order =>
    intro w size rd
    refine ⟨fun a e ma bs hacc hreq hma hlen hres hactive hsome => ?_,
      fun hf => congrArg Host.Outcome.next (passLaunchOrder_of_wait hopen hread hnew hf),
      fun code ma hf => congrArg Host.Outcome.next (passLaunchOrder_of_fault hopen hread hnew hf), fun bs hok => ?_⟩
    · have hf : s.fetchRead x p sl k = (s.dropAcc w, .ok bs) := State.track_read_answered hacc hreq hma hlen hres _
      exact congrArg Host.Outcome.next (passLaunchOrder_of_active hopen hread hnew hf hsome hactive)
    · have hf : s.fetchRead x p sl k = (rd.1, .ok bs) := Prod.ext rfl hok
      exact ⟨fun hnone => congrArg Host.Outcome.next (passLaunchOrder_of_noPage hopen hread hnew hf hnone),
        fun hsome hactive => congrArg Host.Outcome.next (passLaunchOrder_of_active hopen hread hnew hf hsome hactive),
        fun hgone => congrArg Host.Outcome.next (passLaunchOrder_of_retired hopen hread hnew hf hgone)⟩
  case ended =>
    intro o w v u y
    have hends : exec (.passReadEnd part slot stripe) s = .next (w.1.outputsEnd w.2 p sl k o.2 y) :=
      congrArg Host.Outcome.next (passReadEnd_eq hopen hread hlaunched hdue hover)
    rw [hends]
    refine ⟨fun hw => ?_, fun code ma hw => ?_, fun bs hw => ?_⟩
    · rw [hw]; rfl
    · rw [hw]; rfl
    have hok : w.1.outputsEnd w.2 p sl k o.2 y = (u.setPass p sl y).stripeDone p sl y := by rw [hw]; rfl
    rw [hok]
    exact ⟨fun hmore => congrArg Host.Outcome.next (State.stripeDone_of_more hmore),
      fun d hall hbad => congrArg Host.Outcome.next (State.stripeDone_of_poison hall hbad),
      fun n q i hall hgood hcmd hone => congrArg Host.Outcome.next (State.stripeDone_of_score hall hgood hcmd hone),
      fun n q i hall hgood hcmd htwo => congrArg Host.Outcome.next (State.stripeDone_of_apply hall hgood hcmd htwo)⟩

end Sys2Proof.Machine
end

section
/-! PROOFS. O41: a reservoir request on its way, at its port's sluice (10 R228, R230, R409), at the reservoir (10 R233, R235; 09 R204) and at
the channel's arbiter, and the end of a hold that has lasted too long (07 R162, R163). -/

namespace Sys2Proof.Machine

/-! ### A request of one part -/

theorem State.rsvSize_le (s : State) (k : Nat) : s.rsvSize k ≤ 2 ^ 37 := by
  have := popCount_le 32 (s.activeCh k)
  unfold State.rsvSize
  omega

/-- A populated offset of a reservoir is the target of its per-stack module address (01 R17; 07 R157). -/
theorem State.resolve_rsv {s : State} {k off : Nat} (hk : k < 8) (hoff : off < s.rsvSize k) :
    s.resolve (2 ^ 40 + k * 2 ^ 37 + off) = .rsv k off := by
  have hle := s.rsvSize_le k
  have hdiv : (2 ^ 40 + k * 2 ^ 37 + off - 2 ^ 40) / 2 ^ 37 = k := by omega
  have hmod : (2 ^ 40 + k * 2 ^ 37 + off - 2 ^ 40) % 2 ^ 37 = off := by omega
  unfold State.resolve
  rw [if_neg (by omega), if_neg (by omega), if_pos (by omega)]
  simp only [hdiv, hmod, hoff, if_true]

/-- A request within one 512-byte piece is one part (10 R409). -/
theorem State.splitReq_onePiece {s : State} {ma n : Nat} (hn : n ≠ 0) (hfit : ma % 512 + n ≤ 512) (m : Master) (who : Who) (id : Nat) (wr : Bool)
    (data : List Byte) : ∃ via near far, s.splitReq m who id wr ma n data =
      [{ id := id, who := who, port := m.port, via := via, part := m.part, wr := wr, runs := [(ma, n)], data := data.take n, near := near,
         far := far }] := by
  have hone : pieces 512 (n / 512 + 2) ma n = [(ma, n)] := pieces_single hn hfit
  unfold State.splitReq
  rw [hone]
  simp

/-- A request of one part registered. -/
theorem State.openReq_onePart {s : State} {m : Master} {who : Who} {acc wr : Bool} {ma n : Nat} {data : List Byte} {p : ReqPart}
    (h : s.splitReq m who s.reqId wr ma n data = [p]) :
    ∃ no rs, s.openReq m who acc wr ma n data = ({ s with reqNo := no, reqs := rs }, [p]) := by
  unfold State.openReq
  simp only [h, List.cons_ne_nil, if_false]
  exact ⟨_, _, rfl⟩

/-- A part that goes through the network stands at its port's sluice (10 R230). -/
theorem State.sendReq_enters {s : State} {m : Master} {p : ReqPart} {port : Nat} (hgate : s.gateFault m p = none) (hnear : p.near ≠ [])
    (hwho : p.who = .port port) (hfree : s.masterFenced m.port (s.resolve p.ma) = false) :
    s.sendReq m [p] = s.atSluice { id := p.id, who := p.who, port := m.port, part := m.part, there := false, parts := [p] } fun t =>
      t.leave { id := p.id, who := p.who, port := m.port, part := m.part, there := false, parts := [p] } := by
  simp [State.sendReq, hgate, hnear, hfree, hwho, State.egress]

/-- A write to a reservoir is one request of its port (10 R409). -/
theorem rsvRequest_write {s : State} {port part k off : Nat} {data : List Byte} (hoff : off < 2 ^ 37) :
    let m := s.rowMaster port part 0 false
    let o := s.openReq m (.port port) false true (2 ^ 40 + k * 2 ^ 37 + off) data.length data
    rsvRequest s port part k true off 0 data = o.1.sendReq m o.2 := by
  simp only [rsvRequest, State.submit, Nat.mod_eq_of_lt hoff, if_true]

/-- The part that a write within one piece of a reservoir is, and the state with it registered (10 R409). -/
theorem State.openReq_rsvWrite {s : State} {m : Master} {port k off : Nat} {data : List Byte} {p : ReqPart} (hk : k < 8)
    (hoff : off < s.rsvSize k) (hlen : 0 < data.length) (hfit : data.length + off % 512 ≤ 512)
    (hone : (s.openReq m (.port port) false true (2 ^ 40 + k * 2 ^ 37 + off) data.length data).2 = [p]) :
    let t := (s.openReq m (.port port) false true (2 ^ 40 + k * 2 ^ 37 + off) data.length data).1
    (p.id = s.reqId ∧ p.runs = [(2 ^ 40 + k * 2 ^ 37 + off, data.length)] ∧ p.data = data ∧ p.wr = true) ∧ p.who = .port port ∧
      t.resolve p.ma = .rsv k off ∧ ∀ x, t.masterFenced m.port x = s.masterFenced m.port x := by
  have hres := State.resolve_rsv hk hoff
  have hpiece : (2 ^ 40 + k * 2 ^ 37 + off) % 512 + data.length ≤ 512 := by omega
  generalize 2 ^ 40 + k * 2 ^ 37 + off = ma at *
  obtain ⟨via, near, far, hsplit⟩ := s.splitReq_onePiece (Nat.ne_of_gt hlen) hpiece m (.port port) s.reqId true data
  obtain ⟨no, rs, hreg⟩ := State.openReq_onePart (acc := false) hsplit
  rw [hreg] at hone ⊢
  have hp := List.singleton_inj.mp hone
  subst hp
  exact ⟨⟨rfl, rfl, List.take_length, rfl⟩, rfl, hres, fun _ => rfl⟩

/-- A part for a reservoir meets no fault before the network: the reservoir's router checks it (10 R233). -/
theorem State.gateFault_rsv {s : State} {m : Master} {p : ReqPart} {k off : Nat} (hres : s.resolve p.ma = .rsv k off) :
    s.gateFault m p = none := by
  simp only [State.gateFault, hres]

/-! ### At a sluice (10 R230) -/

/-- A request that needs an account without a share. -/
def State.Shareless (s : State) (needs : List ((Nat × Nat) × Nat)) : Prop :=
  ∃ n ∈ needs, (s.acct n.1.2 n.1.1).weight = 0 ∧ (s.acct n.1.2 n.1.1).guar = 0
/-- A request that fits every account it needs, none of them being waited for. -/
def State.Fits (s : State) (blocked : List (Nat × Nat)) (needs : List ((Nat × Nat) × Nat)) : Prop :=
  (∀ n ∈ needs, (s.acct n.1.2 n.1.1).fits n.2 = true) ∧ ∀ n ∈ needs, n.1 ∉ blocked

section
variable {s : State} {blocked : List (Nat × Nat)} {needs : List ((Nat × Nat) × Nat)}

theorem State.shareless_iff : s.Shareless needs ↔
    (needs.any fun p => (s.acct p.1.2 p.1.1).weight = 0 ∧ (s.acct p.1.2 p.1.1).guar = 0) = true := by
  simp [State.Shareless, List.any_eq_true]

theorem State.fits_iff : s.Fits blocked needs ↔
    ((needs.all fun p => (s.acct p.1.2 p.1.1).fits p.2) && !(needs.any fun p => blocked.contains p.1)) = true := by
  simp [State.Fits, List.all_eq_true, List.any_eq_false]

theorem State.sluice_barred (hnone : s.Shareless needs) : s.sluice blocked needs = (s, .barred) := if_pos (State.shareless_iff.mp hnone)

variable (hshares : ¬s.Shareless needs)
include hshares

theorem State.sluice_go (hfits : s.Fits blocked needs) : s.sluice blocked needs =
    (needs.foldl (fun t p => t.setAcct p.1.2 p.1.1 ((t.acct p.1.2 p.1.1).take p.2)) s, .go) :=
  (if_neg (mt State.shareless_iff.mpr hshares)).trans (if_pos (State.fits_iff.mp hfits))

theorem State.sluice_hold (hfull : ¬s.Fits blocked needs) : s.sluice blocked needs =
    (needs.foldl (fun t p => t.setAcct p.1.2 p.1.1 { t.acct p.1.2 p.1.1 with active := true }) s, .hold) :=
  (if_neg (mt State.shareless_iff.mpr hshares)).trans (if_neg (mt State.fits_iff.mpr hfull))

end

section
variable {s : State} {h : HeldReq} {go : State → State}

theorem State.atSluice_of_shareless (hnone : (s.clockReq h).Shareless h.needs) : s.atSluice h go = (s.clockReq h).refuseHeld h 0 := by
  simp only [State.atSluice, State.sluice_barred hnone]

variable (hshares : ¬(s.clockReq h).Shareless h.needs)
include hshares

theorem State.atSluice_of_fits (hfits : (s.clockReq h).Fits ((s.clockReq h).blockedBy (s.clockReq h).sluHeld) h.needs) :
    s.atSluice h go = go (h.needs.foldl (fun a n => a.setAcct n.1.2 n.1.1 ((a.acct n.1.2 n.1.1).take n.2)) (s.clockReq h)) := by
  simp only [State.atSluice, State.sluice_go hshares hfits]

/-- A request held is the youngest of those held; its accounts are active in this epoch. -/
theorem State.atSluice_of_full (hfull : ¬(s.clockReq h).Fits ((s.clockReq h).blockedBy (s.clockReq h).sluHeld) h.needs) :
    s.atSluice h go = { h.needs.foldl (fun a n => a.setAcct n.1.2 n.1.1 { a.acct n.1.2 n.1.1 with active := true }) (s.clockReq h) with
      sluHeld := (s.clockReq h).sluHeld ++ [h] } := by
  have hheld := foldl_frame State.sluHeld (fun a n => a.setAcct n.1.2 n.1.1 { a.acct n.1.2 n.1.1 with active := true }) (fun _ _ => rfl)
    h.needs (s.clockReq h)
  simp only [State.atSluice, State.sluice_hold hshares hfull, hheld]

end

/-! ### At the reservoir (10 R233, R235; 09 R204) -/

section
variable {s : State} {p : ReqPart} {k x : Nat} (hres : s.resolve p.ma = .rsv k x)
include hres

theorem State.reach_of_fenced (hfence : s.rsvFenced k = true) : s.reach p = s.refusePart cNetTargetReset 0 p := by
  simp [State.reach, hres, State.targetReset, hfence]

variable (hopen : s.rsvFenced k = false)
include hopen

theorem State.reach_of_denied (hdenied : s.permitted { port := p.port, part := p.part, core := none } (.rsv k x) = false) :
    s.reach p = s.refusePart cNetPartDenied 0 p := by
  simp [State.reach, hres, State.targetReset, hopen, hdenied]

variable (hmine : s.permitted { port := p.port, part := p.part, core := none } (.rsv k x) = true)
include hmine

theorem State.reach_of_area (hwr : p.wr = true) (harea : ∃ r ∈ p.runs, s.areaBarred p.port (s.resolve r.1) = true) :
    s.reach p = s.refusePart cAttTableProtected 0 p := by
  have hany : (p.wr && p.runs.any fun r => s.areaBarred p.port (s.resolve r.1)) = true := by
    rw [hwr, Bool.true_and]
    exact List.any_eq_true.mpr harea
  simp only [State.reach, hres, State.targetReset, hopen, hmine, hany, Bool.false_eq_true, Bool.not_true, Bool.and_false, if_false, if_true]

/-- A part that nothing answers for arrives now at its channel's arbiter. -/
theorem State.reach_rsv (hfree : p.wr = false ∨ ∀ r ∈ p.runs, s.areaBarred p.port (s.resolve r.1) = false) (hnew : p.arrived = none) :
    s.reach p = ({ s with arrNo := s.arrNo + 1 } : State).arbitrate k (s.rsvCh k x) (p.arriving s) := by
  have hany : (p.wr && p.runs.any fun r => s.areaBarred p.port (s.resolve r.1)) = false := by
    rcases hfree with hrd | hfree
    · rw [hrd, Bool.false_and]
    · rw [List.any_eq_false.mpr fun r hr => ne_true_of_eq_false (hfree r hr), Bool.and_false]
  have hres' : ({ s with arrNo := s.arrNo + 1 } : State).resolve (p.arriving s).ma = .rsv k x := hres
  have harrive : s.arrive p = ({ s with arrNo := s.arrNo + 1 } : State).arbitrate k (s.rsvCh k x) (p.arriving s) := by
    unfold State.arrive
    rw [hnew]
    dsimp only
    simp only [ReqPart.arriving] at hres'
    rw [hres']
    rfl
  rw [← harrive]
  simp only [State.reach, hres, State.targetReset, hopen, hmine, hany, Bool.false_eq_true, Bool.not_true, Bool.and_false, if_false]

end

/-! ### At the arbiter (07 R162, R163) -/

/-- Whether nothing stands before a request that comes to a channel. -/
def Chan.Free (x : Chan) : Prop := x.ops = [] ∧ x.window = false ∧ x.busy = false

section
variable {s : State} {k c : Nat} {r : ReqPart}

theorem State.arbitrate_of_free {t : State} (hfree : (s.chan k c).Free) (hdone : s.perform r = some t) : s.arbitrate k c r = t := by
  obtain ⟨hops, hwindow, hbusy⟩ := hfree
  simp [State.arbitrate, hops, hwindow, hbusy, hdone]

/-- A hold queue of any depth stands in its channel's order. -/
theorem Chan.not_free_of_depth {x : Chan} (h : 0 < x.depth) : ¬x.Free := fun ⟨hops, _, _⟩ => by simp [Chan.depth, hops] at h

theorem State.arbitrate_of_holdFull (hbehind : s.behindLaunch k c r.via = true) (hfull : 256 ≤ (s.chan k c).depth) :
    s.arbitrate k c r = s.channelBusy k 1 r := by
  have hwait : ¬((s.chan k c).ops = [] ∧ !(s.chan k c).window ∧ !(s.chan k c).busy) := by
    simpa [Chan.Free] using Chan.not_free_of_depth (x := s.chan k c) (by omega)
  exact (if_neg hwait).trans (if_pos ⟨hbehind, hfull⟩)

/-- A request that may wait joins its channel's order, and is counted where it is held. -/
theorem State.arbitrate_of_waits (hwaits : ¬(s.chan k c).Free) (hroom : s.behindLaunch k c r.via = false ∨ (s.chan k c).depth < 256) :
    let behind := s.behindLaunch k c r.via
    let t := s.order k c r.via (.req { r with inHold := behind })
    s.arbitrate k c r = (t.setChan k c { t.chan k c with
      held := if behind = true then satAdd (t.chan k c).held 1 else (t.chan k c).held }).serve k c := by
  have hwait : ¬((s.chan k c).ops = [] ∧ !(s.chan k c).window ∧ !(s.chan k c).busy) := by simpa [Chan.Free] using hwaits
  have hnotFull : ¬(s.behindLaunch k c r.via = true ∧ 256 ≤ (s.chan k c).depth) := fun ⟨hbehind, hfull⟩ =>
    hroom.elim (ne_false_of_eq_true hbehind) (Nat.not_lt.mpr hfull)
  exact (if_neg hwait).trans (if_neg hnotFull)

end

/-! ### A hold that lasts too long (07 R163) -/

/-- An entry that is no held request whose wait has reached its limit. -/
def State.Early (s : State) (e : ArbEntry) : Prop := ∀ q, e.item = .req q → s.holdLate q = false

theorem holdTimeout_of_early {s : State} {k c : Nat} (h : ∀ e ∈ (s.chan k c).ops, s.Early e) : holdTimeout s k c = s := by
  simp only [holdTimeout]
  rw [List.findSome?_eq_none_iff.mpr]
  intro e he
  cases hi : e.item with
  | req q => simp [h e he q hi]
  | launch m => rfl
  | hold m => rfl

theorem holdTimeout_of_late {s : State} {k c : Nat} {r : ReqPart} {e : ArbEntry} {a b : List ArbEntry} (hops : (s.chan k c).ops = a ++ e :: b)
    (hearly : ∀ y ∈ a, s.Early y) (he : e.item = .req r) (hlate : s.holdLate r = true) :
    holdTimeout s k c = (((s.setChan k c { s.chan k c with ops := a ++ b }).channelBusy k 2 r).serve k c).resume := by
  have hnot : e ∉ a := fun hm => Bool.false_ne_true ((hearly e hm r he).symm.trans hlate)
  have herase : (a ++ e :: b).erase e = a ++ b := by rw [List.erase_append_right _ hnot, List.erase_cons_head]
  simp only [holdTimeout, hops, List.findSome?_append]
  rw [List.findSome?_eq_none_iff.mpr, Option.none_or]
  · simp [he, hlate, herase]
  · intro y hy
    cases hi : y.item with
    | req q => simp [hearly y hy q hi]
    | launch m => rfl
    | hold m => rfl

/-- Settles O41: the request as one part at its sluice, at its reservoir and at its channel's arbiter, and the time-out of its hold. -/
theorem reservoirRequests : Obligations.ReservoirRequests := by
  unfold Obligations.ReservoirRequests
  refine ⟨fun s port part rsv off data p => ?enters, fun s h go => ?sluice, fun s p k x hres => ?reservoir, fun s k c r => ?arbiter,
    fun s rsv ch r e a b => ?timeout⟩
  case enters =>
    intro k m ma o hoff hlen hfit ho
    obtain ⟨⟨hid, hruns, hdata, hwr⟩, hwho, hres, hfence⟩ := State.openReq_rsvWrite rsv.isLt hoff hlen hfit ho
    have hgate : o.1.gateFault m p = none := State.gateFault_rsv hres
    have hexec : exec (.rsvRequest port part rsv true off 0 data) s = .next (o.1.sendReq m [p]) := by
      rw [← ho]
      exact congrArg Host.Outcome.next (rsvRequest_write (hoff.trans_le (s.rsvSize_le k)))
    rw [hexec]
    refine ⟨hid, hruns, hdata, hwr, fun hnear => congrArg Host.Outcome.next (State.sendReq_single hgate hnear), fun hnear hfree => ?_⟩
    exact congrArg Host.Outcome.next (State.sendReq_enters hgate hnear hwho (by rw [hres]; exact (hfence _).trans hfree))
  case sluice =>
    intro t shares fits
    exact ⟨State.atSluice_of_shareless, State.atSluice_of_fits, State.atSluice_of_full⟩
  case reservoir =>
    intro mine
    exact ⟨State.reach_of_fenced hres, State.reach_of_denied hres, fun hopen hmine hwr => State.reach_of_area hres hopen hmine hwr,
      fun hopen hmine hfree hnew => State.reach_rsv hres hopen hmine hfree hnew⟩
  case arbiter =>
    intro ch behind first
    exact ⟨fun t hfree hdone => State.arbitrate_of_free hfree hdone, State.arbitrate_of_holdFull, State.arbitrate_of_waits⟩
  case timeout =>
    intro k c x early
    exact ⟨fun hearly => congrArg Host.Outcome.next (holdTimeout_of_early hearly),
      fun hops hearly he hlate => congrArg Host.Outcome.next (holdTimeout_of_late hops hearly he hlate)⟩

end Sys2Proof.Machine
end

section
/-! PROOFS. O28: the accumulators, the buffer and the registers after a MAC (02 R39; 08 R182, R185, R195). -/

namespace Sys2Proof.Machine

/-! ### A group merged into an accumulator (02 R39) -/

/-- An accumulator with a group of products merged into it; a group without a value changes nothing. -/
def Acc.take (a : Acc) (ps : List (Bool × Int)) : Acc :=
  match accGroup ps with
  | none => a
  | some x => (a.merge x).1

theorem BUnit.accAt_addGroup (u : BUnit) (i j : Nat) (ps : List (Option (Bool × Int))) (bad : Bool) :
    (u.addGroup i ps bad).accAt j = if i = j then (u.accAt j).take (ps.filterMap id) else u.accAt j := by
  unfold BUnit.addGroup Acc.take
  cases accGroup (ps.filterMap id) with
  | none => cases bad <;> simp [BUnit.accAt]
  | some x =>
    by_cases hij : i = j
    · subst hij
      cases bad <;> simp [BUnit.accAt]
    · cases bad <;> simp [BUnit.accAt, Map.get_set_other, hij]

/-- Unit `v` has the buffer, the registers and the instruction index of `u`. -/
structure BUnit.Beside (u v : BUnit) : Prop where
  vb : v.vb = u.vb
  g : v.g = u.g
  pc : v.pc = u.pc

theorem BUnit.Beside.refl (u : BUnit) : u.Beside u := ⟨rfl, rfl, rfl⟩

theorem BUnit.Beside.trans {u v w : BUnit} (h : u.Beside v) (h' : v.Beside w) : u.Beside w :=
  ⟨h'.vb.trans h.vb, h'.g.trans h.g, h'.pc.trans h.pc⟩

theorem BUnit.Beside.reg {u v : BUnit} (h : u.Beside v) (r : Nat) : v.reg r = u.reg r := by
  simp only [BUnit.reg, h.g]

theorem BUnit.beside_addGroup (u : BUnit) (i : Nat) (ps : List (Option (Bool × Int))) (bad : Bool) : u.Beside (u.addGroup i ps bad) := by
  unfold BUnit.addGroup
  cases accGroup (ps.filterMap id) <;> cases bad <;> exact ⟨rfl, rfl, rfl⟩

/-! ### The walk of a MAC of L8 lines: rows, vectors, groups of eight lines (08 R182, R185) -/

/-- Codes of a line as `State.readTerms` gives them: the term, whether the code is invalid, whether its codeword was bad. -/
abbrev TermLine := List (Option (Bool × Int) × Bool × Bool)

section
variable (u : BUnit) (vec : List Byte) (f : BStr) (lines : List TermLine)

/-- The accumulator of a row and a vector. -/
def BStr.place (row gg : Nat) : Nat := f.acc + row * 2 ^ f.glog + gg

/-- The codes of group `j` of a row, each with the place of the buffer code of vector `gg` that it meets. -/
def BUnit.macPairs (row gg j : Nat) : List ((Option (Bool × Int) × Bool × Bool) × Nat) :=
  (List.range (min 8 (f.rlen - j * 8))).flatMap fun i =>
    ((lines.getD (row * f.rlen + j * 8 + i) []).zipIdx).map fun p =>
      (p.1, u.reg f.vreg + gg * u.reg f.sreg + (j * 8 + i) * 128 + p.2)

/-- The products of those pairs with the buffer of unit `v`. -/
def BUnit.macTerms (v : BUnit) (pairs : List ((Option (Bool × Int) × Bool × Bool) × Nat)) : List (Option (Bool × Int)) :=
  pairs.map fun p => termMul p.1.1 (l8Term (v.vbAt vec p.2) f.tv)

/-- One group taken by unit `v`; `u` is the unit at the start of the MAC. -/
def BUnit.macGroup (row gg : Nat) (v : BUnit) (j : Nat) : BUnit :=
  let pairs := u.macPairs f lines row gg j
  (v.addGroup (f.place row gg) (v.macTerms vec f pairs) (pairs.any fun p => p.1.2.2 || v.vbBad p.2)).raise
    { inv := pairs.any fun p => p.1.2.1 || v.vbAt vec p.2 == 0x80 }

/-- The groups of a row against one vector. -/
def BUnit.macVector (row : Nat) (v : BUnit) (gg : Nat) : BUnit :=
  (List.range ((f.rlen + 7) / 8)).foldl (u.macGroup vec f lines row gg) v

/-- A row against every vector. -/
def BUnit.macRow (v : BUnit) (row : Nat) : BUnit := (List.range (2 ^ f.glog)).foldl (u.macVector vec f lines row) v

/-- The first rows of a MAC. -/
def BUnit.macRows (done : Nat) : BUnit := (List.range done).foldl (u.macRow vec f lines) u

/-- What an accumulator becomes by a row and a vector: the groups merged in order. -/
def BUnit.macSum (row gg : Nat) (a : Acc) : Acc :=
  (List.range ((f.rlen + 7) / 8)).foldl (fun a j => a.take ((u.macTerms vec f (u.macPairs f lines row gg j)).filterMap id)) a

end

section
variable {u v : BUnit} {vec : List Byte} {f : BStr} {lines : List TermLine}

theorem BUnit.Beside.macGroup (h : u.Beside v) (row gg j : Nat) : u.Beside (u.macGroup vec f lines row gg v j) :=
  have hadd := h.trans (v.beside_addGroup _ _ _)
  ⟨hadd.vb, hadd.g, hadd.pc⟩

theorem BUnit.Beside.macVector (h : u.Beside v) (row gg : Nat) : u.Beside (u.macVector vec f lines row v gg) :=
  foldl_keeps u.Beside _ (fun _ j hw => hw.macGroup row gg j) _ v h

theorem BUnit.Beside.macRow (h : u.Beside v) (row : Nat) : u.Beside (u.macRow vec f lines v row) :=
  foldl_keeps u.Beside _ (fun _ gg hw => hw.macVector row gg) _ v h

theorem BUnit.beside_macRows (u : BUnit) (vec : List Byte) (f : BStr) (lines : List TermLine) (done : Nat) :
    u.Beside (u.macRows vec f lines done) :=
  foldl_keeps u.Beside _ (fun _ row hw => hw.macRow row) _ u (.refl u)

theorem BUnit.accAt_macGroup_other {i row gg : Nat} (j : Nat) (hi : i ≠ f.place row gg) :
    (u.macGroup vec f lines row gg v j).accAt i = v.accAt i :=
  (v.accAt_addGroup ..).trans (if_neg (Ne.symm hi))

theorem BUnit.accAt_macVector_other {i row gg : Nat} (hi : i ≠ f.place row gg) :
    (u.macVector vec f lines row v gg).accAt i = v.accAt i :=
  foldl_keeps (fun w : BUnit => w.accAt i = v.accAt i) _ (fun _ j hw => (accAt_macGroup_other j hi).trans hw) _ v rfl

theorem BUnit.accAt_macRow_other {i row : Nat} (hi : ∀ gg < 2 ^ f.glog, i ≠ f.place row gg) :
    (u.macRow vec f lines v row).accAt i = v.accAt i :=
  List.foldlRecOn (motive := fun w : BUnit => w.accAt i = v.accAt i) _ _ rfl fun _ hw gg hgg =>
    (accAt_macVector_other (hi gg (List.mem_range.mp hgg))).trans hw

/-- Accumulators before the first and after the last row of those taken stay. -/
theorem BUnit.accAt_macRows_other {i done : Nat} (hi : i < f.acc ∨ f.acc + done * 2 ^ f.glog ≤ i) :
    (u.macRows vec f lines done).accAt i = u.accAt i := by
  refine List.foldlRecOn (motive := fun w : BUnit => w.accAt i = u.accAt i) _ _ rfl fun w hw row hrow =>
    (accAt_macRow_other fun gg hgg => ?_).trans hw
  have hend : (row + 1) * 2 ^ f.glog ≤ done * 2 ^ f.glog := Nat.mul_le_mul_right _ (List.mem_range.mp hrow)
  rw [Nat.succ_mul] at hend
  unfold BStr.place
  omega

theorem BUnit.accAt_macGroup_same (h : u.Beside v) (row gg j : Nat) :
    (u.macGroup vec f lines row gg v j).accAt (f.place row gg) =
      (v.accAt (f.place row gg)).take ((u.macTerms vec f (u.macPairs f lines row gg j)).filterMap id) := by
  have hterms : v.macTerms vec f (u.macPairs f lines row gg j) = u.macTerms vec f (u.macPairs f lines row gg j) := by
    simp only [BUnit.macTerms, BUnit.vbAt, h.vb]
  rw [← hterms]
  exact (v.accAt_addGroup ..).trans (if_pos rfl)

theorem BUnit.accAt_macVector_same (h : u.Beside v) (row gg : Nat) :
    (u.macVector vec f lines row v gg).accAt (f.place row gg) = u.macSum vec f lines row gg (v.accAt (f.place row gg)) := by
  unfold BUnit.macVector BUnit.macSum
  induction List.range ((f.rlen + 7) / 8) generalizing v with
  | nil => rfl
  | cons j js ih => rw [List.foldl_cons, List.foldl_cons, ih (h.macGroup row gg j), accAt_macGroup_same h]

theorem BUnit.accAt_macRow_same (h : u.Beside v) (row : Nat) {gg : Nat} (hgg : gg < 2 ^ f.glog) :
    (u.macRow vec f lines v row).accAt (f.place row gg) = u.macSum vec f lines row gg (v.accAt (f.place row gg)) :=
  foldl_of_mem (P := u.Beside) (g := fun w => w.accAt (f.place row gg)) (fun _ b hw => hw.macVector row b)
    (fun _ _ _ hne => accAt_macVector_other fun heq => hne (Nat.add_left_cancel heq).symm) (fun _ hw => accAt_macVector_same hw row gg)
    List.nodup_range (List.mem_range.mpr hgg) h

/-- Different rows have no accumulator in common. -/
theorem BStr.place_row_inj {row row' gg gg' : Nat} (hgg : gg < 2 ^ f.glog) (hgg' : gg' < 2 ^ f.glog)
    (h : f.place row gg = f.place row' gg') : row = row' := by
  have hrow : ∀ r g, g < 2 ^ f.glog → (r * 2 ^ f.glog + g) / 2 ^ f.glog = r := fun r g hg => by
    rw [Nat.mul_comm, Nat.mul_add_div (Nat.two_pow_pos _), Nat.div_eq_of_lt hg, Nat.add_zero]
  unfold BStr.place at h
  rw [← hrow row gg hgg, ← hrow row' gg' hgg']
  congr 1
  omega

theorem BUnit.accAt_macRows_same {done row gg : Nat} (hrow : row < done) (hgg : gg < 2 ^ f.glog) :
    (u.macRows vec f lines done).accAt (f.place row gg) = u.macSum vec f lines row gg (u.accAt (f.place row gg)) :=
  foldl_of_mem (P := u.Beside) (g := fun w => w.accAt (f.place row gg)) (fun _ b hw => hw.macRow b)
    (fun _ _ _ hne => accAt_macRow_other fun _ hgg' heq => hne (BStr.place_row_inj hgg hgg' heq).symm)
    (fun _ hw => accAt_macRow_same hw row hgg) List.nodup_range (List.mem_range.mpr hrow) (.refl u)

end

/-! ### The MAC (08 R182, R185, R195) -/

/-- The rows that a MAC of L8 lines takes in the cycles left of the budget. -/
def BUnit.macDone (u : BUnit) (f : BStr) (room : Nat) : Nat :=
  let n := u.reg f.nreg
  let per := (128 * 2 ^ f.glog + 1023) / 1024
  if n * per ≤ room then n / f.rlen else min (n / f.rlen) (room / per / f.rlen)

theorem bMac_l8 {s : State} {u : BUnit} {vec : List Byte} {k c b room : Nat} {f : BStr} (hfmt : f.fmt = 0) (hn : u.reg f.nreg ≠ 0)
    (hrows : u.reg f.nreg % f.rlen = 0) (hlines : u.reg f.mreg + u.reg f.nreg ≤ bLines)
    (haccs : f.acc + u.reg f.nreg / f.rlen * 2 ^ f.glog ≤ 1024)
    (hvec : u.reg f.vreg + (2 ^ f.glog - 1) * u.reg f.sreg + f.rlen * 128 ≤ 131072) :
    let rd := s.readTerms k c b false f.tm (u.reg f.mreg) (u.reg (f.mreg + 1)) (u.macDone f room * f.rlen)
    bMac s u vec k c b f room = ⟨rd.1, (u.macRows vec f rd.2 (u.macDone f room)).inc f (u.reg f.nreg), false, 0⟩ := by
  have hl8 : (f.fmt == 1) = false := by rw [hfmt]; rfl
  have hin : ¬(bLines < u.reg f.mreg + u.reg f.nreg ∨ (false = true ∧ 128 * bLines < u.reg (f.mreg + 1) + 8 * u.reg f.nreg) ∨
      1024 < f.acc + u.reg f.nreg / f.rlen * 2 ^ f.glog ∨
      131072 < u.reg f.vreg + (2 ^ f.glog - 1) * u.reg f.sreg + f.rlen * 128) := by
    simp only [Bool.false_eq_true, false_and, false_or]
    omega
  simp only [bMac, hl8, hrows, hn, Bool.false_eq_true, if_false, Bool.and_false, ne_eq, not_true_eq_false]
  rw [if_neg (by simpa using hin)]
  rfl

theorem BUnit.inc_keeps (u : BUnit) (f : BStr) (n : Nat) : (u.inc f n).acc = u.acc ∧ (u.inc f n).vb = u.vb ∧ (u.inc f n).pc = u.pc := by
  unfold BUnit.inc BUnit.setReg
  split
  · split <;> exact ⟨rfl, rfl, rfl⟩
  · exact ⟨rfl, rfl, rfl⟩

/-- Settles O28: the accumulators row by row and vector by vector, and what stands beside them. -/
theorem bankMac : Obligations.BankMac := by
  unfold Obligations.BankMac
  intro s u vec k c b room f n g rows per done o rd products hfmt hrlen hn hrows hlines haccs hvec
  have ho : o = ⟨rd.1, (u.macRows vec f rd.2 done).inc f n, false, 0⟩ := bMac_l8 hfmt hn hrows hlines haccs hvec
  have hbeside := u.beside_macRows vec f rd.2 done
  obtain ⟨hacc, hvb, hpc⟩ := (u.macRows vec f rd.2 done).inc_keeps f n
  have haccAt : ∀ i, o.u.accAt i = (u.macRows vec f rd.2 done).accAt i := fun i => by
    rw [ho]
    simp only [BUnit.accAt, hacc]
  have hproducts : ∀ row gg j, (u.macTerms vec f (u.macPairs f rd.2 row gg j)).filterMap id = products row gg j := fun row gg j => by
    simp only [products, BUnit.macTerms, BUnit.macPairs, List.map_flatMap, List.map_map, Nat.mul_comm j 8]
    rfl
  refine ⟨by rw [ho], by rw [ho], fun row gg hrow hgg => ?_, fun i hi => ?_, ?_, ?_, fun hinc => ?_, fun hinc r => ?_⟩
  · rw [haccAt]
    refine (BUnit.accAt_macRows_same hrow hgg).trans ?_
    simp only [BUnit.macSum, hproducts]
    rfl
  · exact (haccAt i).trans (BUnit.accAt_macRows_other hi)
  · rw [ho]
    exact hvb.trans hbeside.vb
  · rw [ho]
    exact hpc.trans hbeside.pc
  · rw [ho]
    simp only [BUnit.inc, hinc, Bool.false_eq_true, if_false]
    exact hbeside.g
  · rw [ho]
    simp only [BUnit.inc, hinc, if_true, BUnit.reg_setReg, hbeside.reg]
    by_cases hr : r = f.mreg
    · subst hr
      rfl
    · simp [hr, Ne.symm hr]

end Sys2Proof.Machine
end

section
/-! PROOFS. O26: an instruction of a unit, from the granule writes made before it to its effect or its range stop (08 R181 to R188, R195). -/

namespace Sys2Proof.Machine

theorem exec_bankRow : ∀ p ∈ bankRows, ∀ (rsv : BitVec 3) (ch : BitVec 5) (bg : BitVec 3) (s : State),
    exec (p.2 rsv ch bg) s = .next (bankInstr p.1 s rsv.toNat ch.toNat bg.toNat) := by
  intro p hp rsv ch bg s
  fin_cases hp <;> rfl

/-! ### The granule writes made before an instruction (08 R187) -/

/-- A granule written touches memory alone. -/
theorem State.unitWrite_keeps (s : State) (k c b gran : Nat) (bs : Option (List Byte)) :
    (s.unitWrite k c b gran bs).chans = s.chans ∧ (s.unitWrite k c b gran bs).rsvs = s.rsvs := by
  unfold State.unitWrite
  refine foldl_keeps (fun t : State => t.chans = s.chans ∧ t.rsvs = s.rsvs) _ (fun t i ht => ?_) _ s ⟨rfl, rfl⟩
  cases bs <;> exact ht

/-- The granule writes of a unit that have begun before `stop`. -/
def BUnit.begun (u : BUnit) (stop : Nat) : List GranW := u.writes.filter fun w => decide (w.start < stop)

/-- Granules written, their flags and the tainted ones counted in the reservoir (08 R186, R198). -/
def State.makeWrites (s : State) (k c b : Nat) (ws : List GranW) : State :=
  let t := ws.foldl (fun s w => s.unitWrite k c b w.gran w.bytes) s
  t.setRsv k { t.rsv k with
    bnkFlags := (t.rsv k).bnkFlags.or (Flags.all (ws.map GranW.flags))
    tainted := satAdd (t.rsv k).tainted (ws.filter fun w => w.bytes.isNone).length }

/-- A launch whose unit has made its granule writes up to `stop`. -/
def Launch.wrote (l : Launch) (k c b stop : Nat) : Launch :=
  let u := l.unitOf k c b
  let fl := Flags.all ((u.begun stop).map GranW.flags)
  { l with
    units := Map.set {} l.units (256 * k + 8 * c + b) { u with writes := [], flags := u.flags.or fl }
    tainted := l.tainted + ((u.begun stop).filter fun w => w.bytes.isNone).length
    flags := l.flags.or fl }

theorem Launch.unitOf_wrote (l : Launch) (k c b stop : Nat) : (l.wrote k c b stop).unitOf k c b =
    { l.unitOf k c b with
      writes := [], flags := (l.unitOf k c b).flags.or (Flags.all (((l.unitOf k c b).begun stop).map GranW.flags)) } :=
  Map.get_set_same ..

theorem State.makeWrites_keeps (s : State) (k c b : Nat) (ws : List GranW) :
    (s.makeWrites k c b ws).chans = s.chans ∧ ((s.makeWrites k c b ws).rsv k).budgetUs = (s.rsv k).budgetUs := by
  obtain ⟨hchans, hrsvs⟩ := foldl_keeps (fun t : State => t.chans = s.chans ∧ t.rsvs = s.rsvs)
    (fun t (w : GranW) => t.unitWrite k c b w.gran w.bytes) (fun t w ht =>
      have hw := t.unitWrite_keeps k c b w.gran w.bytes
      ⟨hw.1.trans ht.1, hw.2.trans ht.2⟩) ws s ⟨rfl, rfl⟩
  refine ⟨hchans, (congrArg Rsv.budgetUs (Map.get_set_same ..)).trans ?_⟩
  exact congrArg (fun rsvs => (Map.get {} rsvs k).budgetUs) hrsvs

section
variable {s : State} {k c b m stop : Nat} {l : Launch} (hl : s.launch m = some l)
include hl

theorem State.flushWrites_of_none (hw : (l.unitOf k c b).writes = []) : s.flushWrites k c b m stop = s := by
  simp only [State.flushWrites, hl]
  exact if_pos hw

theorem State.flushWrites_of_some (hw : (l.unitOf k c b).writes ≠ []) : s.flushWrites k c b m stop =
    (s.makeWrites k c b ((l.unitOf k c b).begun stop)).setLaunch m (l.wrote k c b stop) := by
  simp only [State.flushWrites, hl]
  exact if_neg hw

end

/-! ### The instruction (08 R187, R195) -/

/-- Instruction `w` performed by unit `b` of channel `c`: recorded, and the launch stopped where it is out of range. -/
def State.performInstr (s : State) (k c b m : Nat) (l : Launch) (w : DWord) : State :=
  let u := l.unitOf k c b
  let o := bStep s u (l.vecOf k) l.image k c b ((s.rsv k).budgetUs.toNat * 1000) w
  if o.range then (o.done k c b m l).stopLaunch m (some (cRsvBankRange, bankDetail k c b u.pc)) (some (u.cycles + 110 * u.pauses))
  else o.done k c b m l

namespace State.AtInstr
variable {s : State} {k c b m : Nat} {l : Launch} {w : DWord} (h : s.AtInstr k c b m l w)
include h

theorem pastWrites_of_none (hw : (l.unitOf k c b).writes = []) : s.pastWrites k c b = s := by
  simp only [State.pastWrites, h.current, State.flushWrites_of_none h.launch hw]

/-- With its granule writes made a unit stands before the same instruction. -/
theorem after_writes : ∃ l', (s.pastWrites k c b).AtInstr k c b m l' w ∧ (l'.unitOf k c b).writes = [] := by
  by_cases hw : (l.unitOf k c b).writes = []
  · rw [h.pastWrites_of_none hw]
    exact ⟨l, h, hw⟩
  · have hunit := l.unitOf_wrote k c b (2 ^ 48)
    obtain ⟨hchans, hbudget⟩ := s.makeWrites_keeps k c b ((l.unitOf k c b).begun (2 ^ 48))
    simp only [State.pastWrites, h.current, State.flushWrites_of_some h.launch hw]
    refine ⟨l.wrote k c b (2 ^ 48), { current := ?_, launch := State.launch_setLaunch .., kind := h.kind, live := h.live,
                                      here := ?_, going := ?_, budget := ?_ }, congrArg BUnit.writes hunit⟩
    · exact (congrArg (fun chans => (Map.get {} chans (32 * k + c)).current) hchans).trans h.current
    · exact (congrArg (fun u : BUnit => l.image[u.pc]?) hunit).trans h.here
    · exact (congrArg BUnit.ended hunit).trans h.going
    · rw [Launch.unitOf] at hunit
      rw [hunit]
      exact lt_of_lt_of_eq h.budget (congrArg (fun x : Half => x.toNat * 1000 + if bOp w = 6 then 1 else 0) hbudget).symm

/-- Within its budget: at its end END alone may begin. -/
theorem budget_open : (decide ((s.rsv k).budgetUs.toNat * 1000 < (l.unitOf k c b).cycles + 110 * (l.unitOf k c b).pauses) ||
    (bOp w != 6 && (l.unitOf k c b).cycles + 110 * (l.unitOf k c b).pauses == (s.rsv k).budgetUs.toNat * 1000)) = false := by
  have hbudget := h.budget
  unfold Launch.unitOf
  by_cases hend : bOp w = 6
  · simp only [hend, if_true] at hbudget ⊢
    simp
    omega
  · simp only [hend, if_false] at hbudget
    simp
    omega

end State.AtInstr

section
variable {s : State} {k c b m : Nat} {l : Launch} {w : DWord} (h : (s.pastWrites k c b).AtInstr k c b m l w)
include h

/-- Only the row of the instruction's own operation acts. -/
theorem bankInstr_of_other {op : Nat} (hop : bOp w ≠ op) : bankInstr op s k c b = s := by
  simp [bankInstr, h.current, h.launch, h.here, hop]

theorem bankInstr_of_own : bankInstr (bOp w) s k c b = (s.pastWrites k c b).performInstr k c b m l w := by
  have hkind : (l.kind != .bank) = false := by simp [h.kind]
  have hgo := h.budget_open
  rw [Launch.unitOf] at hgo
  simp only [bankInstr, h.current, h.launch, h.here, hkind, h.going, h.live, Option.isSome_none, bne_self_eq_false, Bool.false_or, hgo,
    Bool.false_eq_true, if_false]
  rfl

end

/-! ### The effect (08 R181 to R188) -/

/-- Occupancy, waits and flow leave alone the machine, the accumulators, the buffer and the registers that the effect left. -/
theorem bStep_of_effect (s : State) (u : BUnit) (vec : List Byte) (img : List DWord) (k c b budget : Nat) (w : DWord) :
    let o := bStep s u vec img k c b budget w
    let e := bEffect s u vec k c b w (u.readyAt (bCost u w).reads + 110 * u.pauses) budget
    o.s = e.s ∧ o.u.acc = e.u.acc ∧ o.u.vb = e.u.vb ∧ o.u.g = e.u.g := by
  dsimp only [bStep]
  split
  · exact ⟨rfl, rfl, rfl, rfl⟩
  · split
    · exact ⟨rfl, rfl, rfl, rfl⟩
    · split <;> exact ⟨rfl, rfl, rfl, rfl⟩

section
variable (s : State) (u : BUnit) (vec : List Byte) (k c b start budget : Nat)

theorem bClr_s (w : DWord) : (bClr s u w).s = s := by
  by_cases hpast : 1024 < bF w 0 10 + (if bF w 10 11 = 0 then 1024 else bF w 10 11) <;> simp [bClr, hpast]

/-- The instructions below 16 touch no bank (08 Table BNK-4). -/
theorem bEffect_s_of_integer {w : DWord} (hop : bOp w < 16) : (bEffect s u vec k c b w start budget).s = s := by
  unfold bEffect
  split
  case h_6 => exact bClr_s s u w
  all_goals grind

/-- A stream instruction of no lines does nothing, but that LVB may be out of range by its buffer address (08 R187). -/
theorem bEffect_of_no_lines {w : DWord} (hop : 16 ≤ bOp w ∧ bOp w < 20 ∨ bOp w = 25) (hn : u.reg (bF w 36 4) = 0) :
    (bEffect s u vec k c b w start budget).s = s ∧ (bEffect s u vec k c b w start budget).u = u := by
  have hn' : u.reg (bStr w).nreg = 0 := hn
  rcases (by omega : bOp w = 16 ∨ bOp w = 17 ∨ bOp w = 18 ∨ bOp w = 19 ∨ bOp w = 25) with h | h | h | h | h
  · simp [bEffect, h, bMac, hn']
  · simp [bEffect, h, bMact, hn']
  · simp [bEffect, h, bSmax, hn']
  · simp [bEffect, h, bExpl, hn']
  · by_cases hv : u.reg (bStr w).vreg % 512 = 0 <;> simp [bEffect, h, bLvb, hn', hv]

end

/-- Settles O26: a row acts on its own operation alone, once the granule writes before it are made, and then by its effect or its range stop. -/
theorem bankInstructions : Obligations.BankInstructions := by
  unfold Obligations.BankInstructions
  intro p hp s rsv ch bg m l w k c b u o hat
  obtain ⟨l', hat', hwrites'⟩ := hat.after_writes
  have hown : bOp w = p.1 → exec (p.2 rsv ch bg) s = .next ((s.pastWrites k c b).performInstr k c b m l' w) := fun hop => by
    rw [exec_bankRow p hp, ← hop, bankInstr_of_own hat']
  have hready : bOp w = p.1 → u.writes = [] → exec (p.2 rsv ch bg) s = .next (s.performInstr k c b m l w) := fun hop hw => by
    have hpast := hat.pastWrites_of_none hw
    rw [exec_bankRow p hp, ← hop, bankInstr_of_own (hpast.symm ▸ hat), hpast]
  obtain ⟨hs, hacc, hvb, hg⟩ := bStep_of_effect s u (l.vecOf k) l.image k c b ((s.rsv k).budgetUs.toNat * 1000) w
  refine ⟨fun hop => ?other, fun hop => ?writes, fun hop hw hin => ?effect, fun hop hw hout => ?range, fun hint => ?banks,
    fun hstream hn => ?empty⟩
  case other => rw [exec_bankRow p hp, bankInstr_of_other hat' hop]
  case writes =>
    have hpast := hat'.pastWrites_of_none hwrites'
    rw [hown hop, exec_bankRow p hp, ← hop, bankInstr_of_own (hpast.symm ▸ hat'), hpast]
  case effect => exact (hready hop hw).trans (congrArg Host.Outcome.next (if_neg (ne_true_of_eq_false hin)))
  case range => exact (hready hop hw).trans (congrArg Host.Outcome.next (if_pos hout))
  case banks => exact hs.trans (bEffect_s_of_integer s u _ k c b _ _ hint)
  case empty =>
    obtain ⟨hbanks, hunit⟩ := bEffect_of_no_lines s u (l.vecOf k) k c b (u.readyAt (bCost u w).reads + 110 * u.pauses)
      ((s.rsv k).budgetUs.toNat * 1000) hstream hn
    exact ⟨hs.trans hbanks, hacc.trans (congrArg BUnit.acc hunit), hvb.trans (congrArg BUnit.vb hunit), hg.trans (congrArg BUnit.g hunit)⟩

end Sys2Proof.Machine
end

section
/-! PROOFS. What the edits of attention write, for O30 to O32: contexts, frames and the walker areas, and of memory no byte below the
reservoirs (09 R202 to R204, R210). -/

namespace Sys2Proof.Machine

/-! ### The walker areas -/

/-- `s` with the contexts, the pooled frames and the stored bytes of `u`. -/
def State.withAreasOf (s u : State) : State := { s with mem := u.mem, cw := u.cw, pool := u.pool, seqs := u.seqs }

/-- `u` is `s` with contexts, pooled frames and stored bytes of the reservoirs changed. -/
structure State.SameButAreas (s u : State) : Prop where
  rest : u = s.withAreasOf u
  below : s.belowStacks u

namespace State.SameButAreas

variable {s t u : State}

theorem refl (s : State) : s.SameButAreas s := ⟨rfl, fun _ _ => rfl⟩

theorem trans (h : s.SameButAreas t) (h' : t.SameButAreas u) : s.SameButAreas u where
  rest := h'.rest.trans (congrArg (State.withAreasOf · u) h.rest :)
  below a ha := (h'.below a ha).trans (h.below a ha)

theorem foldl {β : Type} {f : State → β → State} (hf : ∀ (s : State) b, s.SameButAreas (f s b)) (l : List β) (s : State) :
    s.SameButAreas (l.foldl f s) := foldl_keeps s.SameButAreas f (fun t b h => h.trans (hf t b)) l s (refl s)

/-- What does not read contexts, pools and stored bytes stays. -/
theorem frame {δ : Type} (g : State → δ) (hg : ∀ v, g (s.withAreasOf v) = g s) (h : s.SameButAreas u) :
    g u = g s := (congrArg g h.rest).trans (hg u)

theorem cores (h : s.SameButAreas u) : u.cores = s.cores := h.frame _ fun _ => rfl
theorem passes (h : s.SameButAreas u) : u.passes = s.passes := h.frame _ fun _ => rfl
theorem att (h : s.SameButAreas u) : u.att = s.att := h.frame _ fun _ => rfl
theorem rsv (h : s.SameButAreas u) (k : Nat) : u.rsv k = s.rsv k := h.frame (State.rsv · k) fun _ => rfl

/-- Where the counts of a frame lie follows from the map and the area's bounds alone (09 R204). -/
theorem countAt (h : s.SameButAreas u) (k f : Nat) : u.countAt k f = s.countAt k f := h.frame (State.countAt · k f) fun _ => rfl

end State.SameButAreas

@[simp] theorem State.areaPut_seqs (s : State) (key : Nat) (bs : List Byte) : (s.areaPut key bs).seqs = s.seqs := rfl

/-- A write in an area leaves every byte outside its own. -/
theorem State.get_areaPut_outside (s : State) {key a : Nat} {bs : List Byte} (h : a < key ∨ key + bs.length ≤ a) :
    Map.get 0 (s.areaPut key bs).mem a = Map.get 0 s.mem a :=
  (s.get_setRaw key bs a).trans (if_neg (by omega))

theorem State.sameButAreas_areaPut (s : State) {key : Nat} (bs : List Byte) (h : 2 ^ 40 ≤ key) : s.SameButAreas (s.areaPut key bs) where
  rest := rfl
  below a ha := s.get_areaPut_outside (Or.inl (by omega))

theorem State.sameButAreas_areaZero (s : State) {key : Nat} (n : Nat) (h : 2 ^ 40 ≤ key) : s.SameButAreas (s.areaZero key n) where
  rest := rfl
  below a ha := (Map.get_drop 0 _ s.mem a).trans (if_neg (by simp; omega))

/-! ### Contexts and their tables (09 R202, R203) -/

/-- A context's record stands in the 64 bytes before its table (09 R202). -/
theorem SeqCtx.tableMA_of_recordAt {x : SeqCtx} {a : Nat} (h : x.recordAt = some a) : x.tableMA.toNat = a + 64 := by
  unfold SeqCtx.recordAt at h
  split at h
  · have := Option.some_inj.mp h
    omega
  · cases h

/-- A context's record lies in a reservoir. -/
theorem SeqCtx.le_recordAt {x : SeqCtx} {a : Nat} (h : x.recordAt = some a) : 2 ^ 40 ≤ a := by
  have htable := SeqCtx.tableMA_of_recordAt h
  unfold SeqCtx.recordAt at h
  split at h
  · omega
  · cases h

@[simp] theorem State.setSeq_seqs (s : State) (q : Nat) (x : SeqCtx) : (s.setSeq q x).seqs = Map.set {} s.seqs q x := by
  unfold State.setSeq
  dsimp only
  (repeat' split) <;> rfl

@[simp] theorem State.seqAt_setSeq (s : State) (q : Nat) (x : SeqCtx) : (s.setSeq q x).seqAt q = x := by
  unfold State.seqAt
  rw [State.setSeq_seqs, Map.get_set_same]

theorem State.seqAt_setSeq_other (s : State) {q v : Nat} (x : SeqCtx) (h : v ≠ q) : (s.setSeq q x).seqAt v = s.seqAt v := by
  unfold State.seqAt
  rw [State.setSeq_seqs, Map.get_set_other _ _ _ _ _ h.symm]

theorem State.seqAt_of_seqs {s u : State} (h : u.seqs = s.seqs) (q : Nat) : u.seqAt q = s.seqAt q := congrArg (fun m => Map.get ({} : SeqCtx) m q) h

theorem State.sameButAreas_setSeq (s : State) (q : Nat) (x : SeqCtx) : s.SameButAreas (s.setSeq q x) := by
  unfold State.setSeq
  extract_lets old t u
  have ht : s.SameButAreas t := by
    simp only [t]
    split
    · next a ha =>
      split
      · exact .refl s
      · exact s.sameButAreas_areaZero _ (SeqCtx.le_recordAt ha)
    · exact .refl s
  have hu : t.SameButAreas u := by
    simp only [u]
    split
    · next a ha => exact t.sameButAreas_areaPut _ (SeqCtx.le_recordAt ha)
    · exact .refl t
  exact ht.trans (hu.trans ⟨rfl, fun _ _ => rfl⟩)

@[simp] theorem State.seqAt_setEntry (s : State) (q l b : Nat) (f : Option Nat) :
    (s.setEntry q l b f).seqAt q = (s.seqAt q).setPage l b f := State.seqAt_setSeq ..

theorem State.seqAt_setEntry_other (s : State) {q v : Nat} (l b : Nat) (f : Option Nat) (h : v ≠ q) :
    (s.setEntry q l b f).seqAt v = s.seqAt v := by
  refine (State.seqAt_setSeq_other _ _ h).trans (State.seqAt_of_seqs ?_ v)
  split <;> simp

theorem State.sameButAreas_setEntry (s : State) (q l b : Nat) (f : Option Nat) : s.SameButAreas (s.setEntry q l b f) := by
  unfold State.setEntry
  dsimp only
  refine State.SameButAreas.trans ?_ (State.sameButAreas_setSeq _ _ _)
  split
  · next hrec =>
    obtain ⟨a, ha⟩ := Option.isSome_iff_exists.mp hrec
    have htable := SeqCtx.tableMA_of_recordAt ha
    have hle := SeqCtx.le_recordAt ha
    exact s.sameButAreas_areaPut _ (by omega)
  · exact .refl s

/-- A frame number has 22 bits. -/
theorem SeqCtx.page_lt {x : SeqCtx} {l b f : Nat} (h : x.page l b = some f) : f < 2 ^ 22 := by
  unfold SeqCtx.page at h
  split at h
  · have := Option.some_inj.mp h
    omega
  · cases h

theorem SeqCtx.page_setPage_same (x : SeqCtx) {l b f : Nat} (hf : f < 2 ^ 22) : (x.setPage l b (some f)).page l b = some f := by
  have hentry : (x.setPage l b (some f)).entry l b = 2 ^ 31 + f := by
    simp only [SeqCtx.entry, SeqCtx.setPage, Map.get_set_same, BitVec.toNat_ofNat]
    omega
  have hvalid : (2 ^ 31 + f).testBit 31 = true := by
    rw [Nat.testBit_two_pow_add_eq, Nat.testBit_lt_two_pow (by omega), Bool.not_false]
  rw [SeqCtx.page, hentry, if_pos hvalid]
  exact congrArg some (by omega)

/-- Blocks within the capacity have an entry of their own in each layer (09 R203). -/
theorem tableIndex_injective {cap l b l' b' : Nat} (hb : b < cap) (hb' : b' < cap) (h : l * cap + b = l' * cap + b') : l = l' ∧ b = b' := by
  have hdiv := congrArg (· / cap) h
  have hmod := congrArg (· % cap) h
  simp only [Nat.mul_comm _ cap, Nat.mul_add_div (Nat.zero_lt_of_lt hb), Nat.div_eq_of_lt hb, Nat.div_eq_of_lt hb', Nat.mul_add_mod,
    Nat.mod_eq_of_lt hb, Nat.mod_eq_of_lt hb', Nat.add_zero] at hdiv hmod
  exact ⟨hdiv, hmod⟩

theorem SeqCtx.page_setPage_other (x : SeqCtx) {l b l' b' : Nat} (f : Option Nat) (hb : b < x.cap.toNat) (hb' : b' < x.cap.toNat)
    (h : ¬(l = l' ∧ b = b')) : (x.setPage l' b' f).page l b = x.page l b := by
  have hentry : (x.setPage l' b' f).entry l b = x.entry l b :=
    congrArg BitVec.toNat (Map.get_set_other _ _ _ _ _ fun hindex => h (tableIndex_injective hb hb' hindex.symm))
  unfold SeqCtx.page
  rw [hentry]

/-! ### Frames and their counts (09 R204, R210) -/

@[simp] theorem State.setFrame_seqs (s : State) (k f : Nat) (x : Option PFrame) : (s.setFrame k f x).seqs = s.seqs := by
  unfold State.setFrame
  cases s.countAt k f <;> rfl

theorem State.frame_setFrame (s : State) (k f j g : Nat) (x : Option PFrame) :
    (s.setFrame k f x).frame j g = if frameKey k f = frameKey j g then x else s.frame j g := by
  have hpool : (s.setFrame k f x).pool = Map.set none s.pool (frameKey k f) x := by
    unfold State.setFrame
    cases s.countAt k f <;> rfl
  unfold State.frame
  rw [hpool, Map.get_set]

theorem State.le_countAt {s : State} {k f a : Nat} (h : s.countAt k f = some a) : 2 ^ 40 ≤ a := by
  unfold State.countAt at h
  dsimp only at h
  split at h
  · have := Option.some_inj.mp h
    omega
  · cases h

/-- Of memory a frame's change writes its 8 bytes of counts alone. -/
theorem State.get_setFrame_outside (s : State) {k f a : Nat} (x : Option PFrame) (h : ∀ b, s.countAt k f = some b → a < b ∨ b + 8 ≤ a) :
    Map.get 0 (s.setFrame k f x).mem a = Map.get 0 s.mem a := by
  unfold State.setFrame
  cases hcount : s.countAt k f with
  | none => rfl
  | some b => exact s.get_areaPut_outside (by simpa using h b hcount)

theorem State.sameButAreas_setFrame (s : State) (k f : Nat) (x : Option PFrame) : s.SameButAreas (s.setFrame k f x) where
  rest := by
    unfold State.setFrame
    cases s.countAt k f <;> rfl
  below a ha := s.get_setFrame_outside x fun b hb => Or.inl (Nat.lt_of_lt_of_le ha (State.le_countAt hb))

@[simp] theorem State.count_seqs (s : State) (k f : Nat) (g : PFrame → PFrame) : (s.count k f g).seqs = s.seqs := State.setFrame_seqs ..

theorem State.sameButAreas_count (s : State) (k f : Nat) (g : PFrame → PFrame) : s.SameButAreas (s.count k f g) :=
  s.sameButAreas_setFrame ..

/-! ### The first ready command of a row (09 R206, R207) -/

section
variable {s : State} {core : CoreId} {q : QueueId} {aop : Nat} {i : AttItem}

/-- A ready command of a row has the row's operation. -/
theorem aop_of_ready (hhead : (s.attReady core q aop).head? = some i) : i.cmd.aop = aop := by
  have hmem : i ∈ s.attReady core q aop := List.mem_of_head? hhead
  simp only [State.attReady, List.mem_filter, Bool.and_eq_true, beq_iff_eq] at hmem
  obtain ⟨-, ⟨-, hop⟩, -⟩ := hmem
  exact hop

/-- The row of an operation goes through its ready commands. -/
theorem attRow_of_ready {is : List AttItem} (h : s.attReady core q aop = is) :
    attRow aop s core.toNat q.toNat false = attFirst s core.toNat q.toNat is := h ▸ rfl

theorem attRow_of_fault {code det : Nat} (hhead : (s.attReady core q aop).head? = some i) (h : attPerform s i = .fault code det) :
    Host.Outcome.next (attRow aop s core.toNat q.toNat false) = i.fails s core q code det := by
  obtain ⟨is, hready⟩ := List.head?_eq_some_iff.mp hhead
  rw [attRow_of_ready hready, attFirst, h]
  rfl

theorem attRow_of_done {u : State} (hhead : (s.attReady core q aop).head? = some i) (h : attPerform s i = .done u) :
    Host.Outcome.next (attRow aop s core.toNat q.toNat false) = i.ends u core q := by
  obtain ⟨is, hready⟩ := List.head?_eq_some_iff.mp hhead
  rw [attRow_of_ready hready, attFirst, h]
  rfl

theorem attRow_of_opened {u : State} (hhead : (s.attReady core q aop).head? = some i) (h : attPerform s i = .opened u) :
    attRow aop s core.toNat q.toNat false = { u with att := u.att.erase i } := by
  obtain ⟨is, hready⟩ := List.head?_eq_some_iff.mp hhead
  rw [attRow_of_ready hready, attFirst, h]

/-- A command that waits, and is the only one ready, leaves everything. -/
theorem attRow_of_wait (hone : s.attReady core q aop = [i]) (h : attPerform s i = .wait) : attRow aop s core.toNat q.toNat false = s := by
  rw [attRow_of_ready hone, attFirst, h]
  rfl

/-- A command under way, and the only one ready, leaves what it has come to. -/
theorem attRow_of_going {u : State} (hone : s.attReady core q aop = [i]) (h : attPerform s i = .going u) :
    attRow aop s core.toNat q.toNat false = u := by
  rw [attRow_of_ready hone, attFirst, h]
  rfl

end

/-! ### Checks the operations share (09 R206, R208, Table ATT-2) -/

theorem attOnOpen_of_foreign {s : State} {p : Nat} {c : Cmd} (f : SeqCtx → AttOut) (h : s.seqMine p c.seq = false) :
    attOnOpen s p c f = .fault cAttSeqDenied 0 := by
  simp [attOnOpen, h]

theorem attOnOpen_of_closed {s : State} {p : Nat} {c : Cmd} (f : SeqCtx → AttOut) (hmine : s.seqMine p c.seq = true)
    (h : (s.seqAt c.seq).isOpen = false) : attOnOpen s p c f = .fault cAttSeqState 0 := by
  simp [attOnOpen, hmine, h]

theorem attOnOpen_of_open {s : State} {p : Nat} {c : Cmd} (f : SeqCtx → AttOut) (hmine : s.seqMine p c.seq = true)
    (h : (s.seqAt c.seq).isOpen = true) : attOnOpen s p c f = f (s.seqAt c.seq) := by
  simp [attOnOpen, hmine, h]

theorem attEdit_of_idle {x : SeqCtx} (o : AttOut) (h : x.openPasses = 0) : attEdit x o = o := if_pos h
theorem attEdit_of_reading {x : SeqCtx} (o : AttOut) (h : x.openPasses ≠ 0) : attEdit x o = .wait := if_neg h

end Sys2Proof.Machine
end

section
/-! PROOFS. O31: APPEND, SHARE and TRUNCATE (09 R208, R209). -/

namespace Sys2Proof.Machine

/-- Context `q` with `n` tokens. -/
def State.withLen (s : State) (q n : Nat) : State := s.setSeq q { s.seqAt q with len := BitVec.ofNat 32 n }

/-! ### APPEND -/

section
variable {s : State} {i : AttItem}

theorem attCopy_of_copied {plan : List (Nat × Nat × Nat × Nat)} (h : (s.copyPlan (.attCopy i.cmd.seq) i.part plan).2 = true) :
    let u := (s.copyPlan (.attCopy i.cmd.seq) i.part plan).1.enterPlan i.cmd.seq plan
    attCopy s i plan = .done (u.withLen i.cmd.seq ((u.seqAt i.cmd.seq).len.toNat + i.cmd.n)) := if_pos h

theorem attCopy_of_copying {plan : List (Nat × Nat × Nat × Nat)} (h : (s.copyPlan (.attCopy i.cmd.seq) i.part plan).2 = false) :
    let u := (s.copyPlan (.attCopy i.cmd.seq) i.part plan).1
    attCopy s i plan = .going { u with att := u.att.map fun j => if j = i then { i with plan := some plan } else j } :=
  if_neg (ne_true_of_eq_false h)

theorem attAppend_of_plan {plan : List (Nat × Nat × Nat × Nat)} (hopen : (s.seqAt i.cmd.seq).isOpen = true) (hplan : i.plan = some plan) :
    attAppend s i = attCopy s i plan := by
  simp only [attAppend, hplan, hopen, if_true]

variable (hmine : s.seqMine i.part i.cmd.seq = true) (hopen : (s.seqAt i.cmd.seq).isOpen = true) (hnew : i.plan = none)
include hmine hopen hnew

theorem attAppend_of_full (hfull : 64 * (s.seqAt i.cmd.seq).cap.toNat < (s.seqAt i.cmd.seq).len.toNat + i.cmd.n) :
    attAppend s i = .fault cAttSeqFull 0 := by
  simp only [attAppend, hnew, attOnOpen_of_open _ hmine hopen, hfull, if_true]

variable (hroom : (s.seqAt i.cmd.seq).len.toNat + i.cmd.n ≤ 64 * (s.seqAt i.cmd.seq).cap.toNat)
include hroom

theorem attAppend_of_poolEmpty (hshort : ∃ k < 8, (s.freeFrames i.part k).length < s.appendNeeds i.cmd.seq
      ((s.seqAt i.cmd.seq).len.toNat / 64) (blocksOf ((s.seqAt i.cmd.seq).len.toNat + i.cmd.n)) k) :
    attAppend s i = .fault cAttPoolEmpty 0 := by
  simp only [attAppend, hnew, attOnOpen_of_open _ hmine hopen, Nat.not_lt.mpr hroom, if_false]
  exact if_pos (by simpa using hshort)

/-- An APPEND whose pages are reserved makes its copies, once no pass is open on its context. -/
theorem attAppend_of_reserved {u : State} {plan : List (Nat × Nat × Nat × Nat)}
    (hframes : ∀ k < 8, s.appendNeeds i.cmd.seq ((s.seqAt i.cmd.seq).len.toNat / 64)
      (blocksOf ((s.seqAt i.cmd.seq).len.toNat + i.cmd.n)) k ≤ (s.freeFrames i.part k).length)
    (hreserve : s.reserve i.part (s.appendBlocks i.cmd.seq ((s.seqAt i.cmd.seq).len.toNat / 64)
      (blocksOf ((s.seqAt i.cmd.seq).len.toNat + i.cmd.n))) = some (u, plan)) :
    attAppend s i = attEdit (s.seqAt i.cmd.seq) (attCopy u i plan) := by
  simp only [attAppend, hnew, attOnOpen_of_open _ hmine hopen, Nat.not_lt.mpr hroom, if_false, hreserve]
  exact if_neg (by simpa using hframes)

end

/-! ### SHARE -/

/-- The pages a SHARE of `n` tokens takes from context `y` for `layers` layers: layer, block and frame. -/
def SeqCtx.sharedPages (y : SeqCtx) (layers n : Nat) : List (Nat × Nat × Nat) :=
  ((List.range layers).flatMap fun l => (List.range (blocksOf n)).map fun b => (l, b)).filterMap fun e =>
    (y.page e.1 e.2).map fun f => (e.1, e.2, f)

theorem SeqCtx.mem_sharedPages {y : SeqCtx} {layers n l b f : Nat} :
    (l, b, f) ∈ y.sharedPages layers n ↔ l < layers ∧ b < blocksOf n ∧ y.page l b = some f := by
  simp [SeqCtx.sharedPages]

/-- Pages named in the table of context `q`, each with a reference taken. -/
def State.enterShared (s : State) (q : Nat) (pages : List (Nat × Nat × Nat)) : State :=
  pages.foldl (fun s e => (s.count (e.2.1 % 8) e.2.2 PFrame.ref).setEntry q e.1 e.2.1 (some e.2.2)) s

theorem State.sameButAreas_enterShared (s : State) (q : Nat) (pages : List (Nat × Nat × Nat)) : s.SameButAreas (s.enterShared q pages) :=
  State.SameButAreas.foldl (fun t _ => (t.sameButAreas_count ..).trans (State.sameButAreas_setEntry ..)) pages s

theorem State.seqAt_enterShared_other (s : State) {q v : Nat} (pages : List (Nat × Nat × Nat)) (h : v ≠ q) :
    (s.enterShared q pages).seqAt v = s.seqAt v :=
  foldl_frame (State.seqAt · v) _ (fun _ _ => (State.seqAt_setEntry_other _ _ _ _ h).trans (State.seqAt_of_seqs (State.count_seqs ..) v)) pages s

/-- Where every page entered at a layer and block is `f`, and one is entered or stands there, `f` stands there after. -/
theorem State.page_enterShared {s : State} {q l b f : Nat} {pages : List (Nat × Nat × Nat)}
    (hb : b < (s.seqAt q).cap.toNat) (hf : f < 2 ^ 22) (hcap : ∀ e ∈ pages, e.2.1 < (s.seqAt q).cap.toNat)
    (hone : ∀ g, (l, b, g) ∈ pages → g = f) (hthere : (l, b, f) ∈ pages ∨ (s.seqAt q).page l b = some f) :
    ((s.enterShared q pages).seqAt q).page l b = some f := by
  induction pages generalizing s with
  | nil => exact hthere.resolve_left List.not_mem_nil
  | cons e pages ih =>
    obtain ⟨l', b', g⟩ := e
    have hctx : ((s.count (b' % 8) g PFrame.ref).setEntry q l' b' (some g)).seqAt q = (s.seqAt q).setPage l' b' (some g) := by
      rw [State.seqAt_setEntry, State.seqAt_of_seqs (State.count_seqs ..)]
    refine ih (s := (s.count (b' % 8) g PFrame.ref).setEntry q l' b' (some g)) (by rw [hctx]; exact hb)
      (fun e he => by rw [hctx]; exact hcap e (List.mem_cons_of_mem _ he)) (fun g hg => hone g (List.mem_cons_of_mem _ hg)) ?_
    rw [hctx]
    by_cases hat : l = l' ∧ b = b'
    · obtain ⟨rfl, rfl⟩ := hat
      obtain rfl := hone g List.mem_cons_self
      exact Or.inr (SeqCtx.page_setPage_same _ hf)
    · rw [SeqCtx.page_setPage_other _ _ hb (hcap _ List.mem_cons_self) hat]
      refine hthere.imp_left fun hmem => (List.mem_cons.mp hmem).resolve_left fun heq => hat ?_
      simp only [Prod.mk.injEq] at heq
      exact ⟨heq.1, heq.2.1⟩

section
variable {s : State} {p : Nat} {c : Cmd} (hmine : s.seqMine p c.seq = true) (hopen : (s.seqAt c.seq).isOpen = true)
include hmine hopen

theorem attShare_of_foreign (hsrc : s.seqMine p (c.arg2 % 65536) = false) : attShare s p c = .fault cAttSeqDenied 0 := by
  simp only [attShare, attOnOpen_of_open _ hmine hopen, hsrc, Bool.not_false, if_true]

variable (hsrc : s.seqMine p (c.arg2 % 65536) = true)
include hsrc

theorem attShare_of_unlike (hunlike : (s.seqAt (c.arg2 % 65536)).isOpen = false ∨ (s.seqAt c.seq).len ≠ 0 ∨
      (s.seqAt c.seq).layers ≠ (s.seqAt (c.arg2 % 65536)).layers ∨ (s.seqAt c.seq).toff ≠ (s.seqAt (c.arg2 % 65536)).toff ∨
      (s.seqAt (c.arg2 % 65536)).len.toNat < c.n) : attShare s p c = .fault cAttSeqState 0 := by
  simp only [attShare, attOnOpen_of_open _ hmine hopen, hsrc, Bool.not_true, Bool.false_eq_true, if_false]
  exact if_pos (hunlike.imp_left fun h => by simp [h])

variable (hlive : (s.seqAt (c.arg2 % 65536)).isOpen = true) (hempty : (s.seqAt c.seq).len = 0)
  (hlayers : (s.seqAt c.seq).layers = (s.seqAt (c.arg2 % 65536)).layers) (htoff : (s.seqAt c.seq).toff = (s.seqAt (c.arg2 % 65536)).toff)
  (hlen : c.n ≤ (s.seqAt (c.arg2 % 65536)).len.toNat)
include hlive hempty hlayers htoff hlen

theorem attShare_of_full (hfull : 64 * (s.seqAt c.seq).cap.toNat < c.n) : attShare s p c = .fault cAttSeqFull 0 := by
  simp only [attShare, attOnOpen_of_open _ hmine hopen, hsrc, hlive, hempty, hlayers, htoff, Nat.not_lt.mpr hlen, hfull, Bool.not_true,
    Bool.false_eq_true, ne_eq, not_true_eq_false, or_self, if_false, if_true]

/-- A SHARE that passes its checks enters the source's pages, once no pass is open on its context. -/
theorem attShare_of_like (hroom : c.n ≤ 64 * (s.seqAt c.seq).cap.toNat)
    (hrefs : ∀ l b f e, l < (s.seqAt c.seq).layers.toNat → b < blocksOf c.n → (s.seqAt (c.arg2 % 65536)).page l b = some f →
      s.frame (b % 8) f = some e → e.refs < 65535) :
    attShare s p c = attEdit (s.seqAt c.seq) (.done ((s.enterShared c.seq
      ((s.seqAt (c.arg2 % 65536)).sharedPages (s.seqAt c.seq).layers.toNat c.n)).withLen c.seq c.n)) := by
  unfold attShare
  rw [attOnOpen_of_open _ hmine hopen]
  dsimp only
  rw [if_neg (by simp [hsrc]), if_neg (by simp [hlive, hempty, hlayers, htoff, hlen]), if_neg (Nat.not_lt.mpr hroom)]
  refine if_neg fun hover => ?_
  obtain ⟨⟨l, b, f⟩, he, hbad⟩ := List.any_eq_true.mp hover
  obtain ⟨hl, hb, hpage⟩ := SeqCtx.mem_sharedPages.mp he
  cases hframe : s.frame (b % 8) f with
  | none => simp [hframe] at hbad
  | some g =>
    have hlow := hrefs l b f g hl hb hpage hframe
    simp only [hframe, decide_eq_true_eq] at hbad
    omega

end

/-! ### TRUNCATE -/

section
variable {s : State} {p : Nat} {c : Cmd} (hmine : s.seqMine p c.seq = true) (hopen : (s.seqAt c.seq).isOpen = true)
include hmine hopen

theorem attTruncate_of_short (h : (s.seqAt c.seq).len.toNat < c.n) : attTruncate s p c = .fault cAttSeqState 0 := by
  simp only [attTruncate, attOnOpen_of_open _ hmine hopen, h, if_true]

theorem attTruncate_of_le (h : c.n ≤ (s.seqAt c.seq).len.toNat) :
    attTruncate s p c = attEdit (s.seqAt c.seq)
      (.done ((s.dropBlocks c.seq (blocksOf c.n) (blocksOf (s.seqAt c.seq).len.toNat)).withLen c.seq c.n)) := by
  simp only [attTruncate, attOnOpen_of_open _ hmine hopen, Nat.not_lt.mpr h, if_false, State.withLen]

end

/-- Settles O31: each edit is its checks in their order, the wait for open passes, and its effect. -/
theorem attEdits : Obligations.AttEdits := by
  unfold Obligations.AttEdits
  intro s core q i c x hmine hopen
  refine ⟨fun hhead => ?append, fun hhead => ?share, fun hhead => ?truncate⟩
  case append =>
    have hop : attPerform s i = attAppend s i := by simp only [attPerform, aop_of_ready hhead]
    intro b0 b1 grow
    refine ⟨fun hnew => ⟨fun hfull => ?_, fun hroom hshort => ?_, fun u plan hroom hframes hreserve => ?_⟩, fun plan hplan hcopied => ?_⟩
    · exact attRow_of_fault hhead (hop.trans (attAppend_of_full hmine hopen hnew hfull))
    · exact attRow_of_fault hhead (hop.trans (attAppend_of_poolEmpty hmine hopen hnew hroom hshort))
    · have hedit := hop.trans (attAppend_of_reserved hmine hopen hnew hroom hframes hreserve)
      refine ⟨fun hreading hone => ?_, fun hidle hcopied => ?_, fun hidle hcopying hone => ?_⟩
      · exact congrArg Host.Outcome.next (attRow_of_wait hone (hedit.trans (attEdit_of_reading _ hreading)))
      · exact attRow_of_done hhead ((hedit.trans (attEdit_of_idle _ hidle)).trans (attCopy_of_copied hcopied))
      · exact congrArg Host.Outcome.next
          (attRow_of_going hone ((hedit.trans (attEdit_of_idle _ hidle)).trans (attCopy_of_copying hcopying)))
    · exact attRow_of_done hhead ((hop.trans (attAppend_of_plan hopen hplan)).trans (attCopy_of_copied hcopied))
  case share =>
    have hop : attPerform s i = attShare s i.part i.cmd := by simp only [attPerform, aop_of_ready hhead]
    intro src y
    refine ⟨fun hsrc => ?_, fun hsrc hunlike => ?_, fun hsrc hlive hempty hlayers htoff hlen hfull => ?_,
      fun hsrc hlive hempty hlayers htoff hlen hroom hrefs => ?_⟩
    · exact attRow_of_fault hhead (hop.trans (attShare_of_foreign hmine hopen hsrc))
    · exact attRow_of_fault hhead (hop.trans (attShare_of_unlike hmine hopen hsrc hunlike))
    · exact attRow_of_fault hhead (hop.trans (attShare_of_full hmine hopen hsrc hlive hempty hlayers htoff hlen hfull))
    have hedit := hop.trans (attShare_of_like hmine hopen hsrc hlive hempty hlayers htoff hlen hroom hrefs)
    refine ⟨fun hreading hone => congrArg Host.Outcome.next (attRow_of_wait hone (hedit.trans (attEdit_of_reading _ hreading))), fun hidle => ?_⟩
    have hareas : s.SameButAreas ((s.enterShared c.seq (y.sharedPages x.layers.toNat c.n)).withLen c.seq c.n) :=
      (s.sameButAreas_enterShared ..).trans (State.sameButAreas_setSeq ..)
    refine ⟨(s.enterShared c.seq (y.sharedPages x.layers.toNat c.n)).withLen c.seq c.n,
      attRow_of_done hhead (hedit.trans (attEdit_of_idle _ hidle)), ?len, fun l b f hl hb hpage => ?page, fun v hv => ?other, hareas.below,
      hareas.passes, hareas.cores⟩
    case len => rw [State.withLen, State.seqAt_setSeq]; exact BitVec.toNat_ofNat ..
    case page =>
      have hcap : ∀ b, b < blocksOf c.n → b < x.cap.toNat := fun b hb => by unfold blocksOf at hb; omega
      rw [State.withLen, State.seqAt_setSeq]
      refine State.page_enterShared (hcap b hb) (SeqCtx.page_lt hpage) (fun e he => ?within) (fun g hg => ?one)
        (Or.inl (SeqCtx.mem_sharedPages.mpr ⟨hl, hb, hpage⟩))
      case within =>
        obtain ⟨-, hblock, -⟩ := SeqCtx.mem_sharedPages.mp he
        exact hcap _ hblock
      case one =>
        obtain ⟨-, -, hsame⟩ := SeqCtx.mem_sharedPages.mp hg
        exact Option.some_inj.mp (hsame.symm.trans hpage)
    case other => exact (State.seqAt_setSeq_other _ _ hv).trans (s.seqAt_enterShared_other _ hv)
  case truncate =>
    have hop : attPerform s i = attTruncate s i.part i.cmd := by simp only [attPerform, aop_of_ready hhead]
    refine ⟨fun hshort => ?_, fun hle hreading hone => ?_, fun hle hidle => ?_⟩
    · exact attRow_of_fault hhead (hop.trans (attTruncate_of_short hmine hopen hshort))
    · exact congrArg Host.Outcome.next
        (attRow_of_wait hone ((hop.trans (attTruncate_of_le hmine hopen hle)).trans (attEdit_of_reading _ hreading)))
    · exact attRow_of_done hhead ((hop.trans (attTruncate_of_le hmine hopen hle)).trans (attEdit_of_idle _ hidle))

end Sys2Proof.Machine
end

section
/-! PROOFS. O30: POOL_ADD, SEQ_OPEN and SEQ_CLOSE (09 R201, R202, R204, R209). -/

namespace Sys2Proof.Machine

/-! ### POOL_ADD -/

/-- The frames a POOL_ADD of partition `p` names that lie in its channel set (09 R201). -/
def State.namedFrames (s : State) (p : Nat) (c : Cmd) : List Nat :=
  ((List.range c.n).map fun j => c.arg2 % 2 ^ 22 + j).filter fun f => (s.chsetOf (c.arg % 8) p).testBit (s.rsvCh (c.arg % 8) (f * 32768))

/-- Frames of reservoir `k` pooled for partition `p`, each free. -/
def State.poolFrames (s : State) (k p : Nat) (fs : List Nat) : State :=
  fs.foldl (fun s f => s.setFrame k f (some { part := p, refs := 0, pins := 0 })) s

theorem State.sameButAreas_poolFrames (s : State) (k p : Nat) (fs : List Nat) : s.SameButAreas (s.poolFrames k p fs) :=
  State.SameButAreas.foldl (fun t _ => t.sameButAreas_setFrame ..) fs s

theorem State.seqs_poolFrames (s : State) (k p : Nat) (fs : List Nat) : (s.poolFrames k p fs).seqs = s.seqs :=
  foldl_frame State.seqs _ (fun _ _ => State.setFrame_seqs ..) fs s

/-- A frame is the pool's where it is one of those pooled, and else what it was. -/
theorem State.frame_poolFrames (s : State) (k p : Nat) (fs : List Nat) (j g : Nat) : (s.poolFrames k p fs).frame j g =
    if ∃ f ∈ fs, frameKey k f = frameKey j g then some { part := p, refs := 0, pins := 0 } else s.frame j g := by
  induction fs generalizing s with
  | nil => simp [State.poolFrames]
  | cons f fs ih =>
    refine (ih (s.setFrame k f _)).trans ?_
    rw [State.frame_setFrame]
    by_cases htail : ∃ f ∈ fs, frameKey k f = frameKey j g <;> by_cases hhere : frameKey k f = frameKey j g <;> simp [htail, hhere]

/-- Of memory, pooling frames writes their counts alone (09 R204). -/
theorem State.get_poolFrames_outside {s : State} {k p a : Nat} {fs : List Nat}
    (h : ∀ f ∈ fs, ∀ b, s.countAt k f = some b → a < b ∨ b + 8 ≤ a) : Map.get 0 (s.poolFrames k p fs).mem a = Map.get 0 s.mem a := by
  induction fs generalizing s with
  | nil => rfl
  | cons f fs ih =>
    refine (ih fun g hg b hb => ?_).trans (s.get_setFrame_outside _ (h f List.mem_cons_self))
    rw [(s.sameButAreas_setFrame k f _).countAt] at hb
    exact h g (List.mem_cons_of_mem _ hg) b hb

/-- Frame numbers of 22 bits keep the reservoirs' frames apart. -/
theorem frameKey_injective {k f j g : Nat} (hf : f < 2 ^ 22) (hg : g < 2 ^ 22) (h : frameKey k f = frameKey j g) : j = k ∧ g = f := by
  unfold frameKey at h
  omega

/-- The frames of a range within a reservoir have 22 bits. -/
theorem State.namedFrames_lt {s : State} {p : Nat} {c : Cmd} (h : (c.arg2 % 2 ^ 22 + c.n) * 32768 ≤ s.rsvSize (c.arg % 8)) {f : Nat}
    (hf : f ∈ s.namedFrames p c) : f < 2 ^ 22 := by
  have hsize := s.rsvSize_le (c.arg % 8)
  obtain ⟨j, hj, rfl⟩ := List.mem_map.mp (List.mem_of_mem_filter hf)
  have hj := List.mem_range.mp hj
  omega

section
variable {s : State} {p : Nat} {c : Cmd}

theorem attPoolAdd_of_denied (h : s.rsvSize (c.arg % 8) < (c.arg2 % 2 ^ 22 + c.n) * 32768 ∨
      ∃ f ∈ s.namedFrames p c, (s.frame (c.arg % 8) f).isSome = true ∨ s.inArea (c.arg % 8) f = true) :
    attPoolAdd s p c = .fault cAttPoolDenied 0 := by
  unfold attPoolAdd
  dsimp only
  by_cases hpast : s.rsvSize (c.arg % 8) < (c.arg2 % 2 ^ 22 + c.n) * 32768
  · exact if_pos hpast
  · obtain ⟨f, hf, htaken⟩ := h.resolve_left hpast
    exact (if_neg hpast).trans (if_pos (List.any_eq_true.mpr ⟨f, hf, by simpa using htaken⟩))

theorem attPoolAdd_of_free (hfit : (c.arg2 % 2 ^ 22 + c.n) * 32768 ≤ s.rsvSize (c.arg % 8))
    (hfree : ∀ f ∈ s.namedFrames p c, s.frame (c.arg % 8) f = none ∧ s.inArea (c.arg % 8) f = false) :
    attPoolAdd s p c = .done (s.poolFrames (c.arg % 8) p (s.namedFrames p c)) := by
  refine (if_neg (Nat.not_lt.mpr hfit)).trans (if_neg fun htaken => ?_)
  obtain ⟨f, hf, hbad⟩ := List.any_eq_true.mp htaken
  obtain ⟨hnone, hout⟩ := hfree f hf
  simp [hnone, hout] at hbad

end

/-! ### SEQ_OPEN and SEQ_CLOSE -/

section
variable {s : State} {p : Nat} {c : Cmd}

theorem attOpen_of_foreign (h : s.seqMine p c.seq = false) : attOpen s p c = .fault cAttSeqDenied 0 := by
  simp [attOpen, h]

variable (hmine : s.seqMine p c.seq = true)
include hmine

theorem attOpen_of_open (h : (s.seqAt c.seq).isOpen = true) : attOpen s p c = .fault cAttSeqState 0 := by
  simp [attOpen, hmine, h]

theorem attOpen_of_noRoom (hclosed : (s.seqAt c.seq).isOpen = false)
    (h : s.tableRoom p (c.seq % 8) (4 * (c.arg % 256) * c.n) = none) : attOpen s p c = .fault cAttAreaFull 0 := by
  simp [attOpen, hmine, hclosed, h]

/-- A closed context with room for its table opens, its table invalid. -/
theorem attOpen_of_room {a : Nat} (hclosed : (s.seqAt c.seq).isOpen = false) (hidle : (s.seqAt c.seq).openPasses = 0)
    (h : s.tableRoom p (c.seq % 8) (4 * (c.arg % 256) * c.n) = some a) :
    attOpen s p c = .done ((s.areaZero a (4 * (c.arg % 256) * c.n)).setSeq c.seq
      { isOpen := true, part := BitVec.ofNat 5 p, layers := BitVec.ofNat 8 c.arg, toff := BitVec.ofNat 8 (c.arg / 256),
        openPasses := 0, len := 0, cap := BitVec.ofNat 17 c.n, tableMA := BitVec.ofNat 48 a, table := [] }) := by
  simp [attOpen, hmine, hclosed, h, attEdit_of_idle _ hidle]

theorem attClose_of_open (hopen : (s.seqAt c.seq).isOpen = true) :
    attClose s p c = attEdit (s.seqAt c.seq) (.done ((s.dropBlocks c.seq 0 (blocksOf (s.seqAt c.seq).len.toNat)).setSeq c.seq {})) :=
  attOnOpen_of_open _ hmine hopen

end

/-- Settles O30: POOL_ADD by its walk over the named frames, the contexts by their checks, and what the write of a context leaves. -/
theorem attContexts : Obligations.AttContexts := by
  unfold Obligations.AttContexts
  intro s core q i c x
  refine ⟨fun hhead => ?pool, fun hhead => ?opens, fun hhead => ?closes, fun v => ?context⟩
  case pool =>
    have hop : attPerform s i = attPoolAdd s i.part i.cmd := by simp only [attPerform, aop_of_ready hhead]
    intro k fs
    refine ⟨fun hdenied => attRow_of_fault hhead (hop.trans (attPoolAdd_of_denied hdenied)), fun hfit hfree => ?_⟩
    have hareas := s.sameButAreas_poolFrames k i.part fs
    refine ⟨s.poolFrames k i.part fs, attRow_of_done hhead (hop.trans (attPoolAdd_of_free hfit hfree)), fun f hf => ?named,
      fun j f hlt hother => ?others, fun a ha => State.get_poolFrames_outside ha, s.seqs_poolFrames k i.part fs, hareas.passes, hareas.cores⟩
    case named => rw [State.frame_poolFrames, if_pos ⟨f, hf, rfl⟩]
    case others =>
      rw [State.frame_poolFrames, if_neg]
      rintro ⟨g, hg, hkey⟩
      obtain ⟨rfl, rfl⟩ := frameKey_injective (State.namedFrames_lt hfit hg) hlt hkey
      exact hother ⟨rfl, hg⟩
  case opens =>
    have hop : attPerform s i = attOpen s i.part i.cmd := by simp only [attPerform, aop_of_ready hhead]
    exact ⟨fun hforeign => attRow_of_fault hhead (hop.trans (attOpen_of_foreign hforeign)),
      fun hmine hopen => attRow_of_fault hhead (hop.trans (attOpen_of_open hmine hopen)),
      fun hmine hclosed hnone => attRow_of_fault hhead (hop.trans (attOpen_of_noRoom hmine hclosed hnone)),
      fun a hmine hclosed hidle hroom => attRow_of_done hhead (hop.trans (attOpen_of_room hmine hclosed hidle hroom))⟩
  case closes =>
    have hop : attPerform s i = attClose s i.part i.cmd := by simp only [attPerform, aop_of_ready hhead]
    refine ⟨fun hforeign => attRow_of_fault hhead (hop.trans (attOnOpen_of_foreign _ hforeign)),
      fun hmine hclosed => attRow_of_fault hhead (hop.trans (attOnOpen_of_closed _ hmine hclosed)), fun hmine hopen hidle => ?_,
      fun hmine hopen hreading hone => ?_⟩
    · exact attRow_of_done hhead ((hop.trans (attClose_of_open hmine hopen)).trans (attEdit_of_idle _ hidle))
    · exact congrArg Host.Outcome.next
        (attRow_of_wait hone ((hop.trans (attClose_of_open hmine hopen)).trans (attEdit_of_reading _ hreading)))
  case context =>
    exact ⟨s.seqAt_setSeq _ v, fun w hw => s.seqAt_setSeq_other v hw, (s.sameButAreas_setSeq _ v).below⟩

end Sys2Proof.Machine
end

section
/-! PROOFS. O32: SCORE, APPLY and ABORT of a pass (09 R206, R208, R212, R216, R217). -/

namespace Sys2Proof.Machine

/-! ### SCORE -/

/-- The pages of a layer that hold tokens from `c`'s first on, up to the context's length (09 R212). -/
def SeqCtx.scorePages (x : SeqCtx) (c : Cmd) : List PassPage :=
  if c.arg < x.len.toNat then
    ((List.range (blocksOf x.len.toNat)).filter fun b => decide (c.arg < 64 * b + 64)).filterMap fun b =>
      (x.page c.layer b).map fun f => ({ block := b, k := b % 8, frame := f } : PassPage)
  else []

/-- The pass that a SCORE opens on context `x` (09 R212, R217). -/
def State.scored (s : State) (i : AttItem) (x : SeqCtx) : Pass :=
  { st := .opened, owner := some (i.core, i.queue), seq := i.cmd.seq, layer := i.cmd.layer, first := i.cmd.arg, len := x.len.toNat,
    tick := s.tick, heads := (queryHeads i.ha).getD 0, pages := x.scorePages i.cmd, read := 1,
    cmd := some (i.core, i.queue, i.idx), ha := i.ha, hb := i.hb }

/-- Pages pinned (09 R210). -/
def State.pinPages (s : State) (pages : List PassPage) : State := pages.foldl (fun s g => s.count g.k g.frame PFrame.pin) s

theorem State.sameButAreas_pinPages (s : State) (pages : List PassPage) : s.SameButAreas (s.pinPages pages) :=
  State.SameButAreas.foldl (fun t _ => t.sameButAreas_count ..) pages s

theorem State.seqs_pinPages (s : State) (pages : List PassPage) : (s.pinPages pages).seqs = s.seqs :=
  foldl_frame State.seqs _ (fun _ _ => State.count_seqs ..) pages s

/-- The pages of pass `z` pinned, and its context `x` with one open pass more (09 R208, R210). -/
def State.pinned (s : State) (x : SeqCtx) (z : Pass) : State :=
  (s.pinPages z.pages).setSeq z.seq { x with openPasses := x.openPasses + 1 }

/-- Pass `z` of context `x` in its slot, its home's pass count one more (09 R217). -/
def State.openPass (s : State) (p slot : Nat) (x : SeqCtx) (z : Pass) : State :=
  let u := s.pinned x z
  (u.setRsv (z.seq % 8) { u.rsv (z.seq % 8) with passes := (u.rsv (z.seq % 8)).passes + 1 }).setPass p slot z

section
variable {s : State} {p slot : Nat} {x : SeqCtx} {z : Pass}

theorem State.sameButAreas_pinned : s.SameButAreas (s.pinned x z) := (s.sameButAreas_pinPages _).trans (State.sameButAreas_setSeq ..)

theorem State.seqs_openPass : (s.openPass p slot x z).seqs = (s.pinned x z).seqs := rfl

theorem State.pass_openPass : (s.openPass p slot x z).pass p slot = z := Map.get_set_same ..

theorem State.seqAt_openPass : (s.openPass p slot x z).seqAt z.seq = { x with openPasses := x.openPasses + 1 } :=
  (State.seqAt_of_seqs State.seqs_openPass _).trans (State.seqAt_setSeq ..)

theorem State.seqAt_openPass_other {v : Nat} (h : v ≠ z.seq) : (s.openPass p slot x z).seqAt v = s.seqAt v :=
  ((State.seqAt_of_seqs State.seqs_openPass v).trans (State.seqAt_setSeq_other _ _ h)).trans (State.seqAt_of_seqs (s.seqs_pinPages _) v)

theorem State.rsvPasses_openPass : ((s.openPass p slot x z).rsv (z.seq % 8)).passes = (s.rsv (z.seq % 8)).passes + 1 := by
  rw [← (State.sameButAreas_pinned (s := s) (x := x) (z := z)).rsv]
  exact congrArg Rsv.passes (Map.get_set_same ..)

theorem State.belowStacks_openPass : s.belowStacks (s.openPass p slot x z) := fun a ha => by
  have hmem : (s.openPass p slot x z).mem = (s.pinned x z).mem := rfl
  rw [hmem, State.sameButAreas_pinned.below a ha]

theorem State.cores_openPass : (s.openPass p slot x z).cores = s.cores :=
  Eq.trans (b := (s.pinned x z).cores) rfl State.sameButAreas_pinned.cores

theorem State.att_openPass : (s.openPass p slot x z).att = s.att :=
  Eq.trans (b := (s.pinned x z).att) rfl State.sameButAreas_pinned.att

end

section
variable {s : State} {i : AttItem} (hmine : s.seqMine i.part i.cmd.seq = true) (hopen : (s.seqAt i.cmd.seq).isOpen = true)
  (hlayer : i.cmd.layer < (s.seqAt i.cmd.seq).layers.toNat) (hfirst : i.cmd.arg ≤ (s.seqAt i.cmd.seq).len.toNat)
  (hslot : i.cmd.slot < (s.part i.part).passSlots.toNat)
include hmine hopen hlayer hfirst hslot

theorem attScore_of_busy (hbusy : (s.pass i.part i.cmd.slot).st = .opened) : attScore s i = .fault cAttPassBusy 0 := by
  simp only [attScore, attOnOpen_of_open _ hmine hopen, Nat.not_le.mpr hlayer, Nat.not_lt.mpr hfirst, Nat.not_le.mpr hslot, hbusy, if_false,
    if_true]

variable (hfree : (s.pass i.part i.cmd.slot).st ≠ .opened)
include hfree

theorem attScore_of_shape {h : Nat} (hshape : scoreShape i.cmd i.ha i.hb = some h) : attScore s i = .fault cQueDescShape h := by
  simp only [attScore, attOnOpen_of_open _ hmine hopen, Nat.not_le.mpr hlayer, Nat.not_lt.mpr hfirst, Nat.not_le.mpr hslot, hfree, hshape,
    if_false]

/-- A SCORE that passes its checks opens its pass. -/
theorem attScore_of_open (hshape : scoreShape i.cmd i.ha i.hb = none)
    (hshort : ∀ g ∈ (s.scored i (s.seqAt i.cmd.seq)).pages, (s.unitPages (s.scored i (s.seqAt i.cmd.seq)) g.k (s.frameUnit g.k g.frame).1
      (s.frameUnit g.k g.frame).2).length ≤ 32) :
    attScore s i = .opened (s.openPass i.part i.cmd.slot (s.seqAt i.cmd.seq) (s.scored i (s.seqAt i.cmd.seq))) := by
  simp only [attScore, attOnOpen_of_open _ hmine hopen, Nat.not_le.mpr hlayer, Nat.not_lt.mpr hfirst, Nat.not_le.mpr hslot, hfree, hshape,
    if_false]
  refine if_neg fun hlong => ?_
  obtain ⟨g, hg, hbad⟩ := List.any_eq_true.mp hlong
  exact Nat.not_lt.mpr (hshort g hg) (of_decide_eq_true hbad)

end

/-! ### APPLY and ABORT -/

section
variable {s : State} {i : AttItem} (hslot : i.cmd.slot < (s.part i.part).passSlots.toNat)
include hslot

theorem attApply_of_free (h : (s.pass i.part i.cmd.slot).st = .free) : attApply s i = .fault cAttPassState 0 := by
  simp only [attApply, Nat.not_le.mpr hslot, h, if_false]

theorem attApply_of_expired (h : (s.pass i.part i.cmd.slot).st = .expired) : attApply s i = .fault cAttPassExpired 0 := by
  simp only [attApply, Nat.not_le.mpr hslot, h, if_false]

theorem attAbort_of_free (h : (s.pass i.part i.cmd.slot).st = .free) : attAbort s i = .fault cAttPassState 0 := by
  simp only [attAbort, Nat.not_le.mpr hslot, h, if_false]

theorem attAbort_of_expired (h : (s.pass i.part i.cmd.slot).st = .expired) : attAbort s i = .done (s.setPass i.part i.cmd.slot {}) := by
  simp only [attAbort, Nat.not_le.mpr hslot, h, if_false]

variable (hopen : (s.pass i.part i.cmd.slot).st = .opened)
include hopen

theorem attAbort_of_opened : attAbort s i = .done (s.failPass i.part i.cmd.slot cAttPassState 0) := by
  simp only [attAbort, Nat.not_le.mpr hslot, hopen, if_false]

variable (hshape : applyShape i.cmd (s.pass i.part i.cmd.slot).heads i.ha i.hb = none)
include hshape

/-- The second read of a pass is not started again. -/
theorem attApply_of_applied (hread : (s.pass i.part i.cmd.slot).read = 3) : attApply s i = .fault cAttPassState 0 := by
  simp only [attApply, Nat.not_le.mpr hslot, hopen, hshape, hread, if_false, if_true]

/-- A pass whose SCORE has completed starts its second read. -/
theorem attApply_of_scored (hread : (s.pass i.part i.cmd.slot).read = 2) :
    attApply s i = .opened (s.setPass i.part i.cmd.slot
      { s.pass i.part i.cmd.slot with read := 3, cmd := some (i.core, i.queue, i.idx), ha := i.ha, hb := i.hb,
                                      launched := 0, done := 0, poison := none }) := by
  simp [attApply, Nat.not_le.mpr hslot, hopen, hshape, hread]

end

/-- Settles O32: the three operations by their checks and the state of the pass slot, and what the opening of a pass writes. -/
theorem attPasses : Obligations.AttPasses := by
  unfold Obligations.AttPasses
  intro s core q i c x y hslot
  refine ⟨fun hhead hmine hopen hlayer hfirst => ?score, fun hhead => ?apply, fun hhead => ?abort⟩
  case score =>
    have hop : attPerform s i = attScore s i := by simp only [attPerform, aop_of_ready hhead]
    refine ⟨fun hbusy => ?_, fun h hfree hshape => ?_, fun hfree hshape => ?_⟩
    · exact attRow_of_fault hhead (hop.trans (attScore_of_busy hmine hopen hlayer hfirst hslot hbusy))
    · exact attRow_of_fault hhead (hop.trans (attScore_of_shape hmine hopen hlayer hfirst hslot hfree hshape))
    intro bs pages z hshort
    obtain ⟨t, ht⟩ : ∃ t, t = s.openPass i.part c.slot x z := ⟨_, rfl⟩
    have hopens : attPerform s i = .opened t :=
      (hop.trans (attScore_of_open hmine hopen hlayer hfirst hslot hfree hshape hshort)).trans (congrArg AttOut.opened ht.symm)
    have hpass : t.pass i.part c.slot = z := ht ▸ State.pass_openPass
    have hctx : t.seqAt c.seq = { x with openPasses := x.openPasses + 1 } := ht ▸ State.seqAt_openPass (z := z)
    have hother : ∀ v, v ≠ c.seq → t.seqAt v = s.seqAt v := fun v hv => ht ▸ State.seqAt_openPass_other (z := z) hv
    have hcount : (t.rsv (c.seq % 8)).passes = (s.rsv (c.seq % 8)).passes + 1 := ht ▸ State.rsvPasses_openPass (z := z)
    have hbelow : s.belowStacks t := ht ▸ State.belowStacks_openPass
    have hcores : t.cores = s.cores := by rw [ht, State.cores_openPass]
    have hatt : t.att = s.att := by rw [ht, State.att_openPass]
    exact ⟨{ t with att := t.att.erase i }, congrArg Host.Outcome.next (attRow_of_opened hhead hopens), hpass, hctx, hother, hcount, hbelow,
      hcores, congrArg (List.erase · i) hatt⟩
  case apply =>
    have hop : attPerform s i = attApply s i := by simp only [attPerform, aop_of_ready hhead]
    exact ⟨fun hfree => attRow_of_fault hhead (hop.trans (attApply_of_free hslot hfree)),
      fun hexpired => attRow_of_fault hhead (hop.trans (attApply_of_expired hslot hexpired)),
      fun hopen hshape hread => attRow_of_fault hhead (hop.trans (attApply_of_applied hslot hopen hshape hread)),
      fun hopen hshape hread =>
        congrArg Host.Outcome.next (attRow_of_opened hhead (hop.trans (attApply_of_scored hslot hopen hshape hread)))⟩
  case abort =>
    have hop : attPerform s i = attAbort s i := by simp only [attPerform, aop_of_ready hhead]
    exact ⟨fun hfree => attRow_of_fault hhead (hop.trans (attAbort_of_free hslot hfree)),
      fun hexpired => attRow_of_done hhead (hop.trans (attAbort_of_expired hslot hexpired)),
      fun hopen => attRow_of_done hhead (hop.trans (attAbort_of_opened hslot hopen))⟩

end Sys2Proof.Machine
end

section
/-! PROOFS. O49: partitions, programs, jobs, licences and firmware over WCS, the event arbiter and its full buffers (10 R232; 13 R299 to R302;
14 R307, R311, R316, R319, R320). -/

namespace Sys2Proof.Machine

/-! ### A map after a walk of writes -/

/-- Writes under distinct keys in turn: each key holds the value its step gave it, every other one what it held. -/
theorem Map.get_foldl_set {α β : Type} [DecidableEq α] [DecidableEq β] (d : α) {key : β → Nat} (hkey : Function.Injective key) (val : β → α)
    (l : List β) (m : Map α) (a : β) :
    Map.get d (l.foldl (fun m b => Map.set d m (key b) (val b)) m) (key a) = if a ∈ l then val a else Map.get d m (key a) := by
  induction l generalizing m with
  | nil => rfl
  | cons b l ih =>
    rw [List.foldl_cons, ih, Map.get_set]
    by_cases hl : a ∈ l
    · simp [hl]
    · by_cases hb : b = a
      · simp [hb]
      · simp [hl, hkey.ne hb, Ne.symm hb]

/-! ### PART_CREATE (10 R232) -/

/-- A PART_CREATE that passes its checks, in their order, with the lowest free ranges of sequence and of stream contexts (10 R232). -/
structure State.PartFits (s : State) (c : WcsCmd) (seqAt strAt : Nat) : Prop where
  new : s.partExists c.part = false
  legal : c.arg 0 % 2 ^ 32 ≠ 0 ∧ c.arg 1 % 2 ^ 17 ≤ 65536 ∧ bitsOf (c.arg 1) 32 16 ≤ 32768 ∧ bitsOf (c.arg 1) 48 7 ≤ 64 ∧
    c.arg 2 % 2 ^ 19 = 0
  licensed : (s.parts.filter fun e => e.2.clusters != 0).length < s.licParts.toNat
  fused : s.fuses.clusterOff.toNat &&& c.arg 0 % 2 ^ 32 = 0
  clusters : ∀ g ∈ onesOf 32 (c.arg 0 % 2 ^ 32),
    s.heldOut.contains g = false ∧ Map.get false s.clusterRetired g = false ∧ Map.get none s.clusterPart g = none
  still : ∀ n < s.nCores, (onesOf 32 (c.arg 0 % 2 ^ 32)).contains (s.clusterOf n) = true → ∀ q < 4, s.still (n, q) = true
  seqs : firstFit (((s.parts.filter fun e => e.2.clusters != 0).map Prod.snd).map fun x => (x.seqBase.toNat, x.seqCount.toNat)) 65536
    (c.arg 1 % 2 ^ 17) = some seqAt
  streams : firstFit (((s.parts.filter fun e => e.2.clusters != 0).map Prod.snd).map fun x => (x.strBase.toNat, x.strCount.toNat)) 32768
    (bitsOf (c.arg 1) 32 16) = some strAt
  channels : ∀ k < 8, ∀ q < 32, q ≠ c.part → c.chset k &&& s.chsetOf k q = 0
  slots : ∀ k < 8, 4 * bitsOf (c.arg 1) 48 7 ≤ (s.rsv k).slotCount.toNat
  table : s.tableFits (c.arg 0 % 2 ^ 32) c.chset (c.arg 2 % 2 ^ 48) = true

/-- The partition a PART_CREATE asks for. -/
def WcsCmd.newPart (c : WcsCmd) (seqAt strAt : Nat) : Part :=
  { clusters := BitVec.ofNat 32 (c.arg 0 % 2 ^ 32), desc := BitVec.ofNat 48 (c.arg 2), seqBase := BitVec.ofNat 16 seqAt,
    seqCount := BitVec.ofNat 17 (c.arg 1 % 2 ^ 17), strBase := BitVec.ofNat 16 strAt, strCount := BitVec.ofNat 16 (bitsOf (c.arg 1) 32 16),
    passSlots := BitVec.ofNat 7 (bitsOf (c.arg 1) 48 7) }

/-- The machine with that partition made. -/
def State.createPart (s : State) (c : WcsCmd) (seqAt strAt : Nat) : State :=
  { s with
    parts := Map.set {} s.parts c.part (c.newPart seqAt strAt)
    clusterPart := (onesOf 32 (c.arg 0 % 2 ^ 32)).foldl (fun m g => Map.set none m g (some (BitVec.ofNat 5 c.part))) s.clusterPart
    chset := (List.range 8).foldl (fun m k => Map.set 0 m (32 * k + c.part) (BitVec.ofNat 32 (c.chset k))) s.chset
    flags := Map.drop (fun k => k / 4096 == c.part) s.flags }

/-- PART_CREATE that passes its checks makes its partition. -/
theorem cmdPartCreate_of_fits {s : State} {c : WcsCmd} {seqAt strAt : Nat} (h : s.PartFits c seqAt strAt) :
    cmdPartCreate s c = some ((s.createPart c seqAt strAt).ok c [] [c.audit 0x03 c.part 0 (c.arg 0 % 2 ^ 32)]) := by
  obtain ⟨hmask, hseqs, hstrs, hslots, hdesc⟩ := h.legal
  have hlegal : ¬(c.arg 0 % 2 ^ 32 = 0 ∨ 65536 < c.arg 1 % 2 ^ 17 ∨ 32768 < bitsOf (c.arg 1) 32 16 ∨ 64 < bitsOf (c.arg 1) 48 7 ∨
      c.arg 2 % 2 ^ 48 % 2 ^ 19 ≠ 0) := by omega
  have hlicensed : ¬s.licParts.toNat < ((s.parts.filter fun e => e.2.clusters != 0).map Prod.snd).length + 1 := by
    rw [List.length_map]
    exact Nat.not_lt.mpr h.licensed
  have hwhole : ((onesOf 32 (c.arg 0 % 2 ^ 32)).any fun g => s.heldOut.contains g || Map.get false s.clusterRetired g) = false := by
    refine List.any_eq_false.mpr fun g hg => ?_
    obtain ⟨hheld, hretired, -⟩ := h.clusters g hg
    rw [hheld, hretired]
    exact Bool.false_ne_true
  have hfree : ((onesOf 32 (c.arg 0 % 2 ^ 32)).any fun g => (Map.get none s.clusterPart g).isSome) = false := by
    refine List.any_eq_false.mpr fun g hg => ?_
    obtain ⟨-, -, hnone⟩ := h.clusters g hg
    simp [hnone]
  have hquiet : s.quiet ((List.range s.nCores).filter fun n => (onesOf 32 (c.arg 0 % 2 ^ 32)).contains (s.clusterOf n)) = true := by
    simp only [State.quiet, List.all_eq_true, List.mem_filter, List.mem_range]
    exact fun n hn q hq => h.still n hn.1 hn.2 q hq
  have hchannels : ((List.range 8).all fun k => (List.range 32).all fun q => q == c.part || c.chset k &&& s.chsetOf k q == 0) = true := by
    simp only [List.all_eq_true, List.mem_range, Bool.or_eq_true, beq_iff_eq]
    exact fun k hk q hq => or_iff_not_imp_left.mpr (h.channels k hk q hq)
  have hslot : ((List.range 8).all fun k => decide (4 * bitsOf (c.arg 1) 48 7 ≤ (s.rsv k).slotCount.toNat)) = true := by
    simpa only [List.all_eq_true, List.mem_range, decide_eq_true_eq] using h.slots
  have hat : BitVec.ofNat 48 (c.arg 2 % 2 ^ 48) = BitVec.ofNat 48 (c.arg 2) := BitVec.eq_of_toNat_eq (by simp)
  simp only [cmdPartCreate, h.new, hlegal, hlicensed, h.fused, hwhole, hfree, hquiet, h.seqs, h.streams, hchannels, hslot, h.table, hat,
    ne_eq, not_true_eq_false, Bool.not_true, Bool.or_false, Bool.false_eq_true, if_false]
  rfl

section
variable {s : State} {c : WcsCmd} {seqAt strAt : Nat}

theorem State.part_createPart_same : (s.createPart c seqAt strAt).part c.part = c.newPart seqAt strAt := Map.get_set_same ..

theorem State.part_createPart_other {q : Nat} (hq : q ≠ c.part) : (s.createPart c seqAt strAt).part q = s.part q :=
  Map.get_set_other _ _ _ _ _ hq.symm

/-- The clusters of the mask are the partition's; the others are whose they were. -/
theorem State.clusterPart_createPart (g : Nat) : Map.get none (s.createPart c seqAt strAt).clusterPart g =
    if g < 32 ∧ (c.arg 0 % 2 ^ 32).testBit g = true then some (BitVec.ofNat 5 c.part) else Map.get none s.clusterPart g := by
  simp only [← mem_onesOf]
  exact Map.get_foldl_set none Function.injective_id (fun _ => some (BitVec.ofNat 5 c.part)) _ _ g

/-- The channel sets are the command's. -/
theorem State.chset_createPart {k : Nat} (hk : k < 8) :
    Map.get 0 (s.createPart c seqAt strAt).chset (32 * k + c.part) = BitVec.ofNat 32 (c.chset k) := by
  have hkey : Function.Injective fun k => 32 * k + c.part := fun a b h => by
    simp only at h
    omega
  exact (Map.get_foldl_set 0 hkey (fun k => BitVec.ofNat 32 (c.chset k)) _ _ k).trans (if_pos (List.mem_range.mpr hk))

/-- Every flag of the partition is 0. -/
theorem State.flag_createPart {f : Nat} (hf : f < 4096) : (s.createPart c seqAt strAt).flag c.part f = {} :=
  (Map.get_drop {} (fun k => k / 4096 == c.part) s.flags (4096 * c.part + f)).trans (if_pos (beq_iff_eq.mpr (by omega)))

end

/-! ### PART_DESTROY (10 R232) -/

/-- The machine without a partition that had the clusters of a mask. -/
def State.withoutPart (s : State) (p mask : Nat) : State :=
  { s with
    parts := Map.set {} s.parts p {}
    clusterPart := (onesOf 32 mask).foldl (fun m g => Map.set none m g none) s.clusterPart
    chset := Map.drop (fun k => k % 32 == p) s.chset
    params := Map.drop (fun k => k / 2 ^ 32 == p && (k % 2 ^ 32 == 1 || k % 2 ^ 32 == 2)) s.params }

/-- The machine with a partition cleared and its clusters freed. -/
def State.destroyPart (s : State) (p : Nat) : State :=
  ((s.resetCores (s.coresOf p) (onesOf 32 (s.part p).clusters.toNat).contains).clearPartition p).withoutPart p (s.part p).clusters.toNat

/-- PART_DESTROY of a partition at work is BUSY; of a quiet one it destroys it. -/
theorem cmdPartDestroy_eq (s : State) (c : WcsCmd) : cmdPartDestroy s c =
    if s.quiet (s.coresOf c.part) = false ∨ ∃ j ∈ s.host.jobs, j.part = c.part then some (s.ends c stBusy)
    else some ((s.destroyPart c.part).ok c [] [c.audit 0x03 c.part (s.part c.part).clusters.toNat 0]) := by
  have hbusy : (!s.quiet (s.coresOf c.part) || s.host.jobs.any fun j => j.part == c.part) = true ↔
      s.quiet (s.coresOf c.part) = false ∨ ∃ j ∈ s.host.jobs, j.part = c.part := by simp
  exact if_congr hbusy rfl rfl

theorem State.partExists_withoutPart (s : State) (p mask : Nat) : (s.withoutPart p mask).partExists p = false := by
  have hgone : (s.withoutPart p mask).part p = {} := Map.get_set_same ({} : Part) s.parts p {}
  rw [State.partExists, hgone]
  rfl

/-- The clusters of the mask are nobody's. -/
theorem State.clusterPart_withoutPart (s : State) (p : Nat) {mask g : Nat} (hg : g < 32) (hmine : mask.testBit g = true) :
    Map.get none (s.withoutPart p mask).clusterPart g = none :=
  (Map.get_foldl_set none Function.injective_id (fun _ => none) _ _ g).trans (if_pos (mem_onesOf.mpr ⟨hg, hmine⟩))

theorem State.flag_withoutPart (s : State) (p mask f : Nat) : (s.withoutPart p mask).flag p f = s.flag p f := rfl

/-- A partition cleared has no flag set. -/
theorem State.flag_clearPartition (s : State) {p f : Nat} (hf : f < 4096) : (s.clearPartition p).flag p f = {} := by
  obtain ⟨m, hm⟩ : ∃ m, (s.clearPartition p).flags = Map.drop (fun k => k / 4096 == p) m := ⟨_, rfl⟩
  rw [State.flag, hm, Map.get_drop]
  exact if_pos (beq_iff_eq.mpr (by omega))

/-- A partition destroyed is gone, its clusters are nobody's and its flags are 0. -/
theorem State.destroyPart_frees (s : State) (p : Nat) : (s.destroyPart p).partExists p = false ∧
    (∀ g < 32, (s.part p).clusters.toNat.testBit g = true → Map.get none (s.destroyPart p).clusterPart g = none) ∧
    ∀ f < 4096, (s.destroyPart p).flag p f = {} := by
  unfold State.destroyPart
  refine ⟨State.partExists_withoutPart .., fun g hg hmine => State.clusterPart_withoutPart _ _ hg hmine, fun f hf => ?_⟩
  rw [State.flag_withoutPart]
  exact State.flag_clearPartition _ hf

/-! ### Programs (13 R299, R300) -/

/-- Data of the length asked for go to what the command does with them. -/
theorem State.withData_of_length {s : State} {c : WcsCmd} {bs : List Byte} {n : Nat} (hlen : bs.length = n) (f : List Byte → Option State) :
    s.withData c (.ok bs) n f = f bs := if_pos hlen

/-- The lowest free program handle of a partition. -/
theorem lowestHandle {progs : Map (Option Prog)} {p h : Nat} (hh : h < 64) (hfree : Map.get none progs (64 * p + h) = none)
    (hlow : ∀ j < h, Map.get none progs (64 * p + j) ≠ none) :
    ((List.range 64).find? fun i => (Map.get none progs (64 * p + i)).isNone) = some h := by
  rw [List.find?_range_eq_some]
  refine ⟨Option.isNone_iff_eq_none.mpr hfree, List.mem_range.mpr hh, fun j hj => ?_⟩
  rw [Bool.not_eq_true', Option.isNone_eq_false_iff]
  exact Option.isSome_iff_ne_none.mpr (hlow j hj)

section
variable {s : State} {c : WcsCmd} (hfresh : c.todo = none)
include hfresh

theorem cmdLoad_of_busy (d : HostData) (hbusy : s.quiet (s.coresOf c.part) = false) : cmdLoad d s c = some (s.ends c stBusy) := by
  simp only [cmdLoad, hfresh, hbusy, Option.isSome_none, Bool.false_eq_true, Bool.not_false, if_true, if_false]

variable {bs : List Byte} (hquiet : s.quiet (s.coresOf c.part) = true) (hlen : bs.length = c.arg 1)
include hquiet hlen

theorem cmdLoad_of_malformed (hbad : imageSections bs = none) : cmdLoad (.ok bs) s c = some (s.ends c stBadArg) := by
  simp only [cmdLoad, hfresh, hquiet, State.withData_of_length hlen, hbad, Option.isSome_none, Bool.false_eq_true, Bool.not_true, if_false]

variable {secs : List (Nat × List Byte)} (hsecs : imageSections bs = some secs)
include hsecs

theorem cmdLoad_of_mismatch (hstamp : imageStamp bs ≠ s.stampNow c.part) : cmdLoad (.ok bs) s c = some (s.ends c stMismatch) := by
  simp only [cmdLoad, hfresh, hquiet, State.withData_of_length hlen, hsecs, hstamp, Option.isSome_none, Bool.false_eq_true, Bool.not_true,
    ne_eq, not_false_eq_true, if_true, if_false]

variable (hstamp : imageStamp bs = s.stampNow c.part)
include hstamp

theorem cmdLoad_of_denied (hplace : ∃ x ∈ secs, s.placeOk c.part x.1 x.2.length = false) :
    cmdLoad (.ok bs) s c = some (s.ends c stPlaceDenied) := by
  have hdenied : (secs.all fun x => s.placeOk c.part x.1 x.2.length) = false := by simpa using hplace
  simp only [cmdLoad, hfresh, hquiet, State.withData_of_length hlen, hsecs, hstamp, hdenied, Option.isSome_none, Bool.false_eq_true,
    Bool.not_true, Bool.not_false, ne_eq, not_true_eq_false, if_true, if_false]

/-- A good image is recorded under the lowest free handle, and its sections are written. -/
theorem cmdLoad_of_good (hplace : ∀ x ∈ secs, s.placeOk c.part x.1 x.2.length = true) {h : Nat} (hh : h < 64)
    (hfree : Map.get none s.host.progs (64 * c.part + h) = none)
    (hlow : ∀ j < h, Map.get none s.host.progs (64 * c.part + j) ≠ none) :
    let g : Prog := { gen := s.profGen, stamp := (imageStamp bs).map (BitVec.ofNat 64) }
    let w : State := { s with host := { s.host with progs := Map.set none s.host.progs (64 * c.part + h) (some g) } }
    cmdLoad (.ok bs) s c = some (w.storing c (64 * c.part + h) secs fun u =>
      (u.dropDescs c.part fun _ => true).ok c [64 * c.part + h]) := by
  have hall : (secs.all fun x => s.placeOk c.part x.1 x.2.length) = true := List.all_eq_true.mpr hplace
  simp only [cmdLoad, hfresh, hquiet, State.withData_of_length hlen, hsecs, hstamp, hall, lowestHandle hh hfree hlow, Option.isSome_none,
    Bool.false_eq_true, Bool.not_true, ne_eq, not_true_eq_false, if_false]

end

/-! ### Jobs (13 R301, R302) -/

/-- A JOB_START as it starts has no record left of an ended job under its CID; flags and memory are as they were. -/
theorem State.startCmd_jobStart (s : State) {c : WcsCmd} (hop : c.opc = 0x12) :
    (∀ r ∈ (s.startCmd c).host.records, r ≠ (c.sq, c.cid)) ∧ (s.startCmd c).flags = s.flags ∧ (s.startCmd c).mem = s.mem := by
  have hstarted : s.startCmd c = _ := if_pos hop
  rw [hstarted]
  refine ⟨fun r hr => ?_, rfl, rfl⟩
  obtain ⟨-, hne⟩ := List.mem_filter.mp hr
  exact bne_iff_ne.mp hne

/-- Whether a job of a partition may take a queue (13 R301). -/
def State.jobMayTake (s : State) (p : Nat) (x : Nat × Nat) : Prop :=
  x.1 < s.nCores ∧ s.partOf x.1 = some p ∧ s.still x = true ∧ s.jobOf x.1 x.2 = none

/-- The machine with the job of a JOB_START taken up and the queues of its start list loaded and started. -/
def State.startJob (s : State) (c : WcsCmd) (es : List StartEnt) : State :=
  let qs := es.map fun e => (e.core, e.queue)
  let lim := c.arg 3 % 2 ^ 32
  let j : Job := { sq := c.sq, cid := c.cid, part := c.part, queues := qs, left := qs,
                   limit := if lim = 0 then none else some (s.tick + lim), ended := none, aborts := [] }
  let u := { s with
    events := s.events.map (Event.stale qs)
    host := { s.host with jobs := s.host.jobs ++ [j] } }
  es.foldl
    (fun u e => startQ (u.setQueue e.core e.queue
      { u.queue e.core e.queue with base := BitVec.ofNat 48 e.ma, count := BitVec.ofNat 32 e.count }) e.core e.queue) u

section
variable {s : State} {c : WcsCmd} (hsome : 1 ≤ c.low 2) (hmost : c.low 2 ≤ 2048)
include hsome hmost

theorem cmdJobStart_of_halted (d : HostData) (hhalted : s.thm.coolant = .halted) :
    cmdJobStart d s c = some (s.complete c.sq c.cid stJobFaulted cThmCoolantHalt []) := by
  have hcount : ¬(c.low 2 = 0 ∨ 2048 < c.low 2) := by omega
  simp only [cmdJobStart, hcount, hhalted, if_true, if_false]

variable (hrunning : s.thm.coolant ≠ .halted)
include hrunning

theorem cmdJobStart_of_noProgram (d : HostData) (hnone : s.prog c.part c.handle = none) : cmdJobStart d s c = some (s.ends c stNoObject) := by
  have hcount : ¬(c.low 2 = 0 ∨ 2048 < c.low 2) := by omega
  simp only [cmdJobStart, hcount, hrunning, hnone, if_false]

/-- A program of the present profile takes its queues if each may be taken and none is listed twice. -/
theorem cmdJobStart_of_program {g : Prog} {bs : List Byte} (hprog : s.prog c.part c.handle = some g) (hgen : g.gen = s.profGen)
    (hstamp : g.stamp = (s.stampNow c.part).map (BitVec.ofNat 64)) (hlen : bs.length = 16 * c.low 2) :
    let qs := (startList bs (c.low 2)).map fun e => (e.core, e.queue)
    ((∃ x ∈ qs, ¬s.jobMayTake c.part x) → cmdJobStart (.ok bs) s c = some (s.ends c stBusy)) ∧
    ((∀ x ∈ qs, s.jobMayTake c.part x) → qs.eraseDups.length = qs.length →
      cmdJobStart (.ok bs) s c = some (s.startJob c (startList bs (c.low 2)))) := by
  intro qs
  have hcount : ¬(c.low 2 = 0 ∨ 2048 < c.low 2) := by omega
  have hall : ((qs.all fun x => decide (x.1 < s.nCores) && s.partOf x.1 == some c.part && s.still x && (s.jobOf x.1 x.2).isNone) = true) =
      ∀ x ∈ qs, s.jobMayTake c.part x := by
    simp only [State.jobMayTake, List.all_eq_true, Bool.and_eq_true, decide_eq_true_eq, beq_iff_eq, Option.isNone_iff_eq_none, and_assoc]
  simp only [cmdJobStart, hcount, hrunning, hprog, hgen, hstamp, State.withData_of_length hlen, ne_eq, not_true_eq_false, or_self, if_false]
  refine ⟨fun ⟨x, hx, hbad⟩ => if_pos ?_, fun hgood hdistinct => (if_neg ?_).trans rfl⟩
  · rw [Bool.or_eq_true, Bool.not_eq_true', ← Bool.not_eq_true, hall]
    exact .inl fun hgood => hbad (hgood x hx)
  · rw [Bool.or_eq_true, Bool.not_eq_true', ← Bool.not_eq_true, hall, bne_iff_ne]
    exact not_or.mpr ⟨not_not.mpr hgood, not_not.mpr hdistinct⟩

end

/-- The limit of a job that has come is sequenced as its end, once. -/
theorem jobTimeout_of_limit {s : State} {sq cid lim : Nat} {j : Job} (hfound : (s.host.jobs.find? fun j => j.sq == sq && j.cid == cid) = some j)
    (hlimit : j.limit = some lim) (hgoes : j.ended = none) : jobTimeout s sq cid =
      if s.reached lim = false then s
      else ({ s with host := { s.host with jobs := s.host.jobs.map fun x => if x = j then { x with limit := none } else x } } : State).post 14
        (.jobEnd sq cid stJobTimeout 0) := by
  simp only [jobTimeout, hfound, hlimit, hgoes, Option.isSome_none, Bool.false_eq_true, or_false, Bool.not_eq_true']

/-! ### Streams, licences and firmware (12 R275; 14 R311, R316) -/

/-- A value put in force for a feature is the one in force (14 Table WHD-5). -/
theorem State.licValue_setLic_same (s : State) {f v : Nat} (hlegal : licLegal f v = true) : (s.setLic f v).licValue f = v := by
  unfold licLegal at hlegal
  split at hlegal
  · simp only [Bool.or_eq_true, beq_iff_eq] at hlegal
    rcases hlegal with (rfl | rfl) | rfl <;> rfl
  · rw [beq_iff_eq.mp hlegal]
    rfl
  · rw [beq_iff_eq.mp hlegal]
    rfl
  · rw [beq_iff_eq.mp hlegal]
    rfl
  · simp only [Bool.and_eq_true, decide_eq_true_eq] at hlegal
    exact (BitVec.toNat_ofNat v 6).trans (Nat.mod_eq_of_lt (by omega))
  · exact absurd hlegal Bool.false_ne_true

/-- It changes no other feature's: each has a field of its own. -/
theorem State.licValue_setLic_other (s : State) {f g v : Nat} (hne : g ≠ f) : (s.setLic f v).licValue g = s.licValue g := by
  unfold State.setLic
  split
  all_goals
    unfold State.licValue
    split
    all_goals simp [State.linkPorts] at hne ⊢

theorem State.flash_setLic (s : State) (f v : Nat) : (s.setLic f v).flash = s.flash := by
  unfold State.setLic
  split <;> rfl

/-- The machine with a licence record in flash and its value in force (14 R316). -/
def State.installLicence (s : State) (bs : List Byte) : State :=
  ({ s with flash := { s.flash with licences := Map.set [] s.flash.licences (licFeature bs) bs } } : State).setLic (licFeature bs) (wordAt bs 8)

/-- A record of the right form has a legal value. -/
theorem State.licLegal_of_formOk {s : State} {bs : List Byte} (hform : s.licFormOk bs = true) :
    licLegal (licFeature bs) (wordAt bs 8) = true := by
  simp only [State.licFormOk, Bool.and_eq_true] at hform
  obtain ⟨⟨-, hlegal⟩, -⟩ := hform
  exact hlegal

theorem State.licValue_installLicence {s : State} {bs : List Byte} (hform : s.licFormOk bs = true) :
    (s.installLicence bs).licValue (licFeature bs) = wordAt bs 8 := State.licValue_setLic_same _ (State.licLegal_of_formOk hform)

theorem State.licValue_installLicence_other (s : State) {bs : List Byte} {g : Nat} (hne : g ≠ licFeature bs) :
    (s.installLicence bs).licValue g = s.licValue g := State.licValue_setLic_other _ hne

theorem State.licences_installLicence (s : State) (bs : List Byte) :
    Map.get [] (s.installLicence bs).flash.licences (licFeature bs) = bs := by
  rw [State.installLicence, State.flash_setLic]
  exact Map.get_set_same ..

/-- LICENCE_INSTALL of a record, in the order of its checks (14 R316). -/
theorem cmdLicence_of_record {s : State} {c : WcsCmd} (harg : c.arg 1 = 4691) {bs : List Byte} (hlen : bs.length = 4691) :
    cmdLicence (.ok bs) s c = some (
      if s.licFormOk bs = false then s.ends c stBadArg
      else if s.licSigned bs = false then s.ends c stBadSig
      else if wordAt bs 8 ≤ s.licValue (licFeature bs) then s.ok c
      else if s.flashTemp = false then s.ends c stTempForbidden
      else ((s.installLicence bs).ok c [] [c.audit 0x02 (licFeature bs) (s.licValue (licFeature bs)) (wordAt bs 8)]).profileChanged 14 6
        (licFeature bs) 0 0) := by
  simp only [cmdLicence, harg, State.withData_of_length hlen, apply_ite some, Bool.not_eq_true', ne_eq, not_true_eq_false, if_false]
  rfl

/-- FW_UPDATE of an image that fails a check (14 R311, Table WHD-3). -/
theorem cmdFwUpdate_of_bad {s : State} {c : WcsCmd} {bs : List Byte} (hlen : bs.length = c.arg 1) :
    (s.fwCheck bs = some 2 → cmdFwUpdate (.ok bs) s c = some (s.ends c stBadArg)) ∧
    (s.fwCheck bs = some 4 → cmdFwUpdate (.ok bs) s c = some (s.ends c stRevoked)) ∧
    ((s.fwCheck bs = some 3 ∨ s.fwCheck bs = some 5) → cmdFwUpdate (.ok bs) s c = some (s.ends c stBadSig)) := by
  simp only [cmdFwUpdate, State.withData_of_length hlen]
  refine ⟨fun h => ?_, fun h => ?_, fun h => ?_⟩
  · simp only [h]
  · simp only [h]
  · rcases h with h | h <;> simp only [h]

/-- FW_UPDATE of an image that passes its checks writes it to flash within the temperature range (14 R307, R311). -/
theorem cmdFwUpdate_of_good {s : State} {c : WcsCmd} {bs : List Byte} (hlen : bs.length = c.arg 1) (hgood : s.fwCheck bs = none) :
    cmdFwUpdate (.ok bs) s c = some (if s.flashTemp = false then s.ends c stTempForbidden
      else ({ s with flash := { s.flash with image := bs } } : State).ok c [] [c.audit 0x06 0 (wordAt s.flash.image 8) (wordAt bs 8)]) := by
  simp only [cmdFwUpdate, State.withData_of_length hlen, hgood, apply_ite some, Bool.not_eq_true']

/-- STREAM_CANCEL of a context that is not an open one of its partition finds no object; of one that is it cancels the stream. -/
theorem cmdStreamCancel_eq (s : State) (c : WcsCmd) : cmdStreamCancel s c =
    if s.ctxMine c.part (c.arg 0 % 2 ^ 15) = false ∨ s.ctxOpen (c.arg 0 % 2 ^ 15) = false then some (s.ends c stNoObject)
    else some (({ s with host := { s.host with cancels := s.host.cancels ++ [(c.arg 0 % 2 ^ 15, c.sq, c.cid)] } } : State).cancelStream
      (c.arg 0 % 2 ^ 15) (some cLnkStreamCancelled)) := by
  simp only [cmdStreamCancel, Bool.not_eq_true']

/-! ### The event arbiter (14 R319, R320) -/

theorem mem_of_nextEvent {es : List Event} {e : Event} (h : nextEvent es = some e) : e ∈ es := by
  induction es generalizing e with
  | nil => exact absurd h nofun
  | cons a es ih =>
    unfold nextEvent at h
    split at h
    · exact List.mem_cons.mpr (.inl (Option.some.inj h).symm)
    · rename_i f hf
      split at h
      · exact List.mem_cons_of_mem _ (ih (hf.trans h))
      · exact List.mem_cons.mpr (.inl (Option.some.inj h).symm)

/-- The event sequenced next is the one all before it in the buffer come after and none behind it comes before (14 R320). -/
theorem nextEvent_of_first {l r : List Event} {e : Event} (hl : ∀ f ∈ l, e.post < f.post ∨ (e.post = f.post ∧ e.src < f.src))
    (hr : ∀ f ∈ r, e.post < f.post ∨ (e.post = f.post ∧ e.src ≤ f.src)) : nextEvent (l ++ e :: r) = some e := by
  induction l with
  | nil =>
    rw [List.nil_append, nextEvent]
    split
    · rfl
    · rename_i f hf
      have hlater := hr f (mem_of_nextEvent hf)
      exact if_neg (by omega)
  | cons a l ih =>
    obtain ⟨ha, hl⟩ := List.forall_mem_cons.mp hl
    rw [List.cons_append, nextEvent, ih hl]
    exact if_pos ha

/-- EVENT_SEQUENCE takes that event. -/
theorem eventSequence_of_first {s : State} {l r : List Event} {e : Event} (hevents : s.events = l ++ e :: r)
    (hl : ∀ f ∈ l, e.post < f.post ∨ (e.post = f.post ∧ e.src < f.src))
    (hr : ∀ f ∈ r, e.post < f.post ∨ (e.post = f.post ∧ e.src ≤ f.src)) :
    let es := s.events.erase e
    let u : State := { s with events := if s.heldEvents e.src = [] then es else enterBuffer e.src s.time 1023 es,
                              wh := { s.wh with esn := s.wh.esn + 1 } }
    eventSequence s = (e.audits.foldl State.writeAudit u).consume e := by
  have hnext : nextEvent s.events = some e := hevents ▸ nextEvent_of_first hl hr
  unfold eventSequence
  rw [hnext]

/-! ### Full buffers (14 R320) -/

/-- While an event of the wellhead waits for room no command starts. -/
theorem State.startable_of_held {s : State} (hheld : s.heldEvents 14 ≠ []) (c : WcsCmd) : s.startable c = false := by
  have hfull : (s.heldEvents 14).isEmpty = false := List.isEmpty_eq_false_iff.mpr hheld
  simp only [State.startable, hfull, Bool.false_and]

/-- Nor is one taken. -/
theorem sqTake_of_held {s : State} (hheld : s.heldEvents 14 ≠ []) (r : Nat) (d : HostData) : sqTake s r d = s :=
  if_pos (.inr (.inr (.inr hheld)))

/-- While an event of the hub waits for room, accesses of the host wait. -/
theorem State.hubBlocked_of_held {s : State} (hheld : s.heldEvents 13 ≠ []) : s.hubBlocked = true := by
  simp only [State.hubBlocked, State.hostWaits, bne_iff_ne.mpr hheld, Bool.true_or, Bool.or_true]

/-- A queue whose event waits for room has no head command to issue, and fetches none. -/
theorem State.head_of_stalled {s : State} {n q : Nat} (hstalled : s.queueStalled n q = true) : s.head n q = none :=
  if_neg fun ⟨_, _, _, _, _, hgoes, _⟩ => by simp [hstalled] at hgoes

theorem commandFetch_of_stalled {s : State} {n q : Nat} (hstalled : s.queueStalled n q = true) : commandFetch s n q = s :=
  if_pos (.inr (.inr (.inr (.inr (.inr (.inl hstalled))))))

/-! ### The statement -/

/-- Settles O49: each row answers with what its command does (`State.Starts.answers`), read off the command's checks in order; the next event is
the first of its order (`nextEvent_of_first`), and a full buffer bars what its source would do. -/
theorem wcsPartitionsAndJobs : Obligations.WcsPartitionsAndJobs := by
  unfold Obligations.WcsPartitionsAndJobs
  intro s t sq cid c
  refine ⟨fun h => ?create, fun h hpart => ?destroy, fun h hpart d => ?load, fun d n ws hstage htodo hop hpart hfound => ?resumed,
    fun h hpart => ?unload, fun h => ?record, fun h hpart hsome hmost d => ?start, fun j lim hfound hlimit hgoes => ?limit, fun h => ?abort,
    fun h hpart => ?cancel, fun h d bs => ?licence, fun h bs hlen => ?firmware, fun l e r hevents hl hr => ?sequence,
    fun hheld => ?wellhead, fun hheld => ?hub, fun core q hstalled => ?queue⟩
  case create =>
    refine ⟨fun hthere => h.answers rfl nofun (if_pos hthere), ?_⟩
    intro p mask seqs strs others sb tb hnew hmask hseqs hstrs hslots hdesc hlicensed hfused hclusters hstill hseqAt hstrAt hchannels hslot htable
    have hfits : t.PartFits c sb tb :=
      { new := hnew, legal := ⟨hmask, hseqs, hstrs, hslots, hdesc⟩, licensed := List.length_map Prod.snd ▸ hlicensed, fused := hfused,
        clusters := hclusters, still := hstill, seqs := hseqAt, streams := hstrAt, channels := hchannels, slots := hslot, table := htable }
    exact ⟨t.createPart c sb tb, h.answers rfl nofun (cmdPartCreate_of_fits hfits), State.part_createPart_same,
      fun q hq => State.part_createPart_other hq, State.clusterPart_createPart, fun _ k hk => State.chset_createPart hk,
      fun f hf => State.flag_createPart hf, rfl, rfl⟩
  case destroy =>
    intro busy
    have hdoes := cmdPartDestroy_eq t c
    exact ⟨fun hbusy => h.answers rfl (fun _ => hpart) (hdoes.trans (if_pos hbusy)), fun hquiet =>
      ⟨t.destroyPart c.part, h.answers rfl (fun _ => hpart) (hdoes.trans (if_neg hquiet)), t.destroyPart_frees c.part⟩⟩
  case load =>
    refine ⟨fun hbusy => h.answers rfl (fun _ => hpart) (cmdLoad_of_busy h.fresh.2 d hbusy), ?_⟩
    rintro bs hquiet rfl hlen
    refine ⟨fun hbad => h.answers rfl (fun _ => hpart) (cmdLoad_of_malformed h.fresh.2 hquiet hlen hbad), fun secs hsecs =>
      ⟨fun hstamp => h.answers rfl (fun _ => hpart) (cmdLoad_of_mismatch h.fresh.2 hquiet hlen hsecs hstamp), fun hstamp hplace =>
        h.answers rfl (fun _ => hpart) (cmdLoad_of_denied h.fresh.2 hquiet hlen hsecs hstamp hplace), fun n hstamp hplace hn hfree hlow =>
        h.answers rfl (fun _ => hpart) (cmdLoad_of_good h.fresh.2 hquiet hlen hsecs hstamp hplace hn hfree hlow)⟩⟩
  case resumed =>
    exact congrArg Host.Outcome.next (wcsRow_of_resumed hfound hstage hop hpart (by simp only [cmdLoad, htodo]; rfl))
  case unload =>
    refine ⟨fun hnone => h.answers rfl (fun _ => hpart) (by simp only [cmdUnload, hnone]), fun hsome => ?_⟩
    obtain ⟨g, hg⟩ := Option.ne_none_iff_exists'.mp hsome
    exact h.answers rfl (fun _ => hpart) (by simp only [cmdUnload, hg])
  case record =>
    rw [h.begun]
    exact s.startCmd_jobStart h.op
  case start =>
    refine ⟨fun hhalted => h.answers rfl (fun _ => hpart) (cmdJobStart_of_halted hsome hmost d hhalted), fun hrunning hnone =>
      h.answers rfl (fun _ => hpart) (cmdJobStart_of_noProgram hsome hmost hrunning d hnone), ?_⟩
    rintro g bs hrunning hprog hgen hstamp rfl hlen
    obtain ⟨hbusy, hstarts⟩ := cmdJobStart_of_program hsome hmost hrunning hprog hgen hstamp hlen
    exact ⟨fun hbad => h.answers rfl (fun _ => hpart) (hbusy hbad), fun hgood hdistinct =>
      h.answers rfl (fun _ => hpart) (hstarts hgood hdistinct)⟩
  case limit =>
    have hdoes : exec (.jobTimeout sq cid) s = .next _ := congrArg Host.Outcome.next (jobTimeout_of_limit hfound hlimit hgoes)
    refine ⟨fun hearly => by rwa [if_pos hearly] at hdoes, fun hcome => ?_⟩
    rw [if_neg (ne_false_of_eq_true hcome)] at hdoes
    exact ⟨_, hdoes, rfl, rfl, rfl⟩
  case abort => exact h.answers rfl nofun rfl
  case cancel =>
    intro x
    have hdoes := cmdStreamCancel_eq t c
    refine ⟨fun hno => h.answers rfl (fun _ => hpart) (hdoes.trans (if_pos hno)), fun hmine hopen =>
      h.answers rfl (fun _ => hpart) (hdoes.trans (if_neg ?_))⟩
    exact not_or.mpr ⟨ne_false_of_eq_true hmine, ne_false_of_eq_true hopen⟩
  case licence =>
    refine ⟨fun hshort => h.answers rfl nofun (if_pos hshort), fun harg hlen => ?_⟩
    intro f v
    have hanswers : rowAnswers (.licenceInstall sq cid (.ok bs)) s _ := h.answers rfl nofun (cmdLicence_of_record harg hlen)
    refine ⟨fun hform => ?_, fun hform hsign => ?_, fun hform hsign hold => ?_, fun hform hsign hnew htemp => ?_,
      fun hform hsign hnew htemp => ⟨t.installLicence bs, ?_, State.licValue_installLicence hform, t.licences_installLicence bs,
        fun g hg => t.licValue_installLicence_other hg⟩⟩
    · rwa [if_pos hform] at hanswers
    · rwa [if_neg (ne_false_of_eq_true hform), if_pos hsign] at hanswers
    · rwa [if_neg (ne_false_of_eq_true hform), if_neg (ne_false_of_eq_true hsign), if_pos hold] at hanswers
    · rwa [if_neg (ne_false_of_eq_true hform), if_neg (ne_false_of_eq_true hsign), if_neg (Nat.not_le.mpr hnew), if_pos htemp] at hanswers
    · rwa [if_neg (ne_false_of_eq_true hform), if_neg (ne_false_of_eq_true hsign), if_neg (Nat.not_le.mpr hnew),
        if_neg (ne_false_of_eq_true htemp)] at hanswers
  case firmware =>
    obtain ⟨hformat, hrevoked, hsign⟩ := cmdFwUpdate_of_bad (s := t) hlen
    refine ⟨fun hbad => h.answers rfl nofun (hformat hbad), fun hbad => h.answers rfl nofun (hrevoked hbad), fun hbad =>
      h.answers rfl nofun (hsign hbad), fun hgood htemp => h.answers rfl nofun ?_, fun hgood htemp => h.answers rfl nofun ?_⟩
    · exact (cmdFwUpdate_of_good hlen hgood).trans (congrArg some (if_pos htemp))
    · exact (cmdFwUpdate_of_good hlen hgood).trans (congrArg some (if_neg (ne_false_of_eq_true htemp)))
  case sequence => exact congrArg Host.Outcome.next (eventSequence_of_first hevents hl hr)
  case wellhead => exact ⟨State.startable_of_held hheld, fun d => congrArg Host.Outcome.next (sqTake_of_held hheld _ d)⟩
  case hub => exact State.hubBlocked_of_held hheld
  case queue => exact ⟨State.head_of_stalled hstalled, congrArg Host.Outcome.next (commandFetch_of_stalled hstalled)⟩

end Sys2Proof.Machine
end

section
/-! PROOFS. O35: what a port's tick sends, one cell of a stream, the cells of a stream in the places left, and the two copies of a message
(11 R249; 12 R258, R259, R261, R262, R268, R269). -/

namespace Sys2Proof.Machine

@[simp] theorem State.lport_setPort (s : State) (p : Nat) (x : Port) : (s.setPort p x).lport p = x := Map.get_set_same ..

/-! ### The tick of a port (12 R258, R262, R269) -/

/-- The cancellations of a port's streams take effect (12 R275). -/
def State.cancelTxs (s : State) (p : Nat) : State :=
  (s.txOn p).foldl (fun s e => match e.2.cancel with | some why => s.cancelTx e.1 e.2 why | none => s) s

/-- The due streams of a port send their cells into the places left, in the order they are served (12 R269). -/
def State.serveTxs (s : State) (p : Nat) (places : List (Nat × Nat)) : State :=
  ((((s.txOn p).filter fun e => s.txDue e.2).foldl (fun l e => s.serveInsert e l) []).foldl
    (fun (acc : State × List (Nat × Nat)) e => acc.1.sendCells e.1 e.2.rate acc.2) (s, places)).1

section
variable {s : State} {p c : Nat} {y : TxStream}

theorem State.cancelTxs_of_empty (h : s.txOn p = []) : s.cancelTxs p = s := by
  unfold State.cancelTxs
  rw [h]
  rfl

theorem State.cancelTxs_of_going (h : s.txOn p = [(c, y)]) (hgo : y.cancel = none) : s.cancelTxs p = s := by
  unfold State.cancelTxs
  simp only [h, List.foldl_cons, List.foldl_nil, hgo]

theorem State.serveTxs_of_empty (h : s.txOn p = []) (places : List (Nat × Nat)) : s.serveTxs p places = s := by
  unfold State.serveTxs
  rw [h]
  rfl

theorem State.serveTxs_of_due (h : s.txOn p = [(c, y)]) (hdue : s.txDue y = true) (places : List (Nat × Nat)) :
    s.serveTxs p places = (s.sendCells c y.rate places).1 := by
  have hone : [(c, y)].filter (fun e => s.txDue e.2) = [(c, y)] := List.filter_cons_of_pos hdue
  unfold State.serveTxs
  rw [h, hone]
  rfl

theorem State.serveTxs_of_early (h : s.txOn p = [(c, y)]) (hdue : s.txDue y = false) (places : List (Nat × Nat)) :
    s.serveTxs p places = s := by
  have hnone : [(c, y)].filter (fun e => s.txDue e.2) = [] := List.filter_cons_of_neg (ne_true_of_eq_false hdue)
  unfold State.serveTxs
  rw [h, hnone]
  rfl

theorem sendTick_of_ticked (h : (s.lport p).lastTick = some s.tick) : sendTick s p = s := if_pos h

variable (hnew : (s.lport p).lastTick ≠ some s.tick)
include hnew

theorem sendTick_of_shut (h : (s.lport p).st = .disabled ∨ (s.lport p).st = .down) :
    sendTick s p = s.setPort p { s.lport p with lastTick := some s.tick } := by
  unfold sendTick
  rw [if_neg hnew]
  rcases h with h | h <;> simp only [h]

theorem sendTick_of_training (h : (s.lport p).st = .training) :
    sendTick s p = (s.setPort p { s.lport p with lastTick := some s.tick }).sendHdrs p := by
  unfold sendTick
  rw [if_neg hnew]
  simp only [h]

theorem sendTick_of_up (h : (s.lport p).st = .up) :
    sendTick s p = ((((s.setPort p { s.lport p with lastTick := some s.tick }).cancelTxs p).serveTxs p (s.lport p).places).rxAll p).sendHdrs p := by
  unfold sendTick
  rw [if_neg hnew]
  extract_lets x t u ready r
  split
  · rfl
  · next hst => exact absurd (h.symm.trans hst) (by decide)
  · next hup _ => exact absurd h hup

end

/-! ### One cell of a stream (12 R269) -/

section
variable {s : State} {x : TxStream}

/-- The cell's number has been passed by flag `f` of the stream's partition. -/
def State.fedBy (s : State) (x : TxStream) (f : Nat) : Prop :=
  0 ≤ ((s.flag ((s.partOf x.core).getD 0) f).value - BitVec.ofNat 32 (x.sent + 1)).toInt

/-- The read of the bytes of a stream's next cell. -/
def State.fetchCell (s : State) (c : Nat) (x : TxStream) : State × RowRes :=
  s.track (.linkTx c) RowRes.isWait fun t => t.readElems (.linkTx c) (linkMaster x.port (t.partOf x.core)) x.src
    (x.src.elemsIn (512 * x.sent)) (x.src.elemsIn (512 * (x.sent + 1)) - x.src.elemsIn (512 * x.sent))

/-- The partition a stream reads for is the one its core has as the read is taken up. -/
theorem State.fetchCell_eq (s : State) (c : Nat) (x : TxStream) :
    s.fetchCell c x = s.track (.linkTx c) RowRes.isWait fun t => t.readElems (.linkTx c) (linkMaster x.port (s.partOf x.core)) x.src
      (x.src.elemsIn (512 * x.sent)) (x.src.elemsIn (512 * (x.sent + 1)) - x.src.elemsIn (512 * x.sent)) := by
  unfold State.fetchCell State.track
  split <;> rfl

theorem State.sendCell_of_unfed {f : Nat} (hfeed : x.feed = some f) (h : ¬ s.fedBy x f) (c : Nat) (place : Nat × Nat) :
    s.sendCell c x place = .notReady s := by
  unfold State.sendCell
  rw [hfeed]
  exact if_pos (congrArg not (decide_eq_false (p := 0 ≤ BitVec.toInt _) h))

theorem State.sendCell_of_fed (h : ∀ f, x.feed = some f → s.fedBy x f) (c : Nat) (place : Nat × Nat) :
    s.sendCell c x place = match (s.fetchCell c x).2 with
      | .fault code ma => .fault (s.fetchCell c x).1 code ma
      | .wait => .notReady (s.fetchCell c x).1
      | .ok cs _ => .sent ((s.fetchCell c x).1.linkSend x.port (.cell place.1 place.2
          { ctx := BitVec.ofNat 15 x.peer, epoch := x.epoch, bytes := BitVec.ofNat 10 (min 512 (x.bytes - 512 * x.sent)),
            last := x.sent + 1 == x.cells, seq := BitVec.ofNat 32 x.sent, data := packCodes x.src.fm.bits cs })) := by
  unfold State.sendCell
  extract_lets part fed d e0 e1 r n
  have hfed : fed = true := by
    unfold fed
    split
    · rfl
    · next f hf => exact decide_eq_true (h f hf)
  rw [if_neg (by simp [hfed]), State.fetchCell_eq] <;> rfl

end

/-! ### The cells of a stream in the places left (12 R269) -/

section
variable {s t : State} {c : Nat} {x : TxStream} (hx : s.tx c = some x) (hmore : x.sent < x.cells) (n : Nat) {place : Nat × Nat}
  (places : List (Nat × Nat))
include hx hmore

theorem State.sendCells_of_sent (h : s.sendCell c x place = .sent t) :
    s.sendCells c (n + 1) (place :: places) = (t.setTx c (some { x with
      sent := x.sent + 1, lastTick := if x.sent + 1 = x.cells then some s.tick else none })).sendCells c n places := by
  rw [State.sendCells]
  simp only [hx, Nat.not_le.mpr hmore, if_false, h]

theorem State.sendCells_of_notReady (h : s.sendCell c x place = .notReady t) :
    s.sendCells c (n + 1) (place :: places) = (t, place :: places) := by
  rw [State.sendCells]
  simp only [hx, Nat.not_le.mpr hmore, if_false, h]

theorem State.sendCells_of_fault {code det : Nat} (h : s.sendCell c x place = .fault t code det) :
    s.sendCells c (n + 1) (place :: places) =
      ((t.sendMsg x.port (.streamReset (BitVec.ofNat 15 x.peer) x.epoch t.resetCause)).draw.txFault c x code det, place :: places) := by
  rw [State.sendCells]
  simp only [hx, Nat.not_le.mpr hmore, if_false, h]

end

theorem State.sendCells_of_noPlace (s : State) (c n : Nat) : s.sendCells c n [] = (s, []) := by
  cases n <;> rfl

/-! ### The two copies of a message (12 R261) -/

/-- Whether what leaves a port now has its CRC spoiled (17 R387). -/
def State.silenced (s : State) (p : Nat) : Bool := match (s.lport p).silentTo with | some t => !s.reached t | none => false

/-- The machine after a header of port `p`, whose outbox is left as `o`. -/
def State.hdrSent (s : State) (p : Nat) (o : List OutMsg) (h : FrameHdr) : State :=
  (s.setPort p { s.lport p with outbox := o }).linkSend p (.hdr h)

theorem State.lport_hdrSent (s : State) (p : Nat) (o : List OutMsg) (h : FrameHdr) :
    (s.hdrSent p o h).lport p = { s.lport p with outbox := o } := s.lport_setPort ..

theorem State.silenced_hdrSent (s : State) (p : Nat) (o : List OutMsg) (h : FrameHdr) : (s.hdrSent p o h).silenced p = s.silenced p := by
  unfold State.silenced
  rw [State.lport_hdrSent]
  rfl

theorem State.linkOut_hdrSent (s : State) (p : Nat) (o : List OutMsg) (h : FrameHdr) :
    (s.hdrSent p o h).linkOut = s.linkOut ++ [{ port := p, tick := s.tick, bad := s.silenced p, what := .hdr h }] := by
  unfold State.hdrSent State.linkSend State.silenced
  rw [State.lport_setPort]
  rfl

/-- A header carries a message whatever the number of its copies left. -/
theorem State.frameHdr_hdrSent (s : State) (p f k : Nat) (m : OutMsg) (o : List OutMsg) (h : FrameHdr) :
    (s.hdrSent p o h).frameHdr p f [{ m with left := k }] = s.frameHdr p f [m] := by
  unfold State.frameHdr
  rw [State.lport_hdrSent]
  rfl

/-- A header that carries the only message of an outbox, one that no command waits for. -/
theorem State.sendHdr_single {s : State} {p : Nat} {m : OutMsg} (hout : (s.lport p).outbox = [m]) (hcmd : m.cmd = none) (f : Nat) :
    s.sendHdr p f = s.hdrSent p ([{ m with left := m.left - 1 }].filter fun m => m.left != 0) (s.frameHdr p f [m]) := by
  unfold State.sendHdr
  extract_lets x now sent u
  have hnow : now = [m] := congrArg (List.take 2) hout
  have hsent : sent = [{ m with left := m.left - 1 }] := congrArg (List.map _) hnow
  have hrest : x.outbox.drop 2 = [] := congrArg (List.drop 2) hout
  have hu : u = s.hdrSent p ([{ m with left := m.left - 1 }].filter fun m => m.left != 0) (s.frameHdr p f [m]) := by
    unfold u
    rw [hsent, hrest, hnow, List.append_nil]
    rfl
  have hcmds : (sent.filter fun m => m.left == 0).filterMap OutMsg.cmd = [] := List.filterMap_eq_nil_iff.mpr fun e he => by
    obtain rfl := List.mem_singleton.mp (hsent ▸ (List.mem_filter.mp he).1)
    exact hcmd
  rw [hcmds]
  exact hu

/-- A message with two copies left goes out in two headers, and is gone then. -/
theorem State.sendHdr_sendHdr {s : State} {p : Nat} {m : OutMsg} (hout : (s.lport p).outbox = [m]) (hleft : m.left = 2) (hcmd : m.cmd = none)
    (f g : Nat) :
    (s.sendHdr p f).sendHdr p g =
      (s.hdrSent p [{ m with left := 1 }] (s.frameHdr p f [m])).hdrSent p [] (s.frameHdr p g [m]) := by
  have hone : s.sendHdr p f = s.hdrSent p [{ m with left := 1 }] (s.frameHdr p f [m]) := by
    rw [State.sendHdr_single hout hcmd, hleft]
    rfl
  have hnext : ((s.sendHdr p f).lport p).outbox = [{ m with left := 1 }] := by rw [hone, State.lport_hdrSent]
  rw [State.sendHdr_single hnext hcmd, hone, State.frameHdr_hdrSent]
  rfl

/-- Settles O35: a tick by the state of its port, a cell by its feed and its fetch, the cells of a stream one by one, and a message's copies. -/
theorem portSends : Obligations.PortSends := by
  unfold Obligations.PortSends
  refine ⟨fun s port i hi => ?_, fun s c x place => ⟨fun f hfeed h => State.sendCell_of_unfed hfeed h c place, fun hfed => ?_⟩,
    fun s t c n place places x hx hmore => ⟨State.sendCells_of_sent hx hmore n places, State.sendCells_of_notReady hx hmore n places,
      fun code det => State.sendCells_of_fault hx hmore n places, s.sendCells_of_noPlace c _⟩, fun s p f g m hout hleft hcmd => ?_⟩
  · intro p x t
    have hexec : exec i s = .next (sendTick s p) := by rcases hi with rfl | rfl <;> rfl
    rw [hexec]
    refine ⟨fun h => congrArg _ (sendTick_of_ticked h), fun hnew => ⟨fun h => congrArg _ (sendTick_of_shut hnew h),
      fun h => congrArg _ (sendTick_of_training hnew h), fun c y hup hone hgo hdue => ?_, fun c y hup hone hgo hdue => ?_, fun hup hnone => ?_⟩⟩
    · exact congrArg _ (by rw [sendTick_of_up hnew hup, State.cancelTxs_of_going (s := t) hone hgo, State.serveTxs_of_due (s := t) hone hdue])
    · exact congrArg _ (by rw [sendTick_of_up hnew hup, State.cancelTxs_of_going (s := t) hone hgo, State.serveTxs_of_early (s := t) hone hdue])
    · exact congrArg _ (by rw [sendTick_of_up hnew hup, State.cancelTxs_of_empty (s := t) hnone, State.serveTxs_of_empty (s := t) hnone])
  · have hcell := State.sendCell_of_fed hfed c place
    refine ⟨fun cs bs h => ?_, fun h => ?_, fun code ma h => ?_⟩
    all_goals
      replace h : (s.fetchCell c x).2 = _ := h
      rw [h] at hcell
      exact hcell
  · rw [State.sendHdr_sendHdr hout hleft hcmd]
    refine ⟨by rw [State.lport_hdrSent], s.silenced p, ?_⟩
    rw [State.linkOut_hdrSent, State.linkOut_hdrSent, State.silenced_hdrSent, List.append_assoc]
    rfl

end Sys2Proof.Machine
end

section
/-! PROOFS. O45: the pulses and markers of the cadence, what of them is absent, slews and pulls, the wait of S2, uncertainty and turn
boundaries (11 R239, R242 to R248). -/

namespace Sys2Proof.Machine

/-! ### The counter under a pull (11 R239, R244, R245) -/

theorem Clep.plus_zero (c : Clep) : c.plus 0 = c := by
  have htick : BitVec.ofNat 48 ((c.tick.toNat * 1024 + c.drop.toNat + 0) / 1024) = c.tick := by
    refine BitVec.eq_of_toNat_eq ?_
    rw [BitVec.toNat_ofNat]
    omega
  have hdrop : BitVec.ofNat 10 (c.tick.toNat * 1024 + c.drop.toNat + 0) = c.drop := by
    refine BitVec.eq_of_toNat_eq ?_
    rw [BitVec.toNat_ofNat]
    omega
  unfold Clep.plus
  dsimp only
  rw [htick, hdrop]

theorem Clep.plus_plus (c : Clep) (a b : Nat) : (c.plus a).plus b = c.plus (a + b) := by
  have htick : ((c.plus a).plus b).tick = (c.plus (a + b)).tick := by
    refine BitVec.eq_of_toNat_eq ?_
    simp only [Clep.plus, BitVec.toNat_ofNat]
    omega
  have hdrop : ((c.plus a).plus b).drop = (c.plus (a + b)).drop := by
    refine BitVec.eq_of_toNat_eq ?_
    simp only [Clep.plus, BitVec.toNat_ofNat]
    omega
  exact congrArg₂ (fun t d => { c with tick := t, drop := d }) htick hdrop

/-- A whole tick of drops leaves the drop where it was. -/
theorem Clep.plus_tick (c : Clep) : (c.plus 1024).tick = c.tick + 1 ∧ (c.plus 1024).drop = c.drop := by
  constructor
  · refine BitVec.eq_of_toNat_eq ?_
    simp only [Clep.plus, BitVec.toNat_ofNat, BitVec.toNat_add, BitVec.ofNat_eq_ofNat]
    omega
  · refine BitVec.eq_of_toNat_eq ?_
    simp only [Clep.plus, BitVec.toNat_ofNat]
    omega

/-- `n` drops of true time at the counter. -/
def Clep.advances (c : Clep) (n : Nat) : Clep := (List.range n).foldl (fun c _ => c.advance) c

theorem Clep.advances_succ (c : Clep) (n : Nat) : c.advances (n + 1) = (c.advances n).advance := by
  unfold Clep.advances
  rw [List.range_succ, List.foldl_append]
  rfl

theorem Clep.advances_of_no_slew {c : Clep} (h : c.slew = 0) (n : Nat) : c.advances n = c.plus n := by
  induction n with
  | zero => exact c.plus_zero.symm
  | succ n ih => rw [Clep.advances_succ, ih, Clep.advance_of_no_slew (c := c.plus n) h, Clep.plus_plus]

/-- What of a drop has passed as a pull by `x` starts, whose tick lasts `l` drops of true time, in parts of that number. -/
def pullFrom (x : Int) (l : Nat) : Nat := if 0 < x then l - 1 else 0

/-- The counter's drops in the first `j` drops of true time of that pull. -/
def pullDrops (x : Int) (l j : Nat) : Nat := (pullFrom x l + 1024 * j) / l

/-- A pull by `x` from `c` on, `j` drops of true time after its start. -/
def Clep.pulledFor (c : Clep) (x : Int) (l j : Nat) : Clep :=
  let left := x - (j - pullDrops x l j)
  { c.plus (pullDrops x l j) with
    slew := left
    rate := if left = 0 then 0 else x
    sub := if left = 0 then 0 else (pullFrom x l + 1024 * j) % l }

section
variable {x : Int} {l : Nat} (hpos : 0 < l)
include hpos

theorem pullFrom_lt (x : Int) : pullFrom x l < l := by
  unfold pullFrom
  split <;> omega

theorem pullDrops_zero (x : Int) : pullDrops x l 0 = 0 := Nat.div_eq_of_lt (pullFrom_lt hpos x)

theorem pullDrops_tick (x : Int) : pullDrops x l l = 1024 := by
  unfold pullDrops
  rw [Nat.add_mul_div_right _ _ hpos, Nat.div_eq_of_lt (pullFrom_lt hpos x), Nat.zero_add]

/-- What a drop of true time adds is read off what of a drop has passed. -/
theorem pullDrops_succ (x : Int) (j : Nat) : pullDrops x l (j + 1) = pullDrops x l j + ((pullFrom x l + 1024 * j) % l + 1024) / l := by
  unfold pullDrops
  have hsplit : pullFrom x l + 1024 * (j + 1) =
      (pullFrom x l + 1024 * j) % l + 1024 + l * ((pullFrom x l + 1024 * j) / l) := by
    have := Nat.mod_add_div (pullFrom x l + 1024 * j) l
    omega
  rw [hsplit, Nat.add_mul_div_left _ _ hpos, Nat.add_comm]

variable (hl : (l : Int) = 1024 + x)
include hl

/-- The drops that a pull makes up are all made up in the last drop of its tick, and not before. -/
theorem pullDrops_lt {j : Nat} (hx : x ≠ 0) (hj : j < l) : x - (j - pullDrops x l j : Int) ≠ 0 := by
  intro hdone
  have hq : (pullDrops x l j : Int) = j - x := by omega
  rcases lt_or_gt_of_ne hx with hneg | hup
  · have hle : l * pullDrops x l j ≤ 1024 * j := by
      have hfrom : pullFrom x l = 0 := if_neg (by omega)
      unfold pullDrops
      rw [hfrom, Nat.zero_add]
      exact Nat.mul_div_le ..
    nlinarith
  · have hlt : l - 1 + 1024 * j < l * (pullDrops x l j + 1) := by
      have hfrom : pullFrom x l = l - 1 := if_pos hup
      unfold pullDrops
      rw [hfrom]
      exact Nat.lt_mul_div_succ _ hpos
    have hcast : (l : Int) - 1 + 1024 * j < l * (pullDrops x l j + 1) := by
      have := Int.ofNat_lt.mpr hlt
      push_cast [Nat.cast_sub (Nat.succ_le_of_lt hpos)] at this
      exact this
    have hgap : 0 ≤ x * (l - j - 1) := Int.mul_nonneg hup.le (by omega)
    rw [hq] at hcast
    nlinarith

theorem Clep.pulledFor_zero (c : Clep) (hx : x ≠ 0) : c.pulledFor x l 0 = c.pull x x := by
  have hleft : x - (((0 : Nat) : Int) - ((0 : Nat) : Int)) = x := by omega
  have hsub : (pullFrom x l + 1024 * 0) % l = if 0 < x then (1023 + x).toNat else 0 := by
    rw [Nat.mul_zero, Nat.add_zero, Nat.mod_eq_of_lt (pullFrom_lt hpos x)]
    unfold pullFrom
    split <;> omega
  unfold Clep.pulledFor
  simp only [pullDrops_zero hpos, hleft, hx, if_false, hsub, Clep.plus_zero]
  rfl

/-- A drop of true time of a pull that has not ended. -/
theorem Clep.advance_pulledFor (c : Clep) {j : Nat} (hx : x ≠ 0) (hj : j < l) :
    (c.pulledFor x l j).advance = c.pulledFor x l (j + 1) := by
  have hgoes : (c.pulledFor x l j).slew ≠ 0 := pullDrops_lt hpos hl hx hj
  have hrate : (c.pulledFor x l j).rate = x := if_neg hgoes
  have hsub : (c.pulledFor x l j).sub = (pullFrom x l + 1024 * j) % l := if_neg hgoes
  have hlong : (1024 + x).toNat = l := by omega
  let n := ((pullFrom x l + 1024 * j) % l + 1024) / l
  have hmod : ((pullFrom x l + 1024 * j) % l + 1024) % l = (pullFrom x l + 1024 * (j + 1)) % l := by
    rw [Nat.mod_add_mod, Nat.mul_succ, Nat.add_assoc]
  have hleft : x - (j - pullDrops x l j : Int) - (1 - (n : Int)) = x - ((j + 1 : Nat) - pullDrops x l (j + 1)) := by
    have hn : pullDrops x l (j + 1) = pullDrops x l j + n := pullDrops_succ hpos x j
    rw [hn]
    omega
  let left := x - (j - pullDrops x l j : Int) - (1 - (n : Int))
  calc (c.pulledFor x l j).advance = { (c.plus (pullDrops x l j)).plus n with
        slew := left, rate := if left = 0 then 0 else x, sub := if left = 0 then 0 else ((pullFrom x l + 1024 * j) % l + 1024) % l } := by
          unfold Clep.advance
          rw [if_neg hgoes, hrate, hsub, hlong]
          rfl
    _ = c.pulledFor x l (j + 1) := by
          unfold left n
          rw [Clep.plus_plus, ← pullDrops_succ hpos, hleft, hmod]
          rfl

theorem Clep.advances_pull (c : Clep) (hx : x ≠ 0) {j : Nat} (hj : j ≤ l) : (c.pull x x).advances j = c.pulledFor x l j := by
  induction j with
  | zero => exact (c.pulledFor_zero hpos hl hx).symm
  | succ j ih => rw [Clep.advances_succ, ih (by omega), c.advance_pulledFor hpos hl hx hj]

end

/-- A pull by up to 64 drops lasts one tick, at whose end nothing of it is left. -/
theorem Clep.advances_pull_tick (c : Clep) {x : Int} (hlow : -64 ≤ x) :
    let d := (c.pull x x).advances (1024 + x).toNat
    d.tick = c.tick + 1 ∧ d.drop = c.drop ∧ d.slew = 0 := by
  intro d
  obtain ⟨htick, hdrop⟩ := c.plus_tick
  by_cases hx : x = 0
  · have hd : d = (c.pull x x).plus 1024 := by
      unfold d
      rw [Clep.advances_of_no_slew (c := c.pull x x) hx, hx]
      rfl
    rw [hd]
    exact ⟨htick, hdrop, hx⟩
  · have hl : ((1024 + x).toNat : Int) = 1024 + x := Int.toNat_of_nonneg (by omega)
    have hpos : 0 < (1024 + x).toNat := by omega
    have hd : d = c.pulledFor x (1024 + x).toNat (1024 + x).toNat := c.advances_pull hpos hl hx le_rfl
    rw [hd]
    unfold Clep.pulledFor
    rw [pullDrops_tick hpos]
    exact ⟨htick, hdrop, by dsimp only; omega⟩

/-! ### Changes of the clepsydra's state (11 Table CLP-1) -/

@[simp] theorem State.clp_refreshSync (s : State) (p : Nat) : (s.refreshSync p).clp = s.clp := by
  unfold State.refreshSync
  dsimp only
  split <;> rfl

@[simp] theorem State.clp_refreshSyncs (s : State) : s.refreshSyncs.clp = s.clp :=
  foldl_frame State.clp State.refreshSync (fun t p => t.clp_refreshSync p) (List.range 20) s

/-- A change of state sets the state, and leaves the counter, the counts and what S2 waits for alone. -/
structure Clep.EntersFrom (c d : Clep) (m : ClpMode) : Prop where
  mode : d.mode = m
  counter : d.tick = c.tick ∧ d.drop = c.drop
  errors : d.markerErr = c.markerErr
  s2Lock : d.s2Lock = c.s2Lock
  masked : d.masked = c.masked

theorem State.clp_setClp (s : State) (m : ClpMode) : s.clp.EntersFrom (s.setClp m).clp m := by
  unfold State.setClp
  rw [State.clp_refreshSyncs]
  cases m <;> exact ⟨rfl, ⟨rfl, rfl⟩, rfl, rfl, rfl⟩

theorem State.pos_setClp (s : State) (m : ClpMode) : (s.setClp m).pos = s.pos := by
  obtain ⟨htick, hdrop⟩ := (s.clp_setClp m).counter
  unfold State.pos
  rw [htick, hdrop]

@[simp] theorem State.clp_postEv (s : State) (src code : Nat) (part : Option Nat) (d : List Nat) : (s.postEv src code part d).clp = s.clp := rfl

theorem State.events_postEv (s : State) (src code : Nat) (part : Option Nat) (d : List Nat) :
    (s.postEv src code part d).events =
      s.events ++ [{ post := s.time, src := src, body := .ev code part (d.map (BitVec.ofNat 64)), audits := [] }] := rfl

theorem State.clp_clpEvent (s : State) (m : ClpMode) (code : Nat) (third : Int) : s.clp.EntersFrom (s.clpEvent m code third).clp m := by
  unfold State.clpEvent
  rw [State.clp_postEv]
  exact s.clp_setClp m

/-- S2 waits no longer for the cadence. -/
def State.s2Ended (s : State) : State := { s with clp := { s.clp with s2Lock := false } }

@[simp] theorem State.mode_s2Ended (s : State) : s.s2Ended.clp.mode = s.clp.mode := rfl
@[simp] theorem State.pos_s2Ended (s : State) : s.s2Ended.pos = s.pos := rfl
@[simp] theorem State.mem_s2Ended (s : State) : s.s2Ended.mem = s.mem := rfl

/-! ### What S2 has found (11 R246) -/

section
variable {s : State}

theorem State.s2Watch_of_silent (hlock : s.clp.s2Lock = true) (hstage : 2 ≤ s.bup.stage.toNat) (hpulses : s.clp.s2Pulses = false)
    (hlate : 1600000 < s.s2Since) : s.s2Watch = s.s2Ended.setClp .freeRun := by
  unfold State.s2Watch
  rw [if_neg (by simp [hlock]; omega), if_pos (by rw [hpulses]; rfl), if_pos hlate]
  rfl

theorem State.s2Watch_of_unmarked (hlock : s.clp.s2Lock = true) (hstage : 2 ≤ s.bup.stage.toNat) (hpulses : s.clp.s2Pulses = true)
    (hlate : 2 * 65536 * 1024 < s.s2Since) : s.s2Watch = s.s2Ended.setClp .phaseError := by
  unfold State.s2Watch
  rw [if_neg (by simp [hlock]; omega), if_neg (by rw [hpulses]; decide), if_pos hlate]
  rfl

/-- S2 goes on waiting for pulses within the first millisecond, and for a marker within two turns. -/
theorem State.s2Watch_of_waiting (h : s.s2Since ≤ if s.clp.s2Pulses then 2 * 65536 * 1024 else 1600000) : s.s2Watch = s := by
  unfold State.s2Watch
  extract_lets c
  split
  · rfl
  · split
    · next hno => exact if_neg (by simp_all [c])
    · next hpulses => exact if_neg (by simp_all [c])

@[simp] theorem State.masked_s2Watch (s : State) : s.s2Watch.clp.masked = s.clp.masked := by
  unfold State.s2Watch
  extract_lets c
  split
  · rfl
  · split
    · split
      · exact (State.clp_setClp _ _).masked
      · rfl
    · split
      · exact (State.clp_setClp _ _).masked
      · rfl

end

/-! ### Pulses (11 R239, R243, R244) -/

/-- The tick of the edge that comes now. -/
def State.edgeTick (s : State) : Nat := ((s.edgePos - nearest 1024 s.edgePos) / 1024 % 2 ^ 48).toNat

/-- The pulses in consecutive ticks with the one that comes now. -/
def State.edgeRun (s : State) : Nat :=
  match s.clp.lastPulse with
  | some l => if (l + 1) % 2 ^ 48 = s.edgeTick then s.clp.run + 1 else 1
  | none => 1

/-- The clepsydra's record with the pulse that comes now. -/
def State.edgeNoted (s : State) : Clep :=
  { s.clp with lastPulse := some s.edgeTick, pulseAt := some s.time, run := s.edgeRun, missing := false,
               s2Pulses := s.clp.s2Pulses || (s.clp.s2Lock && decide (2 ≤ s.bup.stage.toNat)) }

theorem State.edgeRun_of_consecutive {s : State} {l : Nat} (hlast : s.clp.lastPulse = some l) (h : (l + 1) % 2 ^ 48 = s.edgeTick) :
    s.edgeRun = s.clp.run + 1 := by
  unfold State.edgeRun
  simp only [hlast, h, if_true]

theorem State.edgeRun_of_first {s : State} (hlast : s.clp.lastPulse = none) : s.edgeRun = 1 := by
  unfold State.edgeRun
  simp only [hlast]

/-- Where S2 does not wait, a pulse changes nothing of what S2 has seen. -/
theorem State.edgeNoted_of_unlocked {s : State} (hlock : s.clp.s2Lock = false) :
    s.edgeNoted = { s.clp with lastPulse := some s.edgeTick, pulseAt := some s.time, run := s.edgeRun, missing := false } := by
  unfold State.edgeNoted
  rw [hlock, Bool.false_and, Bool.or_false]

/-- S2 sees the pulse it waits for. -/
theorem State.edgeNoted_of_s2 {s : State} (hlock : s.clp.s2Lock = true) (hstage : 2 ≤ s.bup.stage.toNat) :
    s.edgeNoted =
      { s.clp with lastPulse := some s.edgeTick, pulseAt := some s.time, run := s.edgeRun, missing := false, s2Pulses := true } := by
  unfold State.edgeNoted
  rw [hlock, decide_eq_true hstage, Bool.true_and, Bool.or_true]

theorem cadencePulse_of_masked {s : State} (h : s.clp.masked = true) : cadencePulse s = s := if_pos h

section
variable {s : State} (hmask : s.clp.masked = false)
include hmask

/-- A pulse that S2's wait does not end is noted, and acted on in the state the clepsydra is in. -/
theorem cadencePulse_of_watched (hwatch : s.s2Watch = s) :
    cadencePulse s = match s.clp.mode with
      | .freeRun | .holdover =>
        if 1025 ≤ s.edgeRun ∧ !s.clp.s2Lock then ({ s with clp := s.edgeNoted } : State).setClp .acquire else { s with clp := s.edgeNoted }
      | .locked =>
        if 64 < (nearest 1024 s.edgePos).natAbs ∨ s.edgeTick % 65536 = 0
        then ({ s with clp := s.edgeNoted } : State).misaligned (nearest 1024 s.edgePos)
        else { s with clp := s.edgeNoted.pull (nearest 1024 s.edgePos) (nearest 1024 s.edgePos) }
      | _ => { s with clp := s.edgeNoted } := by
  unfold cadencePulse
  extract_lets c off t run w d u v
  have hw : w = s := hwatch
  have hu : u = s.edgeNoted := by
    unfold u d
    rw [hw]
    rfl
  have hv : v = { s with clp := s.edgeNoted } := by
    unfold v
    rw [hw, hu]
  rw [if_neg (ne_true_of_eq_false hmask), hv, hu] <;> rfl

theorem cadencePulse_of_searching (hwatch : s.s2Watch = s) (hmode : s.clp.mode = .freeRun ∨ s.clp.mode = .holdover) :
    cadencePulse s = if 1025 ≤ s.edgeRun ∧ !s.clp.s2Lock then ({ s with clp := s.edgeNoted } : State).setClp .acquire
      else { s with clp := s.edgeNoted } := by
  rw [cadencePulse_of_watched hmask hwatch]
  rcases hmode with h | h <;> rw [h]

theorem cadencePulse_of_locked (hwatch : s.s2Watch = s) (hmode : s.clp.mode = .locked) :
    cadencePulse s = if 64 < (nearest 1024 s.edgePos).natAbs ∨ s.edgeTick % 65536 = 0
      then ({ s with clp := s.edgeNoted } : State).misaligned (nearest 1024 s.edgePos)
      else { s with clp := s.edgeNoted.pull (nearest 1024 s.edgePos) (nearest 1024 s.edgePos) } := by
  rw [cadencePulse_of_watched hmask hwatch, hmode]

end

/-! ### Misalignments and absent pulses (11 R244) -/

section
variable {s : State}

/-- A misalignment is counted, and its turn kept. -/
def State.errorNoted (s : State) : State :=
  { s with clp := { s.clp with markerErr := satAdd s.clp.markerErr 1, lastBad := some s.turn } }

theorem State.misaligned_of_apart (h : ∀ l, s.clp.lastBad = some l → (l + 1) % 2 ^ 32 ≠ s.turn) (x : Int) :
    s.misaligned x = s.errorNoted := by
  unfold State.misaligned
  extract_lets c u
  split
  · next l hbad => exact if_neg (h l hbad)
  · rfl

theorem State.misaligned_of_consecutive {l : Nat} (hbad : s.clp.lastBad = some l) (h : (l + 1) % 2 ^ 32 = s.turn) (x : Int) :
    s.misaligned x = s.errorNoted.clpEvent .phaseError cClpPhaseError x := by
  unfold State.misaligned
  extract_lets c u
  split
  · next k hk =>
    obtain rfl : l = k := Option.some.inj (hbad.symm.trans hk)
    exact if_pos h
  · next hnone => exact absurd (hbad.symm.trans hnone) nofun

/-- The clepsydra's record with the present tick's pulse absent. -/
def State.missNoted (s : State) : Clep := { s.clp with missTick := some s.tick }

theorem cadenceMissing_of_known (h : s.tick % 65536 = 0 ∨ s.clp.lastPulse = some s.tick ∨ s.clp.missTick = some s.tick) :
    cadenceMissing s = s := if_pos h

variable (hnew : ¬ (s.tick % 65536 = 0 ∨ s.clp.lastPulse = some s.tick ∨ s.clp.missTick = some s.tick))
include hnew

theorem cadenceMissing_of_searching (hmode : s.clp.mode = .freeRun ∨ s.clp.mode = .holdover) :
    cadenceMissing s = { s with clp := { s.missNoted with run := 0 } } := by
  unfold cadenceMissing
  rw [if_neg hnew]
  extract_lets d u
  have hd : d.mode = s.clp.mode := rfl
  split
  · rfl
  · rfl
  · next hne hno => rcases hmode with h | h <;> simp_all

theorem cadenceMissing_of_following (hmode : s.clp.mode = .acquire ∨ s.clp.mode = .locked) :
    cadenceMissing s = if s.clp.missing
      then ({ s with clp := s.missNoted } : State).clpEvent .holdover cClpCadenceLost (s.uncert : Int)
      else { s with clp := { s.missNoted with missing := true, missed := satAdd s.clp.missed 1 } } := by
  unfold cadenceMissing
  rw [if_neg hnew]
  extract_lets d u
  have hd : d.mode = s.clp.mode := rfl
  split
  · next h => rcases hmode with h' | h' <;> simp_all
  · next h => rcases hmode with h' | h' <;> simp_all
  · rfl

end

/-! ### Markers and slews (11 R245, R246) -/

section
variable {s : State}

theorem turnMarker_of_masked (h : s.clp.masked = true) : turnMarker s = s.s2Watch := if_pos (s.masked_s2Watch.trans h)

section
variable (hmask : s.clp.masked = false) (hresyncs : s.clp.resyncs = [])
include hmask hresyncs

/-- The first marker in ACQUIRE: its offset is kept, and starts the slew where it is small enough. -/
theorem turnMarker_of_acquire (hlock : s.clp.s2Lock = false) (hmode : s.clp.mode = .acquire) (hslew : s.clp.slewing = false) :
    let e := nearest (65536 * 1024) s.edgePos
    let u : State := { s with clp := { s.clp with phase := BitVec.ofNat 32 (wrapTo 32 e) } }
    turnMarker s = if e.natAbs ≤ 16384 then { u with clp := { u.clp with slewing := true }.pull (16 * e.sign) e }
      else u.clpEvent .phaseError cClpPhaseError e := by
  intro e u
  unfold turnMarker
  rw [State.s2Watch_of_unlocked hlock]
  extract_lets w c
  rw [if_neg (ne_true_of_eq_false hmask)]
  split
  · next h => exact absurd (hresyncs.symm.trans h) nofun
  · rw [if_neg (by simp [c, w, hlock]), if_neg (ne_true_of_eq_false hlock)]
    split
    · exact if_neg (ne_true_of_eq_false hslew)
    · next h => exact absurd (hmode.symm.trans h) nofun
    · next h _ => exact absurd hmode h

/-- The marker that S2 waits for, after pulses: the counter is set to the cadence, and locked. -/
theorem turnMarker_of_s2 (hwatch : s.s2Watch = s) (hlock : s.clp.s2Lock = true) (hpulses : s.clp.s2Pulses = true) :
    turnMarker s = ((s.stepBy (-nearest (65536 * 1024) s.edgePos) false).setClp .locked).s2Ended := by
  unfold turnMarker
  rw [hwatch]
  extract_lets w c e t
  have ht : t = (s.stepBy (-nearest (65536 * 1024) s.edgePos) false).setClp .locked := rfl
  rw [if_neg (ne_true_of_eq_false hmask)]
  split
  · next h => exact absurd (hresyncs.symm.trans h) nofun
  · rw [if_neg (by simp [c, w, hpulses]), if_pos hlock, ← ht]
    rfl

end

/-- The position of a stepped counter (11 R242). -/
theorem State.pos_stepBy (d : Int) (all : Bool) : ((s.stepBy d all).pos : Int) = ((s.pos : Int) + d) % 2 ^ 58 := by
  have hlow : 0 ≤ ((s.pos : Int) + d) % 2 ^ 58 := Int.emod_nonneg _ (by decide)
  have hhigh : ((s.pos : Int) + d) % 2 ^ 58 < 2 ^ 58 := Int.emod_lt_of_pos _ (by decide)
  have hpos : (s.stepBy d all).pos = (BitVec.ofNat 48 ((((s.pos : Int) + d) % 2 ^ 58) / 1024).toNat).toNat * 1024 +
      (BitVec.ofNat 10 ((((s.pos : Int) + d) % 2 ^ 58) % 1024).toNat).toNat := rfl
  rw [hpos, BitVec.toNat_ofNat, BitVec.toNat_ofNat]
  generalize ((s.pos : Int) + d) % 2 ^ 58 = x at *
  omega

theorem slewComplete_of_done (hmode : s.clp.mode = .acquire) (hslewing : s.clp.slewing = true) (hslew : s.clp.slew = 0) :
    slewComplete s = (({ s with clp := { s.clp with relocks := s.clp.relocks + 1 } } : State).clpEvent .locked cClpRelocked 0) :=
  if_pos ⟨hmode, hslewing, hslew⟩

theorem slewComplete_of_going (h : s.clp.slewing = false ∨ s.clp.slew ≠ 0) : slewComplete s = s :=
  if_neg fun ⟨_, hslewing, hslew⟩ => h.elim (ne_false_of_eq_true hslewing) (absurd hslew)

/-! ### Uncertainty (11 R247) -/

theorem uncertHigh_of_sent (h : s.clp.uncertSent = true) : uncertHigh s = s := if_pos (by simp [h])

theorem uncertHigh_of_past (hmode : s.clp.mode = .holdover) (hloss : s.clp.lossTime.isSome = true) (hsent : s.clp.uncertSent = false)
    (hthresh : s.clp.thresh ≠ 0) (hpast : s.clp.thresh.toNat < s.uncert) :
    uncertHigh s = ({ s with clp := { s.clp with uncertSent := true } } : State).postEv 2 cClpUncertHigh none [0, 3, 3, s.uncert] := by
  have hgo : ¬ (s.clp.mode = .locked ∨ s.clp.mode = .freeRun ∨ s.clp.lossTime = none ∨ s.clp.uncertSent ∨ s.clp.thresh = 0 ∨
      s.uncert ≤ s.clp.thresh.toNat) := by
    simpa [hmode, Option.isSome_iff_ne_none.mp hloss, hsent, Nat.not_le.mpr hpast] using hthresh
  unfold uncertHigh
  rw [if_neg hgo]
  simp only [hmode]
  rfl

end

/-! ### Turn boundaries (11 R242; 12 R256, R257, R262, R263) -/

theorem State.lport_setPort_other {s : State} {p q : Nat} (x : Port) (h : p ≠ q) : (s.setPort p x).lport q = s.lport q :=
  Map.get_set_other _ _ _ _ _ h

/-- `t` differs from `s` in its ports and in events posted since. -/
structure State.PortsPost (s t : State) : Prop where
  clp : t.clp = s.clp
  time : t.time = s.time
  cores : t.cores = s.cores
  mem : t.mem = s.mem
  bundles : t.bundles = s.bundles
  events : ∃ evs, t.events = s.events ++ evs

theorem State.PortsPost.refl (s : State) : s.PortsPost s := ⟨rfl, rfl, rfl, rfl, rfl, [], (List.append_nil _).symm⟩

theorem State.PortsPost.trans {s t u : State} (h : s.PortsPost t) (h' : t.PortsPost u) : s.PortsPost u := by
  obtain ⟨evs, hevs⟩ := h.events
  obtain ⟨evs', hevs'⟩ := h'.events
  exact ⟨h'.clp.trans h.clp, h'.time.trans h.time, h'.cores.trans h.cores, h'.mem.trans h.mem, h'.bundles.trans h.bundles, evs ++ evs',
    by rw [hevs', hevs, List.append_assoc]⟩

theorem State.PortsPost.foldl {f : State → Nat → State} (hf : ∀ (s : State) p, s.PortsPost (f s p)) (l : List Nat) (s : State) :
    s.PortsPost (l.foldl f s) :=
  foldl_keeps s.PortsPost f (fun t p ht => ht.trans (hf t p)) l s (.refl s)

theorem State.portsPost_setPort (s : State) (p : Nat) (x : Port) : s.PortsPost (s.setPort p x) :=
  ⟨rfl, rfl, rfl, rfl, rfl, [], (List.append_nil _).symm⟩

theorem State.portsPost_trainPort (s : State) (p : Nat) : s.PortsPost (s.trainPort p) := by
  unfold State.trainPort
  extract_lets x
  split
  · exact .refl s
  · split
    · exact s.portsPost_setPort ..
    · exact s.portsPost_setPort ..
    · exact .refl s

theorem State.portsPost_refreshSync (s : State) (p : Nat) : s.PortsPost (s.refreshSync p) := by
  unfold State.refreshSync
  extract_lets x now
  split
  · exact .refl s
  · exact ⟨rfl, rfl, rfl, rfl, rfl, _, rfl⟩

/-- No port waits for a lane change. -/
def State.Unplanned (s : State) : Prop := ∀ p < 20, (s.lport p).rxPlan = [] ∧ (s.lport p).txPlan = []

theorem State.laneChanges_of_unplanned {s : State} {p : Nat} (h : (s.lport p).rxPlan = [] ∧ (s.lport p).txPlan = []) :
    s.laneChanges p = s.setPort p { s.lport p with laneCorr := [] } := by
  obtain ⟨hrx, htx⟩ := h
  unfold State.laneChanges
  dsimp only
  rw [hrx, htx]
  rfl

theorem State.laneChanges_all_of_unplanned {s : State} (h : s.Unplanned) : s.PortsPost ((List.range 20).foldl State.laneChanges s) := by
  refine (List.foldlRecOn (List.range 20) State.laneChanges (motive := fun t => s.PortsPost t ∧ t.Unplanned) ⟨.refl s, h⟩ ?_).1
  rintro t ⟨ht, hplans⟩ p hp
  have hhere := hplans p (List.mem_range.mp hp)
  rw [State.laneChanges_of_unplanned hhere]
  refine ⟨ht.trans (t.portsPost_setPort ..), fun q hq => ?_⟩
  by_cases hpq : p = q
  · subst hpq
    rw [State.lport_setPort]
    exact hhere
  · rw [State.lport_setPort_other _ hpq]
    exact hplans q hq

theorem turnBoundary_of_known {s : State} (h : s.clp.lastTurn = some s.turn ∨ s.atDropZero = false) : turnBoundary s = s := by
  refine if_pos ?_
  rcases h with h | h
  · exact .inr (.inr (.inl h))
  · exact .inr (.inl (by rw [h]; rfl))

/-- The boundary of a turn at which no turn number waits to be set and no lane change to be made: the turn is noted, the bundles' counts
start anew, and CLP_TURN is posted last. -/
theorem turnBoundary_of_new {s : State} (htick : s.tick % 65536 = 0) (hzero : s.atDropZero = true) (hnew : s.clp.lastTurn ≠ some s.turn)
    (hstage : 2 ≤ s.bup.stage.toNat) (hturns : s.clp.newTurns = []) (hplans : s.Unplanned) :
    ∃ t : State, turnBoundary s = t.postEv 2 cClpTurn none [0, s.turn - 1, s.turn, 0] ∧
      State.PortsPost { s with clp := { s.clp with lastTurn := some s.turn },
                               bundles := Map.mapAll {} (fun b => { b with parity := [] }) s.bundles } t := by
  let u : State := { s with clp := { s.clp with lastTurn := some s.turn } }
  let v := (List.range 20).foldl State.trainPort ((List.range 20).foldl State.laneChanges u)
  have hv : u.PortsPost v := (State.laneChanges_all_of_unplanned (s := u) hplans).trans (.foldl State.portsPost_trainPort _ _)
  let w : State := { v with bundles := Map.mapAll {} (fun b => { b with parity := [] }) v.bundles }
  have hw : w.PortsPost w.refreshSyncs := .foldl State.portsPost_refreshSync _ _
  refine ⟨w.refreshSyncs, ?_, .trans (t := w) ⟨hv.clp, hv.time, hv.cores, hv.mem,
    congrArg (Map.mapAll {} fun b : Bundle => { b with parity := [] }) hv.bundles, hv.events⟩ hw⟩
  have hturn : w.turn = s.turn := by
    unfold State.turn State.tick
    rw [show w.clp = u.clp from hv.clp]
  have hclear : ({ s.clp with newTurns := [] } : Clep) = s.clp := by rw [← hturns]
  unfold turnBoundary
  extract_lets c t1 d t2 t3 t4 t5
  have ht1 : t1 = s := by
    unfold t1
    rw [show c.newTurns = [] from hturns]
    exact congrArg (fun c => { s with clp := c }) hclear
  have ht2 : t2 = u := by
    unfold t2 d
    rw [ht1]
  have ht5 : t5 = w := by
    unfold t5 t4 t3
    rw [ht2]
  rw [if_neg (by simp [c, htick, hzero, hnew, Nat.not_lt.mpr hstage]), ht5, hturn]

/-- Settles O45: a pulse, its absence and a marker by the state they find the clepsydra in, the pull drop by drop, and a turn boundary by its
parts. -/
theorem clepsydra : Obligations.Clepsydra := by
  unfold Obligations.Clepsydra
  intro s c off t e
  have ht : t = s.edgeTick := rfl
  clear_value t
  subst ht c off e
  refine ⟨?masked, ?searching, ?locked, ?misaligned, ?pull, ?known, ?missing, ?marker, ?s2, ?slewed, ?slewing, ?uncertain, ?posted,
    ?sameTurn, ?newTurn⟩
  case masked => exact fun h => ⟨congrArg Host.Outcome.next (cadencePulse_of_masked h), congrArg Host.Outcome.next (turnMarker_of_masked h)⟩
  case searching =>
    intro hmask hlock hmode
    have hpulse := cadencePulse_of_searching hmask (State.s2Watch_of_unlocked hlock) hmode
    have hnoted := State.edgeNoted_of_unlocked hlock
    refine ⟨fun l hlast hnext => ?_, fun hlast => ?_⟩
    · rw [State.edgeRun_of_consecutive hlast hnext] at hpulse hnoted
      rw [hnoted] at hpulse
      exact ⟨fun hfew => congrArg Host.Outcome.next (hpulse.trans (if_neg fun h => absurd h.1 (Nat.not_le.mpr hfew))),
        fun hmany => congrArg Host.Outcome.next (hpulse.trans (if_pos ⟨hmany, by rw [hlock]; rfl⟩))⟩
    · rw [State.edgeRun_of_first hlast] at hpulse hnoted
      rw [hnoted] at hpulse
      exact congrArg Host.Outcome.next (hpulse.trans (if_neg fun h => absurd h.1 (by decide)))
  case locked =>
    intro hmask hlock hmode
    have hpulse := cadencePulse_of_locked hmask (State.s2Watch_of_unlocked hlock) hmode
    rw [State.edgeNoted_of_unlocked hlock] at hpulse
    refine ⟨s.edgeRun, fun hnear hturn => ?_, fun hbad => congrArg Host.Outcome.next (hpulse.trans (if_pos hbad))⟩
    exact congrArg Host.Outcome.next (hpulse.trans (if_neg (not_or.mpr ⟨Nat.not_lt.mpr hnear, hturn⟩)))
  case misaligned =>
    refine fun x => ⟨fun h => State.misaligned_of_apart h x, fun l hbad h => ?_⟩
    rw [State.misaligned_of_consecutive hbad h]
    have hset := s.errorNoted.clp_clpEvent .phaseError cClpPhaseError x
    exact ⟨hset.mode, hset.errors⟩
  case pull => exact fun x hlow _ hslew => s.clp.advances_pull_tick hlow
  case known => exact fun h => congrArg Host.Outcome.next (cadenceMissing_of_known h)
  case missing =>
    intro htick hpulse hmiss d
    have hnew : ¬ (s.tick % 65536 = 0 ∨ s.clp.lastPulse = some s.tick ∨ s.clp.missTick = some s.tick) :=
      not_or.mpr ⟨htick, not_or.mpr ⟨hpulse, hmiss⟩⟩
    refine ⟨fun hmode => congrArg Host.Outcome.next (cadenceMissing_of_searching hnew hmode),
      fun hmode => ⟨fun hfirst => ?_, fun hsecond => ?_⟩⟩
    · exact congrArg Host.Outcome.next ((cadenceMissing_of_following hnew hmode).trans (if_neg (ne_true_of_eq_false hfirst)))
    · exact congrArg Host.Outcome.next ((cadenceMissing_of_following hnew hmode).trans (if_pos hsecond))
  case marker =>
    intro hmask hresyncs hlock hmode hslew u
    have hmarker := turnMarker_of_acquire hmask hresyncs hlock hmode hslew
    exact ⟨fun hnear => congrArg Host.Outcome.next (hmarker.trans (if_pos hnear)),
      fun hfar => congrArg Host.Outcome.next (hmarker.trans (if_neg (Nat.not_le.mpr hfar)))⟩
  case s2 =>
    intro hlock hstage
    refine ⟨fun hmask hearly hmode => ⟨s.edgeRun, ?_⟩, fun hmask hresyncs hpulses hsince => ⟨_, congrArg Host.Outcome.next
      (turnMarker_of_s2 hmask hresyncs (State.s2Watch_of_waiting (by rwa [hpulses])) hlock hpulses), ?_⟩, fun hpulses hlate => ?_,
      fun hpulses hlate => ?_⟩
    · have hwatch : s.s2Watch = s := State.s2Watch_of_waiting (by split <;> omega)
      have hpulse := cadencePulse_of_searching hmask hwatch (.inl hmode)
      rw [State.edgeNoted_of_s2 hlock hstage] at hpulse
      exact congrArg Host.Outcome.next (hpulse.trans (if_neg fun h => absurd h.2 (by rw [hlock]; decide)))
    · have hset := (s.stepBy (-nearest (65536 * 1024) s.edgePos) false).clp_setClp .locked
      refine ⟨by rw [State.mode_s2Ended]; exact hset.mode, rfl, ?_, by rw [State.mem_s2Ended, State.mem_setClp, State.mem_stepBy]⟩
      rw [State.pos_s2Ended, State.pos_setClp, State.pos_stepBy, Int.sub_eq_add_neg]
    · rw [State.s2Watch_of_silent hlock hstage hpulses hlate]
      have hset := s.s2Ended.clp_setClp .freeRun
      exact ⟨hset.mode, hset.s2Lock⟩
    · rw [State.s2Watch_of_unmarked hlock hstage hpulses hlate]
      have hset := s.s2Ended.clp_setClp .phaseError
      exact ⟨hset.mode, hset.s2Lock⟩
  case slewed => exact fun hmode hslewing hslew => congrArg Host.Outcome.next (slewComplete_of_done hmode hslewing hslew)
  case slewing => exact fun h => congrArg Host.Outcome.next (slewComplete_of_going h)
  case uncertain => exact fun hmode hloss hsent hthresh hpast => congrArg Host.Outcome.next (uncertHigh_of_past hmode hloss hsent hthresh hpast)
  case posted => exact fun h => congrArg Host.Outcome.next (uncertHigh_of_sent h)
  case sameTurn => exact fun h => congrArg Host.Outcome.next (turnBoundary_of_known h)
  case newTurn =>
    intro htick hzero hnew hstage hturns hplans
    obtain ⟨u, hboundary, hu⟩ := turnBoundary_of_new htick hzero hnew hstage hturns hplans
    obtain ⟨evs, hevs⟩ := hu.events
    have hbundles : u.bundles = Map.mapAll {} (fun b => { b with parity := [] }) s.bundles := hu.bundles
    have htime : u.time = s.time := hu.time
    have hposted := u.events_postEv 2 cClpTurn none [0, s.turn - 1, s.turn, 0]
    rw [show u.events = s.events ++ evs from hevs, htime, List.append_assoc] at hposted
    refine ⟨_, congrArg Host.Outcome.next hboundary, hu.clp, fun b => ?_, hu.mem, hu.cores, _, hposted, List.getLast?_concat ..⟩
    show (Map.get {} u.bundles b).parity = []
    rw [hbundles, Map.get_mapAll _ _ rfl]

end Sys2Proof.Machine
end

section
/-! PROOFS. What requests leave of the machine when they are answered, performed and served: all but memory with its codewords and pins, the
cores, cisterns, channels and reservoirs it is reached through, the requests themselves, the repair record, what the host is told, and events. -/

namespace Sys2Proof.Machine

/-- A state with everything that requests write taken out. -/
def State.beside (s : State) : State :=
  { s with
    free := 0, mem := [], cw := [], sram := [], cores := [], cisterns := [], chans := [], events := [], rsvs := [], memDone := []
    sluLat := [], brWait := [], reqs := [], arrNo := 0, ingress := [], accs := [], pinInj := [], repairs := [], repDirty := none
    host := {}, hostOut := [] }

@[simp] theorem State.beside_setCore (s : State) (n : Nat) (c : Core) : (s.setCore n c).beside = s.beside := rfl

@[simp] theorem State.beside_setChan (s : State) (k c : Nat) (x : Chan) : (s.setChan k c x).beside = s.beside := rfl

/-! ### Answers (10 R409; 13 R287, R288) -/

@[simp] theorem State.beside_sluLatency (s : State) (m t ns : Nat) : (s.sluLatency m t ns).beside = s.beside := by
  unfold State.sluLatency
  dsimp only
  split <;> rfl

@[simp] theorem State.beside_recordReq (s : State) (w : Who) (i c a : Nat) (bs : List Byte) : (s.recordReq w i c a bs).beside = s.beside := by
  unfold State.recordReq
  split <;> rfl

@[simp] theorem State.beside_barFault (s : State) (c a sub : Nat) : (s.barFault c a sub).beside = s.beside := by
  unfold State.barFault
  dsimp only
  split <;> rfl

@[simp] theorem State.beside_endHostRead (s : State) (h : HostRead) : (s.endHostRead h).beside = s.beside := by
  unfold State.endHostRead
  dsimp only
  split
  · rfl
  · rw [State.beside_barFault]
    split <;> rfl

@[simp] theorem State.beside_hostAnswer (s : State) (r : MemReq) (bs : List Byte) : (s.hostAnswer r bs).beside = s.beside := by
  unfold State.hostAnswer
  split
  · split <;> simp
  · split <;> simp
  · rfl

@[simp] theorem State.beside_finishReq (s : State) (r : MemReq) : (s.finishReq r).beside = s.beside := by
  unfold State.finishReq
  dsimp only
  split
  · exact State.beside_recordReq ..
  · exact State.beside_hostAnswer ..

@[simp] theorem State.beside_measure (s : State) (r : MemReq) (p : ReqPart) : (s.measure r p).1.beside = s.beside :=
  foldl_frame State.beside _ (fun t l => by split <;> simp) _ s

@[simp] theorem State.beside_partDone (s : State) (p : ReqPart) (c a sub : Nat) (bs : List Byte) : (s.partDone p c a sub bs).beside = s.beside := by
  unfold State.partDone
  split
  · rfl
  · dsimp only
    split
    · rw [State.beside_finishReq, State.beside_measure]
    · exact State.beside_measure ..

@[simp] theorem State.beside_answer (s : State) (p : ReqPart) (c a sub : Nat) (bs : List Byte) : (s.answer p c a sub bs).beside = s.beside := by
  unfold State.answer
  dsimp only
  split
  · rfl
  · exact State.beside_partDone ..

@[simp] theorem State.beside_refusePart (s : State) (c sub : Nat) (p : ReqPart) : (s.refusePart c sub p).beside = s.beside := s.beside_answer ..

@[simp] theorem State.beside_channelBusy (s : State) (k sub : Nat) (p : ReqPart) : (s.channelBusy k sub p).beside = s.beside :=
  State.beside_refusePart _ _ sub p

/-! ### Reads and writes at their target (03 R62; 06 R134, R142; 07 R158, R165) -/

@[simp] theorem State.beside_cistDecode (s : State) (n x : Nat) (e : List Nat) : (s.cistDecode n x e).1.beside = s.beside := by
  unfold State.cistDecode State.cistDecodeN
  exact foldl_frame State.beside _ (fun t p => by rfl) _ _

@[simp] theorem State.beside_rsvDecode (s : State) (k x : Nat) (e : List Nat) : (s.rsvDecode k x e).1.beside = s.beside := by
  unfold State.rsvDecode State.rsvDecodeN
  exact foldl_frame State.beside _ (fun t p => by rfl) _ _

section
variable {dec : State → Nat → State × CwOut} (hdec : ∀ t x, (dec t x).1.beside = t.beside)
include hdec

theorem State.beside_readCws (s : State) (x n : Nat) (u : Bool) : (s.readCws dec x n u).1.beside = s.beside := by
  unfold State.readCws
  extract_lets r
  have hr : r.1.beside = s.beside := foldl_frame_fst State.beside _ (fun a p => by dsimp only; split <;> exact hdec ..) _ _
  split <;> exact hr

theorem State.beside_fillCws (s : State) (at_ : Nat → Nat × Nat) (ws : List (Nat × List Byte)) : (s.fillCws dec at_ ws).1.beside = s.beside :=
  foldl_frame_fst State.beside _ (fun a w => by
    dsimp only
    split
    · rfl
    · split <;> exact hdec ..) _ _

theorem State.beside_writeCws (s : State) (at_ : Nat → Nat × Nat) (ws : List (Nat × List Byte)) : (s.writeCws dec at_ ws).1.beside = s.beside := by
  unfold State.writeCws
  dsimp only
  split
  · exact s.beside_fillCws hdec ..
  · exact (foldl_frame State.beside _ (fun t w => by rfl) _ _).trans (s.beside_fillCws hdec ..)

end

theorem beside_readRuns {one : State → Nat × Nat → State × Except Nat (List Byte)} (hone : ∀ t p, (one t p).1.beside = t.beside) (s : State)
    (runs : List (Nat × Nat)) : (readRuns one s runs).1.beside = s.beside := by
  unfold readRuns
  extract_lets r
  have hr : r.1.beside = s.beside := foldl_frame_fst State.beside _ (fun a p => by dsimp only; split <;> exact hone ..) _ _
  split <;> exact hr

@[simp] theorem State.beside_readAt (s : State) (runs : List (Nat × Nat)) : (s.readAt runs).1.beside = s.beside := by
  unfold State.readAt
  dsimp only
  split
  · rfl
  · rfl
  · exact beside_readRuns (fun t p => by rfl) _ _
  · exact beside_readRuns (fun t p => by rfl) _ _
  · split
    · rfl
    · split
      · rfl
      · exact beside_readRuns (fun t p => State.beside_readCws (fun u y => u.beside_cistDecode ..) ..) _ _
  · split
    · rfl
    · split
      · rfl
      · refine beside_readRuns (fun t p => ?_) _ _
        dsimp only
        exact State.beside_readCws (dec := fun u y => u.rsvDecode _ y []) (fun u y => u.beside_rsvDecode _ y []) t _ _ _

@[simp] theorem State.beside_writeSram (s : State) (key : Nat) (bs : List Byte) : (s.writeSram key bs).1.beside = s.beside :=
  foldl_frame_fst State.beside _ (fun a p => by
    dsimp only
    split
    · rfl
    · split <;> rfl) _ _

@[simp] theorem State.beside_writeAt (s : State) (runs : List (Nat × Nat)) (bs : List Byte) : (s.writeAt runs bs).1.beside = s.beside := by
  unfold State.writeAt
  dsimp only
  split
  · rfl
  · rfl
  · exact foldl_frame_fst State.beside _ (fun a w => by rw [State.beside_setCore, State.beside_writeSram]) _ _
  · exact foldl_frame_fst State.beside _ (fun a w => by rw [State.beside_setCore, State.beside_writeSram]) _ _
  · split
    · rfl
    · split
      · rfl
      · exact State.beside_writeCws (fun t y => t.beside_cistDecode ..) ..
  · split
    · rfl
    · split
      · rfl
      · exact State.beside_writeCws (fun t y => t.beside_rsvDecode ..) ..

theorem State.beside_perform {s t : State} {p : ReqPart} (h : s.perform p = some t) : t.beside = s.beside := by
  have ho : (if p.wr then s.writeAt p.runs p.data else s.readAt p.runs).1.beside = s.beside := by split <;> simp
  unfold State.perform at h
  dsimp only at h
  split at h
  · cases h
    rw [State.beside_answer, ← ho]
    exact foldl_frame State.beside _ (fun t a => by rfl) _ _
  · cases h
    rw [State.beside_answer, ho]
  · cases h

theorem State.beside_performD (s : State) (p : ReqPart) : ((s.perform p).getD s).beside = s.beside := by
  cases h : s.perform p with
  | none => rfl
  | some t => exact State.beside_perform h

/-! ### Parts that arrive (03 R61; 06 R134, R141; 07 R162) -/

@[simp] theorem State.beside_serveN (s : State) (k c fuel : Nat) : (s.serveN k c fuel).beside = s.beside := by
  induction fuel generalizing s with
  | zero => rfl
  | succ fuel ih =>
    unfold State.serveN
    dsimp only
    split
    · rfl
    · split
      · split
        · split
          · rw [ih, State.beside_channelBusy, State.beside_setChan]
          · split
            · next t ht => rw [ih, State.beside_setChan, State.beside_perform ht, State.beside_setChan]
            · rfl
        · rfl
      · rfl

@[simp] theorem State.beside_memoryMode (s : State) (k c : Nat) : (s.memoryMode k c).beside = s.beside := State.beside_serveN ..

@[simp] theorem State.beside_arbitrate (s : State) (k c : Nat) (r : ReqPart) : (s.arbitrate k c r).beside = s.beside := by
  unfold State.arbitrate
  dsimp only
  split
  · split
    · next t ht => exact State.beside_perform ht
    · rfl
  · split
    · exact State.beside_channelBusy ..
    · exact State.beside_serveN ..

@[simp] theorem State.beside_atSub (s : State) (n l : Nat) (r : ReqPart) : (s.atSub n l r).beside = s.beside := by
  unfold State.atSub
  dsimp only
  split
  · exact State.beside_refusePart ..
  · split
    · rfl
    · split
      · rfl
      · exact s.beside_performD r

@[simp] theorem State.beside_serveWord (s : State) (n seq ma len : Nat) : (s.serveWord n seq ma len).beside = s.beside := by
  unfold State.serveWord
  split
  · rfl
  · next x _ =>
    extract_lets key count w rd r part y t done
    have hr : r.1.beside = s.beside := by
      unfold r
      split
      · exact s.beside_writeSram key (x.p.bytesAt ma len)
      · rfl
    split
    · split <;> exact (State.beside_answer ..).trans hr
    · exact hr

@[simp] theorem State.beside_atPad (s : State) (n : Nat) (p : ReqPart) : (s.atPad n p).beside = s.beside := by
  unfold State.atPad
  extract_lets c ws t
  split
  · exact foldl_frame State.beside _ (fun u w => u.beside_serveWord ..) ws t
  · rfl

@[simp] theorem State.beside_arrive (s : State) (p : ReqPart) : (s.arrive p).beside = s.beside := by
  unfold State.arrive
  extract_lets q t
  have ht : t.beside = s.beside := by
    unfold t
    split <;> rfl
  clear_value t
  split
  · exact (State.beside_atSub ..).trans ht
  · exact (State.beside_arbitrate ..).trans ht
  · exact (State.beside_atPad ..).trans ht
  · exact (State.beside_atPad ..).trans ht
  · exact (t.beside_performD q).trans ht

@[simp] theorem State.beside_again (s : State) (rs : List ReqPart) : (s.again rs).beside = s.beside :=
  foldl_frame State.beside _ (fun t p => t.beside_arrive p) rs s

/-- A write hold released performs what it held (06 R149). -/
@[simp] theorem State.beside_releaseHold (s : State) (n l : Nat) : (s.releaseHold n l).beside = s.beside := State.beside_again ..

end Sys2Proof.Machine
end

section
/-! PROOFS. O52: how injections are checked, applied and ended (17 R385 to R388, Table ERR-6). -/

namespace Sys2Proof.Machine

/-! ### A lane declared failed (12 R257) -/

/-- What declaring a lane failed leaves of all but the ports and the repair record, and what it writes of the port. -/
structure State.LaneDeclared (s u : State) (p l : Nat) : Prop where
  wh : u.wh = s.wh
  cw : u.cw = s.cw
  events : ∃ evs, u.events = s.events ++ evs
  failed : (u.lport p).rxFailed.toNat.testBit l = true

theorem testBit_or_pow {l : Nat} (hl : l < 22) (x : BitVec 22) : (x ||| BitVec.ofNat 22 (2 ^ l)).toNat.testBit l = true := by
  have hpow : 2 ^ l % 2 ^ 22 = 2 ^ l := Nat.mod_eq_of_lt (Nat.pow_lt_pow_right (by decide) hl)
  rw [BitVec.toNat_or, BitVec.toNat_ofNat, hpow, Nat.testBit_or, Nat.testBit_two_pow_self, Bool.or_true]

theorem State.laneDeclared_declareLane (s : State) (p : Nat) {l : Nat} (hl : l < 22) : s.LaneDeclared (s.declareLane p l) p l := by
  unfold State.declareLane
  extract_lets x failed s1 s2 cur map plan
  have hdone : s.LaneDeclared s2 p l :=
    ⟨rfl, rfl, ⟨_, rfl⟩, (congrArg (fun y => y.rxFailed.toNat.testBit l) (s.lport_setPort p _)).trans (testBit_or_pow hl x.rxFailed)⟩
  split
  · next h => exact ⟨rfl, rfl, ⟨[], (List.append_nil _).symm⟩, h.resolve_right (by omega)⟩
  · split
    · exact hdone
    · refine ⟨hdone.wh, hdone.cw, hdone.events, ?_⟩
      unfold State.sendMsg
      rw [State.lport_setPort, State.lport_setPort]
      exact hdone.failed

/-! ### The end of an injection (17 R387, R388) -/

theorem State.bundle_setBundle (s : State) (d b : Nat) (x : Bundle) : (s.setBundle d b x).bundle d b = x := Map.get_set_same ..

theorem State.wh_memoryMode (s : State) (k c : Nat) : (s.memoryMode k c).wh = s.wh :=
  show (s.memoryMode k c).beside.wh = s.beside.wh from congrArg State.wh (s.beside_memoryMode k c)

theorem State.wh_releaseHold (s : State) (n l : Nat) : (s.releaseHold n l).wh = s.wh :=
  show (s.releaseHold n l).beside.wh = s.beside.wh from congrArg State.wh (s.beside_releaseHold n l)

/-- The end of a channel hold that has run out gives the channel back to memory (07 R163). -/
theorem State.endInj_of_hold {s : State} {i : Inj} (hty : i.ty = 5) (hover : s.injOver i = true) :
    s.endInj i = s.memoryMode (i.w1 % 8) (bitsOf i.w1 8 5) := by
  obtain ⟨sq, cid, ty, w1, w2, pos, applied, stop⟩ := i
  cases hty
  cases applied with
  | none => exact absurd hover Bool.false_ne_true
  | some n =>
    have hcur : (s.chan (w1 % 8) (bitsOf w1 8 5)).current = some (.hold n) := eq_of_beq (Bool.and_eq_true_iff.mp hover).1
    exact if_pos hcur

theorem State.wh_endInj {s : State} {i : Inj} (hover : s.injOver i = true) : (s.endInj i).wh = s.wh := by
  by_cases hhold : i.ty = 5
  · rw [State.endInj_of_hold hhold hover, State.wh_memoryMode]
  · unfold State.endInj
    split
    case h_2 h => exact absurd h hhold
    case h_3 =>
      dsimp only
      split
      · rfl
      · exact s.wh_releaseHold ..
    all_goals rfl

/-- An applied injection without what it does: out of the list of those in effect. -/
def State.dropInj (s : State) (i : Inj) : State := { s with wh := { s.wh with injs := s.wh.injs.erase i } }

section
variable {s : State} {n : Nat} {i : Inj} (h : (s.wh.injs.find? fun i => i.applied == some n) = some i)
include h

theorem injectionEnd_of_going (hover : s.injOver i = false) : injectionEnd s n = s := by
  unfold injectionEnd
  rw [h]
  exact if_neg (by simp [hover])

theorem injectionEnd_of_over (hover : s.injOver i = true) : injectionEnd s n = (s.dropInj i).endInj i := by
  unfold injectionEnd
  rw [h]
  exact if_pos hover

end

/-! ### The one that comes first (17 R388) -/

/-- Where a pending injection stands in the order of application: how far ahead its position lies, 0 for one applied at once. -/
def State.injPlace (s : State) (i : Inj) : Int := if i.pos = 0 then 0 else s.ahead i.pos

/-- The earlier of two, the first of them where they stand alike. -/
def State.earlierInj (s : State) (best : Option Inj) (i : Inj) : Option Inj :=
  match best with
  | none => some i
  | some b => if s.injPlace i < s.injPlace b then some i else some b

theorem State.nextInj_eq (s : State) :
    s.nextInj = (s.wh.injs.filter fun i => i.applied.isNone && s.injDue i).foldl s.earlierInj none := rfl

/-- The earliest of a list is one of the list, or the one it was compared with, and stands behind none of them. -/
theorem State.foldl_earlierInj (s : State) (l : List Inj) (b i : Inj) (h : l.foldl s.earlierInj (some b) = some i) :
    i ∈ b :: l ∧ ∀ j ∈ b :: l, s.injPlace i ≤ s.injPlace j := by
  induction l generalizing b with
  | nil =>
    cases h
    exact ⟨List.mem_singleton_self _, fun j hj => by rw [List.mem_singleton.mp hj]⟩
  | cons a l ih =>
    rw [List.foldl_cons] at h
    unfold State.earlierInj at h
    dsimp only at h
    split at h
    · next hlt =>
      obtain ⟨hmem, hle⟩ := ih a h
      refine ⟨List.mem_cons_of_mem b hmem, fun j hj => ?_⟩
      rcases List.mem_cons.mp hj with rfl | hj
      · exact (hle a List.mem_cons_self).trans hlt.le
      · exact hle j hj
    · next hge =>
      obtain ⟨hmem, hle⟩ := ih b h
      refine ⟨?_, fun j hj => ?_⟩
      · rcases List.mem_cons.mp hmem with rfl | hmem
        · exact List.mem_cons_self
        · exact List.mem_cons_of_mem b (List.mem_cons_of_mem a hmem)
      · rcases List.mem_cons.mp hj with rfl | hj
        · exact hle j List.mem_cons_self
        · rcases List.mem_cons.mp hj with rfl | hj
          · exact (hle b List.mem_cons_self).trans (not_lt.mp hge)
          · exact hle j (List.mem_cons_of_mem b hj)

theorem State.nextInj_spec {s : State} {i : Inj} (h : s.nextInj = some i) :
    (i ∈ s.wh.injs ∧ i.applied = none ∧ s.injDue i = true) ∧
    ∀ j ∈ s.wh.injs, j.applied = none → s.injDue j = true → s.injPlace i ≤ s.injPlace j := by
  rw [State.nextInj_eq] at h
  have hmem (j : Inj) : j ∈ s.wh.injs.filter (fun i => i.applied.isNone && s.injDue i) ↔
      j ∈ s.wh.injs ∧ j.applied = none ∧ s.injDue j = true := by simp [List.mem_filter]
  generalize (s.wh.injs.filter fun i => i.applied.isNone && s.injDue i) = l at h hmem
  cases l with
  | nil => cases h
  | cons b l =>
    obtain ⟨hin, hle⟩ := s.foldl_earlierInj l b i h
    exact ⟨(hmem i).mp hin, fun j hj hn hd => hle j ((hmem j).mpr ⟨hj, hn, hd⟩)⟩

theorem injectionApply_of_none {s : State} (h : s.nextInj = none) : injectionApply s = s := by
  unfold injectionApply
  rw [h]

theorem injectionApply_of_next {s : State} {i : Inj} (h : s.nextInj = some i) : injectionApply s = (s.applyInj i).getD s := by
  unfold injectionApply
  rw [h]

/-! ### The checks of an INJECT (17 R385, R386) -/

theorem State.refusal_of_disabled {s : State} {c : WcsCmd} (hserving : s.serving = true) (hop : c.opc = 0x2B) (hen : s.wh.injEn = false) :
    s.refusal c = some stBadOpcode := by
  unfold State.refusal
  rw [hserving, hop, hen]
  rfl

/-- A codeword or word that exists is of the kind its type takes (17 Table ERR-6). -/
theorem State.injKind_of_exists {s : State} {ty w1 : Nat} (hlow : 1 ≤ ty) (hty : ty ≤ 3) (h : s.injExists ty w1 = true) :
    s.injKind ty w1 = true := by
  unfold State.injExists at h
  unfold State.injKind
  obtain rfl | rfl | rfl : ty = 1 ∨ ty = 2 ∨ ty = 3 := by omega
  all_goals
    cases hres : s.resolve w1 <;> simp_all

end Sys2Proof.Machine
end

section
/-! PROOFS. O52: what an injection does where it is applied (17 R387, Table ERR-6). -/

namespace Sys2Proof.Machine

/-- `u` is `s` with the effect of injection `i`, of number `no`, by its type. Each type's own field is the only one it has to fill in. -/
structure State.Injected (s u : State) (i : Inj) (no : Nat) : Prop where
  wh : u.wh = s.wh
  events : ∃ evs, u.events = s.events ++ evs
  mem : i.ty ≠ 2 → u.mem = s.mem := by exact fun _ => rfl
  cw : 3 ≤ i.ty → u.cw = s.cw := by exact fun _ => rfl
  cwSymbols : i.ty = 1 → u.cw = Map.set {} s.cw ((s.resolve i.w1).key / 64)
    ((Map.get {} s.cw ((s.resolve i.w1).key / 64)).flip (i.w2 % 128) (bitsOf i.w2 8 4) (bitsOf i.w2 16 8)) := by nofun
  cwPoison : i.ty = 2 → u.mem = (s.putPoison (s.resolve i.w1).key).mem ∧ u.cw = (s.putPoison (s.resolve i.w1).key).cw := by nofun
  sramBits : i.ty = 3 → Map.get 0 u.sram ((s.resolve i.w1).key / 8) = Map.get 0 s.sram ((s.resolve i.w1).key / 8) ^^^
    (BitVec.ofNat 72 (2 ^ (i.w2 % 128)) ^^^ (if bitsOf i.w2 8 7 = 0x7F then 0 else BitVec.ofNat 72 (2 ^ bitsOf i.w2 8 7))) := by nofun
  pinErrors : i.ty = 4 → u.pinInj = s.pinInj ++ [((s.injPin i.w1).1, (s.injPin i.w1).2, i.w2 % 65536)] := by nofun
  channelHold : i.ty = 5 → (u.chan (i.w1 % 8) (bitsOf i.w1 8 5)).ops =
    orderIn { cycle := nsIn s.time, rank := 128, item := .hold no } (s.chan (i.w1 % 8) (bitsOf i.w1 8 5)).ops := by nofun
  writeHold : i.ty = 6 → (u.sub (i.w1 % 512) (bitsOf i.w1 16 2)).whold = true := by nofun
  cellDrop : i.ty = 7 → (u.lport (i.w1 % 32)).dropCells = i.w2 % 65536 := by nofun
  laneFail : i.ty = 8 → (u.lport (i.w1 % 32)).rxFailed.toNat.testBit (bitsOf i.w1 8 5) = true := by nofun
  frameSilence : i.ty = 9 → (u.lport (i.w1 % 32)).silentTo = some (s.tick + i.w2 % 65536) := by nofun
  flitCrc : i.ty = 10 → (u.bundle (i.w1 % 2) (bitsOf i.w1 1 6)).inject = i.w2 % 128 := by nofun
  sensorFirst : i.ty = 11 → i.w1.testBit 9 = false →
    (u.site (i.w1 % 512)).off0 = signedOf 16 (i.w2 % 65536) ∧ (u.site (i.w1 % 512)).offN0 = bitsOf i.w2 32 16 := by nofun
  sensorSecond : i.ty = 11 → i.w1.testBit 9 = true →
    (u.site (i.w1 % 512)).off1 = signedOf 16 (i.w2 % 65536) ∧ (u.site (i.w1 % 512)).offN1 = bitsOf i.w2 32 16 := by nofun
  cadenceMask : i.ty = 12 → u.clp.masked = true := by nofun

/-- An injection whose codeword's writes let it in takes its effect (17 R387). -/
theorem State.injected_injEffect (s : State) {i : Inj} {row : BitVec 4 → BitVec 16 → Instr} (no : Nat) (hrow : InjRow i.ty row)
    (hwait : i.ty ≤ 2 → s.cwWaits i.w1 = false) (hlane : i.ty = 8 → bitsOf i.w1 8 5 < 22) :
    ∃ u, s.injEffect i no = some u ∧ s.Injected u i no := by
  obtain ⟨sq, cid, ty, w1, w2, pos, applied, stop⟩ := i
  have hsame : ∃ evs, s.events = s.events ++ evs := ⟨[], (List.append_nil _).symm⟩
  cases hrow with
  | cwSymbols => exact ⟨_, if_neg (by simp [hwait]), { wh := rfl, events := hsame, cw := nofun, cwSymbols := fun _ => rfl }⟩
  | cwPoison =>
    exact ⟨_, if_neg (by simp [hwait]),
      { wh := rfl, events := hsame, mem := fun h => absurd rfl h, cw := nofun, cwPoison := fun _ => ⟨rfl, rfl⟩ }⟩
  | sramBits => exact ⟨_, rfl, { wh := rfl, events := hsame, sramBits := fun _ => Map.get_set_same .. }⟩
  | pinErrors => exact ⟨_, rfl, { wh := rfl, events := hsame, pinErrors := fun _ => rfl }⟩
  | channelHold => exact ⟨_, rfl, { wh := rfl, events := hsame, channelHold := fun _ => s.ops_order .. }⟩
  | writeHold => exact ⟨_, rfl, { wh := rfl, events := hsame, writeHold := fun _ => congrArg SubCh.whold (s.sub_setSub_same ..) }⟩
  | cellDrop => exact ⟨_, rfl, { wh := rfl, events := hsame, cellDrop := fun _ => congrArg Port.dropCells (s.lport_setPort ..) }⟩
  | laneFail =>
    have h := s.laneDeclared_declareLane (w1 % 32) (hlane rfl)
    exact ⟨_, rfl, { wh := h.wh, events := h.events, mem := fun _ => s.mem_declareLane .., cw := fun _ => h.cw, laneFail := fun _ => h.failed }⟩
  | frameSilence => exact ⟨_, rfl, { wh := rfl, events := hsame, frameSilence := fun _ => congrArg Port.silentTo (s.lport_setPort ..) }⟩
  | flitCrc => exact ⟨_, rfl, { wh := rfl, events := hsame, flitCrc := fun _ => congrArg Bundle.inject (s.bundle_setBundle ..) }⟩
  | sensorOffset =>
    refine ⟨_, rfl, { wh := rfl, events := hsame, sensorFirst := fun _ hbit => ?_, sensorSecond := fun _ hbit => ?_ }⟩
    · rw [State.site_setSite_same, if_neg (by simpa using hbit)]
      exact ⟨rfl, rfl⟩
    · rw [State.site_setSite_same, if_pos hbit]
      exact ⟨rfl, rfl⟩
  | cadenceMask => exact ⟨_, rfl, { wh := rfl, events := hsame, cadenceMask := fun _ => rfl }⟩

end Sys2Proof.Machine
end

section
/-! PROOFS. O52 settled: the checks of an INJECT in their order, and an injection applied at once or held (17 R385, R386). -/

namespace Sys2Proof.Machine

/-! ### Applied at once or held -/

/-- The state an injection takes its effect in: counted, announced, and among those in effect unless its effect is done at once. -/
def State.announceInj (s : State) (i : Inj) : State :=
  let no := (satAdd s.wh.injCount 1).toNat
  let j : Inj := { i with applied := some no, stop := s.tick + if i.ty = 12 then i.w2 % 2 ^ 20 else i.w2 % 65536 }
  let injs := if i.ty ≤ 3 ∨ i.ty = 8 then s.wh.injs.erase i else s.wh.injs.map fun x => if x = i then j else x
  ({ s with wh := { s.wh with injs := injs, injCount := satAdd s.wh.injCount 1 } } : State).postEv 14 cWhdInjected none [i.ty, i.w1, i.w2, no]

theorem State.applyInj_eq (s : State) (i : Inj) :
    s.applyInj i = ((s.announceInj i).injEffect i (satAdd s.wh.injCount 1).toNat).map
      fun u => u.complete i.sq i.cid 0 0 [(satAdd s.wh.injCount 1).toNat] := rfl

/-- A write that its codeword does not let in waits (06 R134, R149; 07 R162). -/
theorem State.applyInj_of_waiting {s : State} {i : Inj} (hty : i.ty = 1 ∨ i.ty = 2) (h : s.cwWaits i.w1 = true) : s.applyInj i = none := by
  obtain ⟨sq, cid, ty, w1, w2, pos, applied, stop⟩ := i
  rw [State.applyInj_eq, Option.map_eq_none_iff]
  rcases hty with hty | hty <;> cases hty <;> exact if_pos h

/-- An injection that joins the pending ones. -/
def State.enterInj (s : State) (i : Inj) : State := { s with wh := { s.wh with injs := s.wh.injs ++ [i] } }

/-- A legal injection taken: one that is late is counted, one that is due is applied if it does not have to wait. -/
def State.placeInj (s : State) (i : Inj) : State :=
  let late := decide (i.pos ≠ 0) && decide (s.ahead i.pos ≤ 0)
  let s1 : State := { s with wh := { s.wh with injs := s.wh.injs ++ [i] },
                             clp := if late then { s.clp with late := satAdd s.clp.late 1 } else s.clp }
  if s1.injDue i then (s1.applyInj i).getD s1 else s1

theorem State.placeInj_of_ahead {s : State} {i : Inj} (hpos : i.pos ≠ 0) (hahead : 0 < s.ahead i.pos) : s.placeInj i = s.enterInj i := by
  have hnot : decide (s.ahead i.pos ≤ 0) = false := decide_eq_false (not_le.mpr hahead)
  have hdue : (s.enterInj i).injDue i = false := by
    unfold State.injDue
    rw [show (s.enterInj i).ahead i.pos = s.ahead i.pos from rfl, hnot]
    simpa using hpos
  unfold State.placeInj
  rw [hnot, Bool.and_false]
  exact if_neg (Bool.eq_false_iff.mp hdue)

theorem State.placeInj_of_now {s : State} {i : Inj} (hpos : i.pos = 0) :
    s.placeInj i = ((s.enterInj i).applyInj i).getD (s.enterInj i) := by
  have hlate : decide (i.pos ≠ 0) = false := decide_eq_false (not_not_intro hpos)
  have hdue : (s.enterInj i).injDue i = true := by
    unfold State.injDue
    rw [hpos]
    rfl
  unfold State.placeInj
  rw [hlate, Bool.false_and]
  exact if_pos hdue

/-! ### The checks in their order -/

/-- The injection an INJECT asks for. -/
def WcsCmd.inj (c : WcsCmd) (ty : Nat) : Inj :=
  { sq := c.sq, cid := c.cid, ty := ty, w1 := if ty ≤ 3 then c.ma 1 else c.arg 1, w2 := c.arg 2, pos := c.arg 3 % 2 ^ 58,
    applied := none, stop := 0 }

/-- An injection in effect takes the target another of its type asks for. -/
def State.injTakes (s : State) (i x : Inj) : Bool :=
  x.ty == i.ty && x.applied.isSome && injTarget i.ty x.w1 == injTarget i.ty i.w1 && !s.injOver x

theorem State.injTakes_iff (s : State) (i x : Inj) :
    s.injTakes i x = true ↔ x.ty = i.ty ∧ x.applied ≠ none ∧ injTarget i.ty x.w1 = injTarget i.ty i.w1 ∧ s.injOver x = false := by
  simp [State.injTakes, Option.isSome_iff_ne_none, and_assoc]

section
variable {t : State} {c : WcsCmd} {ty : Nat} (hty : c.arg 0 % 256 = ty)
include hty

theorem cmdInject_of_otherKind (hlow : ty ≤ 3) (hkind : t.injKind ty (c.inj ty).w1 = false) : cmdInject ty t c = some (t.ends c stBadArg) := by
  have hk : ty ≤ 3 ∧ (!t.injKind ty (c.inj ty).w1) = true := ⟨hlow, by rw [hkind]; rfl⟩
  unfold cmdInject
  extract_lets w1 w2 pos i same
  exact (if_neg (not_not_intro hty)).trans (if_pos hk)

/-- An INJECT of the right kind of target goes by its target, its parameter, its position, the number pending and those in effect. -/
theorem cmdInject_of_kind (hkind : ty ≤ 3 → t.injKind ty (c.inj ty).w1 = true) :
    let i := c.inj ty
    cmdInject ty t c =
      if !t.injExists ty i.w1 then some (t.ends c stNoObject)
      else if !t.injParam ty i.w1 i.w2 then some (t.ends c stBadArg)
      else if i.pos ≠ 0 ∧ ((t.horizon * 1024 : Nat) : Int) < t.ahead i.pos then some (t.complete c.sq c.cid stBadArg cClpBeyondTurn [])
      else if 16 ≤ t.injPending then some (t.ends c stNoResource)
      else if t.wh.injs.any (t.injTakes i) then some (t.ends c stBusy)
      else some (t.placeInj i) := by
  have hk : ¬ (ty ≤ 3 ∧ (!t.injKind ty (c.inj ty).w1) = true) := fun h => by simp [hkind h.1] at h
  exact (if_neg (not_not_intro hty)).trans (if_neg hk)

theorem cmdInject_of_missing (hkind : ty ≤ 3 → t.injKind ty (c.inj ty).w1 = true) (h : t.injExists ty (c.inj ty).w1 = false) :
    cmdInject ty t c = some (t.ends c stNoObject) := by
  rw [cmdInject_of_kind hty hkind, if_pos (by rw [h]; rfl)]

section
variable (hlow : 1 ≤ ty) (hexists : t.injExists ty (c.inj ty).w1 = true)
include hlow hexists

theorem cmdInject_of_badParam (h : t.injParam ty (c.inj ty).w1 (c.inj ty).w2 = false) : cmdInject ty t c = some (t.ends c stBadArg) := by
  have hthere : ¬ (!t.injExists ty (c.inj ty).w1) = true := by rw [hexists]; decide
  rw [cmdInject_of_kind hty (fun hhigh => State.injKind_of_exists hlow hhigh hexists), if_neg hthere, if_pos (by rw [h]; rfl)]

theorem cmdInject_of_legal (hparam : t.injParam ty (c.inj ty).w1 (c.inj ty).w2 = true) :
    let i := c.inj ty
    cmdInject ty t c =
      if i.pos ≠ 0 ∧ ((t.horizon * 1024 : Nat) : Int) < t.ahead i.pos then some (t.complete c.sq c.cid stBadArg cClpBeyondTurn [])
      else if 16 ≤ t.injPending then some (t.ends c stNoResource)
      else if t.wh.injs.any (t.injTakes i) then some (t.ends c stBusy)
      else some (t.placeInj i) := by
  have hthere : ¬ (!t.injExists ty (c.inj ty).w1) = true := by rw [hexists]; decide
  have hfits : ¬ (!t.injParam ty (c.inj ty).w1 (c.inj ty).w2) = true := by rw [hparam]; decide
  rw [cmdInject_of_kind hty (fun hhigh => State.injKind_of_exists hlow hhigh hexists), if_neg hthere, if_neg hfits]

end

end

/-! ### The rows -/

theorem InjRow.bounds {ty : Nat} {row : BitVec 4 → BitVec 16 → Instr} (h : InjRow ty row) : 1 ≤ ty ∧ ty ≤ 12 := by
  cases h <;> decide

theorem InjRow.exec_eq {ty : Nat} {row : BitVec 4 → BitVec 16 → Instr} (h : InjRow ty row) (s : State) (sq : BitVec 4) (cid : BitVec 16) :
    exec (row sq cid) s = .next (s.wcsRow sq.toNat cid.toNat 0x2B false (cmdInject ty)) := by
  cases h <;> rfl

/-- What INJECT does where it is started in its turn is what its row answers. -/
theorem InjRow.answers {ty : Nat} {row : BitVec 4 → BitVec 16 → Instr} (h : InjRow ty row) {s t u : State} {sq : BitVec 4} {cid : BitVec 16}
    {c : WcsCmd} (hs : s.Starts sq cid 0x2B c t) (hdoes : cmdInject ty t c = some u) : rowAnswers (row sq cid) s u :=
  hs.answers (h.exec_eq s sq cid) nofun hdoes

theorem State.lane_of_exists {s : State} {w1 : Nat} (h : s.injExists 8 w1 = true) : bitsOf w1 8 5 < 22 :=
  of_decide_eq_true (Bool.and_eq_true_iff.mp h).2

/-- An injection at position 0 that does not wait is applied: announced, then in effect, with its command completed (17 R386, R387). -/
theorem State.placeInj_of_applied (t : State) {i : Inj} {row : BitVec 4 → BitVec 16 → Instr} (hrow : InjRow i.ty row) (hpos : i.pos = 0)
    (hexists : t.injExists i.ty i.w1 = true) (hwait : i.ty ≤ 2 → t.cwWaits i.w1 = false) :
    let no := (satAdd t.wh.injCount 1).toNat
    ∃ u, t.placeInj i = u.complete i.sq i.cid 0 0 [no] ∧ ((t.enterInj i).announceInj i).Injected u i no := by
  obtain ⟨u, heffect, hu⟩ := ((t.enterInj i).announceInj i).injected_injEffect (satAdd t.wh.injCount 1).toNat hrow hwait
    (fun h8 => State.lane_of_exists (h8 ▸ hexists))
  have happly : (t.enterInj i).applyInj i = some (u.complete i.sq i.cid 0 0 [(satAdd t.wh.injCount 1).toNat]) :=
    ((t.enterInj i).applyInj_eq i).trans (congrArg (Option.map _) heffect)
  exact ⟨u, by rw [State.placeInj_of_now hpos, happly]; rfl, hu⟩

theorem State.placeInj_of_waiting {t : State} {i : Inj} (hty : i.ty = 1 ∨ i.ty = 2) (hpos : i.pos = 0) (h : t.cwWaits i.w1 = true) :
    t.placeInj i = t.enterInj i := by
  rw [State.placeInj_of_now hpos, State.applyInj_of_waiting (s := t.enterInj i) hty h]
  rfl

theorem State.events_announceInj (s : State) (i : Inj) :
    (s.announceInj i).events = s.events ++
      [{ post := s.time, src := 14, audits := []
         body := .ev cWhdInjected none ([i.ty, i.w1, i.w2, (satAdd s.wh.injCount 1).toNat].map (BitVec.ofNat 64)) }] := rfl

theorem injectionEnd_takesAway {s : State} {n : Nat} {i : Inj} (h : (s.wh.injs.find? fun i => i.applied == some n) = some i)
    (hover : s.injOver i = true) :
    let u := injectionEnd s n
    u.wh.injs = s.wh.injs.erase i ∧
      (i.ty = 7 → (u.lport (i.w1 % 32)).dropCells = 0) ∧ (i.ty = 9 → (u.lport (i.w1 % 32)).silentTo = none) ∧
      (i.ty = 10 → (u.bundle (i.w1 % 2) (bitsOf i.w1 1 6)).inject = 0) ∧ (i.ty = 12 → u.clp.masked = false) ∧
      (i.ty = 4 → ∀ p ∈ u.pinInj, (p.1, p.2.1) ≠ s.injPin i.w1) := by
  intro u
  have hu : u = (s.dropInj i).endInj i := injectionEnd_of_over h hover
  clear_value u
  refine ⟨?_, fun hty => ?_, fun hty => ?_, fun hty => ?_, fun hty => ?_, fun hty p hp => ?_⟩
  · rw [hu, State.wh_endInj (s := s.dropInj i) hover]
    rfl
  all_goals
    unfold State.endInj at hu
    rw [hty] at hu
    subst hu
  · exact congrArg Port.dropCells (State.lport_setPort ..)
  · exact congrArg Port.silentTo (State.lport_setPort ..)
  · exact congrArg Bundle.inject (State.bundle_setBundle ..)
  · rfl
  · exact bne_iff_ne.mp (List.mem_filter.mp hp).2

/-- Settles O52: the checks in their order, an injection held or applied, the first in the order of application, and the end of one. -/
theorem injections : Obligations.Injections := by
  unfold Obligations.Injections
  refine ⟨fun s c hserving hop hen => State.refusal_of_disabled hserving hop hen, ?_, fun s => ⟨fun hnone => ?_, fun i hnext => ?_⟩,
    fun s n i hfind => ⟨fun hover => ?_, fun hover => ?_⟩⟩
  · intro s t sq cid c ty row hrow hs hty w1 w2 lo pos i same held far
    have hanswers {u : State} (h : cmdInject ty t c = some u) : rowAnswers (row sq cid) s u := hrow.answers hs h
    obtain ⟨hlow, -⟩ := hrow.bounds
    refine ⟨fun h3 hkind => hanswers (cmdInject_of_otherKind hty h3 hkind), fun hkind hgone => hanswers (cmdInject_of_missing hty hkind hgone),
      fun hthere hbad => hanswers (cmdInject_of_badParam hty hlow hthere hbad), fun hthere hfits => ?_⟩
    have hlegal := cmdInject_of_legal hty hlow hthere hfits
    refine ⟨fun hfar => hanswers ?_, fun hnear hfull => hanswers ?_, fun hnear hroom hsame => hanswers ?_, fun hnear hroom hfree => ?_⟩
    · exact hlegal.trans (if_pos hfar)
    · exact hlegal.trans ((if_neg hnear).trans (if_pos hfull))
    · have hany : t.wh.injs.any (t.injTakes i) = true := List.any_eq_true.mpr (hsame.imp fun x hx => ⟨hx.1, (t.injTakes_iff i x).mpr hx.2⟩)
      exact hlegal.trans ((if_neg hnear).trans ((if_neg (not_le.mpr hroom)).trans (if_pos hany)))
    · have hany : ¬ t.wh.injs.any (t.injTakes i) = true := fun h =>
        have ⟨x, hx, htakes⟩ := List.any_eq_true.mp h
        hfree x hx ((t.injTakes_iff i x).mp htakes)
      have hplaced : rowAnswers (row sq cid) s (t.placeInj i) :=
        hanswers (hlegal.trans ((if_neg hnear).trans ((if_neg (not_le.mpr hroom)).trans (if_neg hany))))
      refine ⟨fun hpos hahead => ?_, fun hpos hty2 hwait => ?_, fun hpos hwait => ?_⟩
      · have hheld : t.placeInj i = held := State.placeInj_of_ahead hpos hahead
        exact hheld ▸ hplaced
      · have hcw : i.ty = 1 ∨ i.ty = 2 := by
          show ty = 1 ∨ ty = 2
          omega
        have hheld : t.placeInj i = held := State.placeInj_of_waiting hcw hpos hwait
        exact hheld ▸ hplaced
      · obtain ⟨u, hu, heffect⟩ := t.placeInj_of_applied (i := i) hrow hpos hthere hwait
        obtain ⟨l, hl⟩ := heffect.events
        refine ⟨u, l, hu ▸ hplaced, congrArg (·.injCount) heffect.wh, ?_, heffect.mem, heffect.cw, heffect.cwSymbols, heffect.cwPoison,
          heffect.sramBits, heffect.pinErrors, heffect.channelHold, heffect.writeHold, heffect.cellDrop, heffect.laneFail, heffect.frameSilence,
          heffect.flitCrc, heffect.sensorFirst, heffect.sensorSecond, heffect.cadenceMask⟩
        rw [hl, State.events_announceInj, List.append_assoc]
        rfl
  · exact ⟨congrArg Host.Outcome.next (injectionApply_of_none hnone), congrArg Host.Outcome.next (injectionApply_of_none hnone)⟩
  · obtain ⟨⟨hmem, hpending, hdue⟩, hfirst⟩ := State.nextInj_spec hnext
    have hstep : injectionApply s = (s.applyInj i).getD s := injectionApply_of_next hnext
    refine ⟨hmem, hpending, hdue, hfirst, fun u hu => ?_, fun hwaits => ?_⟩
    · rw [hu] at hstep
      exact ⟨congrArg Host.Outcome.next hstep, congrArg Host.Outcome.next hstep⟩
    · rw [hwaits] at hstep
      exact ⟨congrArg Host.Outcome.next hstep, congrArg Host.Outcome.next hstep⟩
  · exact congrArg Host.Outcome.next (injectionEnd_of_going hfind hover)
  · exact ⟨_, rfl, injectionEnd_takesAway hfind hover⟩

end Sys2Proof.Machine
end
